-- ==== Sys2Proof/Word.lean ====
section
/-!
DEFINITION. The word types of the FJ8 (spec 00_scope R5: a byte is 8 bits, a half-word 16, a word 32, a double-word 64)
and the operand codes of R232.
-/
namespace Sys2Proof

abbrev Byte := BitVec 8
abbrev Word := BitVec 32
abbrev DWord := BitVec 64
/-- A 72-byte quire image (R213): bits 511:0 the value, bits 575:512 the status word. -/
abbrev Image := BitVec 576
/-- One bit per lane of a tile (R2: 128 lanes). -/
abbrev LaneMask := BitVec 128
/-- The 128 lanes of a vector register, lane L in bits 32 L + 31 : 32 L (R2, R201). -/
abbrev VBits := BitVec 4096
/-- One 128-byte weight line (R161). -/
abbrev Line := BitVec 1024

abbrev SRegNo := BitVec 5
abbrev DNum := BitVec 4
abbrev PNum := BitVec 3
abbrev VNum := BitVec 6
abbrev QNum := BitVec 2
/-- Lane-group mask: bit g selects LGg; 0x00 means LGDEF (R232). -/
abbrev Lgm := BitVec 8
/-- A format code of R200 (posit forms) or of R232 (integer forms). -/
abbrev Fmt := BitVec 4
/-- A condition code of R233. -/
abbrev Cond := BitVec 4
/-- A scope code of R233. -/
abbrev Scope := BitVec 3

/-- Trap causes of the tile (R141). -/
inductive Cause where
  | illegalSyllable | reservedField | slotOverflow | timing | stallShort | poisonConsumed | stackLimit | align
  | space | bounds | format | decompress | shadowMismatch | jetGroup | queueEmpty | syscall | brk | pageDenied
  | access | fabric
  deriving DecidableEq, Repr

/-- The head of a tile syllable (R228): L, STALL, O, PRED and PSNS. CLASS and OPC are the constructor's. -/
structure Head where
  last  : Bool
  stall : BitVec 3
  old   : Bool
  pred  : PNum
  psns  : Bool
  deriving DecidableEq, Repr

/-- Why a start of the module fails before stage 5 (R16, R20): timeLimit names the stage whose limit is exceeded, fatal the
cause and the die of the fatal error. -/
inductive BootFailure where
  | firmwareSignature | benaleSignature | imageDigest | hbmTraining | lpddrTraining | ucieTraining | supply
  | benaleTimeout | thermalTrip
  | timeLimit (stage : BitVec 2)
  | fatal (cause die : BitVec 32)
  deriving DecidableEq, Repr

/-- The defective units of a tile (R139): of its nine lane groups, of its three scalar ALUs, and whether any B, M, L, E or X unit,
the matrix array or the weight buffer is defective. -/
structure Defects where
  lgs   : BitVec 9
  alus  : BitVec 3
  other : Bool
  deriving DecidableEq, Repr

/-- Who reaches into the management window (R14): the host does so through a PCIe function of the host link of a package (R58). -/
inductive MgmtAgent where
  | benale
  | partitionOs (part : BitVec 3)
  | host (package : BitVec 1) (fn : BitVec 2)
  deriving DecidableEq, Repr

/-- What Benale configures for a partition at boot: the fields of the partition record of R82 that a running
partition does not change. -/
structure PartConfig where
  pnum     : Nat
  port     : Nat
  nvport   : Nat
  wings    : BitVec 32
  hbm      : List Nat
  lpd      : List Nat
  nsid     : BitVec 32
  period   : Nat
  hostwin  : Nat
  ownerKey : BitVec 16
  deriving DecidableEq, Repr

end Sys2Proof
end

