-- ==== Sys2Proof/Syntax.lean ====
section
/-!
DEFINITION. The syntax of the FJ8: one constructor of `Instr` for each row of the table of operations and events.
Tile syllables carry their head (11_encoding_syntax R228) and their operand fields (R235 to R245, R242); DLAUNCH and
DEVQ are the two RV64 instructions of a control core (R77); the other constructors are the module's own operations
and events (95_what_each_step_holds), which have no encoding and carry their data as operands.
-/
namespace Sys2Proof

/-- The operations and events of the FJ8. -/
inductive Instr where
  -- tile syllables: class and opcode as R242 gives them
  | add (h : Head) (rd ra rb : SRegNo) -- ADD, class S 0x00
  | sub (h : Head) (rd ra rb : SRegNo) -- SUB, class S 0x01
  | mul (h : Head) (rd ra rb : SRegNo) -- MUL, class S 0x02
  | mulh (h : Head) (rd ra rb : SRegNo) -- MULH, class S 0x03
  | mulhu (h : Head) (rd ra rb : SRegNo) -- MULHU, class S 0x04
  | div (h : Head) (rd ra rb : SRegNo) -- DIV, class S 0x05
  | divu (h : Head) (rd ra rb : SRegNo) -- DIVU, class S 0x06
  | rem (h : Head) (rd ra rb : SRegNo) -- REM, class S 0x07
  | remu (h : Head) (rd ra rb : SRegNo) -- REMU, class S 0x08
  | and (h : Head) (rd ra rb : SRegNo) -- AND, class S 0x09
  | or (h : Head) (rd ra rb : SRegNo) -- OR, class S 0x0A
  | xor (h : Head) (rd ra rb : SRegNo) -- XOR, class S 0x0B
  | andn (h : Head) (rd ra rb : SRegNo) -- ANDN, class S 0x0C
  | shl (h : Head) (rd ra rb : SRegNo) -- SHL, class S 0x0D
  | shr (h : Head) (rd ra rb : SRegNo) -- SHR, class S 0x0E
  | sar (h : Head) (rd ra rb : SRegNo) -- SAR, class S 0x0F
  | rot (h : Head) (rd ra rb : SRegNo) -- ROT, class S 0x10
  | min (h : Head) (rd ra rb : SRegNo) -- MIN, class S 0x11
  | max (h : Head) (rd ra rb : SRegNo) -- MAX, class S 0x12
  | minu (h : Head) (rd ra rb : SRegNo) -- MINU, class S 0x13
  | maxu (h : Head) (rd ra rb : SRegNo) -- MAXU, class S 0x14
  | clz (h : Head) (rd ra : SRegNo) -- CLZ, class S 0x18
  | ctz (h : Head) (rd ra : SRegNo) -- CTZ, class S 0x19
  | popc (h : Head) (rd ra : SRegNo) -- POPC, class S 0x1A
  | mov (h : Head) (rd ra : SRegNo) -- MOV, class S 0x1B
  | addi (h : Head) (rd ra : SRegNo) (imm : BitVec 24) -- ADDI, class S 0x20
  | andi (h : Head) (rd ra : SRegNo) (imm : BitVec 24) -- ANDI, class S 0x21
  | ori (h : Head) (rd ra : SRegNo) (imm : BitVec 24) -- ORI, class S 0x22
  | xori (h : Head) (rd ra : SRegNo) (imm : BitVec 24) -- XORI, class S 0x23
  | shli (h : Head) (rd ra : SRegNo) (imm : BitVec 24) -- SHLI, class S 0x24
  | shri (h : Head) (rd ra : SRegNo) (imm : BitVec 24) -- SHRI, class S 0x25
  | sari (h : Head) (rd ra : SRegNo) (imm : BitVec 24) -- SARI, class S 0x26
  | li (h : Head) (rd : SRegNo) (imm : BitVec 24) -- LI, class S 0x27
  | lih (h : Head) (rd : SRegNo) (imm : BitVec 24) -- LIH, class S 0x28
  | bext (h : Head) (rd ra : SRegNo) (pos len : BitVec 5) -- BEXT, class S 0x2C
  | bins (h : Head) (rd ra : SRegNo) (pos len : BitVec 5) -- BINS, class S 0x2D
  | sel (h : Head) (rd ra rb : SRegNo) (ps : PNum) -- SEL, class S 0x2E
  | cmp (h : Head) (pd : PNum) (ra rb : SRegNo) (cond : Cond) -- CMP, class S 0x30
  | cmpi (h : Head) (pd : PNum) (ra : SRegNo) (cond : Cond) (imm : BitVec 24) -- CMPI, class S 0x31
  | addd (h : Head) (dd da db : DNum) -- ADDD, class S 0x38
  | subd (h : Head) (dd da db : DNum) -- SUBD, class S 0x39
  | adddi (h : Head) (dd da : DNum) (imm : BitVec 24) -- ADDDI, class S 0x3A
  | shld (h : Head) (dd da : DNum) (rb : SRegNo) -- SHLD, class S 0x3B
  | tagd (h : Head) (dd da : DNum) (rs : SRegNo) (fld : BitVec 3) -- TAGD, class S 0x3C
  | tagx (h : Head) (da : DNum) (rs : SRegNo) (fld : BitVec 3) -- TAGX, class S 0x3C
  | pand (h : Head) (pd pa pb : PNum) -- PAND, class S 0x40
  | por (h : Head) (pd pa pb : PNum) -- POR, class S 0x41
  | pxor (h : Head) (pd pa pb : PNum) -- PXOR, class S 0x42
  | pnot (h : Head) (pd pa : PNum) -- PNOT, class S 0x43
  | pmov (h : Head) (pd pa : PNum) -- PMOV, class S 0x44
  | pany (h : Head) (pd pa : PNum) -- PANY, class S 0x45
  | pall (h : Head) (pd pa : PNum) -- PALL, class S 0x46
  | pset (h : Head) (pd : PNum) (lgm : Lgm) -- PSET, class S 0x47
  | pcnt (h : Head) (rd : SRegNo) (pa : PNum) -- PCNT, class S 0x48
  | ppack (h : Head) (vd : VNum) -- PPACK, class X 0x0A
  | punpk (h : Head) (va : VNum) -- PUNPK, class X 0x0B
  | nopb (h : Head) -- NOPB, class B 0x00
  | br (h : Head) (disp : BitVec 30) -- BR, class B 0x01
  | brc (h : Head) (ra rb : SRegNo) (cond : Cond) (disp : BitVec 30) -- BRC, class B 0x02
  | brz (h : Head) (ra : SRegNo) (disp : BitVec 30) -- BRZ, class B 0x03
  | jmp (h : Head) (da : DNum) -- JMP, class B 0x04
  | call (h : Head) (disp : BitVec 30) -- CALL, class B 0x05
  | callr (h : Head) (da : DNum) -- CALLR, class B 0x06
  | ret (h : Head) -- RET, class B 0x07
  | loop (h : Head) (count : BitVec 20) (endDisp : BitVec 24) -- LOOP, class B 0x08
  | loopr (h : Head) (ra : SRegNo) (endDisp : BitVec 24) -- LOOPR, class B 0x09
  | lbrk (h : Head) -- LBRK, class B 0x0A
  | trap (h : Head) (imm : BitVec 16) -- TRAP, class B 0x10
  | sysc (h : Head) (imm : BitVec 16) -- SYSC, class B 0x11
  | eret (h : Head) -- ERET, class B 0x12
  | halt (h : Head) -- HALT, class B 0xFF
  | exit (h : Head) -- EXIT, class B 0x18
  | exits (h : Head) (keepq : Bool) (entry : BitVec 8) -- EXITS, class B 0x19
  | spawn (h : Head) (rd : SRegNo) (da : DNum) -- SPAWN, class B 0x1A
  | bar (h : Head) (gidx : BitVec 8) -- BAR, class B 0x1B
  | waitge (h : Head) (da : DNum) (off : BitVec 24) (scope : Scope) (rs : SRegNo) -- WAITGE, class L 0x10
  | waiteq (h : Head) (da : DNum) (off : BitVec 24) (scope : Scope) (rs : SRegNo) -- WAITEQ, class L 0x11
  | vadd (h : Head) (lgm : Lgm) (fmt : Fmt) (vd va vb : VNum) (ha hb : Bool) -- VADD, class V 0x00
  | vsub (h : Head) (lgm : Lgm) (fmt : Fmt) (vd va vb : VNum) (ha hb : Bool) -- VSUB, class V 0x01
  | vmul (h : Head) (lgm : Lgm) (fmt : Fmt) (vd va vb : VNum) (ha hb : Bool) -- VMUL, class V 0x02
  | vdiv (h : Head) (lgm : Lgm) (fmt : Fmt) (vd va vb : VNum) (ha hb : Bool) -- VDIV, class V 0x06
  | vfma (h : Head) (lgm : Lgm) (fmt : Fmt) (vd va vb vc : VNum) (ha hb hc : Bool) -- VFMA, class V 0x03
  | vfms (h : Head) (lgm : Lgm) (fmt : Fmt) (vd va vb vc : VNum) (ha hb hc : Bool) -- VFMS, class V 0x04
  | vfnma (h : Head) (lgm : Lgm) (fmt : Fmt) (vd va vb vc : VNum) (ha hb hc : Bool) -- VFNMA, class V 0x05
  | vsqrt (h : Head) (lgm : Lgm) (fmt : Fmt) (vd va : VNum) (ha : Bool) -- VSQRT, class V 0x08
  | vrsqrt (h : Head) (lgm : Lgm) (fmt : Fmt) (vd va : VNum) (ha : Bool) -- VRSQRT, class V 0x09
  | vrcp (h : Head) (lgm : Lgm) (fmt : Fmt) (vd va : VNum) (ha : Bool) -- VRCP, class V 0x0A
  | vexp (h : Head) (lgm : Lgm) (fmt : Fmt) (vd va : VNum) (ha : Bool) -- VEXP, class V 0x0B
  | vexp2 (h : Head) (lgm : Lgm) (fmt : Fmt) (vd va : VNum) (ha : Bool) -- VEXP2, class V 0x0C
  | vlog (h : Head) (lgm : Lgm) (fmt : Fmt) (vd va : VNum) (ha : Bool) -- VLOG, class V 0x0D
  | vlog2 (h : Head) (lgm : Lgm) (fmt : Fmt) (vd va : VNum) (ha : Bool) -- VLOG2, class V 0x0E
  | vsin (h : Head) (lgm : Lgm) (fmt : Fmt) (vd va : VNum) (ha : Bool) -- VSIN, class V 0x0F
  | vcos (h : Head) (lgm : Lgm) (fmt : Fmt) (vd va : VNum) (ha : Bool) -- VCOS, class V 0x10
  | vtanh (h : Head) (lgm : Lgm) (fmt : Fmt) (vd va : VNum) (ha : Bool) -- VTANH, class V 0x11
  | vsigm (h : Head) (lgm : Lgm) (fmt : Fmt) (vd va : VNum) (ha : Bool) -- VSIGM, class V 0x12
  | vmin (h : Head) (lgm : Lgm) (fmt : Fmt) (vd va vb : VNum) (ha hb : Bool) -- VMIN, class V 0x14
  | vmax (h : Head) (lgm : Lgm) (fmt : Fmt) (vd va vb : VNum) (ha hb : Bool) -- VMAX, class V 0x15
  | vabs (h : Head) (lgm : Lgm) (fmt : Fmt) (vd va : VNum) (ha : Bool) -- VABS, class V 0x16
  | vneg (h : Head) (lgm : Lgm) (fmt : Fmt) (vd va : VNum) (ha : Bool) -- VNEG, class V 0x17
  | vround (h : Head) (lgm : Lgm) (fmt : Fmt) (vd va : VNum) (ha : Bool) -- VROUND, class V 0x1B
  | vclamp (h : Head) (lgm : Lgm) (fmt : Fmt) (vd va vb vc : VNum) (ha hb hc : Bool) -- VCLAMP, class V 0x1A
  | vcmp (h : Head) (lgm : Lgm) (fmt : Fmt) (pd : PNum) (va vb : VNum) (ha hb : Bool) (cond : Cond) -- VCMP, class V 0x18
  | vsel (h : Head) (lgm : Lgm) (fmt : Fmt) (vd va vb : VNum) (ha hb : Bool) (ps : PNum) -- VSEL, class V 0x19
  | vcvt (h : Head) (lgm : Lgm) (fmt : Fmt) (vd va vs : VNum) (scaled : Bool) (other : BitVec 4) (ha hb : Bool) (kind : BitVec 3) (sel : BitVec 2) -- VCVT, class V 0x20
  | vqnt (h : Head) (lgm : Lgm) (fmt : Fmt) (vd va vs : VNum) (src : BitVec 4) (ha : Bool) (sel : BitVec 2) -- VQNT, class V 0x21
  | vscl (h : Head) (lgm : Lgm) (fmt : Fmt) (vd va vs : VNum) (ha hb : Bool) (sel : BitVec 2) -- VSCL, class V 0x22
  | vred (h : Head) (lgm : Lgm) (fmt : Fmt) (vd va : VNum) (ha : Bool) -- VRED, class V 0x23
  | vmred (h : Head) (lgm : Lgm) (fmt : Fmt) (vd : VNum) (dn dm : DNum) (k : SRegNo) -- VMRED, class V 0x24
  | vmscl (h : Head) (lgm : Lgm) (fmt : Fmt) (vd va vb : VNum) (k : SRegNo) (ha hb : Bool) -- VMSCL, class V 0x25
  | viadd (h : Head) (lgm : Lgm) (fmt : Fmt) (vd va vb : VNum) (ha hb : Bool) -- VIADD, class V 0x40
  | visub (h : Head) (lgm : Lgm) (fmt : Fmt) (vd va vb : VNum) (ha hb : Bool) -- VISUB, class V 0x41
  | vimul (h : Head) (lgm : Lgm) (fmt : Fmt) (vd va vb : VNum) (ha hb : Bool) -- VIMUL, class V 0x42
  | vimin (h : Head) (lgm : Lgm) (fmt : Fmt) (vd va vb : VNum) (ha hb : Bool) -- VIMIN, class V 0x43
  | vimax (h : Head) (lgm : Lgm) (fmt : Fmt) (vd va vb : VNum) (ha hb : Bool) -- VIMAX, class V 0x44
  | vand (h : Head) (lgm : Lgm) (fmt : Fmt) (vd va vb : VNum) (ha hb : Bool) -- VAND, class V 0x45
  | vor (h : Head) (lgm : Lgm) (fmt : Fmt) (vd va vb : VNum) (ha hb : Bool) -- VOR, class V 0x46
  | vxor (h : Head) (lgm : Lgm) (fmt : Fmt) (vd va vb : VNum) (ha hb : Bool) -- VXOR, class V 0x47
  | vnot (h : Head) (lgm : Lgm) (fmt : Fmt) (vd va : VNum) (ha : Bool) -- VNOT, class V 0x48
  | vshl (h : Head) (lgm : Lgm) (fmt : Fmt) (vd va vb : VNum) (ha hb : Bool) -- VSHL, class V 0x49
  | vshr (h : Head) (lgm : Lgm) (fmt : Fmt) (vd va vb : VNum) (ha hb : Bool) -- VSHR, class V 0x4A
  | vsar (h : Head) (lgm : Lgm) (fmt : Fmt) (vd va vb : VNum) (ha hb : Bool) -- VSAR, class V 0x4B
  | vicmp (h : Head) (lgm : Lgm) (fmt : Fmt) (pd : PNum) (va vb : VNum) (ha hb : Bool) (cond : Cond) -- VICMP, class V 0x4C
  | vperm (h : Head) (lgm : Lgm) (vd va vb : VNum) (ha hb : Bool) -- VPERM, class V 0x4D
  | vbcast (h : Head) (lgm : Lgm) (fmt : Fmt) (vd : VNum) (sa : SRegNo) -- VBCAST, class V 0x4E
  | viota (h : Head) (lgm : Lgm) (fmt : Fmt) (vd : VNum) -- VIOTA, class V 0x4F
  | qclr (h : Head) (lgm : Lgm) (q : QNum) -- QCLR, class V 0x60
  | qmac (h : Head) (lgm : Lgm) (fmt : Fmt) (q : QNum) (va vb : VNum) (ha hb : Bool) -- QMAC, class V 0x61
  | qmsb (h : Head) (lgm : Lgm) (fmt : Fmt) (q : QNum) (va vb : VNum) (ha hb : Bool) -- QMSB, class V 0x62
  | qadd (h : Head) (lgm : Lgm) (fmt : Fmt) (q : QNum) (va : VNum) (ha : Bool) -- QADD, class V 0x63
  | qaddq (h : Head) (lgm : Lgm) (qd qa : QNum) -- QADDQ, class V 0x64
  | qrnd (h : Head) (lgm : Lgm) (fmt : Fmt) (vd : VNum) (q : QNum) -- QRND, class V 0x65
  | qneg (h : Head) (lgm : Lgm) (q : QNum) -- QNEG, class V 0x66
  | qst (h : Head) (lgm : Lgm) (vd : VNum) (q : QNum) (hi : Bool) -- QST, class V 0x67
  | qmov (h : Head) (lgm : Lgm) (qd qa : QNum) -- QMOV, class V 0x68
  | jseed (h : Head) (lgm : Lgm) (vd va vb : VNum) (ha hb : Bool) -- JSEED, class V 0x70
  | jget (h : Head) (lgm : Lgm) (fmt : Fmt) (vd va : VNum) (ha fact : Bool) (ci : BitVec 2) -- JGET, class V 0x71
  | jset (h : Head) (lgm : Lgm) (vd va : VNum) (ha : Bool) (ci : BitVec 2) -- JSET, class V 0x72
  | jscale (h : Head) (lgm : Lgm) (fmt : Fmt) (vd va vt : VNum) (ha hb : Bool) -- JSCALE, class V 0x73
  | mpush (h : Head) (lgm : Lgm) (va : VNum) -- MPUSH, class M 0x00
  | mshift (h : Head) -- MSHIFT, class M 0x01
  | macc (h : Head) (fmt : Fmt) (wl : BitVec 11) -- MACC, class M 0x02
  | mdrain (h : Head) (lgm : Lgm) (fmt : Fmt) (vd : VNum) (row : BitVec 5) -- MDRAIN, class M 0x03
  | mclr (h : Head) (row : BitVec 5) (all : Bool) -- MCLR, class M 0x04
  | mspill (h : Head) (row : BitVec 5) (da : DNum) (all : Bool) -- MSPILL, class M 0x05
  | mfill (h : Head) (row : BitVec 5) (da : DNum) (all : Bool) -- MFILL, class M 0x06
  | mstat (h : Head) (sd : SRegNo) -- MSTAT, class M 0x07
  | ld (h : Head) (da : DNum) (off : BitVec 24) (width : BitVec 2) (sx : Bool) (data : VNum) (q : Bool) -- LD, class L 0x00
  | st (h : Head) (da : DNum) (off : BitVec 24) (width : BitVec 2) (data : VNum) -- ST, class L 0x01
  | ldv (h : Head) (da : DNum) (off : BitVec 24) (lgm : Lgm) (data : VNum) (q : Bool) -- LDV, class L 0x02
  | stv (h : Head) (da : DNum) (off : BitVec 24) (lgm : Lgm) (data : VNum) -- STV, class L 0x03
  | ldvs (h : Head) (da : DNum) (off : BitVec 24) (stride : SRegNo) (ew : BitVec 2) (data : VNum) (q : Bool) -- LDVS, class L 0x04
  | stvs (h : Head) (da : DNum) (off : BitVec 24) (stride : SRegNo) (ew : BitVec 2) (data : VNum) -- STVS, class L 0x05
  | ldq (h : Head) (da : DNum) (off : BitVec 24) (lgm : Lgm) (q : QNum) -- LDQ, class L 0x06
  | stq (h : Head) (da : DNum) (off : BitVec 24) (lgm : Lgm) (q : QNum) -- STQ, class L 0x07
  | lda (h : Head) (da : DNum) (off : BitVec 24) (scope : Scope) (width : BitVec 2) (data : VNum) (q : Bool) -- LDA, class L 0x08
  | stl (h : Head) (da : DNum) (off : BitVec 24) (scope : Scope) (width : BitVec 2) (data : VNum) -- STL, class L 0x09
  | amoAdd (h : Head) (da : DNum) (off : BitVec 24) (rd rs : SRegNo) (q : Bool) -- AMO_ADD, class L 0x0A
  | amoAnd (h : Head) (da : DNum) (off : BitVec 24) (rd rs : SRegNo) (q : Bool) -- AMO_AND, class L 0x0A
  | amoOr (h : Head) (da : DNum) (off : BitVec 24) (rd rs : SRegNo) (q : Bool) -- AMO_OR, class L 0x0A
  | amoXor (h : Head) (da : DNum) (off : BitVec 24) (rd rs : SRegNo) (q : Bool) -- AMO_XOR, class L 0x0A
  | amoMin (h : Head) (da : DNum) (off : BitVec 24) (rd rs : SRegNo) (q : Bool) -- AMO_MIN, class L 0x0A
  | amoMax (h : Head) (da : DNum) (off : BitVec 24) (rd rs : SRegNo) (q : Bool) -- AMO_MAX, class L 0x0A
  | amoMaxu (h : Head) (da : DNum) (off : BitVec 24) (rd rs : SRegNo) (q : Bool) -- AMO_MAXU, class L 0x0A
  | amoMinu (h : Head) (da : DNum) (off : BitVec 24) (rd rs : SRegNo) (q : Bool) -- AMO_MINU, class L 0x0A
  | amoXchg (h : Head) (da : DNum) (off : BitVec 24) (rd rs : SRegNo) (q wide : Bool) -- AMO_XCHG, class L 0x0A
  | amoQadd (h : Head) (da : DNum) (off : BitVec 24) (q : QNum) -- AMO_QADD, class L 0x0A
  | amoPadd (h : Head) (da : DNum) (off : BitVec 24) (rd rs : SRegNo) (fmt : Fmt) (q : Bool) -- AMO_PADD, class L 0x0B
  | amocas (h : Head) (da : DNum) (off : BitVec 24) (rd rc rn : SRegNo) (q : Bool) -- AMOCAS, class L 0x0C
  | amocasD (h : Head) (da : DNum) (off : BitVec 24) (rd rc rn : SRegNo) (q : Bool) -- AMOCAS_D, class L 0x0D
  | fence (h : Head) (scope : Scope) -- FENCE, class L 0x18
  | drain (h : Head) -- DRAIN, class L 0x19
  | pref (h : Head) (da : DNum) (off : BitVec 24) -- PREF, class L 0x1A
  | cpy (h : Head) (eq : QNum) (start : BitVec 12) (dst src : DNum) (len : SRegNo) -- CPY, class E 0x00
  | gth (h : Head) (eq : QNum) (start : BitVec 12) (dst base : DNum) (idx : VNum) (count : SRegNo) (esz : BitVec 2) -- GTH, class E 0x01
  | sct (h : Head) (eq : QNum) (start : BitVec 12) (dst base : DNum) (idx : VNum) (count : SRegNo) (esz : BitVec 2) -- SCT, class E 0x02
  | wld (h : Head) (eq : QNum) (start : BitVec 12) (src : DNum) (line count : SRegNo) -- WLD, class E 0x03
  | rwr (h : Head) (eq : QNum) (start : BitVec 12) (dst src : DNum) (len : SRegNo) (flag : DNum) (lossy : Bool) (mask : DNum) -- RWR, class E 0x04
  | rwg (h : Head) (eq : QNum) (start : BitVec 12) (dst src : DNum) (len : SRegNo) (flag : DNum) (lossy : Bool) (mask : DNum) -- RWG, class E 0x05
  | rrd (h : Head) (eq : QNum) (start : BitVec 12) (src : DNum) (rq : QNum) (len : SRegNo) -- RRD, class E 0x06
  | collGrp (h : Head) (eq : QNum) (start : BitVec 12) (dst src : DNum) (len : SRegNo) (flag : DNum) (grp : SRegNo) -- COLL_GRP, class E 0x07
  | collMod (h : Head) (eq : QNum) (start : BitVec 12) (dst src : DNum) (len : SRegNo) (flag : DNum) (grp : SRegNo) -- COLL_MOD, class E 0x07
  | collLossy (h : Head) (eq : QNum) (start : BitVec 12) (dst src : DNum) (len : SRegNo) (flag : DNum) (grp : SRegNo) -- COLL_LOSSY, class E 0x07
  | qfence (h : Head) (start : BitVec 12) (qmask : BitVec 4) -- QFENCE, class E 0x08
  | eclose (h : Head) -- ECLOSE, class E 0x10
  | ewait (h : Head) (n : BitVec 8) -- EWAIT, class E 0x11
  | estat (h : Head) (eq : QNum) (rd : SRegNo) -- ESTAT, class E 0x12
  | popW (h : Head) (d : VNum) (rq : QNum) (kind : BitVec 2) -- POP_W, class X 0x00
  | popF (h : Head) (d : VNum) (rq : QNum) (kind : BitVec 2) (pn : PNum) -- POP_F, class X 0x00
  | pack (h : Head) (fmt : Fmt) (vd va vb : VNum) (src : BitVec 4) -- PACK, class X 0x01
  | unpk (h : Head) (fmt : Fmt) (vd va vs : VNum) (sel : BitVec 2) (scaled : Bool) (src : BitVec 4) -- UNPK, class X 0x02
  | xlg (h : Head) (lgm : Lgm) (vd va : VNum) (bcast : Bool) (rot : BitVec 3) -- XLG, class X 0x03
  | chk (h : Head) (lgm : Lgm) (va : VNum) -- CHK, class X 0x04
  | movv (h : Head) (lgm : Lgm) (vd va : VNum) -- MOVV, class X 0x05
  | movs (h : Head) (sd : SRegNo) (va : VNum) (lane : BitVec 7) -- MOVS, class X 0x06
  | getc (h : Head) (sd : SRegNo) (idx : BitVec 8) -- GETC, class X 0x07
  | setc (h : Head) (sa : SRegNo) (idx : BitVec 8) -- SETC, class X 0x08
  | feat (h : Head) (sd : SRegNo) (n : BitVec 12) -- FEAT, class X 0x09
  | rep (h : Head) (cnt : BitVec 6) (str : Bool) (step : BitVec 28) -- REP, class P 0x00
  | ext (h : Head) (value : BitVec 32) -- EXT, class P 0x01
  -- the control core and the module
  /-- DLAUNCH. R77, R78. -/
  | dlaunch (rd rs1 : BitVec 5)
  /-- DEVQ. R77, R79. -/
  | devq (rd rs1 : BitVec 5)
  /-- MODULE_START. R15, R16, R18: the module starts. The data are what the boot stages find outside the model: the first check that fails, the digests of the two images, the defective units of the tiles that have any, the counts of the sixteen process monitors of each die, and the partition configuration that Benale holds. -/
  | moduleStart (failing : Option BootFailure) (fwDigest benaleDigest : BitVec 512) (defects : List (Nat × Defects)) (process : Vector (BitVec 16) 128) (parts : List PartConfig)
  /-- STAGE_TIME_LIMIT. R16: a boot stage exceeds its time limit. -/
  | stageTimeLimit
  /-- IMAGE_CHECK_REQUEST. R15 stage 4, R17: Firefly checks a partition image; verdict is the outcome of the digest and signature check (0 accepted, 1 signature invalid, 2 digest mismatch). -/
  | imageCheckRequest (part : BitVec 3) (digest : BitVec 512) (verdict : BitVec 2)
  /-- ATTESTATION_LOG_REQUEST. R17. -/
  | attestationLogRequest (nonce : BitVec 256)
  /-- BOOT_COMPLETE. R15, R18: Benale reports boot complete. -/
  | bootComplete
  /-- START. R18: the host writes the full-start request register. -/
  | start (value : BitVec 32)
  /-- HOSTATTN. R61: the host writes HOSTATTN of a function. -/
  | hostattn (part : BitVec 3) (value : BitVec 32)
  /-- DUMPVALID_RELEASE. R19, R25: a write to BOOTSTAT, whose DUMPVALID bit is W1C. -/
  | dumpvalidRelease (value : BitVec 32)
  /-- REGISTER_WRITE. R8, R14: a write into the management window. -/
  | registerWrite (agent : MgmtAgent) (offset : BitVec 16) (value : BitVec 64)
  /-- DROOP_READ. R23: a read of a droop monitor word; present is the voltage of that moment in mV. -/
  | droopRead (die : BitVec 3) (j : BitVec 5) (present : BitVec 16)
  /-- SENSOR_SAMPLE. R23, R24: a sensor takes a new value. -/
  | sensorSample (die : BitVec 3) (kind : BitVec 2) (idx : BitVec 6) (value : BitVec 16)
  /-- DROOP_ALARM. R24. -/
  | droopAlarm (die : BitVec 3) (j : BitVec 5) (mv : BitVec 16)
  /-- DROOP_FATAL. R24. -/
  | droopFatal (die : BitVec 3) (j : BitVec 5) (mv : BitVec 16)
  /-- FATAL_ERROR. R25, R26. -/
  | fatalError (cause die : BitVec 32)
  /-- BENALE_PANIC. R26. -/
  | benalePanic
  /-- FIREFLY_WATCHDOG. R25. -/
  | fireflyWatchdog
  /-- DUMP_DONE. R26. -/
  | dumpDone
  /-- MODULE_RESET. R19. -/
  | moduleReset
  /-- POWER_OFF. R19. -/
  | powerOff
  /-- GRENZOR_LOAD. R62 to R75: the OS of a partition asks for the image of len bytes at an offset of its host window. -/
  | grenzorLoad (part : BitVec 3) (off len : Nat) (demandSig : Bool)
  /-- UNLOAD. R75. -/
  | unload (part : BitVec 3) (handle : BitVec 64)
  /-- PARTITION_RESET. R85. -/
  | partitionReset (part : BitVec 3)
  /-- PARTITION_REBOOT. R85 step 6. -/
  | partitionReboot (part : BitVec 3)
  /-- RELEASE. R86 step 2: the wing and the released frames, each a physical byte address and a length in bytes. -/
  | release (wing : BitVec 5) (frames : List (Nat × Nat))
  /-- ASSIGN. R86 step 5. -/
  | assign (wing : BitVec 5) (part : BitVec 3)
  /-- CORE_ONLINE. R86 step 6. -/
  | coreOnline (wing : BitVec 5)
  /-- CORE_OFFLINE. R86 step 1. -/
  | coreOffline (wing : BitVec 5)
  /-- TERMITE_UNIT. R21, R88. -/
  | termiteUnit (wing : BitVec 5)
  /-- TERMITE_KEY_SLOTS. R88. -/
  | termiteKeySlots (wing : BitVec 5)
  /-- VDCFG. R90, R91. -/
  | vdcfg (part : BitVec 3) (vd weight quantum priomax enable : Nat)
  /-- REFILL. R92. -/
  | refill (part : BitVec 3)
  /-- DISPATCH_SELECT. R103 to R105, R118: the dispatcher of a die selects; bases are the allocation bases (bytes) it chooses. -/
  | dispatchSelect (die : BitVec 3) (bases : List Nat)
  /-- SWARM_COMPLETE. R109. -/
  | swarmComplete (part : BitVec 3) (handle : BitVec 32)
  /-- EVENT_POST. R79: the oldest record kept for a core enters its queue. -/
  | eventPost (wing : BitVec 5)
  /-- QUANTUM_EXPIRY. R111. -/
  | quantumExpiry (tile : BitVec 10) (slot : BitVec 2)
  /-- WAIT_QUANTUM_EXPIRY. R111. -/
  | waitQuantumExpiry (tile : BitVec 10) (slot : BitVec 2)
  /-- PREEMPT_REQUEST. R111. -/
  | preemptRequest (part : BitVec 3) (wings : BitVec 32)
  /-- HARD_STOP. R112 to R116. -/
  | hardStop (tile : BitVec 10) (slot : BitVec 2)
  /-- PREEMPT_4096_EXPIRY. R112. -/
  | preempt4096Expiry (tile : BitVec 10) (slot : BitVec 2)
  /-- WAIT_YIELD. R107. -/
  | waitYield (tile : BitVec 10)
  /-- DEBUG_RESUME. R269. -/
  | debugResume (tile : BitVec 10) (slot : BitVec 2)
  /-- ENGINE_COMMAND_START. R134, R135: the oldest waiting command of the context meets its start cycle. -/
  | engineCommandStart (tile : BitVec 10) (slot : BitVec 2)
  /-- ENGINE_COMMAND_COMPLETE. R182 to R184, R339: the command at the head of an engine queue finishes performing. -/
  | engineCommandComplete (tile : BitVec 10) (slot eq : BitVec 2)
  /-- TRANSFER_CLOSE. R343, R41: a remote write is closed and stamped. -/
  | transferClose (tile : BitVec 10) (slot eq : BitVec 2)
  /-- REPLY_ARRIVAL. R132: the reply of a request reaches the tile. -/
  | replyArrival (id : Nat)
  /-- STORE_ACK. R167, R177: the acknowledgement or denial of a request reaches the tile. -/
  | storeAck (id : Nat)
  /-- WAIT_CONDITION_MET. R276. -/
  | waitConditionMet (tile : BitVec 10) (slot : BitVec 2)
  /-- BAR_LEAVE. R273, R274. -/
  | barLeave (tile : BitVec 10) (slot : BitVec 2)
  /-- REMOTE_ACCESS_ARRIVAL. R155, R159, R160. -/
  | remoteAccessArrival (id : Nat)
  /-- MEMSIDE_ACCESS. R162, R163. -/
  | memsideAccess (id : Nat)
  /-- TLB_INVALIDATE. R165. -/
  | tlbInvalidate (part : BitVec 3) (die : BitVec 3) (lo hi : Nat)
  /-- MIGRATE. R168 to R170: the page at offset va of the die, of the size of a level, to the target tier and FRAME field. -/
  | migrate (part : BitVec 3) (die : BitVec 3) (va level : Nat) (tier : BitVec 2) (frame : BitVec 36)
  /-- MIGRATION_COPY_DONE. R169 step 4. -/
  | migrationCopyDone (part : BitVec 3) (die : BitVec 3) (va : Nat)
  /-- MIGRATION_SWITCH. R169 step 5. -/
  | migrationSwitch (part : BitVec 3) (die : BitVec 3) (va : Nat)
  /-- PIN_EXPIRY. R170. -/
  | pinExpiry (part : BitVec 3) (die : BitVec 3) (va : Nat)
  /-- WINDOW_START. R30 to R36: the next rotor window begins and every port sends. -/
  | windowStart
  /-- FLIT_RECEIVE. R37 to R40: a flit reaches a port. -/
  | flitReceive (port : BitVec 3) (peer : BitVec 8) (flit : BitVec 608)
  /-- NAK. R40. -/
  | nak (port : BitVec 3) (peer : BitVec 8) (seq : BitVec 31)
  /-- ACK. R40: seq is the first sequence number not acknowledged. -/
  | ack (port : BitVec 3) (peer : BitVec 8) (seq : BitVec 31)
  /-- CREDIT_RETURN. R36. -/
  | creditReturn (port : BitVec 3) (peer : BitVec 8) (blocks : Nat)
  /-- DOWN_MAP_UPDATE. R55: the meeting of a module with the module at a meeting index goes down or up. -/
  | downMapUpdate (port : BitVec 3) (owner : BitVec 8) (meeting : BitVec 8) (down : Bool)
  /-- DOWN_MAP_EFFECT. R55. -/
  | downMapEffect (port : BitVec 3)
  /-- PORT_RESET_NOTICE. R48. -/
  | portResetNotice (port : BitVec 3) (peer : BitVec 8)
  /-- DISCARD_NOTICE. R46. -/
  | discardNotice (port : BitVec 3) (src : BitVec 8) (xfer : BitVec 12) (block : BitVec 20) (type : BitVec 4)
  /-- REMOTE_WRITE_REQUEST. R42, R50. -/
  | remoteWriteRequest (port : BitVec 3)
  /-- LOSSY_WRITE_REQUEST. R43, R44, R50. -/
  | lossyWriteRequest (port : BitVec 3)
  /-- DATA_BLOCK_ARRIVAL. R42 to R44. -/
  | dataBlockArrival (port : BitVec 3)
  /-- FLAG_INCREMENT. R42, R43, R45, R185. -/
  | flagIncrement (port : BitVec 3) (src : BitVec 8) (xfer : BitVec 12)
  /-- LOSSY_DEADLINE. R43. -/
  | lossyDeadline (port : BitVec 3) (src : BitVec 8) (xfer : BitVec 12)
  /-- HELD_BLOCK_EXPIRY. R44. -/
  | heldBlockExpiry (port : BitVec 3) (src : BitVec 8) (xfer : BitVec 12)
  /-- STORE_WRITE. R371. -/
  | storeWrite (port : BitVec 3)
  /-- REMOTE_LOAD. R47. -/
  | remoteLoad (port : BitVec 3)
  /-- REMOTE_ATOMIC. R47, R48. -/
  | remoteAtomic (port : BitVec 3)
  /-- WATCH. R370. -/
  | watch (port : BitVec 3)
  /-- WATCH_SATISFIED. R370. -/
  | watchSatisfied (port : BitVec 3) (src : BitVec 8) (srctile : BitVec 16)
  /-- COMPLETION_REPLY. R42, R371. -/
  | completionReply (port : BitVec 3)
  /-- VERDICT. R43. -/
  | verdict (port : BitVec 3)
  /-- RESEND_TIMEOUT. R49. -/
  | resendTimeout (port : BitVec 3) (xfer : BitVec 12)
  /-- PEER_LEAVE. R56. -/
  | peerLeave (port : BitVec 3) (peer : BitVec 8)
  /-- RECALL_AUTO_ACK. R56. -/
  | recallAutoAck (port : BitVec 3) (peer : BitVec 8)
  /-- GRANT_HANDOFF. R51, R52. -/
  | grantHandoff (port : BitVec 3) (importer : BitVec 8) (record : BitVec 512)
  /-- GRANT. R52. -/
  | grant (port : BitVec 3)
  /-- RECALL. R53. -/
  | grantRecall (port : BitVec 3)
  /-- RECALL_ACK. R53. -/
  | recallAck (port : BitVec 3)
  /-- FABTEST_ARM. R57. -/
  | fabtestArm (tile : BitVec 10) (value : BitVec 32)
  /-- QCFG_ARM. R311. -/
  | qcfgArm (tile : BitVec 10) (value : BitVec 64)
  /-- POP_W_TIMEOUT. R133. -/
  | popWTimeout (tile : BitVec 10) (slot : BitVec 2)
  /-- SAVE_COMPLETE. R117. -/
  | saveComplete (tile : BitVec 10) (slot : BitVec 2)
  /-- RESTORE_COMPLETE. R117, R118. -/
  | restoreComplete (tile : BitVec 10) (slot : BitVec 2)
  /-- MESH_SLOT. R369: the slot of a request or reply has come and it crosses its route. -/
  | meshSlot (id : Nat)
  /-- HOSTATTN_CODE_READ. R61. -/
  | hostattnCodeRead (part : BitVec 3)
  deriving DecidableEq, Repr

end Sys2Proof
end

