-- ==== Sys2Proof/Machine/Static.lean ====
section
/-!
DEFINITION. The checks on a syllable that depend on its bits alone: which static faults its fields raise
(R228 to R245: reserved codes, ranges, odd pair numbers; R200, R232: format codes), and which rows a syllable belongs to.
-/
namespace Sys2Proof.Machine
open Sys2Proof

/-- Elements per 32-bit lane of a format code (R201, R278); 0 for the unassigned code 0x3. -/
def fmtElems (f : Fmt) : Nat :=
  if f.toNat < 3 then 1 else if f.toNat = 3 then 0 else if f.toNat < 8 then 2 else if f.toNat < 12 then 4
  else if f.toNat < 14 then 5 else 8

/-- LGM has exactly one bit set (R314, R320). -/
def lgmOneBit (m : Lgm) : Bool := (List.range 8).any (fun g => m.toNat == 2 ^ g)

/-- QMASK names at least two queues (R240). -/
def qmaskAtLeastTwo (m : BitVec 4) : Bool :=
  2 ≤ ((List.range 4).filter (fun k => m.getLsbD k)).length

/-- The legal pairs of PACK (R306): p_t at least twice p_s, with T32, T16 and T8 sources and, of these pairs, only
those the rule lists. -/
def packLegal (target src : Fmt) : Bool :=
  (src.toNat < 3 && 3 < target.toNat) || (4 ≤ src.toNat && src.toNat < 8 && 8 ≤ target.toNat)
    || (8 ≤ src.toNat && src.toNat < 12 && 14 ≤ target.toNat)

/-- UNPK (R307): an arithmetic target and a source whose element count is at least the target's. -/
def unpkLegal (target src : Fmt) : Bool :=
  target.toNat != 3 && target.toNat < 12 && src.toNat != 3 && fmtElems target ≤ fmtElems src

/-- Faults of the head: PRED 0 with PSNS 1 is reserved (R230); O is reserved where the format has no first source
(R231). -/
def headFaults (h : Head) (hasFirstSource : Bool) : List Cause :=
  (if h.pred = 0 ∧ h.psns then [.reservedField] else []) ++
  (if h.old ∧ !hasFirstSource then [.reservedField] else [])

/-- Faults of a P-class head: PRED and PSNS are zero (R230), O is reserved (R231), and a prefix with L = 1 is illegal
(R243, R245). -/
def prefixFaults (h : Head) : List Cause :=
  (if h.pred ≠ 0 ∨ h.psns ∨ h.old then [.reservedField] else []) ++ (if h.last then [.illegalSyllable] else [])

/-- A cause when a condition holds. -/
def faultIf (c : Bool) (k : Cause) : List Cause := if c then [k] else []

/-- The static faults of a syllable, in no order; a module event and a control-core instruction have none. -/
def staticFaults : Instr → List Cause
  | .moduleStart _ _ _ _ _ _ => []
  | .stageTimeLimit => []
  | .imageCheckRequest _ _ _ => []
  | .attestationLogRequest _ => []
  | .bootComplete => []
  | .start _ => []
  | .hostattn _ _ => []
  | .dumpvalidRelease _ => []
  | .registerWrite _ _ _ => []
  | .droopRead _ _ _ => []
  | .sensorSample _ _ _ _ => []
  | .droopAlarm _ _ _ => []
  | .droopFatal _ _ _ => []
  | .fatalError _ _ => []
  | .benalePanic => []
  | .fireflyWatchdog => []
  | .dumpDone => []
  | .moduleReset => []
  | .powerOff => []
  | .grenzorLoad _ _ _ _ => []
  | .unload _ _ => []
  | .partitionReset _ => []
  | .partitionReboot _ => []
  | .release _ _ => []
  | .assign _ _ => []
  | .coreOnline _ => []
  | .coreOffline _ => []
  | .termiteUnit _ => []
  | .termiteKeySlots _ => []
  | .vdcfg _ _ _ _ _ _ => []
  | .refill _ => []
  | .dispatchSelect _ _ => []
  | .swarmComplete _ _ => []
  | .eventPost _ => []
  | .quantumExpiry _ _ => []
  | .waitQuantumExpiry _ _ => []
  | .preemptRequest _ _ => []
  | .hardStop _ _ => []
  | .preempt4096Expiry _ _ => []
  | .waitYield _ => []
  | .debugResume _ _ => []
  | .engineCommandStart _ _ => []
  | .engineCommandComplete _ _ _ => []
  | .transferClose _ _ _ => []
  | .replyArrival _ => []
  | .storeAck _ => []
  | .waitConditionMet _ _ => []
  | .barLeave _ _ => []
  | .remoteAccessArrival _ => []
  | .memsideAccess _ => []
  | .tlbInvalidate _ _ _ _ => []
  | .migrate _ _ _ _ _ _ => []
  | .migrationCopyDone _ _ _ => []
  | .migrationSwitch _ _ _ => []
  | .pinExpiry _ _ _ => []
  | .windowStart => []
  | .flitReceive _ _ _ => []
  | .nak _ _ _ => []
  | .ack _ _ _ => []
  | .creditReturn _ _ _ => []
  | .downMapUpdate _ _ _ _ => []
  | .downMapEffect _ => []
  | .portResetNotice _ _ => []
  | .discardNotice _ _ _ _ _ => []
  | .remoteWriteRequest _ => []
  | .lossyWriteRequest _ => []
  | .dataBlockArrival _ => []
  | .flagIncrement _ _ _ => []
  | .lossyDeadline _ _ _ => []
  | .heldBlockExpiry _ _ _ => []
  | .storeWrite _ => []
  | .remoteLoad _ => []
  | .remoteAtomic _ => []
  | .watch _ => []
  | .watchSatisfied _ _ _ => []
  | .completionReply _ => []
  | .verdict _ => []
  | .resendTimeout _ _ => []
  | .peerLeave _ _ => []
  | .recallAutoAck _ _ => []
  | .grantHandoff _ _ _ => []
  | .grant _ => []
  | .grantRecall _ => []
  | .recallAck _ => []
  | .fabtestArm _ _ => []
  | .qcfgArm _ _ => []
  | .dlaunch _ _ => []
  | .devq _ _ => []
  | .add h _ _ _ => headFaults h true
  | .sub h _ _ _ => headFaults h true
  | .mul h _ _ _ => headFaults h true
  | .mulh h _ _ _ => headFaults h true
  | .mulhu h _ _ _ => headFaults h true
  | .div h _ _ _ => headFaults h true
  | .divu h _ _ _ => headFaults h true
  | .rem h _ _ _ => headFaults h true
  | .remu h _ _ _ => headFaults h true
  | .and h _ _ _ => headFaults h true
  | .or h _ _ _ => headFaults h true
  | .xor h _ _ _ => headFaults h true
  | .andn h _ _ _ => headFaults h true
  | .shl h _ _ _ => headFaults h true
  | .shr h _ _ _ => headFaults h true
  | .sar h _ _ _ => headFaults h true
  | .rot h _ _ _ => headFaults h true
  | .min h _ _ _ => headFaults h true
  | .max h _ _ _ => headFaults h true
  | .minu h _ _ _ => headFaults h true
  | .maxu h _ _ _ => headFaults h true
  | .clz h _ _ => headFaults h true
  | .ctz h _ _ => headFaults h true
  | .popc h _ _ => headFaults h true
  | .mov h _ _ => headFaults h true
  | .addi h _ _ _ => headFaults h true
  | .andi h _ _ _ => headFaults h true
  | .ori h _ _ _ => headFaults h true
  | .xori h _ _ _ => headFaults h true
  | .shli h _ _ imm => headFaults h true ++ faultIf (imm.toNat > 31) .reservedField
  | .shri h _ _ imm => headFaults h true ++ faultIf (imm.toNat > 31) .reservedField
  | .sari h _ _ imm => headFaults h true ++ faultIf (imm.toNat > 31) .reservedField
  | .li h _ _ => headFaults h false
  | .lih h _ imm => headFaults h false ++ faultIf (imm.toNat > 0xFFFF) .reservedField
  | .bext h _ _ pos len => headFaults h true ++ faultIf (pos.toNat + len.toNat + 1 > 32) .reservedField
  | .bins h _ _ pos len => headFaults h true ++ faultIf (pos.toNat + len.toNat + 1 > 32) .reservedField
  | .sel h _ _ _ _ => headFaults h true
  | .cmp h _ _ _ cond => headFaults h true ++ faultIf (cond.toNat > 9) .reservedField
  | .cmpi h _ _ cond _ => headFaults h true ++ faultIf (cond.toNat > 9) .reservedField
  | .addd h _ _ _ => headFaults h true
  | .subd h _ _ _ => headFaults h true
  | .adddi h _ _ _ => headFaults h true
  | .shld h _ _ _ => headFaults h true
  | .tagd h _ _ _ fld => headFaults h true ++ faultIf (fld = 7) .reservedField
  | .tagx h _ _ fld => headFaults h true ++ faultIf (fld = 7) .reservedField
  | .pand h _ _ _ => headFaults h true
  | .por h _ _ _ => headFaults h true
  | .pxor h _ _ _ => headFaults h true
  | .pnot h _ _ => headFaults h true
  | .pmov h _ _ => headFaults h true
  | .pany h _ _ => headFaults h true
  | .pall h _ _ => headFaults h true
  | .pset h _ _ => headFaults h false
  | .pcnt h _ _ => headFaults h true
  | .ppack h _ => headFaults h false
  | .punpk h _ => headFaults h true
  | .nopb h => headFaults h false
  | .br h _ => headFaults h false
  | .brc h _ _ cond _ => headFaults h true ++ faultIf (cond.toNat > 9) .reservedField
  | .brz h _ _ => headFaults h true
  | .jmp h _ => headFaults h true
  | .call h _ => headFaults h false
  | .callr h _ => headFaults h true
  | .ret h => headFaults h false
  | .loop h count endDisp => headFaults h false ++ faultIf (count = 0) .reservedField ++ faultIf (endDisp.toInt < 1) .reservedField
  | .loopr h _ endDisp => headFaults h true ++ faultIf (endDisp.toInt < 1) .reservedField
  | .lbrk h => headFaults h false
  | .trap h _ => headFaults h false
  | .sysc h _ => headFaults h false
  | .eret h => headFaults h false
  | .halt h => headFaults h false
  | .exit h => headFaults h false
  | .exits h _ _ => headFaults h false
  | .spawn h rd _ => headFaults h true ++ faultIf (rd.toNat % 2 = 1) .illegalSyllable
  | .bar h _ => headFaults h false
  | .waitge h _ _ scope _ => headFaults h true ++ faultIf (scope.toNat > 5) .reservedField
  | .waiteq h _ _ scope _ => headFaults h true ++ faultIf (scope.toNat > 5) .reservedField
  | .vadd h _ fmt _ _ _ _ _ => headFaults h true ++ faultIf (fmt.toNat = 3 || fmt.toNat > 11) .format
  | .vsub h _ fmt _ _ _ _ _ => headFaults h true ++ faultIf (fmt.toNat = 3 || fmt.toNat > 11) .format
  | .vmul h _ fmt _ _ _ _ _ => headFaults h true ++ faultIf (fmt.toNat = 3 || fmt.toNat > 11) .format
  | .vdiv h _ fmt _ _ _ _ _ => headFaults h true ++ faultIf (fmt.toNat = 3 || fmt.toNat > 11) .format
  | .vfma h _ fmt _ _ _ _ _ _ _ => headFaults h true ++ faultIf (fmt.toNat = 3 || fmt.toNat > 11) .format
  | .vfms h _ fmt _ _ _ _ _ _ _ => headFaults h true ++ faultIf (fmt.toNat = 3 || fmt.toNat > 11) .format
  | .vfnma h _ fmt _ _ _ _ _ _ _ => headFaults h true ++ faultIf (fmt.toNat = 3 || fmt.toNat > 11) .format
  | .vsqrt h _ fmt _ _ _ => headFaults h true ++ faultIf (fmt.toNat = 3 || fmt.toNat > 11) .format
  | .vrsqrt h _ fmt _ _ _ => headFaults h true ++ faultIf (fmt.toNat = 3 || fmt.toNat > 11) .format
  | .vrcp h _ fmt _ _ _ => headFaults h true ++ faultIf (fmt.toNat = 3 || fmt.toNat > 11) .format
  | .vexp h _ fmt _ _ _ => headFaults h true ++ faultIf (fmt.toNat = 3 || fmt.toNat > 11) .format
  | .vexp2 h _ fmt _ _ _ => headFaults h true ++ faultIf (fmt.toNat = 3 || fmt.toNat > 11) .format
  | .vlog h _ fmt _ _ _ => headFaults h true ++ faultIf (fmt.toNat = 3 || fmt.toNat > 11) .format
  | .vlog2 h _ fmt _ _ _ => headFaults h true ++ faultIf (fmt.toNat = 3 || fmt.toNat > 11) .format
  | .vsin h _ fmt _ _ _ => headFaults h true ++ faultIf (fmt.toNat = 3 || fmt.toNat > 11) .format
  | .vcos h _ fmt _ _ _ => headFaults h true ++ faultIf (fmt.toNat = 3 || fmt.toNat > 11) .format
  | .vtanh h _ fmt _ _ _ => headFaults h true ++ faultIf (fmt.toNat = 3 || fmt.toNat > 11) .format
  | .vsigm h _ fmt _ _ _ => headFaults h true ++ faultIf (fmt.toNat = 3 || fmt.toNat > 11) .format
  | .vmin h _ fmt _ _ _ _ _ => headFaults h true ++ faultIf (fmt.toNat = 3 || fmt.toNat > 11) .format
  | .vmax h _ fmt _ _ _ _ _ => headFaults h true ++ faultIf (fmt.toNat = 3 || fmt.toNat > 11) .format
  | .vabs h _ fmt _ _ _ => headFaults h true ++ faultIf (fmt.toNat = 3 || fmt.toNat > 11) .format
  | .vneg h _ fmt _ _ _ => headFaults h true ++ faultIf (fmt.toNat = 3 || fmt.toNat > 11) .format
  | .vround h _ fmt _ _ _ => headFaults h true ++ faultIf (fmt.toNat = 3 || fmt.toNat > 11) .format
  | .vclamp h _ fmt _ _ _ _ _ _ _ => headFaults h true ++ faultIf (fmt.toNat = 3 || fmt.toNat > 11) .format
  | .vcmp h _ fmt _ _ _ _ _ cond => headFaults h true ++ faultIf (fmt.toNat = 3 || fmt.toNat > 11) .format ++ faultIf (cond.toNat > 5) .reservedField
  | .vsel h _ fmt _ _ _ _ _ _ => headFaults h true ++ faultIf (fmt.toNat = 3 || fmt.toNat > 11) .format
  | .vcvt h _ fmt _ _ vs scaled other _ hb kind sel => headFaults h true ++ faultIf (kind.toNat = 7) .reservedField ++ faultIf (scaled && (kind.toNat = 3 || kind.toNat = 4 || kind.toNat = 6)) .reservedField ++ faultIf (!scaled && (vs.toNat != 0 || sel.toNat != 0 || hb)) .reservedField ++ faultIf (1 ≤ kind.toNat && kind.toNat ≤ 4 && other.toNat != 0) .reservedField ++ faultIf (5 ≤ kind.toNat && kind.toNat ≤ 6 && other.toNat > 1) .reservedField ++ faultIf (kind.toNat = 0 && (fmt.toNat = 3 || other.toNat = 3)) .format ++ faultIf (kind.toNat != 0 && (fmt.toNat = 3 || fmt.toNat > 11)) .format
  | .vqnt h _ fmt vd _ vs src _ _ => headFaults h true ++ faultIf (fmt.toNat = 3 || src.toNat = 3 || src.toNat > 11) .format ++ faultIf (!(fmt.toNat = 3 || src.toNat = 3 || src.toNat > 11) && fmtElems fmt % fmtElems src != 0) .format ++ faultIf (vs = vd) .illegalSyllable
  | .vscl h _ fmt _ _ _ _ _ _ => headFaults h true ++ faultIf (fmt.toNat = 3 || fmt.toNat > 11) .format
  | .vred h _ fmt _ _ _ => headFaults h true ++ faultIf (fmt.toNat = 3 || fmt.toNat > 11) .format
  | .vmred h _ fmt _ _ _ _ => headFaults h true ++ faultIf (fmt.toNat = 3 || fmt.toNat > 11) .format
  | .vmscl h _ fmt _ _ _ _ _ _ => headFaults h true ++ faultIf (fmt.toNat = 3 || fmt.toNat > 11) .format
  | .viadd h _ fmt _ _ _ _ _ => headFaults h true ++ faultIf (!(fmt.toNat = 0 || fmt.toNat = 4 || fmt.toNat = 8)) .format
  | .visub h _ fmt _ _ _ _ _ => headFaults h true ++ faultIf (!(fmt.toNat = 0 || fmt.toNat = 4 || fmt.toNat = 8)) .format
  | .vimul h _ fmt _ _ _ _ _ => headFaults h true ++ faultIf (!(fmt.toNat = 0 || fmt.toNat = 4 || fmt.toNat = 8)) .format
  | .vimin h _ fmt _ _ _ _ _ => headFaults h true ++ faultIf (!(fmt.toNat = 0 || fmt.toNat = 4 || fmt.toNat = 8)) .format
  | .vimax h _ fmt _ _ _ _ _ => headFaults h true ++ faultIf (!(fmt.toNat = 0 || fmt.toNat = 4 || fmt.toNat = 8)) .format
  | .vand h _ fmt _ _ _ _ _ => headFaults h true ++ faultIf (!(fmt.toNat = 0 || fmt.toNat = 4 || fmt.toNat = 8)) .format
  | .vor h _ fmt _ _ _ _ _ => headFaults h true ++ faultIf (!(fmt.toNat = 0 || fmt.toNat = 4 || fmt.toNat = 8)) .format
  | .vxor h _ fmt _ _ _ _ _ => headFaults h true ++ faultIf (!(fmt.toNat = 0 || fmt.toNat = 4 || fmt.toNat = 8)) .format
  | .vnot h _ fmt _ _ _ => headFaults h true ++ faultIf (!(fmt.toNat = 0 || fmt.toNat = 4 || fmt.toNat = 8)) .format
  | .vshl h _ fmt _ _ _ _ _ => headFaults h true ++ faultIf (!(fmt.toNat = 0 || fmt.toNat = 4 || fmt.toNat = 8)) .format
  | .vshr h _ fmt _ _ _ _ _ => headFaults h true ++ faultIf (!(fmt.toNat = 0 || fmt.toNat = 4 || fmt.toNat = 8)) .format
  | .vsar h _ fmt _ _ _ _ _ => headFaults h true ++ faultIf (!(fmt.toNat = 0 || fmt.toNat = 4 || fmt.toNat = 8)) .format
  | .vicmp h _ fmt _ _ _ _ _ cond => headFaults h true ++ faultIf (!(fmt.toNat = 0 || fmt.toNat = 4 || fmt.toNat = 8)) .format ++ faultIf (cond.toNat > 9) .reservedField
  | .vperm h _ _ _ _ _ _ => headFaults h true
  | .vbcast h _ fmt _ _ => headFaults h true ++ faultIf (!(fmt.toNat = 0 || fmt.toNat = 4 || fmt.toNat = 8)) .format
  | .viota h _ fmt _ => headFaults h false ++ faultIf (!(fmt.toNat = 0 || fmt.toNat = 4 || fmt.toNat = 8)) .format
  | .qclr h _ _ => headFaults h false
  | .qmac h _ fmt _ _ _ _ _ => headFaults h true ++ faultIf (fmt.toNat = 3 || fmt.toNat > 11) .format
  | .qmsb h _ fmt _ _ _ _ _ => headFaults h true ++ faultIf (fmt.toNat = 3 || fmt.toNat > 11) .format
  | .qadd h _ fmt _ _ _ => headFaults h true ++ faultIf (fmt.toNat = 3 || fmt.toNat > 11) .format
  | .qaddq h _ _ _ => headFaults h true
  | .qrnd h _ fmt _ _ => headFaults h true ++ faultIf (fmt.toNat = 3 || fmt.toNat > 11) .format
  | .qneg h _ _ => headFaults h false
  | .qst h _ _ _ _ => headFaults h true
  | .qmov h _ _ _ => headFaults h true
  | .jseed h _ _ _ _ _ _ => headFaults h true
  | .jget h _ fmt _ _ _ _ _ => headFaults h true ++ faultIf (fmt.toNat = 3 || fmt.toNat > 11) .format
  | .jset h _ _ _ _ _ => headFaults h true
  | .jscale h _ fmt _ _ _ _ _ => headFaults h true ++ faultIf (fmt.toNat = 3 || fmt.toNat > 11) .format
  | .mpush h lgm va => headFaults h false ++ faultIf (!lgmOneBit lgm) .illegalSyllable ++ faultIf (va.toNat % 2 = 1) .illegalSyllable
  | .mshift h => headFaults h false
  | .macc h fmt _ => headFaults h false ++ faultIf (fmt.toNat = 3 || fmt.toNat > 11) .format
  | .mdrain h lgm fmt vd _ => headFaults h false ++ faultIf (!lgmOneBit lgm) .illegalSyllable ++ faultIf (fmt.toNat = 3 || fmt.toNat > 7) .format ++ faultIf (fmt.toNat < 3 && vd.toNat % 2 = 1) .illegalSyllable
  | .mclr h row all => headFaults h false ++ faultIf (all && row.toNat != 0) .reservedField
  | .mspill h row _ all => headFaults h false ++ faultIf (all && row.toNat != 0) .reservedField
  | .mfill h row _ all => headFaults h false ++ faultIf (all && row.toNat != 0) .reservedField
  | .mstat h _ => headFaults h false
  | .ld h _ _ width sx data q => headFaults h true ++ faultIf (sx && width.toNat ≥ 2) .reservedField ++ faultIf (q && data.toNat > 3) .reservedField ++ faultIf (!q && data.toNat > 31) .reservedField ++ faultIf (!q && width.toNat = 3 && data.toNat % 2 = 1) .illegalSyllable
  | .st h _ _ width data => headFaults h true ++ faultIf (data.toNat > 31) .reservedField ++ faultIf (width.toNat = 3 && data.toNat % 2 = 1) .illegalSyllable
  | .ldv h _ _ _ data q => headFaults h true ++ faultIf (q && data.toNat > 3) .reservedField
  | .stv h _ _ _ _ => headFaults h true
  | .ldvs h _ _ _ ew data q => headFaults h true ++ faultIf (ew.toNat = 3) .reservedField ++ faultIf (q && data.toNat > 3) .reservedField
  | .stvs h _ _ _ ew _ => headFaults h true ++ faultIf (ew.toNat = 3) .reservedField
  | .ldq h _ _ _ _ => headFaults h true
  | .stq h _ _ _ _ => headFaults h true
  | .lda h _ _ scope width data q => headFaults h true ++ faultIf (width.toNat < 2) .reservedField ++ faultIf (scope.toNat > 5) .reservedField ++ faultIf (q && data.toNat > 3) .reservedField ++ faultIf (!q && data.toNat > 31) .reservedField ++ faultIf (!q && width.toNat = 3 && data.toNat % 2 = 1) .illegalSyllable
  | .stl h _ _ scope width data => headFaults h true ++ faultIf (width.toNat < 2) .reservedField ++ faultIf (scope.toNat > 5) .reservedField ++ faultIf (data.toNat > 31) .reservedField ++ faultIf (width.toNat = 3 && data.toNat % 2 = 1) .illegalSyllable
  | .amoAdd h _ _ rd _ q => headFaults h true ++ faultIf (q && rd.toNat > 3) .reservedField
  | .amoAnd h _ _ rd _ q => headFaults h true ++ faultIf (q && rd.toNat > 3) .reservedField
  | .amoOr h _ _ rd _ q => headFaults h true ++ faultIf (q && rd.toNat > 3) .reservedField
  | .amoXor h _ _ rd _ q => headFaults h true ++ faultIf (q && rd.toNat > 3) .reservedField
  | .amoMin h _ _ rd _ q => headFaults h true ++ faultIf (q && rd.toNat > 3) .reservedField
  | .amoMax h _ _ rd _ q => headFaults h true ++ faultIf (q && rd.toNat > 3) .reservedField
  | .amoMaxu h _ _ rd _ q => headFaults h true ++ faultIf (q && rd.toNat > 3) .reservedField
  | .amoMinu h _ _ rd _ q => headFaults h true ++ faultIf (q && rd.toNat > 3) .reservedField
  | .amoXchg h _ _ rd rs q wide => headFaults h true ++ faultIf (q && rd.toNat > 3) .reservedField ++ faultIf (wide && (rs.toNat % 2 = 1 || (!q && rd.toNat % 2 = 1))) .illegalSyllable
  | .amoQadd h _ _ _ => headFaults h true
  | .amoPadd h _ _ rd _ fmt q => headFaults h true ++ faultIf (q && rd.toNat > 3) .reservedField ++ faultIf (fmt.toNat = 3 || fmt.toNat > 7) .format
  | .amocas h _ _ rd _ _ q => headFaults h true ++ faultIf (q && rd.toNat > 3) .reservedField
  | .amocasD h _ _ rd rc rn q => headFaults h true ++ faultIf (q && rd.toNat > 3) .reservedField ++ faultIf (rc.toNat % 2 = 1 || rn.toNat % 2 = 1 || (!q && rd.toNat % 2 = 1)) .illegalSyllable
  | .fence h scope => headFaults h false ++ faultIf (scope.toNat > 5) .reservedField
  | .drain h => headFaults h false
  | .pref h _ _ => headFaults h true
  | .cpy h _ _ _ _ _ => headFaults h true
  | .gth h _ _ _ _ _ _ _ => headFaults h false
  | .sct h _ _ _ _ _ _ _ => headFaults h false
  | .wld h _ _ _ _ _ => headFaults h true
  | .rwr h _ _ _ _ _ _ lossy mask => headFaults h true ++ faultIf (!lossy && mask.toNat != 0) .reservedField
  | .rwg h _ _ _ _ _ _ lossy mask => headFaults h true ++ faultIf (!lossy && mask.toNat != 0) .reservedField
  | .rrd h _ _ _ _ _ => headFaults h true
  | .collGrp h _ _ _ _ _ _ _ => headFaults h true
  | .collMod h _ _ _ _ _ _ _ => headFaults h true
  | .collLossy h _ _ _ _ _ _ _ => headFaults h true
  | .qfence h _ qmask => headFaults h false ++ faultIf (!qmaskAtLeastTwo qmask) .illegalSyllable
  | .eclose h => headFaults h false
  | .ewait h _ => headFaults h false
  | .estat h _ _ => headFaults h false
  | .popW h d _ kind => headFaults h false ++ faultIf (kind.toNat = 3) .reservedField ++ faultIf (kind.toNat != 2 && d.toNat > 31) .reservedField ++ faultIf (kind.toNat = 1 && d.toNat % 2 = 1) .reservedField
  | .popF h d _ kind _ => headFaults h false ++ faultIf (kind.toNat = 3) .reservedField ++ faultIf (kind.toNat != 2 && d.toNat > 31) .reservedField ++ faultIf (kind.toNat = 1 && d.toNat % 2 = 1) .reservedField
  | .pack h fmt _ _ _ src => headFaults h true ++ faultIf (!packLegal fmt src) .format
  | .unpk h fmt _ _ vs sel scaled src => headFaults h true ++ faultIf (!scaled && (vs.toNat != 0 || sel.toNat != 0)) .reservedField ++ faultIf (!unpkLegal fmt src) .format
  | .xlg h _ _ _ _ _ => headFaults h true
  | .chk h _ va => headFaults h true ++ faultIf (va.toNat ≥ 32) .illegalSyllable
  | .movv h _ _ _ => headFaults h true
  | .movs h _ _ _ => headFaults h true
  | .getc h _ idx => headFaults h false ++ faultIf (idx.toNat > 0x11) .illegalSyllable
  | .setc h _ idx => headFaults h true ++ faultIf (idx.toNat > 0x11) .illegalSyllable
  | .feat h _ _ => headFaults h false
  | .rep h _ _ _ => prefixFaults h
  | .ext h _ => prefixFaults h
  | .popWTimeout _ _ => []
  | .saveComplete _ _ => []
  | .restoreComplete _ _ => []
  | .meshSlot _ => []
  | .hostattnCodeRead _ => []

/-- The head of a tile syllable; none for an operation that is not a syllable. -/
def headOf : Instr → Option Head
  | .moduleStart _ _ _ _ _ _ => none
  | .stageTimeLimit => none
  | .imageCheckRequest _ _ _ => none
  | .attestationLogRequest _ => none
  | .bootComplete => none
  | .start _ => none
  | .hostattn _ _ => none
  | .dumpvalidRelease _ => none
  | .registerWrite _ _ _ => none
  | .droopRead _ _ _ => none
  | .sensorSample _ _ _ _ => none
  | .droopAlarm _ _ _ => none
  | .droopFatal _ _ _ => none
  | .fatalError _ _ => none
  | .benalePanic => none
  | .fireflyWatchdog => none
  | .dumpDone => none
  | .moduleReset => none
  | .powerOff => none
  | .grenzorLoad _ _ _ _ => none
  | .unload _ _ => none
  | .partitionReset _ => none
  | .partitionReboot _ => none
  | .release _ _ => none
  | .assign _ _ => none
  | .coreOnline _ => none
  | .coreOffline _ => none
  | .termiteUnit _ => none
  | .termiteKeySlots _ => none
  | .vdcfg _ _ _ _ _ _ => none
  | .refill _ => none
  | .dispatchSelect _ _ => none
  | .swarmComplete _ _ => none
  | .eventPost _ => none
  | .quantumExpiry _ _ => none
  | .waitQuantumExpiry _ _ => none
  | .preemptRequest _ _ => none
  | .hardStop _ _ => none
  | .preempt4096Expiry _ _ => none
  | .waitYield _ => none
  | .debugResume _ _ => none
  | .engineCommandStart _ _ => none
  | .engineCommandComplete _ _ _ => none
  | .transferClose _ _ _ => none
  | .replyArrival _ => none
  | .storeAck _ => none
  | .waitConditionMet _ _ => none
  | .barLeave _ _ => none
  | .remoteAccessArrival _ => none
  | .memsideAccess _ => none
  | .tlbInvalidate _ _ _ _ => none
  | .migrate _ _ _ _ _ _ => none
  | .migrationCopyDone _ _ _ => none
  | .migrationSwitch _ _ _ => none
  | .pinExpiry _ _ _ => none
  | .windowStart => none
  | .flitReceive _ _ _ => none
  | .nak _ _ _ => none
  | .ack _ _ _ => none
  | .creditReturn _ _ _ => none
  | .downMapUpdate _ _ _ _ => none
  | .downMapEffect _ => none
  | .portResetNotice _ _ => none
  | .discardNotice _ _ _ _ _ => none
  | .remoteWriteRequest _ => none
  | .lossyWriteRequest _ => none
  | .dataBlockArrival _ => none
  | .flagIncrement _ _ _ => none
  | .lossyDeadline _ _ _ => none
  | .heldBlockExpiry _ _ _ => none
  | .storeWrite _ => none
  | .remoteLoad _ => none
  | .remoteAtomic _ => none
  | .watch _ => none
  | .watchSatisfied _ _ _ => none
  | .completionReply _ => none
  | .verdict _ => none
  | .resendTimeout _ _ => none
  | .peerLeave _ _ => none
  | .recallAutoAck _ _ => none
  | .grantHandoff _ _ _ => none
  | .grant _ => none
  | .grantRecall _ => none
  | .recallAck _ => none
  | .fabtestArm _ _ => none
  | .qcfgArm _ _ => none
  | .dlaunch _ _ => none
  | .devq _ _ => none
  | .add h _ _ _ => some h
  | .sub h _ _ _ => some h
  | .mul h _ _ _ => some h
  | .mulh h _ _ _ => some h
  | .mulhu h _ _ _ => some h
  | .div h _ _ _ => some h
  | .divu h _ _ _ => some h
  | .rem h _ _ _ => some h
  | .remu h _ _ _ => some h
  | .and h _ _ _ => some h
  | .or h _ _ _ => some h
  | .xor h _ _ _ => some h
  | .andn h _ _ _ => some h
  | .shl h _ _ _ => some h
  | .shr h _ _ _ => some h
  | .sar h _ _ _ => some h
  | .rot h _ _ _ => some h
  | .min h _ _ _ => some h
  | .max h _ _ _ => some h
  | .minu h _ _ _ => some h
  | .maxu h _ _ _ => some h
  | .clz h _ _ => some h
  | .ctz h _ _ => some h
  | .popc h _ _ => some h
  | .mov h _ _ => some h
  | .addi h _ _ _ => some h
  | .andi h _ _ _ => some h
  | .ori h _ _ _ => some h
  | .xori h _ _ _ => some h
  | .shli h _ _ _ => some h
  | .shri h _ _ _ => some h
  | .sari h _ _ _ => some h
  | .li h _ _ => some h
  | .lih h _ _ => some h
  | .bext h _ _ _ _ => some h
  | .bins h _ _ _ _ => some h
  | .sel h _ _ _ _ => some h
  | .cmp h _ _ _ _ => some h
  | .cmpi h _ _ _ _ => some h
  | .addd h _ _ _ => some h
  | .subd h _ _ _ => some h
  | .adddi h _ _ _ => some h
  | .shld h _ _ _ => some h
  | .tagd h _ _ _ _ => some h
  | .tagx h _ _ _ => some h
  | .pand h _ _ _ => some h
  | .por h _ _ _ => some h
  | .pxor h _ _ _ => some h
  | .pnot h _ _ => some h
  | .pmov h _ _ => some h
  | .pany h _ _ => some h
  | .pall h _ _ => some h
  | .pset h _ _ => some h
  | .pcnt h _ _ => some h
  | .ppack h _ => some h
  | .punpk h _ => some h
  | .nopb h => some h
  | .br h _ => some h
  | .brc h _ _ _ _ => some h
  | .brz h _ _ => some h
  | .jmp h _ => some h
  | .call h _ => some h
  | .callr h _ => some h
  | .ret h => some h
  | .loop h _ _ => some h
  | .loopr h _ _ => some h
  | .lbrk h => some h
  | .trap h _ => some h
  | .sysc h _ => some h
  | .eret h => some h
  | .halt h => some h
  | .exit h => some h
  | .exits h _ _ => some h
  | .spawn h _ _ => some h
  | .bar h _ => some h
  | .waitge h _ _ _ _ => some h
  | .waiteq h _ _ _ _ => some h
  | .vadd h _ _ _ _ _ _ _ => some h
  | .vsub h _ _ _ _ _ _ _ => some h
  | .vmul h _ _ _ _ _ _ _ => some h
  | .vdiv h _ _ _ _ _ _ _ => some h
  | .vfma h _ _ _ _ _ _ _ _ _ => some h
  | .vfms h _ _ _ _ _ _ _ _ _ => some h
  | .vfnma h _ _ _ _ _ _ _ _ _ => some h
  | .vsqrt h _ _ _ _ _ => some h
  | .vrsqrt h _ _ _ _ _ => some h
  | .vrcp h _ _ _ _ _ => some h
  | .vexp h _ _ _ _ _ => some h
  | .vexp2 h _ _ _ _ _ => some h
  | .vlog h _ _ _ _ _ => some h
  | .vlog2 h _ _ _ _ _ => some h
  | .vsin h _ _ _ _ _ => some h
  | .vcos h _ _ _ _ _ => some h
  | .vtanh h _ _ _ _ _ => some h
  | .vsigm h _ _ _ _ _ => some h
  | .vmin h _ _ _ _ _ _ _ => some h
  | .vmax h _ _ _ _ _ _ _ => some h
  | .vabs h _ _ _ _ _ => some h
  | .vneg h _ _ _ _ _ => some h
  | .vround h _ _ _ _ _ => some h
  | .vclamp h _ _ _ _ _ _ _ _ _ => some h
  | .vcmp h _ _ _ _ _ _ _ _ => some h
  | .vsel h _ _ _ _ _ _ _ _ => some h
  | .vcvt h _ _ _ _ _ _ _ _ _ _ _ => some h
  | .vqnt h _ _ _ _ _ _ _ _ => some h
  | .vscl h _ _ _ _ _ _ _ _ => some h
  | .vred h _ _ _ _ _ => some h
  | .vmred h _ _ _ _ _ _ => some h
  | .vmscl h _ _ _ _ _ _ _ _ => some h
  | .viadd h _ _ _ _ _ _ _ => some h
  | .visub h _ _ _ _ _ _ _ => some h
  | .vimul h _ _ _ _ _ _ _ => some h
  | .vimin h _ _ _ _ _ _ _ => some h
  | .vimax h _ _ _ _ _ _ _ => some h
  | .vand h _ _ _ _ _ _ _ => some h
  | .vor h _ _ _ _ _ _ _ => some h
  | .vxor h _ _ _ _ _ _ _ => some h
  | .vnot h _ _ _ _ _ => some h
  | .vshl h _ _ _ _ _ _ _ => some h
  | .vshr h _ _ _ _ _ _ _ => some h
  | .vsar h _ _ _ _ _ _ _ => some h
  | .vicmp h _ _ _ _ _ _ _ _ => some h
  | .vperm h _ _ _ _ _ _ => some h
  | .vbcast h _ _ _ _ => some h
  | .viota h _ _ _ => some h
  | .qclr h _ _ => some h
  | .qmac h _ _ _ _ _ _ _ => some h
  | .qmsb h _ _ _ _ _ _ _ => some h
  | .qadd h _ _ _ _ _ => some h
  | .qaddq h _ _ _ => some h
  | .qrnd h _ _ _ _ => some h
  | .qneg h _ _ => some h
  | .qst h _ _ _ _ => some h
  | .qmov h _ _ _ => some h
  | .jseed h _ _ _ _ _ _ => some h
  | .jget h _ _ _ _ _ _ _ => some h
  | .jset h _ _ _ _ _ => some h
  | .jscale h _ _ _ _ _ _ _ => some h
  | .mpush h _ _ => some h
  | .mshift h => some h
  | .macc h _ _ => some h
  | .mdrain h _ _ _ _ => some h
  | .mclr h _ _ => some h
  | .mspill h _ _ _ => some h
  | .mfill h _ _ _ => some h
  | .mstat h _ => some h
  | .ld h _ _ _ _ _ _ => some h
  | .st h _ _ _ _ => some h
  | .ldv h _ _ _ _ _ => some h
  | .stv h _ _ _ _ => some h
  | .ldvs h _ _ _ _ _ _ => some h
  | .stvs h _ _ _ _ _ => some h
  | .ldq h _ _ _ _ => some h
  | .stq h _ _ _ _ => some h
  | .lda h _ _ _ _ _ _ => some h
  | .stl h _ _ _ _ _ => some h
  | .amoAdd h _ _ _ _ _ => some h
  | .amoAnd h _ _ _ _ _ => some h
  | .amoOr h _ _ _ _ _ => some h
  | .amoXor h _ _ _ _ _ => some h
  | .amoMin h _ _ _ _ _ => some h
  | .amoMax h _ _ _ _ _ => some h
  | .amoMaxu h _ _ _ _ _ => some h
  | .amoMinu h _ _ _ _ _ => some h
  | .amoXchg h _ _ _ _ _ _ => some h
  | .amoQadd h _ _ _ => some h
  | .amoPadd h _ _ _ _ _ _ => some h
  | .amocas h _ _ _ _ _ _ => some h
  | .amocasD h _ _ _ _ _ _ => some h
  | .fence h _ => some h
  | .drain h => some h
  | .pref h _ _ => some h
  | .cpy h _ _ _ _ _ => some h
  | .gth h _ _ _ _ _ _ _ => some h
  | .sct h _ _ _ _ _ _ _ => some h
  | .wld h _ _ _ _ _ => some h
  | .rwr h _ _ _ _ _ _ _ _ => some h
  | .rwg h _ _ _ _ _ _ _ _ => some h
  | .rrd h _ _ _ _ _ => some h
  | .collGrp h _ _ _ _ _ _ _ => some h
  | .collMod h _ _ _ _ _ _ _ => some h
  | .collLossy h _ _ _ _ _ _ _ => some h
  | .qfence h _ _ => some h
  | .eclose h => some h
  | .ewait h _ => some h
  | .estat h _ _ => some h
  | .popW h _ _ _ => some h
  | .popF h _ _ _ _ => some h
  | .pack h _ _ _ _ _ => some h
  | .unpk h _ _ _ _ _ _ _ => some h
  | .xlg h _ _ _ _ _ => some h
  | .chk h _ _ => some h
  | .movv h _ _ _ => some h
  | .movs h _ _ _ => some h
  | .getc h _ _ => some h
  | .setc h _ _ => some h
  | .feat h _ _ => some h
  | .rep h _ _ _ => some h
  | .ext h _ => some h
  | .popWTimeout _ _ => none
  | .saveComplete _ _ => none
  | .restoreComplete _ _ => none
  | .meshSlot _ => none
  | .hostattnCodeRead _ => none

/-- The slot class code of a tile syllable (R120); 8 for an operation that is not a syllable. -/
def classOf : Instr → Nat
  | .moduleStart _ _ _ _ _ _ => 8
  | .stageTimeLimit => 8
  | .imageCheckRequest _ _ _ => 8
  | .attestationLogRequest _ => 8
  | .bootComplete => 8
  | .start _ => 8
  | .hostattn _ _ => 8
  | .dumpvalidRelease _ => 8
  | .registerWrite _ _ _ => 8
  | .droopRead _ _ _ => 8
  | .sensorSample _ _ _ _ => 8
  | .droopAlarm _ _ _ => 8
  | .droopFatal _ _ _ => 8
  | .fatalError _ _ => 8
  | .benalePanic => 8
  | .fireflyWatchdog => 8
  | .dumpDone => 8
  | .moduleReset => 8
  | .powerOff => 8
  | .grenzorLoad _ _ _ _ => 8
  | .unload _ _ => 8
  | .partitionReset _ => 8
  | .partitionReboot _ => 8
  | .release _ _ => 8
  | .assign _ _ => 8
  | .coreOnline _ => 8
  | .coreOffline _ => 8
  | .termiteUnit _ => 8
  | .termiteKeySlots _ => 8
  | .vdcfg _ _ _ _ _ _ => 8
  | .refill _ => 8
  | .dispatchSelect _ _ => 8
  | .swarmComplete _ _ => 8
  | .eventPost _ => 8
  | .quantumExpiry _ _ => 8
  | .waitQuantumExpiry _ _ => 8
  | .preemptRequest _ _ => 8
  | .hardStop _ _ => 8
  | .preempt4096Expiry _ _ => 8
  | .waitYield _ => 8
  | .debugResume _ _ => 8
  | .engineCommandStart _ _ => 8
  | .engineCommandComplete _ _ _ => 8
  | .transferClose _ _ _ => 8
  | .replyArrival _ => 8
  | .storeAck _ => 8
  | .waitConditionMet _ _ => 8
  | .barLeave _ _ => 8
  | .remoteAccessArrival _ => 8
  | .memsideAccess _ => 8
  | .tlbInvalidate _ _ _ _ => 8
  | .migrate _ _ _ _ _ _ => 8
  | .migrationCopyDone _ _ _ => 8
  | .migrationSwitch _ _ _ => 8
  | .pinExpiry _ _ _ => 8
  | .windowStart => 8
  | .flitReceive _ _ _ => 8
  | .nak _ _ _ => 8
  | .ack _ _ _ => 8
  | .creditReturn _ _ _ => 8
  | .downMapUpdate _ _ _ _ => 8
  | .downMapEffect _ => 8
  | .portResetNotice _ _ => 8
  | .discardNotice _ _ _ _ _ => 8
  | .remoteWriteRequest _ => 8
  | .lossyWriteRequest _ => 8
  | .dataBlockArrival _ => 8
  | .flagIncrement _ _ _ => 8
  | .lossyDeadline _ _ _ => 8
  | .heldBlockExpiry _ _ _ => 8
  | .storeWrite _ => 8
  | .remoteLoad _ => 8
  | .remoteAtomic _ => 8
  | .watch _ => 8
  | .watchSatisfied _ _ _ => 8
  | .completionReply _ => 8
  | .verdict _ => 8
  | .resendTimeout _ _ => 8
  | .peerLeave _ _ => 8
  | .recallAutoAck _ _ => 8
  | .grantHandoff _ _ _ => 8
  | .grant _ => 8
  | .grantRecall _ => 8
  | .recallAck _ => 8
  | .fabtestArm _ _ => 8
  | .qcfgArm _ _ => 8
  | .dlaunch _ _ => 8
  | .devq _ _ => 8
  | .add _ _ _ _ => 0
  | .sub _ _ _ _ => 0
  | .mul _ _ _ _ => 0
  | .mulh _ _ _ _ => 0
  | .mulhu _ _ _ _ => 0
  | .div _ _ _ _ => 0
  | .divu _ _ _ _ => 0
  | .rem _ _ _ _ => 0
  | .remu _ _ _ _ => 0
  | .and _ _ _ _ => 0
  | .or _ _ _ _ => 0
  | .xor _ _ _ _ => 0
  | .andn _ _ _ _ => 0
  | .shl _ _ _ _ => 0
  | .shr _ _ _ _ => 0
  | .sar _ _ _ _ => 0
  | .rot _ _ _ _ => 0
  | .min _ _ _ _ => 0
  | .max _ _ _ _ => 0
  | .minu _ _ _ _ => 0
  | .maxu _ _ _ _ => 0
  | .clz _ _ _ => 0
  | .ctz _ _ _ => 0
  | .popc _ _ _ => 0
  | .mov _ _ _ => 0
  | .addi _ _ _ _ => 0
  | .andi _ _ _ _ => 0
  | .ori _ _ _ _ => 0
  | .xori _ _ _ _ => 0
  | .shli _ _ _ _ => 0
  | .shri _ _ _ _ => 0
  | .sari _ _ _ _ => 0
  | .li _ _ _ => 0
  | .lih _ _ _ => 0
  | .bext _ _ _ _ _ => 0
  | .bins _ _ _ _ _ => 0
  | .sel _ _ _ _ _ => 0
  | .cmp _ _ _ _ _ => 0
  | .cmpi _ _ _ _ _ => 0
  | .addd _ _ _ _ => 0
  | .subd _ _ _ _ => 0
  | .adddi _ _ _ _ => 0
  | .shld _ _ _ _ => 0
  | .tagd _ _ _ _ _ => 0
  | .tagx _ _ _ _ => 0
  | .pand _ _ _ _ => 0
  | .por _ _ _ _ => 0
  | .pxor _ _ _ _ => 0
  | .pnot _ _ _ => 0
  | .pmov _ _ _ => 0
  | .pany _ _ _ => 0
  | .pall _ _ _ => 0
  | .pset _ _ _ => 0
  | .pcnt _ _ _ => 0
  | .ppack _ _ => 6
  | .punpk _ _ => 6
  | .nopb _ => 1
  | .br _ _ => 1
  | .brc _ _ _ _ _ => 1
  | .brz _ _ _ => 1
  | .jmp _ _ => 1
  | .call _ _ => 1
  | .callr _ _ => 1
  | .ret _ => 1
  | .loop _ _ _ => 1
  | .loopr _ _ _ => 1
  | .lbrk _ => 1
  | .trap _ _ => 1
  | .sysc _ _ => 1
  | .eret _ => 1
  | .halt _ => 1
  | .exit _ => 1
  | .exits _ _ _ => 1
  | .spawn _ _ _ => 1
  | .bar _ _ => 1
  | .waitge _ _ _ _ _ => 4
  | .waiteq _ _ _ _ _ => 4
  | .vadd _ _ _ _ _ _ _ _ => 2
  | .vsub _ _ _ _ _ _ _ _ => 2
  | .vmul _ _ _ _ _ _ _ _ => 2
  | .vdiv _ _ _ _ _ _ _ _ => 2
  | .vfma _ _ _ _ _ _ _ _ _ _ => 2
  | .vfms _ _ _ _ _ _ _ _ _ _ => 2
  | .vfnma _ _ _ _ _ _ _ _ _ _ => 2
  | .vsqrt _ _ _ _ _ _ => 2
  | .vrsqrt _ _ _ _ _ _ => 2
  | .vrcp _ _ _ _ _ _ => 2
  | .vexp _ _ _ _ _ _ => 2
  | .vexp2 _ _ _ _ _ _ => 2
  | .vlog _ _ _ _ _ _ => 2
  | .vlog2 _ _ _ _ _ _ => 2
  | .vsin _ _ _ _ _ _ => 2
  | .vcos _ _ _ _ _ _ => 2
  | .vtanh _ _ _ _ _ _ => 2
  | .vsigm _ _ _ _ _ _ => 2
  | .vmin _ _ _ _ _ _ _ _ => 2
  | .vmax _ _ _ _ _ _ _ _ => 2
  | .vabs _ _ _ _ _ _ => 2
  | .vneg _ _ _ _ _ _ => 2
  | .vround _ _ _ _ _ _ => 2
  | .vclamp _ _ _ _ _ _ _ _ _ _ => 2
  | .vcmp _ _ _ _ _ _ _ _ _ => 2
  | .vsel _ _ _ _ _ _ _ _ _ => 2
  | .vcvt _ _ _ _ _ _ _ _ _ _ _ _ => 2
  | .vqnt _ _ _ _ _ _ _ _ _ => 2
  | .vscl _ _ _ _ _ _ _ _ _ => 2
  | .vred _ _ _ _ _ _ => 2
  | .vmred _ _ _ _ _ _ _ => 2
  | .vmscl _ _ _ _ _ _ _ _ _ => 2
  | .viadd _ _ _ _ _ _ _ _ => 2
  | .visub _ _ _ _ _ _ _ _ => 2
  | .vimul _ _ _ _ _ _ _ _ => 2
  | .vimin _ _ _ _ _ _ _ _ => 2
  | .vimax _ _ _ _ _ _ _ _ => 2
  | .vand _ _ _ _ _ _ _ _ => 2
  | .vor _ _ _ _ _ _ _ _ => 2
  | .vxor _ _ _ _ _ _ _ _ => 2
  | .vnot _ _ _ _ _ _ => 2
  | .vshl _ _ _ _ _ _ _ _ => 2
  | .vshr _ _ _ _ _ _ _ _ => 2
  | .vsar _ _ _ _ _ _ _ _ => 2
  | .vicmp _ _ _ _ _ _ _ _ _ => 2
  | .vperm _ _ _ _ _ _ _ => 2
  | .vbcast _ _ _ _ _ => 2
  | .viota _ _ _ _ => 2
  | .qclr _ _ _ => 2
  | .qmac _ _ _ _ _ _ _ _ => 2
  | .qmsb _ _ _ _ _ _ _ _ => 2
  | .qadd _ _ _ _ _ _ => 2
  | .qaddq _ _ _ _ => 2
  | .qrnd _ _ _ _ _ => 2
  | .qneg _ _ _ => 2
  | .qst _ _ _ _ _ => 2
  | .qmov _ _ _ _ => 2
  | .jseed _ _ _ _ _ _ _ => 2
  | .jget _ _ _ _ _ _ _ _ => 2
  | .jset _ _ _ _ _ _ => 2
  | .jscale _ _ _ _ _ _ _ _ => 2
  | .mpush _ _ _ => 3
  | .mshift _ => 3
  | .macc _ _ _ => 3
  | .mdrain _ _ _ _ _ => 3
  | .mclr _ _ _ => 3
  | .mspill _ _ _ _ => 3
  | .mfill _ _ _ _ => 3
  | .mstat _ _ => 3
  | .ld _ _ _ _ _ _ _ => 4
  | .st _ _ _ _ _ => 4
  | .ldv _ _ _ _ _ _ => 4
  | .stv _ _ _ _ _ => 4
  | .ldvs _ _ _ _ _ _ _ => 4
  | .stvs _ _ _ _ _ _ => 4
  | .ldq _ _ _ _ _ => 4
  | .stq _ _ _ _ _ => 4
  | .lda _ _ _ _ _ _ _ => 4
  | .stl _ _ _ _ _ _ => 4
  | .amoAdd _ _ _ _ _ _ => 4
  | .amoAnd _ _ _ _ _ _ => 4
  | .amoOr _ _ _ _ _ _ => 4
  | .amoXor _ _ _ _ _ _ => 4
  | .amoMin _ _ _ _ _ _ => 4
  | .amoMax _ _ _ _ _ _ => 4
  | .amoMaxu _ _ _ _ _ _ => 4
  | .amoMinu _ _ _ _ _ _ => 4
  | .amoXchg _ _ _ _ _ _ _ => 4
  | .amoQadd _ _ _ _ => 4
  | .amoPadd _ _ _ _ _ _ _ => 4
  | .amocas _ _ _ _ _ _ _ => 4
  | .amocasD _ _ _ _ _ _ _ => 4
  | .fence _ _ => 4
  | .drain _ => 4
  | .pref _ _ _ => 4
  | .cpy _ _ _ _ _ _ => 5
  | .gth _ _ _ _ _ _ _ _ => 5
  | .sct _ _ _ _ _ _ _ _ => 5
  | .wld _ _ _ _ _ _ => 5
  | .rwr _ _ _ _ _ _ _ _ _ => 5
  | .rwg _ _ _ _ _ _ _ _ _ => 5
  | .rrd _ _ _ _ _ _ => 5
  | .collGrp _ _ _ _ _ _ _ _ => 5
  | .collMod _ _ _ _ _ _ _ _ => 5
  | .collLossy _ _ _ _ _ _ _ _ => 5
  | .qfence _ _ _ => 5
  | .eclose _ => 5
  | .ewait _ _ => 5
  | .estat _ _ _ => 5
  | .popW _ _ _ _ => 6
  | .popF _ _ _ _ _ => 6
  | .pack _ _ _ _ _ _ => 6
  | .unpk _ _ _ _ _ _ _ _ => 6
  | .xlg _ _ _ _ _ _ => 6
  | .chk _ _ _ => 6
  | .movv _ _ _ _ => 6
  | .movs _ _ _ _ => 6
  | .getc _ _ _ => 6
  | .setc _ _ _ => 6
  | .feat _ _ _ => 6
  | .rep _ _ _ _ => 7
  | .ext _ _ => 7
  | .popWTimeout _ _ => 8
  | .saveComplete _ _ => 8
  | .restoreComplete _ _ => 8
  | .meshSlot _ => 8
  | .hostattnCodeRead _ => 8

end Sys2Proof.Machine
end

