-- ==== Sys2Proof/WellFormed.lean ====
section
/-!
DEFINITION. Well-formed operations: a syllable none of whose fields raises a static fault. A module event and a
control-core instruction are well formed whatever their data.
-/
namespace Sys2Proof

/-- No field of the operation raises a static fault. -/
def Instr.wf (i : Instr) : Bool := (Machine.staticFaults i).isEmpty

end Sys2Proof
end

