-- ==== Sys2Proof/Decode.lean ====
section
/-!
DEFINITION. Decoding and encoding. Tile syllables are 64 bits (R228); the fields of each format stand in the lists below
most significant first, as R235 to R245 give them. A control core's DLAUNCH and DEVQ are 32 bits (R77). The operations
and events of the module have no encoding.
-/
namespace Sys2Proof
open Sys2Proof.Machine

/-- Bits lo + k − 1 : lo of a number. -/
def fld (w lo k : Nat) : Nat := w / 2 ^ lo % 2 ^ k

/-- A field as a bit vector. -/
def bfld (w lo k : Nat) : BitVec k := BitVec.ofNat k (fld w lo k)

/-- A one-bit field. -/
def flag (w lo : Nat) : Bool := fld w lo 1 == 1

/-- The number whose fields, most significant first, have the given widths and values. -/
def packFields (l : List (Nat × Nat)) : Nat := l.foldl (fun a p => a * 2 ^ p.1 + p.2) 0

/-- The head fields of R228 for a class and an opcode. -/
def headFields (h : Head) (cls opc : Nat) : List (Nat × Nat) :=
  [(1, h.last.toNat), (3, cls), (3, h.stall.toNat), (1, h.old.toNat), (8, opc), (3, h.pred.toNat), (1, h.psns.toNat)]


/-- Layout of ADD and the syllables that share it. -/
def layS1 (h : Head) (opc : Nat) (rd ra rb : SRegNo) : List (Nat × Nat) :=
  headFields h 0 opc ++ [(5, rd.toNat), (5, ra.toNat), (5, rb.toNat), (29, 0)]

/-- Layout of CLZ and the syllables that share it. -/
def layS2 (h : Head) (opc : Nat) (rd ra : SRegNo) : List (Nat × Nat) :=
  headFields h 0 opc ++ [(5, rd.toNat), (5, ra.toNat), (34, 0)]

/-- Layout of ADDI and the syllables that share it. -/
def layS3 (h : Head) (opc : Nat) (rd ra : SRegNo) (imm : BitVec 24) : List (Nat × Nat) :=
  headFields h 0 opc ++ [(5, rd.toNat), (5, ra.toNat), (24, imm.toNat), (10, 0)]

/-- Layout of LI and the syllables that share it. -/
def layS4 (h : Head) (opc : Nat) (rd : SRegNo) (imm : BitVec 24) : List (Nat × Nat) :=
  headFields h 0 opc ++ [(5, rd.toNat), (5, 0), (24, imm.toNat), (10, 0)]

/-- Layout of BEXT and the syllables that share it. -/
def layS5 (h : Head) (opc : Nat) (rd ra : SRegNo) (pos len : BitVec 5) : List (Nat × Nat) :=
  headFields h 0 opc ++ [(5, rd.toNat), (5, ra.toNat), (5, pos.toNat), (5, len.toNat), (24, 0)]

/-- Layout of SEL and the syllables that share it. -/
def layS6 (h : Head) (opc : Nat) (rd ra rb : SRegNo) (ps : PNum) : List (Nat × Nat) :=
  headFields h 0 opc ++ [(5, rd.toNat), (5, ra.toNat), (5, rb.toNat), (3, ps.toNat), (26, 0)]

/-- Layout of CMP and the syllables that share it. -/
def layS7 (h : Head) (opc : Nat) (pd : PNum) (ra rb : SRegNo) (cond : Cond) : List (Nat × Nat) :=
  headFields h 0 opc ++ [(3, pd.toNat), (5, ra.toNat), (5, rb.toNat), (4, cond.toNat), (27, 0)]

/-- Layout of CMPI and the syllables that share it. -/
def layS8 (h : Head) (opc : Nat) (pd : PNum) (ra : SRegNo) (cond : Cond) (imm : BitVec 24) : List (Nat × Nat) :=
  headFields h 0 opc ++ [(3, pd.toNat), (5, ra.toNat), (4, cond.toNat), (24, imm.toNat), (8, 0)]

/-- Layout of ADDD and the syllables that share it. -/
def layS9 (h : Head) (opc : Nat) (dd da db : DNum) : List (Nat × Nat) :=
  headFields h 0 opc ++ [(4, dd.toNat), (4, da.toNat), (4, db.toNat), (32, 0)]

/-- Layout of ADDDI and the syllables that share it. -/
def layS10 (h : Head) (opc : Nat) (dd da : DNum) (imm : BitVec 24) : List (Nat × Nat) :=
  headFields h 0 opc ++ [(4, dd.toNat), (4, da.toNat), (24, imm.toNat), (12, 0)]

/-- Layout of SHLD and the syllables that share it. -/
def layS11 (h : Head) (opc : Nat) (dd da : DNum) (rb : SRegNo) : List (Nat × Nat) :=
  headFields h 0 opc ++ [(4, dd.toNat), (4, da.toNat), (5, rb.toNat), (31, 0)]

/-- Layout of TAGD and the syllables that share it. -/
def layS12 (h : Head) (opc : Nat) (dd da : DNum) (rs : SRegNo) (fld : BitVec 3) : List (Nat × Nat) :=
  headFields h 0 opc ++ [(4, dd.toNat), (4, da.toNat), (5, rs.toNat), (3, fld.toNat), (28, 0)]

/-- Layout of TAGX and the syllables that share it. -/
def layS13 (h : Head) (opc : Nat) (da : DNum) (rs : SRegNo) (fld : BitVec 3) : List (Nat × Nat) :=
  headFields h 0 opc ++ [(4, 0), (4, da.toNat), (5, rs.toNat), (3, fld.toNat), (1, 1), (27, 0)]

/-- Layout of PAND and the syllables that share it. -/
def layS14 (h : Head) (opc : Nat) (pd pa pb : PNum) : List (Nat × Nat) :=
  headFields h 0 opc ++ [(3, pd.toNat), (3, pa.toNat), (3, pb.toNat), (35, 0)]

/-- Layout of PNOT and the syllables that share it. -/
def layS15 (h : Head) (opc : Nat) (pd pa : PNum) : List (Nat × Nat) :=
  headFields h 0 opc ++ [(3, pd.toNat), (3, pa.toNat), (38, 0)]

/-- Layout of PSET and the syllables that share it. -/
def layS16 (h : Head) (opc : Nat) (pd : PNum) (lgm : Lgm) : List (Nat × Nat) :=
  headFields h 0 opc ++ [(3, pd.toNat), (8, lgm.toNat), (33, 0)]

/-- Layout of PCNT and the syllables that share it. -/
def layS17 (h : Head) (opc : Nat) (rd : SRegNo) (pa : PNum) : List (Nat × Nat) :=
  headFields h 0 opc ++ [(5, rd.toNat), (3, pa.toNat), (36, 0)]

/-- Layout of PPACK and the syllables that share it. -/
def layX1 (h : Head) (opc : Nat) (vd : VNum) : List (Nat × Nat) :=
  headFields h 6 opc ++ [(12, 0), (6, vd.toNat), (26, 0)]

/-- Layout of PUNPK and the syllables that share it. -/
def layX2 (h : Head) (opc : Nat) (va : VNum) : List (Nat × Nat) :=
  headFields h 6 opc ++ [(18, 0), (6, va.toNat), (20, 0)]

/-- Layout of NOPB and the syllables that share it. -/
def layB1 (h : Head) (opc : Nat) : List (Nat × Nat) :=
  headFields h 1 opc ++ [(44, 0)]

/-- Layout of BR and the syllables that share it. -/
def layB2 (h : Head) (opc : Nat) (disp : BitVec 30) : List (Nat × Nat) :=
  headFields h 1 opc ++ [(14, 0), (30, disp.toNat)]

/-- Layout of BRC and the syllables that share it. -/
def layB3 (h : Head) (opc : Nat) (ra rb : SRegNo) (cond : Cond) (disp : BitVec 30) : List (Nat × Nat) :=
  headFields h 1 opc ++ [(5, ra.toNat), (5, rb.toNat), (4, cond.toNat), (30, disp.toNat)]

/-- Layout of BRZ and the syllables that share it. -/
def layB4 (h : Head) (opc : Nat) (ra : SRegNo) (disp : BitVec 30) : List (Nat × Nat) :=
  headFields h 1 opc ++ [(5, ra.toNat), (9, 0), (30, disp.toNat)]

/-- Layout of JMP and the syllables that share it. -/
def layB5 (h : Head) (opc : Nat) (da : DNum) : List (Nat × Nat) :=
  headFields h 1 opc ++ [(4, da.toNat), (40, 0)]

/-- Layout of LOOP and the syllables that share it. -/
def layB6 (h : Head) (opc : Nat) (count : BitVec 20) (endDisp : BitVec 24) : List (Nat × Nat) :=
  headFields h 1 opc ++ [(20, count.toNat), (24, endDisp.toNat)]

/-- Layout of LOOPR and the syllables that share it. -/
def layB7 (h : Head) (opc : Nat) (ra : SRegNo) (endDisp : BitVec 24) : List (Nat × Nat) :=
  headFields h 1 opc ++ [(5, ra.toNat), (15, 0), (24, endDisp.toNat)]

/-- Layout of TRAP and the syllables that share it. -/
def layB8 (h : Head) (opc : Nat) (imm : BitVec 16) : List (Nat × Nat) :=
  headFields h 1 opc ++ [(28, 0), (16, imm.toNat)]

/-- Layout of EXITS and the syllables that share it. -/
def layB9 (h : Head) (opc : Nat) (keepq : Bool) (entry : BitVec 8) : List (Nat × Nat) :=
  headFields h 1 opc ++ [(35, 0), (1, keepq.toNat), (8, entry.toNat)]

/-- Layout of SPAWN and the syllables that share it. -/
def layB10 (h : Head) (opc : Nat) (rd : SRegNo) (da : DNum) : List (Nat × Nat) :=
  headFields h 1 opc ++ [(5, rd.toNat), (4, da.toNat), (35, 0)]

/-- Layout of BAR and the syllables that share it. -/
def layB11 (h : Head) (opc : Nat) (gidx : BitVec 8) : List (Nat × Nat) :=
  headFields h 1 opc ++ [(36, 0), (8, gidx.toNat)]

/-- Layout of WAITGE and the syllables that share it. -/
def layL1 (h : Head) (opc : Nat) (da : DNum) (off : BitVec 24) (scope : Scope) (rs : SRegNo) : List (Nat × Nat) :=
  headFields h 4 opc ++ [(4, da.toNat), (24, off.toNat), (3, scope.toNat), (5, rs.toNat), (8, 0)]

/-- Layout of VADD and the syllables that share it. -/
def layV1 (h : Head) (opc : Nat) (lgm : Lgm) (fmt : Fmt) (vd va vb : VNum) (ha hb : Bool) : List (Nat × Nat) :=
  headFields h 2 opc ++ [(8, lgm.toNat), (4, fmt.toNat), (6, vd.toNat), (6, va.toNat), (6, vb.toNat), (6, 0), (1, ha.toNat), (1, hb.toNat), (6, 0)]

/-- Layout of VFMA and the syllables that share it. -/
def layV2 (h : Head) (opc : Nat) (lgm : Lgm) (fmt : Fmt) (vd va vb vc : VNum) (ha hb hc : Bool) : List (Nat × Nat) :=
  headFields h 2 opc ++ [(8, lgm.toNat), (4, fmt.toNat), (6, vd.toNat), (6, va.toNat), (6, vb.toNat), (6, vc.toNat), (1, ha.toNat), (1, hb.toNat), (1, hc.toNat), (5, 0)]

/-- Layout of VSQRT and the syllables that share it. -/
def layV3 (h : Head) (opc : Nat) (lgm : Lgm) (fmt : Fmt) (vd va : VNum) (ha : Bool) : List (Nat × Nat) :=
  headFields h 2 opc ++ [(8, lgm.toNat), (4, fmt.toNat), (6, vd.toNat), (6, va.toNat), (12, 0), (1, ha.toNat), (7, 0)]

/-- Layout of VCMP and the syllables that share it. -/
def layV4 (h : Head) (opc : Nat) (lgm : Lgm) (fmt : Fmt) (pd : PNum) (va vb : VNum) (ha hb : Bool) (cond : Cond) : List (Nat × Nat) :=
  headFields h 2 opc ++ [(8, lgm.toNat), (4, fmt.toNat), (3, 0), (3, pd.toNat), (6, va.toNat), (6, vb.toNat), (6, 0), (1, ha.toNat), (1, hb.toNat), (2, 0), (4, cond.toNat)]

/-- Layout of VSEL and the syllables that share it. -/
def layV5 (h : Head) (opc : Nat) (lgm : Lgm) (fmt : Fmt) (vd va vb : VNum) (ha hb : Bool) (ps : PNum) : List (Nat × Nat) :=
  headFields h 2 opc ++ [(8, lgm.toNat), (4, fmt.toNat), (6, vd.toNat), (6, va.toNat), (6, vb.toNat), (6, 0), (1, ha.toNat), (1, hb.toNat), (3, 0), (3, ps.toNat)]

/-- Layout of VCVT and the syllables that share it. -/
def layV6 (h : Head) (opc : Nat) (lgm : Lgm) (fmt : Fmt) (vd va vs : VNum) (scaled : Bool) (other : BitVec 4) (ha hb : Bool) (kind : BitVec 3) (sel : BitVec 2) : List (Nat × Nat) :=
  headFields h 2 opc ++ [(8, lgm.toNat), (4, fmt.toNat), (6, vd.toNat), (6, va.toNat), (6, vs.toNat), (1, scaled.toNat), (1, 0), (4, other.toNat), (1, ha.toNat), (1, hb.toNat), (1, 0), (3, kind.toNat), (2, sel.toNat)]

/-- Layout of VQNT and the syllables that share it. -/
def layV7 (h : Head) (opc : Nat) (lgm : Lgm) (fmt : Fmt) (vd va vs : VNum) (src : BitVec 4) (ha : Bool) (sel : BitVec 2) : List (Nat × Nat) :=
  headFields h 2 opc ++ [(8, lgm.toNat), (4, fmt.toNat), (6, vd.toNat), (6, va.toNat), (6, vs.toNat), (2, 0), (4, src.toNat), (1, ha.toNat), (5, 0), (2, sel.toNat)]

/-- Layout of VSCL and the syllables that share it. -/
def layV8 (h : Head) (opc : Nat) (lgm : Lgm) (fmt : Fmt) (vd va vs : VNum) (ha hb : Bool) (sel : BitVec 2) : List (Nat × Nat) :=
  headFields h 2 opc ++ [(8, lgm.toNat), (4, fmt.toNat), (6, vd.toNat), (6, va.toNat), (6, vs.toNat), (6, 0), (1, ha.toNat), (1, hb.toNat), (4, 0), (2, sel.toNat)]

/-- Layout of VMRED and the syllables that share it. -/
def layV9 (h : Head) (opc : Nat) (lgm : Lgm) (fmt : Fmt) (vd : VNum) (dn dm : DNum) (k : SRegNo) : List (Nat × Nat) :=
  headFields h 2 opc ++ [(8, lgm.toNat), (4, fmt.toNat), (6, vd.toNat), (2, 0), (4, dn.toNat), (2, 0), (4, dm.toNat), (1, 0), (5, k.toNat), (8, 0)]

/-- Layout of VMSCL and the syllables that share it. -/
def layV10 (h : Head) (opc : Nat) (lgm : Lgm) (fmt : Fmt) (vd va vb : VNum) (k : SRegNo) (ha hb : Bool) : List (Nat × Nat) :=
  headFields h 2 opc ++ [(8, lgm.toNat), (4, fmt.toNat), (6, vd.toNat), (6, va.toNat), (6, vb.toNat), (1, 0), (5, k.toNat), (1, ha.toNat), (1, hb.toNat), (6, 0)]

/-- Layout of VPERM and the syllables that share it. -/
def layV11 (h : Head) (opc : Nat) (lgm : Lgm) (vd va vb : VNum) (ha hb : Bool) : List (Nat × Nat) :=
  headFields h 2 opc ++ [(8, lgm.toNat), (4, 0), (6, vd.toNat), (6, va.toNat), (6, vb.toNat), (6, 0), (1, ha.toNat), (1, hb.toNat), (6, 0)]

/-- Layout of VBCAST and the syllables that share it. -/
def layV12 (h : Head) (opc : Nat) (lgm : Lgm) (fmt : Fmt) (vd : VNum) (sa : SRegNo) : List (Nat × Nat) :=
  headFields h 2 opc ++ [(8, lgm.toNat), (4, fmt.toNat), (6, vd.toNat), (1, 0), (5, sa.toNat), (20, 0)]

/-- Layout of VIOTA and the syllables that share it. -/
def layV13 (h : Head) (opc : Nat) (lgm : Lgm) (fmt : Fmt) (vd : VNum) : List (Nat × Nat) :=
  headFields h 2 opc ++ [(8, lgm.toNat), (4, fmt.toNat), (6, vd.toNat), (26, 0)]

/-- Layout of QCLR and the syllables that share it. -/
def layV14 (h : Head) (opc : Nat) (lgm : Lgm) (q : QNum) : List (Nat × Nat) :=
  headFields h 2 opc ++ [(8, lgm.toNat), (8, 0), (2, q.toNat), (26, 0)]

/-- Layout of QMAC and the syllables that share it. -/
def layV15 (h : Head) (opc : Nat) (lgm : Lgm) (fmt : Fmt) (q : QNum) (va vb : VNum) (ha hb : Bool) : List (Nat × Nat) :=
  headFields h 2 opc ++ [(8, lgm.toNat), (4, fmt.toNat), (4, 0), (2, q.toNat), (6, va.toNat), (6, vb.toNat), (6, 0), (1, ha.toNat), (1, hb.toNat), (6, 0)]

/-- Layout of QADD and the syllables that share it. -/
def layV16 (h : Head) (opc : Nat) (lgm : Lgm) (fmt : Fmt) (q : QNum) (va : VNum) (ha : Bool) : List (Nat × Nat) :=
  headFields h 2 opc ++ [(8, lgm.toNat), (4, fmt.toNat), (4, 0), (2, q.toNat), (6, va.toNat), (12, 0), (1, ha.toNat), (7, 0)]

/-- Layout of QADDQ and the syllables that share it. -/
def layV17 (h : Head) (opc : Nat) (lgm : Lgm) (qd qa : QNum) : List (Nat × Nat) :=
  headFields h 2 opc ++ [(8, lgm.toNat), (8, 0), (2, qd.toNat), (4, 0), (2, qa.toNat), (20, 0)]

/-- Layout of QRND and the syllables that share it. -/
def layV18 (h : Head) (opc : Nat) (lgm : Lgm) (fmt : Fmt) (vd : VNum) (q : QNum) : List (Nat × Nat) :=
  headFields h 2 opc ++ [(8, lgm.toNat), (4, fmt.toNat), (6, vd.toNat), (4, 0), (2, q.toNat), (20, 0)]

/-- Layout of QST and the syllables that share it. -/
def layV19 (h : Head) (opc : Nat) (lgm : Lgm) (vd : VNum) (q : QNum) (hi : Bool) : List (Nat × Nat) :=
  headFields h 2 opc ++ [(8, lgm.toNat), (4, 0), (6, vd.toNat), (4, 0), (2, q.toNat), (19, 0), (1, hi.toNat)]

/-- Layout of JGET and the syllables that share it. -/
def layV20 (h : Head) (opc : Nat) (lgm : Lgm) (fmt : Fmt) (vd va : VNum) (ha fact : Bool) (ci : BitVec 2) : List (Nat × Nat) :=
  headFields h 2 opc ++ [(8, lgm.toNat), (4, fmt.toNat), (6, vd.toNat), (6, va.toNat), (12, 0), (1, ha.toNat), (4, 0), (1, fact.toNat), (2, ci.toNat)]

/-- Layout of JSET and the syllables that share it. -/
def layV21 (h : Head) (opc : Nat) (lgm : Lgm) (vd va : VNum) (ha : Bool) (ci : BitVec 2) : List (Nat × Nat) :=
  headFields h 2 opc ++ [(8, lgm.toNat), (4, 0), (6, vd.toNat), (6, va.toNat), (12, 0), (1, ha.toNat), (5, 0), (2, ci.toNat)]

/-- Layout of MPUSH and the syllables that share it. -/
def layM1 (h : Head) (opc : Nat) (lgm : Lgm) (va : VNum) : List (Nat × Nat) :=
  headFields h 3 opc ++ [(8, lgm.toNat), (4, 0), (6, va.toNat), (26, 0)]

/-- Layout of MSHIFT and the syllables that share it. -/
def layM2 (h : Head) (opc : Nat) : List (Nat × Nat) :=
  headFields h 3 opc ++ [(44, 0)]

/-- Layout of MACC and the syllables that share it. -/
def layM3 (h : Head) (opc : Nat) (fmt : Fmt) (wl : BitVec 11) : List (Nat × Nat) :=
  headFields h 3 opc ++ [(8, 0), (4, fmt.toNat), (15, 0), (11, wl.toNat), (6, 0)]

/-- Layout of MDRAIN and the syllables that share it. -/
def layM4 (h : Head) (opc : Nat) (lgm : Lgm) (fmt : Fmt) (vd : VNum) (row : BitVec 5) : List (Nat × Nat) :=
  headFields h 3 opc ++ [(8, lgm.toNat), (4, fmt.toNat), (6, vd.toNat), (5, row.toNat), (21, 0)]

/-- Layout of MCLR and the syllables that share it. -/
def layM5 (h : Head) (opc : Nat) (row : BitVec 5) (all : Bool) : List (Nat × Nat) :=
  headFields h 3 opc ++ [(18, 0), (5, row.toNat), (15, 0), (1, all.toNat), (5, 0)]

/-- Layout of MSPILL and the syllables that share it. -/
def layM6 (h : Head) (opc : Nat) (row : BitVec 5) (da : DNum) (all : Bool) : List (Nat × Nat) :=
  headFields h 3 opc ++ [(18, 0), (5, row.toNat), (4, da.toNat), (11, 0), (1, all.toNat), (5, 0)]

/-- Layout of MSTAT and the syllables that share it. -/
def layM7 (h : Head) (opc : Nat) (sd : SRegNo) : List (Nat × Nat) :=
  headFields h 3 opc ++ [(13, 0), (5, sd.toNat), (26, 0)]

/-- Layout of LD and the syllables that share it. -/
def layL2 (h : Head) (opc : Nat) (da : DNum) (off : BitVec 24) (width : BitVec 2) (sx : Bool) (data : VNum) (q : Bool) : List (Nat × Nat) :=
  headFields h 4 opc ++ [(4, da.toNat), (24, off.toNat), (3, 0), (2, width.toNat), (1, sx.toNat), (2, 0), (6, data.toNat), (1, q.toNat), (1, 0)]

/-- Layout of ST and the syllables that share it. -/
def layL3 (h : Head) (opc : Nat) (da : DNum) (off : BitVec 24) (width : BitVec 2) (data : VNum) : List (Nat × Nat) :=
  headFields h 4 opc ++ [(4, da.toNat), (24, off.toNat), (3, 0), (2, width.toNat), (3, 0), (6, data.toNat), (2, 0)]

/-- Layout of LDV and the syllables that share it. -/
def layL4 (h : Head) (opc : Nat) (da : DNum) (off : BitVec 24) (lgm : Lgm) (data : VNum) (q : Bool) : List (Nat × Nat) :=
  headFields h 4 opc ++ [(4, da.toNat), (24, off.toNat), (8, lgm.toNat), (6, data.toNat), (1, q.toNat), (1, 0)]

/-- Layout of STV and the syllables that share it. -/
def layL5 (h : Head) (opc : Nat) (da : DNum) (off : BitVec 24) (lgm : Lgm) (data : VNum) : List (Nat × Nat) :=
  headFields h 4 opc ++ [(4, da.toNat), (24, off.toNat), (8, lgm.toNat), (6, data.toNat), (2, 0)]

/-- Layout of LDVS and the syllables that share it. -/
def layL6 (h : Head) (opc : Nat) (da : DNum) (off : BitVec 24) (stride : SRegNo) (ew : BitVec 2) (data : VNum) (q : Bool) : List (Nat × Nat) :=
  headFields h 4 opc ++ [(4, da.toNat), (24, off.toNat), (5, stride.toNat), (2, ew.toNat), (6, data.toNat), (1, q.toNat), (2, 0)]

/-- Layout of STVS and the syllables that share it. -/
def layL7 (h : Head) (opc : Nat) (da : DNum) (off : BitVec 24) (stride : SRegNo) (ew : BitVec 2) (data : VNum) : List (Nat × Nat) :=
  headFields h 4 opc ++ [(4, da.toNat), (24, off.toNat), (5, stride.toNat), (2, ew.toNat), (6, data.toNat), (3, 0)]

/-- Layout of LDQ and the syllables that share it. -/
def layL8 (h : Head) (opc : Nat) (da : DNum) (off : BitVec 24) (lgm : Lgm) (q : QNum) : List (Nat × Nat) :=
  headFields h 4 opc ++ [(4, da.toNat), (24, off.toNat), (8, lgm.toNat), (4, 0), (2, q.toNat), (2, 0)]

/-- Layout of LDA and the syllables that share it. -/
def layL9 (h : Head) (opc : Nat) (da : DNum) (off : BitVec 24) (scope : Scope) (width : BitVec 2) (data : VNum) (q : Bool) : List (Nat × Nat) :=
  headFields h 4 opc ++ [(4, da.toNat), (24, off.toNat), (3, scope.toNat), (2, width.toNat), (3, 0), (6, data.toNat), (1, q.toNat), (1, 0)]

/-- Layout of STL and the syllables that share it. -/
def layL10 (h : Head) (opc : Nat) (da : DNum) (off : BitVec 24) (scope : Scope) (width : BitVec 2) (data : VNum) : List (Nat × Nat) :=
  headFields h 4 opc ++ [(4, da.toNat), (24, off.toNat), (3, scope.toNat), (2, width.toNat), (3, 0), (6, data.toNat), (2, 0)]

/-- Layout of AMO_ADD and the syllables that share it. -/
def layL11 (h : Head) (opc : Nat) (da : DNum) (off : BitVec 24) (rd rs : SRegNo) (q : Bool) : List (Nat × Nat) :=
  headFields h 4 opc ++ [(4, da.toNat), (24, off.toNat), (5, rd.toNat), (5, rs.toNat), (4, 1), (1, q.toNat), (1, 0)]

/-- Layout of AMO_AND and the syllables that share it. -/
def layL12 (h : Head) (opc : Nat) (da : DNum) (off : BitVec 24) (rd rs : SRegNo) (q : Bool) : List (Nat × Nat) :=
  headFields h 4 opc ++ [(4, da.toNat), (24, off.toNat), (5, rd.toNat), (5, rs.toNat), (4, 2), (1, q.toNat), (1, 0)]

/-- Layout of AMO_OR and the syllables that share it. -/
def layL13 (h : Head) (opc : Nat) (da : DNum) (off : BitVec 24) (rd rs : SRegNo) (q : Bool) : List (Nat × Nat) :=
  headFields h 4 opc ++ [(4, da.toNat), (24, off.toNat), (5, rd.toNat), (5, rs.toNat), (4, 3), (1, q.toNat), (1, 0)]

/-- Layout of AMO_XOR and the syllables that share it. -/
def layL14 (h : Head) (opc : Nat) (da : DNum) (off : BitVec 24) (rd rs : SRegNo) (q : Bool) : List (Nat × Nat) :=
  headFields h 4 opc ++ [(4, da.toNat), (24, off.toNat), (5, rd.toNat), (5, rs.toNat), (4, 4), (1, q.toNat), (1, 0)]

/-- Layout of AMO_MIN and the syllables that share it. -/
def layL15 (h : Head) (opc : Nat) (da : DNum) (off : BitVec 24) (rd rs : SRegNo) (q : Bool) : List (Nat × Nat) :=
  headFields h 4 opc ++ [(4, da.toNat), (24, off.toNat), (5, rd.toNat), (5, rs.toNat), (4, 5), (1, q.toNat), (1, 0)]

/-- Layout of AMO_MAX and the syllables that share it. -/
def layL16 (h : Head) (opc : Nat) (da : DNum) (off : BitVec 24) (rd rs : SRegNo) (q : Bool) : List (Nat × Nat) :=
  headFields h 4 opc ++ [(4, da.toNat), (24, off.toNat), (5, rd.toNat), (5, rs.toNat), (4, 6), (1, q.toNat), (1, 0)]

/-- Layout of AMO_MAXU and the syllables that share it. -/
def layL17 (h : Head) (opc : Nat) (da : DNum) (off : BitVec 24) (rd rs : SRegNo) (q : Bool) : List (Nat × Nat) :=
  headFields h 4 opc ++ [(4, da.toNat), (24, off.toNat), (5, rd.toNat), (5, rs.toNat), (4, 7), (1, q.toNat), (1, 0)]

/-- Layout of AMO_MINU and the syllables that share it. -/
def layL18 (h : Head) (opc : Nat) (da : DNum) (off : BitVec 24) (rd rs : SRegNo) (q : Bool) : List (Nat × Nat) :=
  headFields h 4 opc ++ [(4, da.toNat), (24, off.toNat), (5, rd.toNat), (5, rs.toNat), (4, 12), (1, q.toNat), (1, 0)]

/-- Layout of AMO_XCHG and the syllables that share it. -/
def layL19 (h : Head) (opc : Nat) (da : DNum) (off : BitVec 24) (rd rs : SRegNo) (q wide : Bool) : List (Nat × Nat) :=
  headFields h 4 opc ++ [(4, da.toNat), (24, off.toNat), (5, rd.toNat), (5, rs.toNat), (4, 8), (1, q.toNat), (1, wide.toNat)]

/-- Layout of AMO_QADD and the syllables that share it. -/
def layL20 (h : Head) (opc : Nat) (da : DNum) (off : BitVec 24) (q : QNum) : List (Nat × Nat) :=
  headFields h 4 opc ++ [(4, da.toNat), (24, off.toNat), (8, 0), (2, q.toNat), (4, 11), (2, 0)]

/-- Layout of AMO_PADD and the syllables that share it. -/
def layL21 (h : Head) (opc : Nat) (da : DNum) (off : BitVec 24) (rd rs : SRegNo) (fmt : Fmt) (q : Bool) : List (Nat × Nat) :=
  headFields h 4 opc ++ [(4, da.toNat), (24, off.toNat), (5, rd.toNat), (5, rs.toNat), (4, fmt.toNat), (1, q.toNat), (1, 0)]

/-- Layout of AMOCAS and the syllables that share it. -/
def layL22 (h : Head) (opc : Nat) (da : DNum) (off : BitVec 24) (rd rc rn : SRegNo) (q : Bool) : List (Nat × Nat) :=
  headFields h 4 opc ++ [(4, da.toNat), (24, off.toNat), (5, rd.toNat), (5, rc.toNat), (5, rn.toNat), (1, q.toNat)]

/-- Layout of FENCE and the syllables that share it. -/
def layL23 (h : Head) (opc : Nat) (scope : Scope) : List (Nat × Nat) :=
  headFields h 4 opc ++ [(28, 0), (3, scope.toNat), (13, 0)]

/-- Layout of DRAIN and the syllables that share it. -/
def layL24 (h : Head) (opc : Nat) : List (Nat × Nat) :=
  headFields h 4 opc ++ [(44, 0)]

/-- Layout of PREF and the syllables that share it. -/
def layL25 (h : Head) (opc : Nat) (da : DNum) (off : BitVec 24) : List (Nat × Nat) :=
  headFields h 4 opc ++ [(4, da.toNat), (24, off.toNat), (16, 0)]

/-- Layout of CPY and the syllables that share it. -/
def layE1 (h : Head) (opc : Nat) (eq : QNum) (start : BitVec 12) (dst src : DNum) (len : SRegNo) : List (Nat × Nat) :=
  headFields h 5 opc ++ [(2, eq.toNat), (12, start.toNat), (4, dst.toNat), (4, src.toNat), (5, len.toNat), (17, 0)]

/-- Layout of GTH and the syllables that share it. -/
def layE2 (h : Head) (opc : Nat) (eq : QNum) (start : BitVec 12) (dst base : DNum) (idx : VNum) (count : SRegNo) (esz : BitVec 2) : List (Nat × Nat) :=
  headFields h 5 opc ++ [(2, eq.toNat), (12, start.toNat), (4, dst.toNat), (4, base.toNat), (6, idx.toNat), (5, count.toNat), (2, esz.toNat), (9, 0)]

/-- Layout of WLD and the syllables that share it. -/
def layE3 (h : Head) (opc : Nat) (eq : QNum) (start : BitVec 12) (src : DNum) (line count : SRegNo) : List (Nat × Nat) :=
  headFields h 5 opc ++ [(2, eq.toNat), (12, start.toNat), (4, src.toNat), (5, line.toNat), (5, count.toNat), (16, 0)]

/-- Layout of RWR and the syllables that share it. -/
def layE4 (h : Head) (opc : Nat) (eq : QNum) (start : BitVec 12) (dst src : DNum) (len : SRegNo) (flag : DNum) (lossy : Bool) (mask : DNum) : List (Nat × Nat) :=
  headFields h 5 opc ++ [(2, eq.toNat), (12, start.toNat), (4, dst.toNat), (4, src.toNat), (5, len.toNat), (4, flag.toNat), (1, lossy.toNat), (4, mask.toNat), (8, 0)]

/-- Layout of RRD and the syllables that share it. -/
def layE5 (h : Head) (opc : Nat) (eq : QNum) (start : BitVec 12) (src : DNum) (rq : QNum) (len : SRegNo) : List (Nat × Nat) :=
  headFields h 5 opc ++ [(2, eq.toNat), (12, start.toNat), (4, src.toNat), (2, rq.toNat), (5, len.toNat), (19, 0)]

/-- Layout of COLL_GRP and the syllables that share it. -/
def layE6 (h : Head) (opc : Nat) (eq : QNum) (start : BitVec 12) (dst src : DNum) (len : SRegNo) (flag : DNum) (grp : SRegNo) : List (Nat × Nat) :=
  headFields h 5 opc ++ [(2, eq.toNat), (12, start.toNat), (4, dst.toNat), (4, src.toNat), (5, len.toNat), (4, flag.toNat), (4, 0), (5, grp.toNat), (4, 0)]

/-- Layout of COLL_MOD and the syllables that share it. -/
def layE7 (h : Head) (opc : Nat) (eq : QNum) (start : BitVec 12) (dst src : DNum) (len : SRegNo) (flag : DNum) (grp : SRegNo) : List (Nat × Nat) :=
  headFields h 5 opc ++ [(2, eq.toNat), (12, start.toNat), (4, dst.toNat), (4, src.toNat), (5, len.toNat), (4, flag.toNat), (4, 1), (5, grp.toNat), (4, 0)]

/-- Layout of COLL_LOSSY and the syllables that share it. -/
def layE8 (h : Head) (opc : Nat) (eq : QNum) (start : BitVec 12) (dst src : DNum) (len : SRegNo) (flag : DNum) (grp : SRegNo) : List (Nat × Nat) :=
  headFields h 5 opc ++ [(2, eq.toNat), (12, start.toNat), (4, dst.toNat), (4, src.toNat), (5, len.toNat), (4, flag.toNat), (4, 2), (5, grp.toNat), (4, 0)]

/-- Layout of QFENCE and the syllables that share it. -/
def layE9 (h : Head) (opc : Nat) (start : BitVec 12) (qmask : BitVec 4) : List (Nat × Nat) :=
  headFields h 5 opc ++ [(2, 0), (12, start.toNat), (4, qmask.toNat), (26, 0)]

/-- Layout of ECLOSE and the syllables that share it. -/
def layE10 (h : Head) (opc : Nat) : List (Nat × Nat) :=
  headFields h 5 opc ++ [(44, 0)]

/-- Layout of EWAIT and the syllables that share it. -/
def layE11 (h : Head) (opc : Nat) (n : BitVec 8) : List (Nat × Nat) :=
  headFields h 5 opc ++ [(14, 0), (8, n.toNat), (22, 0)]

/-- Layout of ESTAT and the syllables that share it. -/
def layE12 (h : Head) (opc : Nat) (eq : QNum) (rd : SRegNo) : List (Nat × Nat) :=
  headFields h 5 opc ++ [(2, eq.toNat), (12, 0), (5, rd.toNat), (25, 0)]

/-- Layout of POP_W and the syllables that share it. -/
def layX3 (h : Head) (opc : Nat) (d : VNum) (rq : QNum) (kind : BitVec 2) : List (Nat × Nat) :=
  headFields h 6 opc ++ [(12, 0), (6, d.toNat), (12, 0), (2, rq.toNat), (2, kind.toNat), (10, 0)]

/-- Layout of POP_F and the syllables that share it. -/
def layX4 (h : Head) (opc : Nat) (d : VNum) (rq : QNum) (kind : BitVec 2) (pn : PNum) : List (Nat × Nat) :=
  headFields h 6 opc ++ [(12, 0), (6, d.toNat), (12, 0), (2, rq.toNat), (2, kind.toNat), (3, pn.toNat), (6, 0), (1, 1)]

/-- Layout of PACK and the syllables that share it. -/
def layX5 (h : Head) (opc : Nat) (fmt : Fmt) (vd va vb : VNum) (src : BitVec 4) : List (Nat × Nat) :=
  headFields h 6 opc ++ [(8, 0), (4, fmt.toNat), (6, vd.toNat), (6, va.toNat), (6, vb.toNat), (10, 0), (4, src.toNat)]

/-- Layout of UNPK and the syllables that share it. -/
def layX6 (h : Head) (opc : Nat) (fmt : Fmt) (vd va vs : VNum) (sel : BitVec 2) (scaled : Bool) (src : BitVec 4) : List (Nat × Nat) :=
  headFields h 6 opc ++ [(8, 0), (4, fmt.toNat), (6, vd.toNat), (6, va.toNat), (6, vs.toNat), (2, sel.toNat), (7, 0), (1, scaled.toNat), (4, src.toNat)]

/-- Layout of XLG and the syllables that share it. -/
def layX7 (h : Head) (opc : Nat) (lgm : Lgm) (vd va : VNum) (bcast : Bool) (rot : BitVec 3) : List (Nat × Nat) :=
  headFields h 6 opc ++ [(8, lgm.toNat), (4, 0), (6, vd.toNat), (6, va.toNat), (16, 0), (1, bcast.toNat), (3, rot.toNat)]

/-- Layout of CHK and the syllables that share it. -/
def layX8 (h : Head) (opc : Nat) (lgm : Lgm) (va : VNum) : List (Nat × Nat) :=
  headFields h 6 opc ++ [(8, lgm.toNat), (10, 0), (6, va.toNat), (20, 0)]

/-- Layout of MOVV and the syllables that share it. -/
def layX9 (h : Head) (opc : Nat) (lgm : Lgm) (vd va : VNum) : List (Nat × Nat) :=
  headFields h 6 opc ++ [(8, lgm.toNat), (4, 0), (6, vd.toNat), (6, va.toNat), (20, 0)]

/-- Layout of MOVS and the syllables that share it. -/
def layX10 (h : Head) (opc : Nat) (sd : SRegNo) (va : VNum) (lane : BitVec 7) : List (Nat × Nat) :=
  headFields h 6 opc ++ [(13, 0), (5, sd.toNat), (6, va.toNat), (13, 0), (7, lane.toNat)]

/-- Layout of GETC and the syllables that share it. -/
def layX11 (h : Head) (opc : Nat) (sd : SRegNo) (idx : BitVec 8) : List (Nat × Nat) :=
  headFields h 6 opc ++ [(13, 0), (5, sd.toNat), (18, 0), (8, idx.toNat)]

/-- Layout of SETC and the syllables that share it. -/
def layX12 (h : Head) (opc : Nat) (sa : SRegNo) (idx : BitVec 8) : List (Nat × Nat) :=
  headFields h 6 opc ++ [(19, 0), (5, sa.toNat), (12, 0), (8, idx.toNat)]

/-- Layout of FEAT and the syllables that share it. -/
def layX13 (h : Head) (opc : Nat) (sd : SRegNo) (n : BitVec 12) : List (Nat × Nat) :=
  headFields h 6 opc ++ [(13, 0), (5, sd.toNat), (14, 0), (12, n.toNat)]

/-- Layout of REP and the syllables that share it. -/
def layP1 (h : Head) (opc : Nat) (cnt : BitVec 6) (str : Bool) (step : BitVec 28) : List (Nat × Nat) :=
  headFields h 7 opc ++ [(6, cnt.toNat), (1, str.toNat), (1, 0), (28, step.toNat), (8, 0)]

/-- Layout of EXT and the syllables that share it. -/
def layP2 (h : Head) (opc : Nat) (value : BitVec 32) : List (Nat × Nat) :=
  headFields h 7 opc ++ [(32, value.toNat), (12, 0)]

/-- The fields of a syllable, most significant first; none where the operation is not a syllable. -/
def fieldsOf : Instr → Option (List (Nat × Nat))
  | .add h rd ra rb => some (layS1 h 0x00 rd ra rb)
  | .sub h rd ra rb => some (layS1 h 0x01 rd ra rb)
  | .mul h rd ra rb => some (layS1 h 0x02 rd ra rb)
  | .mulh h rd ra rb => some (layS1 h 0x03 rd ra rb)
  | .mulhu h rd ra rb => some (layS1 h 0x04 rd ra rb)
  | .div h rd ra rb => some (layS1 h 0x05 rd ra rb)
  | .divu h rd ra rb => some (layS1 h 0x06 rd ra rb)
  | .rem h rd ra rb => some (layS1 h 0x07 rd ra rb)
  | .remu h rd ra rb => some (layS1 h 0x08 rd ra rb)
  | .and h rd ra rb => some (layS1 h 0x09 rd ra rb)
  | .or h rd ra rb => some (layS1 h 0x0A rd ra rb)
  | .xor h rd ra rb => some (layS1 h 0x0B rd ra rb)
  | .andn h rd ra rb => some (layS1 h 0x0C rd ra rb)
  | .shl h rd ra rb => some (layS1 h 0x0D rd ra rb)
  | .shr h rd ra rb => some (layS1 h 0x0E rd ra rb)
  | .sar h rd ra rb => some (layS1 h 0x0F rd ra rb)
  | .rot h rd ra rb => some (layS1 h 0x10 rd ra rb)
  | .min h rd ra rb => some (layS1 h 0x11 rd ra rb)
  | .max h rd ra rb => some (layS1 h 0x12 rd ra rb)
  | .minu h rd ra rb => some (layS1 h 0x13 rd ra rb)
  | .maxu h rd ra rb => some (layS1 h 0x14 rd ra rb)
  | .clz h rd ra => some (layS2 h 0x18 rd ra)
  | .ctz h rd ra => some (layS2 h 0x19 rd ra)
  | .popc h rd ra => some (layS2 h 0x1A rd ra)
  | .mov h rd ra => some (layS2 h 0x1B rd ra)
  | .addi h rd ra imm => some (layS3 h 0x20 rd ra imm)
  | .andi h rd ra imm => some (layS3 h 0x21 rd ra imm)
  | .ori h rd ra imm => some (layS3 h 0x22 rd ra imm)
  | .xori h rd ra imm => some (layS3 h 0x23 rd ra imm)
  | .shli h rd ra imm => some (layS3 h 0x24 rd ra imm)
  | .shri h rd ra imm => some (layS3 h 0x25 rd ra imm)
  | .sari h rd ra imm => some (layS3 h 0x26 rd ra imm)
  | .li h rd imm => some (layS4 h 0x27 rd imm)
  | .lih h rd imm => some (layS4 h 0x28 rd imm)
  | .bext h rd ra pos len => some (layS5 h 0x2C rd ra pos len)
  | .bins h rd ra pos len => some (layS5 h 0x2D rd ra pos len)
  | .sel h rd ra rb ps => some (layS6 h 0x2E rd ra rb ps)
  | .cmp h pd ra rb cond => some (layS7 h 0x30 pd ra rb cond)
  | .cmpi h pd ra cond imm => some (layS8 h 0x31 pd ra cond imm)
  | .addd h dd da db => some (layS9 h 0x38 dd da db)
  | .subd h dd da db => some (layS9 h 0x39 dd da db)
  | .adddi h dd da imm => some (layS10 h 0x3A dd da imm)
  | .shld h dd da rb => some (layS11 h 0x3B dd da rb)
  | .tagd h dd da rs fld => some (layS12 h 0x3C dd da rs fld)
  | .tagx h da rs fld => some (layS13 h 0x3C da rs fld)
  | .pand h pd pa pb => some (layS14 h 0x40 pd pa pb)
  | .por h pd pa pb => some (layS14 h 0x41 pd pa pb)
  | .pxor h pd pa pb => some (layS14 h 0x42 pd pa pb)
  | .pnot h pd pa => some (layS15 h 0x43 pd pa)
  | .pmov h pd pa => some (layS15 h 0x44 pd pa)
  | .pany h pd pa => some (layS15 h 0x45 pd pa)
  | .pall h pd pa => some (layS15 h 0x46 pd pa)
  | .pset h pd lgm => some (layS16 h 0x47 pd lgm)
  | .pcnt h rd pa => some (layS17 h 0x48 rd pa)
  | .ppack h vd => some (layX1 h 0x0A vd)
  | .punpk h va => some (layX2 h 0x0B va)
  | .nopb h => some (layB1 h 0x00)
  | .br h disp => some (layB2 h 0x01 disp)
  | .brc h ra rb cond disp => some (layB3 h 0x02 ra rb cond disp)
  | .brz h ra disp => some (layB4 h 0x03 ra disp)
  | .jmp h da => some (layB5 h 0x04 da)
  | .call h disp => some (layB2 h 0x05 disp)
  | .callr h da => some (layB5 h 0x06 da)
  | .ret h => some (layB1 h 0x07)
  | .loop h count endDisp => some (layB6 h 0x08 count endDisp)
  | .loopr h ra endDisp => some (layB7 h 0x09 ra endDisp)
  | .lbrk h => some (layB1 h 0x0A)
  | .trap h imm => some (layB8 h 0x10 imm)
  | .sysc h imm => some (layB8 h 0x11 imm)
  | .eret h => some (layB1 h 0x12)
  | .halt h => some (layB1 h 0xFF)
  | .exit h => some (layB1 h 0x18)
  | .exits h keepq entry => some (layB9 h 0x19 keepq entry)
  | .spawn h rd da => some (layB10 h 0x1A rd da)
  | .bar h gidx => some (layB11 h 0x1B gidx)
  | .waitge h da off scope rs => some (layL1 h 0x10 da off scope rs)
  | .waiteq h da off scope rs => some (layL1 h 0x11 da off scope rs)
  | .vadd h lgm fmt vd va vb ha hb => some (layV1 h 0x00 lgm fmt vd va vb ha hb)
  | .vsub h lgm fmt vd va vb ha hb => some (layV1 h 0x01 lgm fmt vd va vb ha hb)
  | .vmul h lgm fmt vd va vb ha hb => some (layV1 h 0x02 lgm fmt vd va vb ha hb)
  | .vdiv h lgm fmt vd va vb ha hb => some (layV1 h 0x06 lgm fmt vd va vb ha hb)
  | .vfma h lgm fmt vd va vb vc ha hb hc => some (layV2 h 0x03 lgm fmt vd va vb vc ha hb hc)
  | .vfms h lgm fmt vd va vb vc ha hb hc => some (layV2 h 0x04 lgm fmt vd va vb vc ha hb hc)
  | .vfnma h lgm fmt vd va vb vc ha hb hc => some (layV2 h 0x05 lgm fmt vd va vb vc ha hb hc)
  | .vsqrt h lgm fmt vd va ha => some (layV3 h 0x08 lgm fmt vd va ha)
  | .vrsqrt h lgm fmt vd va ha => some (layV3 h 0x09 lgm fmt vd va ha)
  | .vrcp h lgm fmt vd va ha => some (layV3 h 0x0A lgm fmt vd va ha)
  | .vexp h lgm fmt vd va ha => some (layV3 h 0x0B lgm fmt vd va ha)
  | .vexp2 h lgm fmt vd va ha => some (layV3 h 0x0C lgm fmt vd va ha)
  | .vlog h lgm fmt vd va ha => some (layV3 h 0x0D lgm fmt vd va ha)
  | .vlog2 h lgm fmt vd va ha => some (layV3 h 0x0E lgm fmt vd va ha)
  | .vsin h lgm fmt vd va ha => some (layV3 h 0x0F lgm fmt vd va ha)
  | .vcos h lgm fmt vd va ha => some (layV3 h 0x10 lgm fmt vd va ha)
  | .vtanh h lgm fmt vd va ha => some (layV3 h 0x11 lgm fmt vd va ha)
  | .vsigm h lgm fmt vd va ha => some (layV3 h 0x12 lgm fmt vd va ha)
  | .vmin h lgm fmt vd va vb ha hb => some (layV1 h 0x14 lgm fmt vd va vb ha hb)
  | .vmax h lgm fmt vd va vb ha hb => some (layV1 h 0x15 lgm fmt vd va vb ha hb)
  | .vabs h lgm fmt vd va ha => some (layV3 h 0x16 lgm fmt vd va ha)
  | .vneg h lgm fmt vd va ha => some (layV3 h 0x17 lgm fmt vd va ha)
  | .vround h lgm fmt vd va ha => some (layV3 h 0x1B lgm fmt vd va ha)
  | .vclamp h lgm fmt vd va vb vc ha hb hc => some (layV2 h 0x1A lgm fmt vd va vb vc ha hb hc)
  | .vcmp h lgm fmt pd va vb ha hb cond => some (layV4 h 0x18 lgm fmt pd va vb ha hb cond)
  | .vsel h lgm fmt vd va vb ha hb ps => some (layV5 h 0x19 lgm fmt vd va vb ha hb ps)
  | .vcvt h lgm fmt vd va vs scaled other ha hb kind sel => some (layV6 h 0x20 lgm fmt vd va vs scaled other ha hb kind sel)
  | .vqnt h lgm fmt vd va vs src ha sel => some (layV7 h 0x21 lgm fmt vd va vs src ha sel)
  | .vscl h lgm fmt vd va vs ha hb sel => some (layV8 h 0x22 lgm fmt vd va vs ha hb sel)
  | .vred h lgm fmt vd va ha => some (layV3 h 0x23 lgm fmt vd va ha)
  | .vmred h lgm fmt vd dn dm k => some (layV9 h 0x24 lgm fmt vd dn dm k)
  | .vmscl h lgm fmt vd va vb k ha hb => some (layV10 h 0x25 lgm fmt vd va vb k ha hb)
  | .viadd h lgm fmt vd va vb ha hb => some (layV1 h 0x40 lgm fmt vd va vb ha hb)
  | .visub h lgm fmt vd va vb ha hb => some (layV1 h 0x41 lgm fmt vd va vb ha hb)
  | .vimul h lgm fmt vd va vb ha hb => some (layV1 h 0x42 lgm fmt vd va vb ha hb)
  | .vimin h lgm fmt vd va vb ha hb => some (layV1 h 0x43 lgm fmt vd va vb ha hb)
  | .vimax h lgm fmt vd va vb ha hb => some (layV1 h 0x44 lgm fmt vd va vb ha hb)
  | .vand h lgm fmt vd va vb ha hb => some (layV1 h 0x45 lgm fmt vd va vb ha hb)
  | .vor h lgm fmt vd va vb ha hb => some (layV1 h 0x46 lgm fmt vd va vb ha hb)
  | .vxor h lgm fmt vd va vb ha hb => some (layV1 h 0x47 lgm fmt vd va vb ha hb)
  | .vnot h lgm fmt vd va ha => some (layV3 h 0x48 lgm fmt vd va ha)
  | .vshl h lgm fmt vd va vb ha hb => some (layV1 h 0x49 lgm fmt vd va vb ha hb)
  | .vshr h lgm fmt vd va vb ha hb => some (layV1 h 0x4A lgm fmt vd va vb ha hb)
  | .vsar h lgm fmt vd va vb ha hb => some (layV1 h 0x4B lgm fmt vd va vb ha hb)
  | .vicmp h lgm fmt pd va vb ha hb cond => some (layV4 h 0x4C lgm fmt pd va vb ha hb cond)
  | .vperm h lgm vd va vb ha hb => some (layV11 h 0x4D lgm vd va vb ha hb)
  | .vbcast h lgm fmt vd sa => some (layV12 h 0x4E lgm fmt vd sa)
  | .viota h lgm fmt vd => some (layV13 h 0x4F lgm fmt vd)
  | .qclr h lgm q => some (layV14 h 0x60 lgm q)
  | .qmac h lgm fmt q va vb ha hb => some (layV15 h 0x61 lgm fmt q va vb ha hb)
  | .qmsb h lgm fmt q va vb ha hb => some (layV15 h 0x62 lgm fmt q va vb ha hb)
  | .qadd h lgm fmt q va ha => some (layV16 h 0x63 lgm fmt q va ha)
  | .qaddq h lgm qd qa => some (layV17 h 0x64 lgm qd qa)
  | .qrnd h lgm fmt vd q => some (layV18 h 0x65 lgm fmt vd q)
  | .qneg h lgm q => some (layV14 h 0x66 lgm q)
  | .qst h lgm vd q hi => some (layV19 h 0x67 lgm vd q hi)
  | .qmov h lgm qd qa => some (layV17 h 0x68 lgm qd qa)
  | .jseed h lgm vd va vb ha hb => some (layV11 h 0x70 lgm vd va vb ha hb)
  | .jget h lgm fmt vd va ha fact ci => some (layV20 h 0x71 lgm fmt vd va ha fact ci)
  | .jset h lgm vd va ha ci => some (layV21 h 0x72 lgm vd va ha ci)
  | .jscale h lgm fmt vd va vt ha hb => some (layV1 h 0x73 lgm fmt vd va vt ha hb)
  | .mpush h lgm va => some (layM1 h 0x00 lgm va)
  | .mshift h => some (layM2 h 0x01)
  | .macc h fmt wl => some (layM3 h 0x02 fmt wl)
  | .mdrain h lgm fmt vd row => some (layM4 h 0x03 lgm fmt vd row)
  | .mclr h row all => some (layM5 h 0x04 row all)
  | .mspill h row da all => some (layM6 h 0x05 row da all)
  | .mfill h row da all => some (layM6 h 0x06 row da all)
  | .mstat h sd => some (layM7 h 0x07 sd)
  | .ld h da off width sx data q => some (layL2 h 0x00 da off width sx data q)
  | .st h da off width data => some (layL3 h 0x01 da off width data)
  | .ldv h da off lgm data q => some (layL4 h 0x02 da off lgm data q)
  | .stv h da off lgm data => some (layL5 h 0x03 da off lgm data)
  | .ldvs h da off stride ew data q => some (layL6 h 0x04 da off stride ew data q)
  | .stvs h da off stride ew data => some (layL7 h 0x05 da off stride ew data)
  | .ldq h da off lgm q => some (layL8 h 0x06 da off lgm q)
  | .stq h da off lgm q => some (layL8 h 0x07 da off lgm q)
  | .lda h da off scope width data q => some (layL9 h 0x08 da off scope width data q)
  | .stl h da off scope width data => some (layL10 h 0x09 da off scope width data)
  | .amoAdd h da off rd rs q => some (layL11 h 0x0A da off rd rs q)
  | .amoAnd h da off rd rs q => some (layL12 h 0x0A da off rd rs q)
  | .amoOr h da off rd rs q => some (layL13 h 0x0A da off rd rs q)
  | .amoXor h da off rd rs q => some (layL14 h 0x0A da off rd rs q)
  | .amoMin h da off rd rs q => some (layL15 h 0x0A da off rd rs q)
  | .amoMax h da off rd rs q => some (layL16 h 0x0A da off rd rs q)
  | .amoMaxu h da off rd rs q => some (layL17 h 0x0A da off rd rs q)
  | .amoMinu h da off rd rs q => some (layL18 h 0x0A da off rd rs q)
  | .amoXchg h da off rd rs q wide => some (layL19 h 0x0A da off rd rs q wide)
  | .amoQadd h da off q => some (layL20 h 0x0A da off q)
  | .amoPadd h da off rd rs fmt q => some (layL21 h 0x0B da off rd rs fmt q)
  | .amocas h da off rd rc rn q => some (layL22 h 0x0C da off rd rc rn q)
  | .amocasD h da off rd rc rn q => some (layL22 h 0x0D da off rd rc rn q)
  | .fence h scope => some (layL23 h 0x18 scope)
  | .drain h => some (layL24 h 0x19)
  | .pref h da off => some (layL25 h 0x1A da off)
  | .cpy h eq start dst src len => some (layE1 h 0x00 eq start dst src len)
  | .gth h eq start dst base idx count esz => some (layE2 h 0x01 eq start dst base idx count esz)
  | .sct h eq start dst base idx count esz => some (layE2 h 0x02 eq start dst base idx count esz)
  | .wld h eq start src line count => some (layE3 h 0x03 eq start src line count)
  | .rwr h eq start dst src len flag lossy mask => some (layE4 h 0x04 eq start dst src len flag lossy mask)
  | .rwg h eq start dst src len flag lossy mask => some (layE4 h 0x05 eq start dst src len flag lossy mask)
  | .rrd h eq start src rq len => some (layE5 h 0x06 eq start src rq len)
  | .collGrp h eq start dst src len flag grp => some (layE6 h 0x07 eq start dst src len flag grp)
  | .collMod h eq start dst src len flag grp => some (layE7 h 0x07 eq start dst src len flag grp)
  | .collLossy h eq start dst src len flag grp => some (layE8 h 0x07 eq start dst src len flag grp)
  | .qfence h start qmask => some (layE9 h 0x08 start qmask)
  | .eclose h => some (layE10 h 0x10)
  | .ewait h n => some (layE11 h 0x11 n)
  | .estat h eq rd => some (layE12 h 0x12 eq rd)
  | .popW h d rq kind => some (layX3 h 0x00 d rq kind)
  | .popF h d rq kind pn => some (layX4 h 0x00 d rq kind pn)
  | .pack h fmt vd va vb src => some (layX5 h 0x01 fmt vd va vb src)
  | .unpk h fmt vd va vs sel scaled src => some (layX6 h 0x02 fmt vd va vs sel scaled src)
  | .xlg h lgm vd va bcast rot => some (layX7 h 0x03 lgm vd va bcast rot)
  | .chk h lgm va => some (layX8 h 0x04 lgm va)
  | .movv h lgm vd va => some (layX9 h 0x05 lgm vd va)
  | .movs h sd va lane => some (layX10 h 0x06 sd va lane)
  | .getc h sd idx => some (layX11 h 0x07 sd idx)
  | .setc h sa idx => some (layX12 h 0x08 sa idx)
  | .feat h sd n => some (layX13 h 0x09 sd n)
  | .rep h cnt str step => some (layP1 h 0x00 cnt str step)
  | .ext h value => some (layP2 h 0x01 value)
  | .dlaunch _ _ => none
  | .devq _ _ => none
  | .moduleStart _ _ _ _ _ _ => none
  | .stageTimeLimit => none
  | .imageCheckRequest _ _ _ => none
  | .attestationLogRequest _ => none
  | .bootComplete => none
  | .start _ => none
  | .hostattn _ _ => none
  | .dumpvalidRelease _ => none
  | .registerWrite _ _ _ => none
  | .droopRead _ _ _ => none
  | .sensorSample _ _ _ _ => none
  | .droopAlarm _ _ _ => none
  | .droopFatal _ _ _ => none
  | .fatalError _ _ => none
  | .benalePanic => none
  | .fireflyWatchdog => none
  | .dumpDone => none
  | .moduleReset => none
  | .powerOff => none
  | .grenzorLoad _ _ _ _ => none
  | .unload _ _ => none
  | .partitionReset _ => none
  | .partitionReboot _ => none
  | .release _ _ => none
  | .assign _ _ => none
  | .coreOnline _ => none
  | .coreOffline _ => none
  | .termiteUnit _ => none
  | .termiteKeySlots _ => none
  | .vdcfg _ _ _ _ _ _ => none
  | .refill _ => none
  | .dispatchSelect _ _ => none
  | .swarmComplete _ _ => none
  | .eventPost _ => none
  | .quantumExpiry _ _ => none
  | .waitQuantumExpiry _ _ => none
  | .preemptRequest _ _ => none
  | .hardStop _ _ => none
  | .preempt4096Expiry _ _ => none
  | .waitYield _ => none
  | .debugResume _ _ => none
  | .engineCommandStart _ _ => none
  | .engineCommandComplete _ _ _ => none
  | .transferClose _ _ _ => none
  | .replyArrival _ => none
  | .storeAck _ => none
  | .waitConditionMet _ _ => none
  | .barLeave _ _ => none
  | .remoteAccessArrival _ => none
  | .memsideAccess _ => none
  | .tlbInvalidate _ _ _ _ => none
  | .migrate _ _ _ _ _ _ => none
  | .migrationCopyDone _ _ _ => none
  | .migrationSwitch _ _ _ => none
  | .pinExpiry _ _ _ => none
  | .windowStart => none
  | .flitReceive _ _ _ => none
  | .nak _ _ _ => none
  | .ack _ _ _ => none
  | .creditReturn _ _ _ => none
  | .downMapUpdate _ _ _ _ => none
  | .downMapEffect _ => none
  | .portResetNotice _ _ => none
  | .discardNotice _ _ _ _ _ => none
  | .remoteWriteRequest _ => none
  | .lossyWriteRequest _ => none
  | .dataBlockArrival _ => none
  | .flagIncrement _ _ _ => none
  | .lossyDeadline _ _ _ => none
  | .heldBlockExpiry _ _ _ => none
  | .storeWrite _ => none
  | .remoteLoad _ => none
  | .remoteAtomic _ => none
  | .watch _ => none
  | .watchSatisfied _ _ _ => none
  | .completionReply _ => none
  | .verdict _ => none
  | .resendTimeout _ _ => none
  | .peerLeave _ _ => none
  | .recallAutoAck _ _ => none
  | .grantHandoff _ _ _ => none
  | .grant _ => none
  | .grantRecall _ => none
  | .recallAck _ => none
  | .fabtestArm _ _ => none
  | .qcfgArm _ _ => none
  | .popWTimeout _ _ => none
  | .saveComplete _ _ => none
  | .restoreComplete _ _ => none
  | .meshSlot _ => none
  | .hostattnCodeRead _ => none

/-- The syllable of a tile instruction; zero for an operation that is not a syllable. -/
def encode (i : Instr) : DWord :=
  match fieldsOf i with
  | some l => BitVec.ofNat 64 (packFields l)
  | none => 0

/-- The head of a syllable (R228). -/
def headBits (w : Nat) : Head :=
  { last := flag w 63, stall := bfld w 57 3, old := flag w 56, pred := bfld w 45 3, psns := flag w 44 }

/-- Class S (code 0) by opcode (R242), reading only the fields that the opcode uses. -/
def looseS (w : Nat) : Option Instr :=
  let h := headBits w
  match fld w 48 8 with
  | 0x00 => some (.add h (bfld w 39 5) (bfld w 34 5) (bfld w 29 5))
  | 0x01 => some (.sub h (bfld w 39 5) (bfld w 34 5) (bfld w 29 5))
  | 0x02 => some (.mul h (bfld w 39 5) (bfld w 34 5) (bfld w 29 5))
  | 0x03 => some (.mulh h (bfld w 39 5) (bfld w 34 5) (bfld w 29 5))
  | 0x04 => some (.mulhu h (bfld w 39 5) (bfld w 34 5) (bfld w 29 5))
  | 0x05 => some (.div h (bfld w 39 5) (bfld w 34 5) (bfld w 29 5))
  | 0x06 => some (.divu h (bfld w 39 5) (bfld w 34 5) (bfld w 29 5))
  | 0x07 => some (.rem h (bfld w 39 5) (bfld w 34 5) (bfld w 29 5))
  | 0x08 => some (.remu h (bfld w 39 5) (bfld w 34 5) (bfld w 29 5))
  | 0x09 => some (.and h (bfld w 39 5) (bfld w 34 5) (bfld w 29 5))
  | 0x0A => some (.or h (bfld w 39 5) (bfld w 34 5) (bfld w 29 5))
  | 0x0B => some (.xor h (bfld w 39 5) (bfld w 34 5) (bfld w 29 5))
  | 0x0C => some (.andn h (bfld w 39 5) (bfld w 34 5) (bfld w 29 5))
  | 0x0D => some (.shl h (bfld w 39 5) (bfld w 34 5) (bfld w 29 5))
  | 0x0E => some (.shr h (bfld w 39 5) (bfld w 34 5) (bfld w 29 5))
  | 0x0F => some (.sar h (bfld w 39 5) (bfld w 34 5) (bfld w 29 5))
  | 0x10 => some (.rot h (bfld w 39 5) (bfld w 34 5) (bfld w 29 5))
  | 0x11 => some (.min h (bfld w 39 5) (bfld w 34 5) (bfld w 29 5))
  | 0x12 => some (.max h (bfld w 39 5) (bfld w 34 5) (bfld w 29 5))
  | 0x13 => some (.minu h (bfld w 39 5) (bfld w 34 5) (bfld w 29 5))
  | 0x14 => some (.maxu h (bfld w 39 5) (bfld w 34 5) (bfld w 29 5))
  | 0x18 => some (.clz h (bfld w 39 5) (bfld w 34 5))
  | 0x19 => some (.ctz h (bfld w 39 5) (bfld w 34 5))
  | 0x1A => some (.popc h (bfld w 39 5) (bfld w 34 5))
  | 0x1B => some (.mov h (bfld w 39 5) (bfld w 34 5))
  | 0x20 => some (.addi h (bfld w 39 5) (bfld w 34 5) (bfld w 10 24))
  | 0x21 => some (.andi h (bfld w 39 5) (bfld w 34 5) (bfld w 10 24))
  | 0x22 => some (.ori h (bfld w 39 5) (bfld w 34 5) (bfld w 10 24))
  | 0x23 => some (.xori h (bfld w 39 5) (bfld w 34 5) (bfld w 10 24))
  | 0x24 => some (.shli h (bfld w 39 5) (bfld w 34 5) (bfld w 10 24))
  | 0x25 => some (.shri h (bfld w 39 5) (bfld w 34 5) (bfld w 10 24))
  | 0x26 => some (.sari h (bfld w 39 5) (bfld w 34 5) (bfld w 10 24))
  | 0x27 => some (.li h (bfld w 39 5) (bfld w 10 24))
  | 0x28 => some (.lih h (bfld w 39 5) (bfld w 10 24))
  | 0x2C => some (.bext h (bfld w 39 5) (bfld w 34 5) (bfld w 29 5) (bfld w 24 5))
  | 0x2D => some (.bins h (bfld w 39 5) (bfld w 34 5) (bfld w 29 5) (bfld w 24 5))
  | 0x2E => some (.sel h (bfld w 39 5) (bfld w 34 5) (bfld w 29 5) (bfld w 26 3))
  | 0x30 => some (.cmp h (bfld w 41 3) (bfld w 36 5) (bfld w 31 5) (bfld w 27 4))
  | 0x31 => some (.cmpi h (bfld w 41 3) (bfld w 36 5) (bfld w 32 4) (bfld w 8 24))
  | 0x38 => some (.addd h (bfld w 40 4) (bfld w 36 4) (bfld w 32 4))
  | 0x39 => some (.subd h (bfld w 40 4) (bfld w 36 4) (bfld w 32 4))
  | 0x3A => some (.adddi h (bfld w 40 4) (bfld w 36 4) (bfld w 12 24))
  | 0x3B => some (.shld h (bfld w 40 4) (bfld w 36 4) (bfld w 31 5))
  | 0x3C =>
    match fld w 27 1 with
    | 0 => some (.tagd h (bfld w 40 4) (bfld w 36 4) (bfld w 31 5) (bfld w 28 3))
    | _ => some (.tagx h (bfld w 36 4) (bfld w 31 5) (bfld w 28 3))
  | 0x40 => some (.pand h (bfld w 41 3) (bfld w 38 3) (bfld w 35 3))
  | 0x41 => some (.por h (bfld w 41 3) (bfld w 38 3) (bfld w 35 3))
  | 0x42 => some (.pxor h (bfld w 41 3) (bfld w 38 3) (bfld w 35 3))
  | 0x43 => some (.pnot h (bfld w 41 3) (bfld w 38 3))
  | 0x44 => some (.pmov h (bfld w 41 3) (bfld w 38 3))
  | 0x45 => some (.pany h (bfld w 41 3) (bfld w 38 3))
  | 0x46 => some (.pall h (bfld w 41 3) (bfld w 38 3))
  | 0x47 => some (.pset h (bfld w 41 3) (bfld w 33 8))
  | 0x48 => some (.pcnt h (bfld w 39 5) (bfld w 36 3))
  | _ => none

/-- Class B (code 1) by opcode (R242), reading only the fields that the opcode uses. -/
def looseB (w : Nat) : Option Instr :=
  let h := headBits w
  match fld w 48 8 with
  | 0x00 => some (.nopb h)
  | 0x01 => some (.br h (bfld w 0 30))
  | 0x02 => some (.brc h (bfld w 39 5) (bfld w 34 5) (bfld w 30 4) (bfld w 0 30))
  | 0x03 => some (.brz h (bfld w 39 5) (bfld w 0 30))
  | 0x04 => some (.jmp h (bfld w 40 4))
  | 0x05 => some (.call h (bfld w 0 30))
  | 0x06 => some (.callr h (bfld w 40 4))
  | 0x07 => some (.ret h)
  | 0x08 => some (.loop h (bfld w 24 20) (bfld w 0 24))
  | 0x09 => some (.loopr h (bfld w 39 5) (bfld w 0 24))
  | 0x0A => some (.lbrk h)
  | 0x10 => some (.trap h (bfld w 0 16))
  | 0x11 => some (.sysc h (bfld w 0 16))
  | 0x12 => some (.eret h)
  | 0x18 => some (.exit h)
  | 0x19 => some (.exits h (flag w 8) (bfld w 0 8))
  | 0x1A => some (.spawn h (bfld w 39 5) (bfld w 35 4))
  | 0x1B => some (.bar h (bfld w 0 8))
  | 0xFF => some (.halt h)
  | _ => none

/-- Class V (code 2) by opcode (R242), reading only the fields that the opcode uses. -/
def looseV (w : Nat) : Option Instr :=
  let h := headBits w
  match fld w 48 8 with
  | 0x00 => some (.vadd h (bfld w 36 8) (bfld w 32 4) (bfld w 26 6) (bfld w 20 6) (bfld w 14 6) (flag w 7) (flag w 6))
  | 0x01 => some (.vsub h (bfld w 36 8) (bfld w 32 4) (bfld w 26 6) (bfld w 20 6) (bfld w 14 6) (flag w 7) (flag w 6))
  | 0x02 => some (.vmul h (bfld w 36 8) (bfld w 32 4) (bfld w 26 6) (bfld w 20 6) (bfld w 14 6) (flag w 7) (flag w 6))
  | 0x03 => some (.vfma h (bfld w 36 8) (bfld w 32 4) (bfld w 26 6) (bfld w 20 6) (bfld w 14 6) (bfld w 8 6) (flag w 7) (flag w 6) (flag w 5))
  | 0x04 => some (.vfms h (bfld w 36 8) (bfld w 32 4) (bfld w 26 6) (bfld w 20 6) (bfld w 14 6) (bfld w 8 6) (flag w 7) (flag w 6) (flag w 5))
  | 0x05 => some (.vfnma h (bfld w 36 8) (bfld w 32 4) (bfld w 26 6) (bfld w 20 6) (bfld w 14 6) (bfld w 8 6) (flag w 7) (flag w 6) (flag w 5))
  | 0x06 => some (.vdiv h (bfld w 36 8) (bfld w 32 4) (bfld w 26 6) (bfld w 20 6) (bfld w 14 6) (flag w 7) (flag w 6))
  | 0x08 => some (.vsqrt h (bfld w 36 8) (bfld w 32 4) (bfld w 26 6) (bfld w 20 6) (flag w 7))
  | 0x09 => some (.vrsqrt h (bfld w 36 8) (bfld w 32 4) (bfld w 26 6) (bfld w 20 6) (flag w 7))
  | 0x0A => some (.vrcp h (bfld w 36 8) (bfld w 32 4) (bfld w 26 6) (bfld w 20 6) (flag w 7))
  | 0x0B => some (.vexp h (bfld w 36 8) (bfld w 32 4) (bfld w 26 6) (bfld w 20 6) (flag w 7))
  | 0x0C => some (.vexp2 h (bfld w 36 8) (bfld w 32 4) (bfld w 26 6) (bfld w 20 6) (flag w 7))
  | 0x0D => some (.vlog h (bfld w 36 8) (bfld w 32 4) (bfld w 26 6) (bfld w 20 6) (flag w 7))
  | 0x0E => some (.vlog2 h (bfld w 36 8) (bfld w 32 4) (bfld w 26 6) (bfld w 20 6) (flag w 7))
  | 0x0F => some (.vsin h (bfld w 36 8) (bfld w 32 4) (bfld w 26 6) (bfld w 20 6) (flag w 7))
  | 0x10 => some (.vcos h (bfld w 36 8) (bfld w 32 4) (bfld w 26 6) (bfld w 20 6) (flag w 7))
  | 0x11 => some (.vtanh h (bfld w 36 8) (bfld w 32 4) (bfld w 26 6) (bfld w 20 6) (flag w 7))
  | 0x12 => some (.vsigm h (bfld w 36 8) (bfld w 32 4) (bfld w 26 6) (bfld w 20 6) (flag w 7))
  | 0x14 => some (.vmin h (bfld w 36 8) (bfld w 32 4) (bfld w 26 6) (bfld w 20 6) (bfld w 14 6) (flag w 7) (flag w 6))
  | 0x15 => some (.vmax h (bfld w 36 8) (bfld w 32 4) (bfld w 26 6) (bfld w 20 6) (bfld w 14 6) (flag w 7) (flag w 6))
  | 0x16 => some (.vabs h (bfld w 36 8) (bfld w 32 4) (bfld w 26 6) (bfld w 20 6) (flag w 7))
  | 0x17 => some (.vneg h (bfld w 36 8) (bfld w 32 4) (bfld w 26 6) (bfld w 20 6) (flag w 7))
  | 0x18 => some (.vcmp h (bfld w 36 8) (bfld w 32 4) (bfld w 26 3) (bfld w 20 6) (bfld w 14 6) (flag w 7) (flag w 6) (bfld w 0 4))
  | 0x19 => some (.vsel h (bfld w 36 8) (bfld w 32 4) (bfld w 26 6) (bfld w 20 6) (bfld w 14 6) (flag w 7) (flag w 6) (bfld w 0 3))
  | 0x1A => some (.vclamp h (bfld w 36 8) (bfld w 32 4) (bfld w 26 6) (bfld w 20 6) (bfld w 14 6) (bfld w 8 6) (flag w 7) (flag w 6) (flag w 5))
  | 0x1B => some (.vround h (bfld w 36 8) (bfld w 32 4) (bfld w 26 6) (bfld w 20 6) (flag w 7))
  | 0x20 => some (.vcvt h (bfld w 36 8) (bfld w 32 4) (bfld w 26 6) (bfld w 20 6) (bfld w 14 6) (flag w 13) (bfld w 8 4) (flag w 7) (flag w 6) (bfld w 2 3) (bfld w 0 2))
  | 0x21 => some (.vqnt h (bfld w 36 8) (bfld w 32 4) (bfld w 26 6) (bfld w 20 6) (bfld w 14 6) (bfld w 8 4) (flag w 7) (bfld w 0 2))
  | 0x22 => some (.vscl h (bfld w 36 8) (bfld w 32 4) (bfld w 26 6) (bfld w 20 6) (bfld w 14 6) (flag w 7) (flag w 6) (bfld w 0 2))
  | 0x23 => some (.vred h (bfld w 36 8) (bfld w 32 4) (bfld w 26 6) (bfld w 20 6) (flag w 7))
  | 0x24 => some (.vmred h (bfld w 36 8) (bfld w 32 4) (bfld w 26 6) (bfld w 20 4) (bfld w 14 4) (bfld w 8 5))
  | 0x25 => some (.vmscl h (bfld w 36 8) (bfld w 32 4) (bfld w 26 6) (bfld w 20 6) (bfld w 14 6) (bfld w 8 5) (flag w 7) (flag w 6))
  | 0x40 => some (.viadd h (bfld w 36 8) (bfld w 32 4) (bfld w 26 6) (bfld w 20 6) (bfld w 14 6) (flag w 7) (flag w 6))
  | 0x41 => some (.visub h (bfld w 36 8) (bfld w 32 4) (bfld w 26 6) (bfld w 20 6) (bfld w 14 6) (flag w 7) (flag w 6))
  | 0x42 => some (.vimul h (bfld w 36 8) (bfld w 32 4) (bfld w 26 6) (bfld w 20 6) (bfld w 14 6) (flag w 7) (flag w 6))
  | 0x43 => some (.vimin h (bfld w 36 8) (bfld w 32 4) (bfld w 26 6) (bfld w 20 6) (bfld w 14 6) (flag w 7) (flag w 6))
  | 0x44 => some (.vimax h (bfld w 36 8) (bfld w 32 4) (bfld w 26 6) (bfld w 20 6) (bfld w 14 6) (flag w 7) (flag w 6))
  | 0x45 => some (.vand h (bfld w 36 8) (bfld w 32 4) (bfld w 26 6) (bfld w 20 6) (bfld w 14 6) (flag w 7) (flag w 6))
  | 0x46 => some (.vor h (bfld w 36 8) (bfld w 32 4) (bfld w 26 6) (bfld w 20 6) (bfld w 14 6) (flag w 7) (flag w 6))
  | 0x47 => some (.vxor h (bfld w 36 8) (bfld w 32 4) (bfld w 26 6) (bfld w 20 6) (bfld w 14 6) (flag w 7) (flag w 6))
  | 0x48 => some (.vnot h (bfld w 36 8) (bfld w 32 4) (bfld w 26 6) (bfld w 20 6) (flag w 7))
  | 0x49 => some (.vshl h (bfld w 36 8) (bfld w 32 4) (bfld w 26 6) (bfld w 20 6) (bfld w 14 6) (flag w 7) (flag w 6))
  | 0x4A => some (.vshr h (bfld w 36 8) (bfld w 32 4) (bfld w 26 6) (bfld w 20 6) (bfld w 14 6) (flag w 7) (flag w 6))
  | 0x4B => some (.vsar h (bfld w 36 8) (bfld w 32 4) (bfld w 26 6) (bfld w 20 6) (bfld w 14 6) (flag w 7) (flag w 6))
  | 0x4C => some (.vicmp h (bfld w 36 8) (bfld w 32 4) (bfld w 26 3) (bfld w 20 6) (bfld w 14 6) (flag w 7) (flag w 6) (bfld w 0 4))
  | 0x4D => some (.vperm h (bfld w 36 8) (bfld w 26 6) (bfld w 20 6) (bfld w 14 6) (flag w 7) (flag w 6))
  | 0x4E => some (.vbcast h (bfld w 36 8) (bfld w 32 4) (bfld w 26 6) (bfld w 20 5))
  | 0x4F => some (.viota h (bfld w 36 8) (bfld w 32 4) (bfld w 26 6))
  | 0x60 => some (.qclr h (bfld w 36 8) (bfld w 26 2))
  | 0x61 => some (.qmac h (bfld w 36 8) (bfld w 32 4) (bfld w 26 2) (bfld w 20 6) (bfld w 14 6) (flag w 7) (flag w 6))
  | 0x62 => some (.qmsb h (bfld w 36 8) (bfld w 32 4) (bfld w 26 2) (bfld w 20 6) (bfld w 14 6) (flag w 7) (flag w 6))
  | 0x63 => some (.qadd h (bfld w 36 8) (bfld w 32 4) (bfld w 26 2) (bfld w 20 6) (flag w 7))
  | 0x64 => some (.qaddq h (bfld w 36 8) (bfld w 26 2) (bfld w 20 2))
  | 0x65 => some (.qrnd h (bfld w 36 8) (bfld w 32 4) (bfld w 26 6) (bfld w 20 2))
  | 0x66 => some (.qneg h (bfld w 36 8) (bfld w 26 2))
  | 0x67 => some (.qst h (bfld w 36 8) (bfld w 26 6) (bfld w 20 2) (flag w 0))
  | 0x68 => some (.qmov h (bfld w 36 8) (bfld w 26 2) (bfld w 20 2))
  | 0x70 => some (.jseed h (bfld w 36 8) (bfld w 26 6) (bfld w 20 6) (bfld w 14 6) (flag w 7) (flag w 6))
  | 0x71 => some (.jget h (bfld w 36 8) (bfld w 32 4) (bfld w 26 6) (bfld w 20 6) (flag w 7) (flag w 2) (bfld w 0 2))
  | 0x72 => some (.jset h (bfld w 36 8) (bfld w 26 6) (bfld w 20 6) (flag w 7) (bfld w 0 2))
  | 0x73 => some (.jscale h (bfld w 36 8) (bfld w 32 4) (bfld w 26 6) (bfld w 20 6) (bfld w 14 6) (flag w 7) (flag w 6))
  | _ => none

/-- Class M (code 3) by opcode (R242), reading only the fields that the opcode uses. -/
def looseM (w : Nat) : Option Instr :=
  let h := headBits w
  match fld w 48 8 with
  | 0x00 => some (.mpush h (bfld w 36 8) (bfld w 26 6))
  | 0x01 => some (.mshift h)
  | 0x02 => some (.macc h (bfld w 32 4) (bfld w 6 11))
  | 0x03 => some (.mdrain h (bfld w 36 8) (bfld w 32 4) (bfld w 26 6) (bfld w 21 5))
  | 0x04 => some (.mclr h (bfld w 21 5) (flag w 5))
  | 0x05 => some (.mspill h (bfld w 21 5) (bfld w 17 4) (flag w 5))
  | 0x06 => some (.mfill h (bfld w 21 5) (bfld w 17 4) (flag w 5))
  | 0x07 => some (.mstat h (bfld w 26 5))
  | _ => none

/-- Class L (code 4) by opcode (R242), reading only the fields that the opcode uses. -/
def looseL (w : Nat) : Option Instr :=
  let h := headBits w
  match fld w 48 8 with
  | 0x00 => some (.ld h (bfld w 40 4) (bfld w 16 24) (bfld w 11 2) (flag w 10) (bfld w 2 6) (flag w 1))
  | 0x01 => some (.st h (bfld w 40 4) (bfld w 16 24) (bfld w 11 2) (bfld w 2 6))
  | 0x02 => some (.ldv h (bfld w 40 4) (bfld w 16 24) (bfld w 8 8) (bfld w 2 6) (flag w 1))
  | 0x03 => some (.stv h (bfld w 40 4) (bfld w 16 24) (bfld w 8 8) (bfld w 2 6))
  | 0x04 => some (.ldvs h (bfld w 40 4) (bfld w 16 24) (bfld w 11 5) (bfld w 9 2) (bfld w 3 6) (flag w 2))
  | 0x05 => some (.stvs h (bfld w 40 4) (bfld w 16 24) (bfld w 11 5) (bfld w 9 2) (bfld w 3 6))
  | 0x06 => some (.ldq h (bfld w 40 4) (bfld w 16 24) (bfld w 8 8) (bfld w 2 2))
  | 0x07 => some (.stq h (bfld w 40 4) (bfld w 16 24) (bfld w 8 8) (bfld w 2 2))
  | 0x08 => some (.lda h (bfld w 40 4) (bfld w 16 24) (bfld w 13 3) (bfld w 11 2) (bfld w 2 6) (flag w 1))
  | 0x09 => some (.stl h (bfld w 40 4) (bfld w 16 24) (bfld w 13 3) (bfld w 11 2) (bfld w 2 6))
  | 0x0A =>
    match fld w 2 4 with
    | 1 => some (.amoAdd h (bfld w 40 4) (bfld w 16 24) (bfld w 11 5) (bfld w 6 5) (flag w 1))
    | 2 => some (.amoAnd h (bfld w 40 4) (bfld w 16 24) (bfld w 11 5) (bfld w 6 5) (flag w 1))
    | 3 => some (.amoOr h (bfld w 40 4) (bfld w 16 24) (bfld w 11 5) (bfld w 6 5) (flag w 1))
    | 4 => some (.amoXor h (bfld w 40 4) (bfld w 16 24) (bfld w 11 5) (bfld w 6 5) (flag w 1))
    | 5 => some (.amoMin h (bfld w 40 4) (bfld w 16 24) (bfld w 11 5) (bfld w 6 5) (flag w 1))
    | 6 => some (.amoMax h (bfld w 40 4) (bfld w 16 24) (bfld w 11 5) (bfld w 6 5) (flag w 1))
    | 7 => some (.amoMaxu h (bfld w 40 4) (bfld w 16 24) (bfld w 11 5) (bfld w 6 5) (flag w 1))
    | 8 => some (.amoXchg h (bfld w 40 4) (bfld w 16 24) (bfld w 11 5) (bfld w 6 5) (flag w 1) (flag w 0))
    | 11 => some (.amoQadd h (bfld w 40 4) (bfld w 16 24) (bfld w 6 2))
    | 12 => some (.amoMinu h (bfld w 40 4) (bfld w 16 24) (bfld w 11 5) (bfld w 6 5) (flag w 1))
    | _ => some (.amoAdd h (bfld w 40 4) (bfld w 16 24) (bfld w 11 5) (bfld w 6 5) (flag w 1)) -- a reserved code: the words differ, so R234 raises RESERVED_FIELD
  | 0x0B => some (.amoPadd h (bfld w 40 4) (bfld w 16 24) (bfld w 11 5) (bfld w 6 5) (bfld w 2 4) (flag w 1))
  | 0x0C => some (.amocas h (bfld w 40 4) (bfld w 16 24) (bfld w 11 5) (bfld w 6 5) (bfld w 1 5) (flag w 0))
  | 0x0D => some (.amocasD h (bfld w 40 4) (bfld w 16 24) (bfld w 11 5) (bfld w 6 5) (bfld w 1 5) (flag w 0))
  | 0x10 => some (.waitge h (bfld w 40 4) (bfld w 16 24) (bfld w 13 3) (bfld w 8 5))
  | 0x11 => some (.waiteq h (bfld w 40 4) (bfld w 16 24) (bfld w 13 3) (bfld w 8 5))
  | 0x18 => some (.fence h (bfld w 13 3))
  | 0x19 => some (.drain h)
  | 0x1A => some (.pref h (bfld w 40 4) (bfld w 16 24))
  | _ => none

/-- Class E (code 5) by opcode (R242), reading only the fields that the opcode uses. -/
def looseE (w : Nat) : Option Instr :=
  let h := headBits w
  match fld w 48 8 with
  | 0x00 => some (.cpy h (bfld w 42 2) (bfld w 30 12) (bfld w 26 4) (bfld w 22 4) (bfld w 17 5))
  | 0x01 => some (.gth h (bfld w 42 2) (bfld w 30 12) (bfld w 26 4) (bfld w 22 4) (bfld w 16 6) (bfld w 11 5) (bfld w 9 2))
  | 0x02 => some (.sct h (bfld w 42 2) (bfld w 30 12) (bfld w 26 4) (bfld w 22 4) (bfld w 16 6) (bfld w 11 5) (bfld w 9 2))
  | 0x03 => some (.wld h (bfld w 42 2) (bfld w 30 12) (bfld w 26 4) (bfld w 21 5) (bfld w 16 5))
  | 0x04 => some (.rwr h (bfld w 42 2) (bfld w 30 12) (bfld w 26 4) (bfld w 22 4) (bfld w 17 5) (bfld w 13 4) (flag w 12) (bfld w 8 4))
  | 0x05 => some (.rwg h (bfld w 42 2) (bfld w 30 12) (bfld w 26 4) (bfld w 22 4) (bfld w 17 5) (bfld w 13 4) (flag w 12) (bfld w 8 4))
  | 0x06 => some (.rrd h (bfld w 42 2) (bfld w 30 12) (bfld w 26 4) (bfld w 24 2) (bfld w 19 5))
  | 0x07 =>
    match fld w 9 4 with
    | 0 => some (.collGrp h (bfld w 42 2) (bfld w 30 12) (bfld w 26 4) (bfld w 22 4) (bfld w 17 5) (bfld w 13 4) (bfld w 4 5))
    | 1 => some (.collMod h (bfld w 42 2) (bfld w 30 12) (bfld w 26 4) (bfld w 22 4) (bfld w 17 5) (bfld w 13 4) (bfld w 4 5))
    | 2 => some (.collLossy h (bfld w 42 2) (bfld w 30 12) (bfld w 26 4) (bfld w 22 4) (bfld w 17 5) (bfld w 13 4) (bfld w 4 5))
    | _ => some (.collGrp h (bfld w 42 2) (bfld w 30 12) (bfld w 26 4) (bfld w 22 4) (bfld w 17 5) (bfld w 13 4) (bfld w 4 5)) -- a reserved code: the words differ, so R234 raises RESERVED_FIELD
  | 0x08 => some (.qfence h (bfld w 30 12) (bfld w 26 4))
  | 0x10 => some (.eclose h)
  | 0x11 => some (.ewait h (bfld w 22 8))
  | 0x12 => some (.estat h (bfld w 42 2) (bfld w 25 5))
  | _ => none

/-- Class X (code 6) by opcode (R242), reading only the fields that the opcode uses. -/
def looseX (w : Nat) : Option Instr :=
  let h := headBits w
  match fld w 48 8 with
  | 0x00 =>
    match fld w 0 1 with
    | 0 => some (.popW h (bfld w 26 6) (bfld w 12 2) (bfld w 10 2))
    | _ => some (.popF h (bfld w 26 6) (bfld w 12 2) (bfld w 10 2) (bfld w 7 3))
  | 0x01 => some (.pack h (bfld w 32 4) (bfld w 26 6) (bfld w 20 6) (bfld w 14 6) (bfld w 0 4))
  | 0x02 => some (.unpk h (bfld w 32 4) (bfld w 26 6) (bfld w 20 6) (bfld w 14 6) (bfld w 12 2) (flag w 4) (bfld w 0 4))
  | 0x03 => some (.xlg h (bfld w 36 8) (bfld w 26 6) (bfld w 20 6) (flag w 3) (bfld w 0 3))
  | 0x04 => some (.chk h (bfld w 36 8) (bfld w 20 6))
  | 0x05 => some (.movv h (bfld w 36 8) (bfld w 26 6) (bfld w 20 6))
  | 0x06 => some (.movs h (bfld w 26 5) (bfld w 20 6) (bfld w 0 7))
  | 0x07 => some (.getc h (bfld w 26 5) (bfld w 0 8))
  | 0x08 => some (.setc h (bfld w 20 5) (bfld w 0 8))
  | 0x09 => some (.feat h (bfld w 26 5) (bfld w 0 12))
  | 0x0A => some (.ppack h (bfld w 26 6))
  | 0x0B => some (.punpk h (bfld w 20 6))
  | _ => none

/-- Class P (code 7) by opcode (R242), reading only the fields that the opcode uses. -/
def looseP (w : Nat) : Option Instr :=
  let h := headBits w
  match fld w 48 8 with
  | 0x00 => some (.rep h (bfld w 38 6) (flag w 37) (bfld w 8 28))
  | 0x01 => some (.ext h (bfld w 12 32))
  | _ => none

/-- The instruction that a syllable's class and opcode name, reading only the fields it uses; none for an opcode that no
table lists (R242). -/
def decodeLoose (w : DWord) : Option Instr :=
  match fld w.toNat 60 3 with
  | 0 => looseS w.toNat
  | 1 => looseB w.toNat
  | 2 => looseV w.toNat
  | 3 => looseM w.toNat
  | 4 => looseL w.toNat
  | 5 => looseE w.toNat
  | 6 => looseX w.toNat
  | _ => looseP w.toNat

/-- Why a word is no instruction. -/
inductive DecodeError where
  | unassignedOpcode                 -- R242
  | fault (c : Cause)                -- R234 and the rules of each format: the lowest static cause
  | notControlCore                   -- R77: no DLAUNCH and no DEVQ
  deriving DecidableEq, Repr

/-- The order in which causes are raised when several meet: the lowest code first (R140, R141). -/
def causeCode : Cause → Nat
  | .illegalSyllable => 0x01 | .reservedField => 0x02 | .slotOverflow => 0x03 | .timing => 0x04 | .stallShort => 0x05
  | .poisonConsumed => 0x06 | .stackLimit => 0x07 | .align => 0x08 | .space => 0x09 | .bounds => 0x0A
  | .format => 0x0B | .decompress => 0x0C | .shadowMismatch => 0x0D | .jetGroup => 0x0E | .queueEmpty => 0x0F
  | .syscall => 0x10 | .brk => 0x11 | .pageDenied => 0x12 | .access => 0x13 | .fabric => 0x14

/-- The lowest cause of a list. -/
def lowestCause : List Cause → Option Cause
  | [] => none
  | c :: l =>
    match lowestCause l with
    | none => some c
    | some d => if causeCode d < causeCode c then some d else some c

/-- The static faults of a syllable's bits: those of its instruction, and RESERVED_FIELD when a bit that the opcode does
not use is set, that is, when encoding the instruction does not give the word back (R234). -/
def syllableFaults (w : DWord) (i : Instr) : List Cause :=
  staticFaults i ++ faultIf (encode i != w) .reservedField

/-- Decode one tile syllable. -/
def decode (w : DWord) : Except DecodeError Instr :=
  match decodeLoose w with
  | none => .error .unassignedOpcode
  | some i =>
    match lowestCause (syllableFaults w i) with
    | none => .ok i
    | some c => .error (.fault c)

/-- Decode one 32-bit word of a control core (R77): every other word is not of this manual. -/
def decodeRv (w : BitVec 32) : Except DecodeError Instr :=
  let n := w.toNat
  if fld n 0 7 = 0b0001011 ∧ fld n 20 5 = 0 ∧ fld n 25 7 = 0 then
    match fld n 12 3 with
    | 0 => .ok (.dlaunch (bfld n 7 5) (bfld n 15 5))
    | 1 => .ok (.devq (bfld n 7 5) (bfld n 15 5))
    | _ => .error .notControlCore
  else .error .notControlCore

/-- The 32-bit word of DLAUNCH and DEVQ (R77); zero for another operation. -/
def encodeRv : Instr → BitVec 32
  | .dlaunch rd rs1 => BitVec.ofNat 32 (packFields [(7, 0), (5, 0), (5, rs1.toNat), (3, 0), (5, rd.toNat), (7, 0b0001011)])
  | .devq rd rs1 => BitVec.ofNat 32 (packFields [(7, 0), (5, 0), (5, rs1.toNat), (3, 1), (5, rd.toNat), (7, 0b0001011)])
  | _ => 0

/-- Little-endian bytes of a number (R5). -/
def toBytes (n k : Nat) : List Byte :=
  match k with
  | 0 => []
  | k + 1 => BitVec.ofNat 8 n :: toBytes (n / 256) k

/-- The number of little-endian bytes (R5). -/
def ofBytes : List Byte → Nat
  | [] => 0
  | b :: l => b.toNat + 256 * ofBytes l

/-- Decode the syllable at the front of a list of bytes and give the rest (R229). -/
def decodeBytes (l : List Byte) : Option (Except DecodeError Instr × List Byte) :=
  if l.length < 8 then none else some (decode (BitVec.ofNat 64 (ofBytes (l.take 8))), l.drop 8)

/-- The instruction that the decoder reads from an instruction whose bits are w: 32 bits or fewer are a control core's
word, more are a tile's syllable, whose reserved field values (R234) fault when it issues. -/
def decodeTableWord (nbits w : Nat) : Option Instr :=
  if nbits ≤ 32 then
    match decodeRv (BitVec.ofNat 32 (ofBytes (toBytes w 4))) with
    | .ok i => some i
    | .error _ => none
  else
    let x : DWord := BitVec.ofNat 64 (ofBytes (toBytes w 8))
    match decodeLoose x with
    | some i => if encode i = x then some i else none
    | none => none

end Sys2Proof
end

