-- ==== Sys2Proof/Config.lean ====
section
/-!
DEFINITION. What the FJ8 fixes for every module (00_scope R1, R2, R76) and the free values: constants with no body, which
stand for what the manual leaves open. Nothing can be proved about a free value but what holds for every value of it.
-/
namespace Sys2Proof.Config

def tilesPerModule : Nat := 1024
def tilesPerCluster : Nat := 8
def clustersPerDie : Nat := 16
def clustersPerModule : Nat := 128
def clustersPerWing : Nat := 4
def diesPerModule : Nat := 8
def contextsPerTile : Nat := 4
def weightLines : Nat := 2048
def scratchpadBytes : Nat := 0x40_0000
def hbmBytes : Nat := 0xC_0000_0000
def lpddrBytes : Nat := 0x10_0000_0000
def hiveEntries : Nat := 4096
def groupEntries : Nat := 256
def tileTlbEntries : Nat := 64
def memTlbEntries : Nat := 16384
def holdQueueEntries : Nat := 1024
def coreQueueRecords : Nat := 1024
/-- Cycles of the arithmetic clock in one µs (R92: one token is 1,050 cycles). -/
def cyclesPerUs : Nat := 1050
/-- The level of the architecture (R76 word 0). -/
def archLevel : Nat := 1

/-- Grenzor's version (R75): 32 bits that the manual does not give (log entry 4). -/
opaque grenzorVersion : BitVec 32

/-- SHAKE256 with a 64-byte digest (R15, R69): a function the manual names and does not define (log entry 6). -/
opaque shake256 : List Byte → BitVec 512

/-- The Falcon-1024 check of a signature over a digest under the key of a key slot (R69): named and not defined (log
entry 6). -/
opaque falconValid : BitVec 16 → BitVec 512 → List Byte → Bool

/-- Firefly's signature of the attestation log and a nonce (R17): named and not defined (log entry 6). -/
opaque identitySign : List Byte → List Byte

/-- The virtual address that Grenzor gives the code of an image (R264 fixes only that an image lies in one aligned
4 GiB range), by partition and handle (log entry 4). -/
opaque codeRange : Nat → Nat → BitVec 25

/-- The layout of a reply flit's payload (R47): data read or old value, status byte and watch number. The manual says what the
payload carries and not where (log entry 17). -/
opaque replyPayload : BitVec 512 → BitVec 8 → BitVec 16 → BitVec 512

/-- What a reply flit's payload says, in that layout (log entry 17). -/
opaque replyData : BitVec 512 → BitVec 512
opaque replyStatus : BitVec 512 → BitVec 8
opaque replyNumber : BitVec 512 → BitVec 16

/-- The payload of a control flit, by kind and number (R40, R36, R46, R48): not given by the manual (log entry 17). -/
opaque controlPayload : Nat → Nat → BitVec 512

/-- The words of the areas of a dump whose layout the manual does not give (R25; log entry 8), by what the area holds: the state of a
control core, in its own 64 KiB, the pending records, and the allocation tables, slot tables and TLBs. -/
opaque dumpCore : List (BitVec 64) → Nat → BitVec 64
opaque dumpRecords : List (List (BitVec 128)) → Nat → BitVec 64
opaque dumpTables : List (List Nat) → Nat → BitVec 64

/-- The 32 bytes of a waiting engine command in a saved context (R116; log entry 8), by what it holds. -/
opaque savedCommand : List (BitVec 64) → BitVec 256

/-- How Benale divides the slots of a mesh link that several partitions cross (R84; log entry 52), by link and slot. -/
opaque slotDivision : Nat → Nat → Nat

/-- Where Grenzor begins its search for the k-th slot of an image (R369; log entry 52), by the bytes of the image and the slots that
the partition holds. -/
opaque slotStart : List Byte → List (Nat × BitVec 256) → Nat → Nat

/-- The native code into which Grenzor translates LIN (R72; log entry 13), by the syllables of LIN and the tiles whose rebinding map
makes them degraded: its bytes, and how many. -/
opaque nativeByte : List (BitVec 64) → BitVec 1024 → Nat → BitVec 8
opaque nativeSize : List (BitVec 64) → BitVec 1024 → Nat

/-- Free values of a machine word, by a counter that the step advances (log entry 8). -/
opaque freeWord : Nat → BitVec 64

/-- A free choice between two outcomes that the manual allows (log entry 8). -/
opaque freeBit : Nat → Bool

end Sys2Proof.Config
end

