-- ==== Sys2Proof/Machine/Posit.lean ====
section
/-!
DEFINITION. The tapered formats (09_numbers R200 to R209): decoding, the one rounding rule, and the exact numbers between.
An exact value of a posit is an integer multiple of 2^−120 (every format of R203 has minpos at least 2^−120 and every
value is a multiple of minpos); none is NaR.
-/
namespace Sys2Proof.Machine
open Sys2Proof

/-- Element width in bits of a format code (R200, R201). -/
def fmtWidth (f : Fmt) : Nat :=
  if f.toNat < 4 then 32 else if f.toNat < 8 then 16 else if f.toNat < 12 then 8 else if f.toNat < 14 then 6 else 4

/-- Exponent size of a format code (R200, R203). -/
def fmtEs (f : Fmt) : Nat :=
  if f.toNat < 12 then f.toNat % 4 else if f.toNat < 14 then f.toNat - 12 else f.toNat - 14

/-- Integer element width of an integer FMT (R232). -/
def intWidth (f : Fmt) : Nat := if f.toNat = 0 then 32 else if f.toNat = 4 then 16 else 8

/-- An exact posit value in units of 2^−120; none is NaR. -/
abbrev Fx := Option Int

/-- The number of bits of fraction of an `Fx`. -/
def fxBits : Nat := 120

/-- The length of the run of bits equal to `bit` from bit i − 1 of b downward. -/
def runLen (b : Nat) (bit : Bool) : Nat → Nat
  | 0 => 0
  | i + 1 => if b.testBit i == bit then 1 + runLen b bit i else 0

/-- The magnitude of a positive pattern b of an n-bit format with es e, in units of 2^−120 (R202). -/
def decodeMag (b n e : Nat) : Nat :=
  let first := b.testBit (n - 2)
  let m := runLen b first (n - 1)
  let k : Int := if first then (m : Int) - 1 else -(m : Int)
  let rw := n - 1 - m - 1
  let rest := b % 2 ^ rw
  let fb := rw - e
  let x := if e ≤ rw then rest / 2 ^ fb else rest * 2 ^ (e - rw)
  let f := if e ≤ rw then rest % 2 ^ fb else 0
  let ex : Int := k * 2 ^ e + x - fb + fxBits
  (2 ^ fb + f) * 2 ^ ex.toNat

/-- decode_T (R202). -/
def decodePat (b n e : Nat) : Fx :=
  if b = 0 then some 0
  else if b = 2 ^ (n - 1) then none
  else if b.testBit (n - 1) then some (-(decodeMag (2 ^ n - b) n e : Int))
  else some (decodeMag b n e : Int)

/-- A rounded result: the pattern and the flags SAT, INX of R206 and NAR of R207. -/
structure Rounded where
  pat : Nat
  nar : Bool
  sat : Bool
  inx : Bool
  deriving DecidableEq, Repr

/-- floor(log2 (num / den)) for positive num and den. -/
def floorLog2 (num den : Nat) : Int :=
  let s : Int := (Nat.log2 num : Int) - (Nat.log2 den : Int)
  let below := if 0 ≤ s then num < den * 2 ^ s.toNat else num * 2 ^ (-s).toNat < den
  if below then s - 1 else s

/-- round_T of the positive value num / den (R206): pattern, SAT, INX. -/
def roundMag (num den n e : Nat) : Rounded :=
  let big := (n - 2) * 2 ^ e
  if den * 2 ^ big ≤ num then
    let above := decide (num ≠ den * 2 ^ big)
    { pat := 2 ^ (n - 1) - 1, nar := false, sat := above, inx := above }
  else if num * 2 ^ big ≤ den then
    let under := decide (num * 2 ^ big ≠ den)
    { pat := 1, nar := false, sat := under, inx := under }
  else
    let s := floorLog2 num den
    let k := s / (2 ^ e : Nat)
    let x := (s % (2 ^ e : Nat)).toNat
    let regime := if 0 ≤ k then (2 ^ (k.toNat + 1) - 1) * 2 else 1
    let lr := if 0 ≤ k then k.toNat + 2 else (-k).toNat + 1
    let rb := n - 1 - lr
    let top := num * 2 ^ (-s).toNat
    let bot := den * 2 ^ s.toNat
    let t := (x * bot + top - bot) * 2 ^ rb
    let d := bot * 2 ^ e
    let q := regime * 2 ^ rb + t / d
    let r := t % d
    let up := d < 2 * r || (2 * r == d && q % 2 == 1)
    { pat := if up then q + 1 else q, nar := false, sat := false, inx := decide (r ≠ 0) }

/-- round_T of num / den, den positive (R206). -/
def roundRat (num : Int) (den n e : Nat) : Rounded :=
  if num = 0 then { pat := 0, nar := false, sat := false, inx := false }
  else
    let r := roundMag num.natAbs den n e
    if num < 0 then { r with pat := 2 ^ n - r.pat } else r

/-- The pattern of NaR. -/
def narPat (n : Nat) : Nat := 2 ^ (n - 1)

/-- NaR given by an operand: no flag (R207, R221). -/
def narOperand (n : Nat) : Rounded := { pat := narPat n, nar := false, sat := false, inx := false }

/-- NaR that the operation creates: NAR (R207). -/
def narCreated (n : Nat) : Rounded := { pat := narPat n, nar := true, sat := false, inx := false }

/-- round_T of an exact posit value. -/
def roundFx (v : Fx) (n e : Nat) : Rounded :=
  match v with
  | none => narOperand n
  | some x => roundRat x (2 ^ fxBits) n e

/-- The pattern of element j of a lane word for elements of width w (R201). -/
def elemOf (lane : Nat) (w j : Nat) : Nat := lane / 2 ^ (w * j) % 2 ^ w

/-- The lane word of a list of element patterns of width w, element 0 lowest (R201). -/
def laneOf (w : Nat) : List Nat → Nat
  | [] => 0
  | p :: l => p % 2 ^ w + 2 ^ w * laneOf w l

/-- decode_T of element j of a lane in a format code. -/
def decodeElem (lane : Word) (f : Fmt) (j : Nat) : Fx :=
  decodePat (elemOf lane.toNat (fmtWidth f) j) (fmtWidth f) (fmtEs f)

/-- The exact values of every element of a lane. -/
def decodeLane (lane : Word) (f : Fmt) : List Fx :=
  (List.range (fmtElems f)).map (decodeElem lane f)

/-- A pattern read as an n-bit two's-complement integer: the order of R207. -/
def patOrder (b n : Nat) : Int := if b < 2 ^ (n - 1) then (b : Int) else (b : Int) - 2 ^ n

/-- The JF bits of coefficient i (R221): NAR at 4i, SAT at 4i + 1, INX at 4i + 2, PSN at 4i + 3. -/
def jfBits (i : Nat) (nar sat inx psn : Bool) : DWord :=
  BitVec.ofNat 64 ((nar.toNat + 2 * sat.toNat + 4 * inx.toNat + 8 * psn.toNat) * 2 ^ (4 * i))

/-- The JF bits of a rounded coefficient. -/
def Rounded.jf (r : Rounded) (i : Nat) : DWord := jfBits i r.nar r.sat r.inx false

/-- Truncation toward zero of an exact value to an integer, with whether a fraction is discarded (R208). -/
def truncFx (v : Int) : Int × Bool :=
  let q := (v.natAbs / 2 ^ fxBits : Nat)
  (if v < 0 then -(q : Int) else q, v.natAbs % 2 ^ fxBits ≠ 0)

/-- Conversion of a posit value to a signed integer of w bits (R208, R287 kind 6). -/
def toIntSat (v : Fx) (w : Nat) : Rounded :=
  match v with
  | none => { pat := 2 ^ (w - 1), nar := true, sat := false, inx := false }
  | some x =>
    let t := truncFx x
    if t.1 < -(2 ^ (w - 1) : Nat) then { pat := 2 ^ (w - 1), nar := false, sat := true, inx := t.2 }
    else if (2 ^ (w - 1) - 1 : Nat) < t.1 then { pat := 2 ^ (w - 1) - 1, nar := false, sat := true, inx := t.2 }
    else { pat := (t.1 % (2 ^ w : Nat)).toNat, nar := false, sat := false, inx := t.2 }

/-- The signed integer of a w-bit pattern. -/
def signedOf (b w : Nat) : Int := if b < 2 ^ (w - 1) then (b : Int) else (b : Int) - (2 ^ w : Nat)

/-- The integer nearest to an exact value, ties to even (R284 VROUND), in units of 2^−120. -/
def nearestInt (v : Int) : Int :=
  let a := v.natAbs
  let q := a / 2 ^ fxBits
  let r := a % 2 ^ fxBits
  let m := if 2 ^ fxBits < 2 * r || (2 * r == 2 ^ fxBits && q % 2 == 1) then q + 1 else q
  if v < 0 then -((m * 2 ^ fxBits : Nat) : Int) else ((m * 2 ^ fxBits : Nat) : Int)

/-- floor(log2 |v|) of a non-zero exact value. -/
def log2Fx (v : Int) : Int := (Nat.log2 v.natAbs : Int) - fxBits

/-- x times 2^s as a fraction: numerator and denominator in units of 2^−120 (R215). -/
def scaled (v : Int) (s : Int) : Int × Nat :=
  if 0 ≤ s then (v * 2 ^ s.toNat, 2 ^ fxBits) else (v, 2 ^ (fxBits + (-s).toNat))

/-- round_T(x × 2^s) (R215). -/
def roundScaled (v : Fx) (s : Int) (n e : Nat) : Rounded :=
  match v with
  | none => narOperand n
  | some x => let r := scaled x s; roundRat r.1 r.2 n e

/-- A binary interchange number (R209) with ebits of exponent and mbits of fraction, as an exact fraction
(numerator, denominator); none for NaN and infinities. -/
def ieeeValue (b ebits mbits : Nat) : Option (Int × Nat) :=
  let sign := b.testBit (ebits + mbits)
  let ex := b / 2 ^ mbits % 2 ^ ebits
  let m := b % 2 ^ mbits
  let bias := 2 ^ (ebits - 1) - 1
  if ex = 2 ^ ebits - 1 then none
  else
    let sig := if ex = 0 then m else 2 ^ mbits + m
    let e1 := if ex = 0 then 1 else ex
    let num := sig * 2 ^ e1
    let den := 2 ^ (bias + mbits)
    some (if sign then -(num : Int) else (num : Int), den)

/-- R209, interchange to posit. -/
def ieeeToPosit (b ebits mbits n e : Nat) (s : Int) : Rounded :=
  match ieeeValue b ebits mbits with
  | none => narCreated n
  | some (num, den) =>
    if 0 ≤ s then roundRat (num * 2 ^ s.toNat) den n e else roundRat num (den * 2 ^ (-s).toNat) n e

/-- R209, posit to interchange: nearest even; overflow to infinity and underflow to zero set SAT; NaR gives the quiet
NaN. -/
def positToIeee (v : Fx) (ebits mbits : Nat) : Rounded :=
  match v with
  | none => { pat := (2 ^ ebits - 1) * 2 ^ mbits + 2 ^ (mbits - 1), nar := false, sat := false, inx := false }
  | some x =>
    if x = 0 then { pat := 0, nar := false, sat := false, inx := false }
    else
      let bias := 2 ^ (ebits - 1) - 1
      let sgn := if x < 0 then 2 ^ (ebits + mbits) else 0
      let ex := log2Fx x
      let e1 : Int := if ex < 1 - (bias : Int) then 1 - (bias : Int) else ex
      -- significand in units of 2^(e1 − mbits)
      let sh : Int := (fxBits : Int) + e1 - mbits
      let num := x.natAbs * 2 ^ (-sh).toNat
      let den := 2 ^ sh.toNat
      let q := num / den
      let r := num % den
      let q1 := if den < 2 * r || (2 * r == den && q % 2 == 1) then q + 1 else q
      let pat := if q1 < 2 ^ mbits then q1 else (e1 + bias - 1).toNat * 2 ^ mbits + q1
      if (2 ^ ebits - 1) * 2 ^ mbits ≤ pat then
        { pat := sgn + (2 ^ ebits - 1) * 2 ^ mbits, nar := false, sat := true, inx := true }
      else if q1 = 0 then { pat := sgn, nar := false, sat := true, inx := true }
      else { pat := sgn + pat, nar := false, sat := false, inx := decide (r ≠ 0) }

end Sys2Proof.Machine
end

