-- ==== Sys2Proof/Machine/Real.lean ====
section
/-!
DEFINITION. The special functions of R207 and R283, correctly rounded: each value is enclosed between two fractions that
round alike, at the first of the working precisions that settles it. The enclosures are two-sided, so a settled
rounding is the rounding of the exact value.
-/
namespace Sys2Proof.Machine
open Sys2Proof

/-- An enclosure: the value lies between lo / den and hi / den. -/
structure Encl where
  lo  : Int
  hi  : Int
  den : Nat
  deriving DecidableEq, Repr

/-- Division by a positive number, rounded up. -/
def ceilDiv (a : Int) (b : Int) : Int := -((-a) / b)

/-- The common rounding of the two ends, when they lie on one side of zero and round alike; the exact value is then
not representable, so INX is set. -/
def Encl.round (x : Encl) (n e : Nat) : Option Rounded :=
  if (0 < x.lo ∧ 0 < x.hi) ∨ (x.lo < 0 ∧ x.hi < 0) then
    let a := roundRat x.lo x.den n e
    let b := roundRat x.hi x.den n e
    if a.pat = b.pat ∧ a.sat = b.sat then some { a with inx := true } else none
  else none

/-- The rounding of an enclosed value, at the first working precision that settles it: from p bits after the point on, each twice the one
before. The values are irrational, and what is known of their distance from a rational number settles every one long before the
precisions end (PRESUMED, log entry 7). -/
def settle (f : Nat → Encl) (n e : Nat) : Nat → Nat → Rounded
  | 0, p => { roundRat (f p).lo (f p).den n e with inx := true }
  | k + 1, p => match (f p).round n e with
    | some r => r
    | none => settle f n e k (2 * p)

/-- The rounding of an enclosed value. -/
def roundEncl (f : Nat → Encl) (n e : Nat) : Rounded := settle f n e 64 192

/-- Integer square root by bits, from bit b − 1 downward. -/
def isqrtBits (n : Nat) : Nat → Nat → Nat
  | 0, r => r
  | b + 1, r => isqrtBits n b (if (r + 2 ^ b) * (r + 2 ^ b) ≤ n then r + 2 ^ b else r)

/-- floor(√n). -/
def isqrt (n : Nat) : Nat := isqrtBits n (Nat.log2 n / 2 + 1) 0

/-- The terms t, t x / 1, t x² / 2 … of the exponential series, summed, k of them, from index j. -/
def expTerms (p : Nat) (x : Int) : Nat → Nat → Int → Int → Int
  | 0, _, _, acc => acc
  | k + 1, j, t, acc => expTerms p x k (j + 1) (t * x / 2 ^ p / ((j : Int) + 1)) (acc + t)

/-- Squares a non-negative enclosure k times, in units of 2^−p. -/
def squareTimes (p : Nat) : Nat → Int × Int → Int × Int
  | 0, x => x
  | k + 1, (lo, hi) =>
    squareTimes p k ((if lo < 0 then 0 else lo * lo / 2 ^ p), ceilDiv (hi * hi) (2 ^ p))

/-- Encloses e^x for x between lo and hi in units of 2^−p, |x| < 200, in the same units. -/
def expEncl (p : Nat) (lo hi : Int) : Int × Int :=
  let g := p + 320
  let k := p / 4 + 100
  let one : Int := 2 ^ g
  let l := lo * 2 ^ 320 / 2 ^ 10
  let h := ceilDiv (hi * 2 ^ 320) (2 ^ 10)
  let err : Int := 4 * k + 16
  let a := expTerms g l k 0 one 0 - err
  let b := expTerms g h k 0 one 0 + err
  let r := squareTimes g 10 (a, b)
  (r.1 / 2 ^ 320, ceilDiv r.2 (2 ^ 320))

/-- Σ u^(2j+1) / (2j+1), k terms from index j, with t = u^(2j+1) and the square of u, in units of 2^−p; the sign s
alternates when alt holds. -/
def oddSeries (p : Nat) (sq : Int) (alt : Bool) : Nat → Nat → Int → Int → Int
  | 0, _, _, acc => acc
  | k + 1, j, t, acc =>
    let q := t / (2 * (j : Int) + 1)
    oddSeries p sq alt k (j + 1) (t * sq / 2 ^ p) (if alt && j % 2 == 1 then acc - q else acc + q)

/-- Encloses atanh(num / den) (alt false) or atan(num / den) (alt true) for 0 ≤ num / den ≤ 1/3, in units of 2^−p. -/
def atanEncl (p num den : Nat) (alt : Bool) : Int × Int :=
  let k := p / 3 + 16
  let u : Int := (num * 2 ^ p / den : Nat)
  let s := oddSeries p (u * u / 2 ^ p) alt k 0 u 0
  let err : Int := 4 * k + 16
  (s - err, s + err)

/-- Encloses ln 2 in units of 2^−p. -/
def ln2Encl (p : Nat) : Int × Int := let r := atanEncl p 1 3 false; (2 * r.1, 2 * r.2)

/-- Encloses π in units of 2^−p (16 atan 1/5 − 4 atan 1/239). -/
def piEncl (p : Nat) : Int × Int :=
  let a := atanEncl p 1 5 true
  let b := atanEncl p 1 239 true
  (16 * a.1 - 4 * b.2, 16 * a.2 - 4 * b.1)

/-- Encloses ln(m / 2^120) for positive m, in units of 2^−p. -/
def logEncl (p m : Nat) : Int × Int :=
  let s : Int := (Nat.log2 m : Int) - fxBits
  -- z = m / 2^log2 m lies in [1, 2)
  let one := 2 ^ Nat.log2 m
  let a := atanEncl p (m - one) (m + one) false
  let l := ln2Encl p
  if 0 ≤ s then (2 * a.1 + s * l.1, 2 * a.2 + s * l.2) else (2 * a.1 + s * l.2, 2 * a.2 + s * l.1)

/-- The sine series (odd true) or the cosine series, k terms, from term t with index j, in units of 2^−p. -/
def trigTerms (p : Nat) (sq : Int) : Nat → Nat → Int → Int → Int
  | 0, _, _, acc => acc
  | k + 1, j, t, acc =>
    trigTerms p sq k (j + 2) (-(t * sq / 2 ^ p / (((j : Int) + 1) * ((j : Int) + 2)))) (acc + t)

/-- Encloses sin(x + q π / 2), for the exact x = v / 2^120, in units of 2^−p: the argument is reduced by π to as many
bits as x has. -/
def sinEncl (p : Nat) (v : Int) (q : Int) : Int × Int :=
  let g := p + Nat.log2 (v.natAbs + 1) + 64
  let pi := piEncl g
  let x : Int := v * 2 ^ g / 2 ^ fxBits
  -- nearest multiple k of π / 2
  let k : Int := (4 * x + pi.1) / (2 * pi.1)
  let lo := x - (if 0 ≤ k then ceilDiv (k * pi.2) 2 else ceilDiv (k * pi.1) 2) - 1
  let hi := x - (if 0 ≤ k then k * pi.1 / 2 else k * pi.2 / 2) + 2
  let mid := lo
  let width := hi - lo
  let n := g / 4 + 16
  let sq := mid * mid / 2 ^ g
  let quad := ((k + q) % 4).toNat
  let c := quad % 2 == 1
  let s := if c then trigTerms g sq n 0 (2 ^ g) 0 else trigTerms g sq n 1 mid 0
  let err : Int := 4 * n + 16 + width
  let r : Int × Int := if quad < 2 then (s - err, s + err) else (-s - err, -s + err)
  (r.1 / 2 ^ (g - p), ceilDiv r.2 (2 ^ (g - p)))

/-- The one-operand functions of R283. -/
inductive Fn where
  | sqrt | rsqrt | rcp | exp | exp2 | log | log2 | sin | cos | tanh | sigm
  deriving DecidableEq, Repr

/-- √(m / 2^120), rounded. Every boundary between two patterns is a multiple of 2^−124, so a root that is not a multiple of 2^−260
rounds as the middle of the two multiples beside it. -/
def sqrtRound (m n e : Nat) : Rounded :=
  let r := isqrt m
  if r * r = m then roundRat (r : Int) (2 ^ 60) n e
  else roundRat (2 * isqrt (m * 2 ^ 400) + 1 : Nat) (2 ^ 261) n e

/-- 1 / √(m / 2^120) for positive m, rounded in the same way. -/
def rsqrtRound (m n e : Nat) : Rounded :=
  let r := isqrt m
  if r * r = m then roundRat (2 ^ 60 : Nat) r n e
  else roundRat (2 * isqrt (2 ^ 640 / m) + 1 : Nat) (2 ^ 261) n e

/-- x in units of 2^−p, rounded down and up, for x = v / 2^120. -/
def fxTo (p : Nat) (v : Int) : Int × Int := (v * 2 ^ p / 2 ^ fxBits, ceilDiv (v * 2 ^ p) (2 ^ fxBits))

/-- A positive value below 2^−200, enclosed. -/
def tinyEncl (p : Nat) : Encl := ⟨1, 2 ^ (p - 200), 2 ^ p⟩

/-- An enclosure of a positive value from a pair in units of 2^−p. -/
def posEncl (p : Nat) (r : Int × Int) : Encl := ⟨if r.1 ≤ 0 then 1 else r.1, r.2, 2 ^ p⟩

/-- Encloses e^(v/2^120) (base2 false) or 2^(v/2^120), as a positive value. -/
def expOf (base2 : Bool) (v : Int) (p : Nat) : Encl :=
  if 200 * 2 ^ fxBits ≤ v then ⟨2 ^ 200, 2 ^ 200, 1⟩
  else if v ≤ -(200 * 2 ^ fxBits) then tinyEncl 200
  else
    let x := fxTo p v
    if base2 then
      let l := ln2Encl p
      let lo := if 0 ≤ v then x.1 * l.1 / 2 ^ p else x.1 * l.2 / 2 ^ p
      let hi := if 0 ≤ v then ceilDiv (x.2 * l.2) (2 ^ p) else ceilDiv (x.2 * l.1) (2 ^ p)
      posEncl p (expEncl p lo hi)
    else posEncl p (expEncl p x.1 x.2)

/-- Encloses ln(v / 2^120) for positive v. -/
def logOf (v : Int) (p : Nat) : Encl := let r := logEncl p v.toNat; ⟨r.1, r.2, 2 ^ p⟩

/-- Encloses log2(v / 2^120) for positive v. -/
def log2Of (v : Int) (p : Nat) : Encl :=
  let r := logEncl p v.toNat
  let l := ln2Encl p
  ⟨if 0 ≤ r.1 then r.1 * 2 ^ p / l.2 else r.1 * 2 ^ p / l.1,
    if 0 ≤ r.2 then ceilDiv (r.2 * 2 ^ p) l.1 else ceilDiv (r.2 * 2 ^ p) l.2, 2 ^ p⟩

/-- Encloses sin(v / 2^120 + q π / 2). -/
def sinOf (q v : Int) (p : Nat) : Encl := let r := sinEncl p v q; ⟨r.1, r.2, 2 ^ p⟩

/-- Encloses tanh(v / 2^120): (1 − E) / (1 + E) with E = e^(−2a) for the absolute value a, the sign restored. -/
def tanhOf (v : Int) (p : Nat) : Encl :=
  let a : Int := (v.natAbs : Int)
  let w : Int × Int :=
    if 100 * 2 ^ fxBits ≤ a then (2 ^ p - 2 ^ (p - 180), 2 ^ p)
    else
      let x := fxTo p (-2 * a)
      let r := expEncl p x.1 x.2
      ((2 ^ p - r.2) * 2 ^ p / (2 ^ p + r.2), ceilDiv ((2 ^ p - r.1) * 2 ^ p) (2 ^ p + r.1))
  if v < 0 then ⟨-w.2, -w.1, 2 ^ p⟩ else ⟨w.1, w.2, 2 ^ p⟩

/-- Encloses 1 / (1 + e^(−v/2^120)), as a positive value. -/
def sigmOf (v : Int) (p : Nat) : Encl :=
  if 150 * 2 ^ fxBits ≤ v then ⟨2 ^ 180 - 1, 2 ^ 180, 2 ^ 180⟩
  else if v ≤ -(200 * 2 ^ fxBits) then tinyEncl 200
  else
    let x := fxTo p (-v)
    let r := expEncl p x.1 x.2
    posEncl p (2 ^ (2 * p) / (2 ^ p + r.2), ceilDiv (2 ^ (2 * p)) (2 ^ p + (if r.1 < 0 then 0 else r.1)))

/-- round_T of the exact value of a special function at v / 2^120 (R207, R283); NAR where the function creates a NaR. -/
def Fn.eval (f : Fn) (v : Int) (n e : Nat) : Rounded :=
  match f with
  | .sqrt => if v < 0 then narCreated n else if v = 0 then roundRat 0 1 n e else sqrtRound v.toNat n e
  | .rsqrt => if v ≤ 0 then narCreated n else rsqrtRound v.toNat n e
  | .rcp => if v = 0 then narCreated n else
      roundRat (if v < 0 then -(2 ^ fxBits : Nat) else (2 ^ fxBits : Nat)) v.natAbs n e
  | .exp => if v = 0 then roundRat 1 1 n e else roundEncl (expOf false v) n e
  | .exp2 =>
    if v % 2 ^ fxBits = 0 then
      let k := v / 2 ^ fxBits
      if 200 ≤ k then roundRat (2 ^ 200) 1 n e
      else if k ≤ -200 then roundRat 1 (2 ^ 200) n e
      else if 0 ≤ k then roundRat (2 ^ k.toNat) 1 n e else roundRat 1 (2 ^ (-k).toNat) n e
    else roundEncl (expOf true v) n e
  | .log =>
    if v ≤ 0 then narCreated n else if v = 2 ^ fxBits then roundRat 0 1 n e else roundEncl (logOf v) n e
  | .log2 =>
    if v ≤ 0 then narCreated n
    else if v.toNat = 2 ^ Nat.log2 v.toNat then roundRat ((Nat.log2 v.toNat : Int) - fxBits) 1 n e
    else roundEncl (log2Of v) n e
  | .sin => if v = 0 then roundRat 0 1 n e else roundEncl (sinOf 0 v) n e
  | .cos => if v = 0 then roundRat 1 1 n e else roundEncl (sinOf 1 v) n e
  | .tanh => if v = 0 then roundRat 0 1 n e else roundEncl (tanhOf v) n e
  | .sigm => if v = 0 then roundRat 1 2 n e else roundEncl (sigmOf v) n e

end Sys2Proof.Machine
end

