-- ==== Sys2Proof/Machine/Series.lean ====
section
/-!
DEFINITION. The series rules of jets (09_numbers R217 to R223, 13 R301), the block quantisation of R216 and the lossy
rescale of R224. A jet is the list of its exact coefficients c0 … ck in units of 2^−120.
-/
namespace Sys2Proof.Machine
open Sys2Proof

/-- The exact value of a rounded coefficient that is not NaR. -/
def Rounded.value (r : Rounded) (n e : Nat) : Int := (decodePat r.pat n e).getD 0

/-- m more coefficients, each formed from the index and the exact values of the coefficients before it. -/
def seriesFrom (n e : Nat) (f : Nat → List Int → Rounded) : Nat → List Rounded → List Rounded
  | 0, rs => rs
  | m + 1, rs => seriesFrom n e f m (rs ++ [f rs.length (rs.map (fun r => r.value n e))])

/-- Σ_{j = lo … i} w j × a[j] × b[i − j]. -/
def convSum (w : Nat → Int) (a b : List Int) (lo i : Nat) : Int :=
  ((List.range (i + 1)).filter (fun j => lo ≤ j)).foldl (fun s j => s + w j * a.getD j 0 * b.getD (i - j) 0) 0

/-- round_T(num / (2^s × d)) for a non-zero d. -/
def roundQuot (num : Int) (s : Nat) (d : Int) (n e : Nat) : Rounded :=
  if d < 0 then roundRat (-num) (2 ^ s * d.natAbs) n e else roundRat num (2 ^ s * d.natAbs) n e

/-- The operand coefficients as numbers, unless one is NaR (R220). -/
def allNumbers : List Fx → Option (List Int)
  | [] => some []
  | none :: _ => none
  | some x :: l => (allNumbers l).map (x :: ·)

/-- Every coefficient NaR without a NaR operand coefficient: NAR0 … NARk (R301). -/
def allNar (k n : Nat) : List Rounded := List.replicate (k + 1) (narCreated n)

/-- jet_add (R219), with the sign of the second operand. -/
def jetAdd (neg : Bool) (a b : List Int) (k n e : Nat) : List Rounded :=
  (List.range (k + 1)).map (fun i =>
    let y := b.getD i 0
    roundRat (a.getD i 0 + (if neg then -y else y)) (2 ^ fxBits) n e)

/-- jet_mul. -/
def jetMul (a b : List Int) (k n e : Nat) : List Rounded :=
  (List.range (k + 1)).map (fun i => roundRat (convSum (fun _ => 1) a b 0 i) (2 ^ (2 * fxBits)) n e)

/-- jet_fma: the product negated under negP, the addend under negD (R219, R282). -/
def jetFma (negP negD : Bool) (a b d : List Int) (k n e : Nat) : List Rounded :=
  (List.range (k + 1)).map (fun i =>
    let p := convSum (fun _ => 1) a b 0 i
    let x := d.getD i 0 * 2 ^ fxBits
    roundRat ((if negP then -p else p) + (if negD then -x else x)) (2 ^ (2 * fxBits)) n e)

/-- jet_div. -/
def jetDiv (a b : List Int) (k n e : Nat) : List Rounded :=
  let b0 := b.getD 0 0
  if b0 = 0 then allNar k n
  else seriesFrom n e (fun i q =>
    roundQuot (a.getD i 0 * 2 ^ fxBits - convSum (fun _ => 1) b q 1 i) fxBits b0 n e) (k + 1) []

/-- jet_pow for p = 1/2 (c = 3) or p = −1/2 (c = 1), with c = 2 (p + 1). -/
def jetPow (f : Fn) (c : Int) (a : List Int) (k n e : Nat) : List Rounded :=
  let a0 := a.getD 0 0
  let r0 := f.eval a0 n e
  if r0.nar then allNar k n
  else if a0 = 0 then r0 :: List.replicate k (narCreated n)
  else seriesFrom n e (fun i q =>
    roundQuot (convSum (fun j => c * j - 2 * i) a q 1 i) fxBits (2 * i * a0) n e) k [r0]

/-- Encloses ln 2 × num / den. -/
def timesLn2 (num : Int) (den p : Nat) : Encl :=
  let l := ln2Encl p
  if 0 ≤ num then ⟨num * l.1, num * l.2, den * 2 ^ p⟩ else ⟨num * l.2, num * l.1, den * 2 ^ p⟩

/-- Encloses (x / ln 2 − t) / d for a positive d. -/
def overLn2 (x t : Int) (d p : Nat) : Encl :=
  let l := ln2Encl p
  let lo := if 0 ≤ x then x * 4 ^ p / l.2 else x * 4 ^ p / l.1
  let hi := if 0 ≤ x then ceilDiv (x * 4 ^ p) l.1 else ceilDiv (x * 4 ^ p) l.2
  ⟨lo - t * 2 ^ p, hi - t * 2 ^ p, d * 2 ^ p⟩

/-- round_T(ln 2 × num / den). -/
def roundTimesLn2 (num : Int) (den n e : Nat) : Rounded :=
  if num = 0 then roundRat 0 1 n e else roundEncl (timesLn2 num den) n e

/-- round_T((x / ln 2 − t) / d) for a positive d; exact when x is zero. -/
def roundOverLn2 (x t : Int) (d n e : Nat) : Rounded :=
  if x = 0 then roundRat (-t) d n e else roundEncl (overLn2 x t d) n e

/-- jet_exp with λ = 1, or ln 2 under base2. -/
def jetExp (base2 : Bool) (a : List Int) (k n e : Nat) : List Rounded :=
  seriesFrom n e (fun i q =>
    let s := convSum (fun j => j) a q 1 i
    let den := 2 ^ (2 * fxBits) * i
    if base2 then roundTimesLn2 s den n e else roundRat s den n e) k
    [(if base2 then Fn.exp2 else Fn.exp).eval (a.getD 0 0) n e]

/-- jet_log with μ = 1, or 1 / ln 2 under base2. -/
def jetLog (base2 : Bool) (a : List Int) (k n e : Nat) : List Rounded :=
  let a0 := a.getD 0 0
  let r0 := (if base2 then Fn.log2 else Fn.log).eval a0 n e
  if r0.nar then allNar k n
  else seriesFrom n e (fun i l =>
    let t := ((List.range i).filter (fun j => 1 ≤ j)).foldl
      (fun s j => s + j * l.getD j 0 * a.getD (i - j) 0) (0 : Int)
    let x := i * a.getD i 0 * 2 ^ fxBits
    let d := 2 ^ fxBits * i * a0.toNat
    if base2 then roundOverLn2 x t d n e else roundRat (x - t) d n e) k [r0]

/-- jet_sincos: the two series together, each coefficient of a pair formed from the pairs before it. -/
def sinCosFrom (a : List Int) (n e : Nat) : Nat → List (Rounded × Rounded) → List (Rounded × Rounded)
  | 0, rs => rs
  | m + 1, rs =>
    let i := rs.length
    let s := rs.map (fun r => r.1.value n e)
    let c := rs.map (fun r => r.2.value n e)
    let den := 2 ^ (2 * fxBits) * i
    let si := roundRat (convSum (fun j => j) a c 1 i) den n e
    let ci := roundRat (-(convSum (fun j => j) a s 1 i)) den n e
    sinCosFrom a n e m (rs ++ [(si, ci)])

/-- VSIN or VCOS writes its own series (R219). -/
def jetSinCos (cosine : Bool) (a : List Int) (k n e : Nat) : List Rounded :=
  let a0 := a.getD 0 0
  let rs := sinCosFrom a n e k [(Fn.sin.eval a0 n e, Fn.cos.eval a0 n e)]
  rs.map (fun r => if cosine then r.2 else r.1)

/-- jet_tanh, or VSIGM's form of it. -/
def jetTanh (sigm : Bool) (a : List Int) (k n e : Nat) : List Rounded :=
  seriesFrom n e (fun i t =>
    let u := (List.range i).map (fun m =>
      let sq := convSum (fun _ => 1) t t 0 m
      if sigm then t.getD m 0 * 2 ^ fxBits - sq else (if m = 0 then 2 ^ (2 * fxBits) else 0) - sq)
    roundRat (convSum (fun j => j) a u 1 i) (2 ^ (3 * fxBits) * i) n e) k
    [(if sigm then Fn.sigm else Fn.tanh).eval (a.getD 0 0) n e]

/-- The one-operand functions on jets of order k (R219, R220, R301). -/
def Fn.jet (f : Fn) (a : List Fx) (k n e : Nat) : List Rounded :=
  match allNumbers a with
  | none => List.replicate (k + 1) (narOperand n)
  | some x => match f with
    | .sqrt => jetPow .sqrt 3 x k n e
    | .rsqrt => jetPow .rsqrt 1 x k n e
    | .rcp => jetDiv [2 ^ fxBits] x k n e
    | .exp => jetExp false x k n e
    | .exp2 => jetExp true x k n e
    | .log => jetLog false x k n e
    | .log2 => jetLog true x k n e
    | .sin => jetSinCos false x k n e
    | .cos => jetSinCos true x k n e
    | .tanh => jetTanh false x k n e
    | .sigm => jetTanh true x k n e

/-- The two- and three-operand operations of R282. -/
inductive Arith where
  | add | sub | mul | div | fma | fms | fnma
  deriving DecidableEq, Repr

/-- Whether the operation reads a third operand. -/
def Arith.ternary : Arith → Bool
  | .fma | .fms | .fnma => true
  | _ => false

/-- The operations of R282 on jets of order k: any NaR operand coefficient makes every coefficient NaR (R220). -/
def Arith.jet (o : Arith) (a b c : List Fx) (k n e : Nat) : List Rounded :=
  match allNumbers a, allNumbers b, allNumbers (if o.ternary then c else []) with
  | some x, some y, some z => match o with
    | .add => jetAdd false x y k n e
    | .sub => jetAdd true x y k n e
    | .mul => jetMul x y k n e
    | .div => jetDiv x y k n e
    | .fma => jetFma false false x y z k n e
    | .fms => jetFma false true x y z k n e
    | .fnma => jetFma true false x y z k n e
  | _, _, _ => List.replicate (k + 1) (narOperand n)

/-- The result of VQNT on one block: scale byte, element patterns and the JF bits of R221. -/
structure Quantised where
  scale : BitVec 8
  elems : List Rounded
  nb    : Bool
  zb    : Bool
  scl   : Bool
  deriving DecidableEq, Repr

/-- vqnt (R216). -/
def vqnt (block : List Fx) (n e : Nat) : Quantised :=
  match allNumbers block with
  | none => { scale := 0, elems := block.map (fun _ => narOperand n), nb := true, zb := false, scl := false }
  | some xs =>
    let amax := xs.foldl (fun m x => max m x.natAbs) 0
    if amax = 0 then
      { scale := 0, elems := xs.map (fun _ => roundRat 0 1 n e), nb := false, zb := true, scl := false }
    else
      let s : Int := log2Fx amax - (2 ^ e : Nat)
      let t := max (-128) (min 127 s)
      { scale := BitVec.ofInt 8 t, elems := xs.map (fun x => roundScaled (some x) (-t) n e), nb := false, zb := false,
        scl := decide (s ≠ t) }

/-- rescale (R224) of an exact sum in units of 2^−120; a NaR sum stays NaR unless no contributor is valid. -/
def rescale (sum : Fx) (p v n e : Nat) : Rounded :=
  if v = 0 ∨ p = 0 then { pat := 0, nar := false, sat := false, inx := false }
  else match sum with
    | none => narOperand n
    | some s => roundRat (s * p) (2 ^ fxBits * v) n e

/-- The exact sum of posit values; NaR when one is (R290). -/
def sumFx (l : List Fx) : Fx := (allNumbers l).map (fun xs => xs.foldl (· + ·) 0)

end Sys2Proof.Machine
end

