-- ==== Sys2Proof/Machine/Quire.lean ====
section
/-!
DEFINITION. The Q512 quire and its status word (09_numbers R210 to R214).
-/
namespace Sys2Proof.Machine
open Sys2Proof

/-- A quire: 512 value bits and the 64-bit status word (R210, R211). -/
structure Quire where
  value  : BitVec 512
  status : DWord
  deriving DecidableEq, Repr

/-- A cleared quire (R211). -/
def Quire.zero : Quire := { value := 0, status := 0 }

/-- The NaR pattern (R210). -/
def quireNar : BitVec 512 := BitVec.ofNat 512 (2 ^ 511)

/-- The value in units of 2^−240; none is NaR. -/
def Quire.val (q : Quire) : Option Int := if q.value = quireNar then none else some q.value.toInt

/-- COUNT (R211). -/
def Quire.count (q : Quire) : Nat := q.status.toNat % 2 ^ 32
def Quire.nar (q : Quire) : Bool := q.status.getLsbD 32
def Quire.guard (q : Quire) : Bool := q.status.getLsbD 33
def Quire.poison (q : Quire) : Bool := q.status.getLsbD 34
def Quire.inexact (q : Quire) : Bool := q.status.getLsbD 35

/-- A status word from its fields (R211); reserved bits zero. -/
def quireStatus (count : Nat) (nar guard poison inexact : Bool) (fmt : Fmt) : DWord :=
  BitVec.ofNat 64 (count % 2 ^ 32 + nar.toNat * 2 ^ 32 + guard.toNat * 2 ^ 33 + poison.toNat * 2 ^ 34
    + inexact.toNat * 2 ^ 35 + fmt.toNat * 2 ^ 36)

/-- COUNT saturates at 2^32 − 1 (R211, R212). -/
def satCount (n : Nat) : Nat := min n (2 ^ 32 - 1)

/-- What one accumulation brings: the exact sum of its terms in units of 2^−240, how many they are, whether one is NaR
and whether one comes from a poisoned lane. -/
structure Terms where
  sum    : Int
  count  : Nat
  nan    : Bool
  poison : Bool
  deriving DecidableEq, Repr

/-- Whether a sum in units of 2^−240 reaches 2^271 in magnitude (R210, R212). -/
def quireOverflow (v : Int) : Bool := decide (2 ^ 511 ≤ v.natAbs)

/-- qacc (R212). -/
def Quire.acc (q : Quire) (t : Terms) (fmt : Fmt) : Quire :=
  let count := satCount (q.count + t.count)
  let nar := q.nar || t.nan
  let poison := q.poison || t.poison
  match (if t.nan then none else q.val) with
  | none => { value := quireNar, status := quireStatus count nar q.guard poison q.inexact fmt }
  | some x =>
    let v := x + t.sum
    if quireOverflow v then { value := quireNar, status := quireStatus count nar true poison q.inexact fmt }
    else { value := BitVec.ofInt 512 v, status := quireStatus count nar q.guard poison q.inexact fmt }

/-- The merge of an addend image b into a quire a (R214). -/
def Quire.merge (a b : Quire) : Quire :=
  let count := satCount (a.count + b.count)
  let fmt : Fmt := b.status.extractLsb' 36 4
  let mk (v : BitVec 512) (g : Bool) : Quire :=
    { value := v,
      status := quireStatus count (a.nar || b.nar) (g || a.guard || b.guard) (a.poison || b.poison)
        (a.inexact || b.inexact) fmt }
  match a.val, b.val with
  | some x, some y => if quireOverflow (x + y) then mk quireNar true else mk (BitVec.ofInt 512 (x + y)) false
  | _, _ => mk quireNar false

/-- qround (R212): the rounded value; the quire keeps its own. -/
def Quire.round (q : Quire) (n e : Nat) : Rounded :=
  match q.val with
  | none => narOperand n
  | some v => roundRat v (2 ^ 240) n e

/-- QNEG (R298). -/
def Quire.negate (q : Quire) : Quire := { q with value := if q.value = quireNar then quireNar else -q.value }

/-- INEXACT set (R212). -/
def Quire.setInexact (q : Quire) : Quire := { q with status := q.status ||| BitVec.ofNat 64 (2 ^ 35) }

/-- A value of 0 with only POISON set (R326). -/
def Quire.poisoned : Quire := { value := 0, status := BitVec.ofNat 64 (2 ^ 34) }

/-- The 72-byte image of a quire (R213); reserved status bits are stored as zero. -/
def Quire.image (q : Quire) : Image :=
  BitVec.ofNat 576 (q.value.toNat + q.status.toNat % 2 ^ 40 * 2 ^ 512)

/-- The quire of an image: the status exactly as stored (R213). -/
def Quire.ofImage (i : Image) : Quire := { value := i.extractLsb' 0 512, status := i.extractLsb' 512 64 }

/-- One effect on a quire or accumulator, applied at its landing (R296, R313). -/
inductive QuireOp where
  | clear
  | acc (t : Terms) (fmt : Fmt)
  | merge (b : Quire)
  | negate
  | set (q : Quire)
  | inexact
  deriving DecidableEq, Repr

/-- The effect of an operation on a quire. -/
def QuireOp.apply : QuireOp → Quire → Quire
  | .clear, _ => Quire.zero
  | .acc t fmt, q => q.acc t fmt
  | .merge b, q => q.merge b
  | .negate, q => q.negate
  | .set b, _ => b
  | .inexact, q => q.setInexact

/-- The terms of products of the elements of two lanes (R297), negated under neg. A poisoned lane contributes zero
terms and POISON. -/
def productTerms (a b : List Fx) (poison neg : Bool) : Terms :=
  let count := a.length
  if poison then { sum := 0, count, nan := false, poison := true }
  else match allNumbers a, allNumbers b with
    | some x, some y =>
      let s := (x.zipWith (· * ·) y).foldl (· + ·) (0 : Int)
      { sum := if neg then -s else s, count, nan := false, poison := false }
    | _, _ =>
      -- the sum of the other terms does not matter: the quire becomes NaR
      { sum := 0, count, nan := true, poison := false }

/-- The terms of the elements of a lane as addends. -/
def addendTerms (a : List Fx) (poison : Bool) : Terms :=
  if poison then { sum := 0, count := a.length, nan := false, poison := true }
  else match allNumbers a with
    | some x => { sum := x.foldl (· + ·) (0 : Int) * 2 ^ fxBits, count := a.length, nan := false, poison := false }
    | none => { sum := 0, count := a.length, nan := true, poison := false }

end Sys2Proof.Machine
end

