-- ==== Sys2Proof/Machine/Context.lean ====
section
/-!
DEFINITION. The state of one resident context of a tile (05_dispatcher R106, R116; 06_tile R120 to R148) and of what it
has under way: results in flight, accesses, requests, engine commands and waits. Plain data only.
-/
namespace Sys2Proof.Machine
open Sys2Proof

/-- A map from numbers to values in one canonical form: keys strictly rising, no entry equal to the value that an
unlisted key reads as. -/
abbrev Sparse (α : Type) := List (Nat × α)

/-- A vector register: 128 lanes of 32 bits and a poison bit for each lane (R1, R116). -/
structure VReg where
  bits   : VBits
  poison : LaneMask
  deriving DecidableEq, Repr

/-- A scalar register: 32 bits and a poison bit (R251). -/
structure SReg where
  value  : Word
  poison : Bool
  deriving DecidableEq, Repr

/-- An entry of a result queue (R132): request is the number that its parts name, owed how many parts are still to come,
ready the cycle from which it is poppable once none is; kind is 0 scalar, 1 pair, 2 vector (R351), lanes the lanes that
it holds. handler says that the cycle counts on the clock of the handler that issued the request. -/
structure QEntry where
  request : Nat
  owed    : Nat
  ready   : Nat
  handler : Bool
  kind    : Nat
  lanes   : LaneMask
  value   : VBits
  poison  : LaneMask
  status  : Byte
  /-- The entry is owed by an engine command, for which DRAIN does not wait (R184). -/
  engine  : Bool
  deriving DecidableEq, Repr

/-- A piece of an access: lane (or image) number, byte offset in the memory named, and length in bytes. -/
structure Piece where
  lane : Nat
  off  : Nat
  size : Nat
  deriving DecidableEq, Repr

/-- A part of a store: the bytes of value, little-endian. -/
structure Part where
  off   : Nat
  size  : Nat
  value : Nat
  deriving DecidableEq, Repr

/-- The operations of a bank ALU (R158, R242). -/
inductive AmoOp where
  | add | and | or | xor | min | max | maxu | xchg | minu
  | padd (fmt : Fmt)
  | cas (compare : DWord)
  deriving DecidableEq, Repr

/-- One atomic: the operation on size bytes at off with its operand; or a quire add of an image (R158, R332). -/
inductive Atom where
  | word (lane off size : Nat) (op : AmoOp) (operand : DWord)
  | quire (lane off : Nat) (image : Image)
  deriving DecidableEq, Repr

/-- What a request asks of a slice outside the issuing cluster. Offsets count within the field of R150. -/
inductive Ask where
  | load (pieces : List Piece)
  | store (parts : List Part)
  | atomic (atom : Atom)
  | wait (ge : Bool) (value : Word)
  deriving DecidableEq, Repr

/-- Where a value read by an access goes. record is the answer to an access that a control core or the dispatcher makes at a peer, code a
syllable (R171). A land cycle is the first cycle at which the result is readable (R124). -/
inductive Sink where
  | discard
  | scalar (r : SRegNo) (bits : Nat) (signed : Bool) (land : Nat)
  | pair (r : SRegNo) (land : Nat)
  | vector (v : VNum) (lgm : BitVec 8) (mask : LaneMask) (land : Nat)
  | quires (q : QNum) (land : Nat)
  | accs (land : Nat)
  | queue (k : QNum) (request : Nat) (signed : Bool) (bits : Nat) (land : Nat)
  | record
  | code
  deriving DecidableEq, Repr

/-- Which memory an own-cluster access reaches: the allocation of a task (its tile, context slot and ATAG, R152), the
tile's own weight buffer (R161) or the allocation control word (R153). -/
inductive Site where
  | alloc (tile slot atag : Nat)
  | weight
  | control (atag : Nat)
  deriving DecidableEq, Repr

/-- The operands of a VMRED (R291), captured at issue. -/
structure Reduce where
  fmt    : Fmt
  vd     : VNum
  lgm    : BitVec 8
  mask   : LaneMask
  data   : Site
  doff   : Nat
  valid  : Site
  moff   : Nat
  p      : Nat
  stride : Nat
  land   : Nat
  deriving DecidableEq, Repr

/-- A write that an engine command has still to make in the own cluster: bytes at an offset of a site, or a flag that it increments
there (R185, R339); ptr names the place in a denial. -/
structure Put where
  site  : Site
  off   : Nat
  bytes : List Byte
  flag  : Bool
  ptr   : DWord
  deriving DecidableEq, Repr

/-- What an own-cluster access does in its bank cycle. arrival is a request that has come over the mesh (R155); the others are an
engine's (R339): fill is the read of a weight line by WLD number cmd, at the pointer ptr, and line its write (R342); take is the read of size source bytes
of command cmd, and put a write of it, each followed by the rest of the command's reads or writes. -/
inductive Act where
  | load (pieces : List Piece) (sink : Sink)
  | store (parts : List Part)
  | atomic (atoms : List Atom) (sink : Sink)
  | reduce (r : Reduce)
  | fill (cmd line off : Nat) (ptr : DWord)
  | line (cmd line : Nat) (bits : Line)
  | arrival (req : Nat) (ask : Ask)
  | take (cmd off size : Nat) (ptr : DWord) (rest : List (Site × Nat × Nat × DWord))
  | put (cmd : Nat) (p : Put) (rest : List Put)
  | peek (runs : List (Nat × Nat)) (keep : Bool)
  deriving DecidableEq, Repr

/-- An own-cluster access issued and not yet performed: its bank cycle (R155), its place in issue order, its bundle,
where it goes and what it does. shadow holds bytes that a write of the same bundle has replaced and that this read still
sees, skip the bytes that a later syllable of the bundle has written and that this write leaves (R172). done says that it has
performed, ahead of the clock of its context. stamp is the bank cycle as a module cycle where the clock of the context does not give it:
the access of an engine or of an arrival, or one that a stop has overtaken (R114). acquire marks an LDA (R178), strong a strong access
(R174), handler one that a handler has issued (R142). -/
structure Access where
  cycle  : Nat
  seq    : Nat
  bundle : Nat
  site   : Site
  act    : Act
  shadow : List (Nat × Byte)
  skip   : List Nat
  done   : Bool
  stamp  : Option Nat
  acquire : Bool
  strong : Bool
  handler : Bool
  deriving DecidableEq, Repr

/-- A result that lands. Register writes are the entries of the pending-write set (R113); the others complete at a
stop (R114). -/
inductive Landing where
  | scalar (r : SRegNo) (value : Word) (poison : Bool)
  | pred (p : PNum) (mask value : LaneMask)
  | vector (v : VNum) (lgm : BitVec 8) (mask : LaneMask) (bits : VBits) (poison : LaneMask)
  | scale (v : VNum) (lgm : BitVec 8) (mask : LaneMask) (sel : Nat) (bytes : VBits)
  | quires (ops : List (Nat × QuireOp))
  | accs (ops : List (Nat × QuireOp))
  | flags (jf : DWord)
  | sysreg (idx : Nat) (mask value : DWord)
  | popped (queue : QNum) (status : Byte)
  | drained (row : BitVec 5) (flags : BitVec 4) (count : Word)
  | push (rows : List (Word × Bool))
  | shift
  | tsm (bits : DWord)
  deriving DecidableEq, Repr

/-- A result in flight: the first cycle at which it is readable (R124) and its place in issue order. -/
structure Flight where
  land : Nat
  seq  : Nat
  what : Landing
  deriving DecidableEq, Repr

/-- An engine command with its captured operands (R338 to R347). Pointers are tagged pointers (R149). -/
inductive Cmd where
  | cpy (dst src : DWord) (len : Nat)
  | gth (packed base : DWord) (toQueue : Bool) (idx : List Nat) (esz : Nat) (request : Nat)
  | sct (packed base : DWord) (idx : List Nat) (esz : Nat)
  | wld (src : DWord) (line count : Nat)
  | rwr (dst src : DWord) (len : Nat) (flag : DWord) (lossy : Bool) (mask : DWord)
  | rwg (dst src : DWord) (len : Nat) (flag : DWord)
  | rrd (src : DWord) (len : Nat) (rq : QNum) (request : Nat)
  | coll (dst src : DWord) (len : Nat) (flag : DWord) (cop : BitVec 4) (group : Nat)
  | qfence (mask : BitVec 4)
  deriving DecidableEq, Repr

/-- A command of a context: its number in issue order, its queue, its start cycle (R134), the batch it joined (R184), the
bundle that issued it, whether it was issued in handler mode (R136), and its progress: closed says that its transfers
are on their way, owed how many of them are not complete (R343, R346). begun says that the reads of its sources in the own cluster
are on their way, asked that those at another cluster or a peer are (R159, R171, R339), pend that some of them in the own cluster are still to perform, got holds the bytes that
have come, by pointer, and flag the flag that it has still to increment once everything has been written (R185), with whether the
issuer's own is left out (R346). -/
structure Command where
  num     : Nat
  eq      : QNum
  start   : Nat
  batch   : Nat
  bundle  : Nat
  handler : Bool
  cmd     : Cmd
  closed  : Bool
  owed    : Nat
  begun   : Bool
  asked   : Bool
  pend    : Bool
  got     : List (Nat × Byte)
  flag    : Option (DWord × Bool)
  deriving DecidableEq, Repr

/-- A closed or open batch: its number, how many of its commands have not performed, and how many it took (R184). -/
structure Batch where
  num   : Nat
  left  : Nat
  total : Nat
  deriving DecidableEq, Repr

/-- A failure of an engine command that has reached the tile and is not yet raised (R184). -/
structure EngineFailure where
  denied : Bool
  addr   : DWord
  peer   : Byte
  eq     : QNum
  deriving DecidableEq, Repr

/-- An entry of the loop stack: iterations still to run, first bundle, end bundle (R265). -/
structure LoopEntry where
  count : Nat
  start : DWord
  stop  : DWord
  deriving DecidableEq, Repr

/-- The REP state in force (R243, R244): the syllable and the repeat to issue next. -/
structure RepState where
  word : DWord
  j    : Nat
  deriving DecidableEq, Repr

/-- A hold latch of a lane group (R129, R130): the base register it last read, the order k, and the lanes of the group,
sixteen per coefficient, with their poison. stale says that a result has landed in one of its registers since (R137). -/
structure Latch where
  reg    : VNum
  order  : Nat
  stale  : Bool
  bits   : List (BitVec 512)
  poison : List (BitVec 16)
  deriving DecidableEq, Repr

/-- An entry of the allocation table (R152): BASE in bytes, SIZE in units of 64 bytes, SWZ. The owning task is the
context that holds the entry. -/
structure Alloc where
  atag : Nat
  base : Nat
  size : Nat
  swz  : Nat
  deriving DecidableEq, Repr

/-- A trap (R140, R145, R146): its cause, TINFO, whether TINFO holds a tagged address, and the position and class of the
syllable. -/
structure Trap where
  cause : Cause
  info  : DWord
  addr  : Bool
  pos   : Nat
  cls   : Nat
  deriving DecidableEq, Repr

/-- The wait of a bundle at issue (R123): its earliest issue cycle, the barrier generation at which it has arrived
(R273) and whether it may leave (R274), the request that carries its watch (R276), and what its test has found: the
cycle in which it was first met, or that the watch was denied; seen is the word that it waits for as it stands at the start of the next
bank cycle. yielding says that a wait of the bundle is one in which its tile may switch (R107, R272), stopping that one is a stop point
(R112), which the wait of SPAWN is not. jo and lgdef are those of the decision
cycle (R127). -/
structure Wait where
  since    : Nat
  jo       : Nat
  lgdef    : BitVec 8
  arrived  : Option Nat
  leaving  : Bool
  watch    : Option Nat
  met      : Option Nat
  denied   : Bool
  seen     : Option Word
  yielding : Bool
  stopping : Bool
  deriving DecidableEq, Repr

/-- What a trap has parked (R142): the TCLK value c, the delay d that the bundle at tpc still has to serve, the results
pending,
the loop-stack depth and REP state, the address of the bundle, the barrier generation at which it has arrived, and the floor of R322. -/
structure Parked where
  c       : Nat
  d       : Nat
  tpc     : DWord
  pending : List Flight
  depth   : Nat
  rep     : Option RepState
  arrived : Option Nat
  floor   : Nat
  deriving DecidableEq, Repr

/-- What a resident context is doing (R106, R107, R112, R117, R269, R270). -/
inductive Run where
  | issuing | ready | waiting | halted | saving | saved | restoring | ended
  deriving DecidableEq, Repr

/-- The system registers of one context (R144), but for TCLK, which is the context's clock. -/
structure SysRegs where
  tpc     : DWord
  tcause  : DWord
  tinfo   : DWord
  tvec    : DWord
  jo      : DWord
  jf      : DWord
  slim    : DWord
  tsm     : DWord
  chkm    : DWord
  mstat   : DWord
  grps    : DWord
  taskid  : DWord
  swarmid : DWord
  lgdef   : DWord
  estat   : DWord
  deriving DecidableEq, Repr

/-- What a context takes of a save area (R116, R117): its die, the slot, and the place of the copy of each allocation, as an offset in the
area. -/
structure SaveSlot where
  die    : Nat
  index  : Nat
  copies : List (Nat × Nat)
  deriving DecidableEq, Repr

/-- One context: resident on a tile, or saved (run). uid is the model's own number for it, which requests name. -/
structure Ctx where
  uid     : Nat
  tile    : Nat
  slot    : Nat
  -- its register block: the first of its units of 16 physical vector registers (R106)
  block   : Nat
  part    : Nat
  device  : Nat
  run     : Run
  -- the task (R105, R108, R116)
  image   : DWord
  entry   : Nat
  regs    : Nat
  array   : Bool
  checked : Bool
  det     : Bool
  gang    : Bool
  dlf     : Bool
  reserve : Nat
  allocs  : List Alloc
  -- registers
  pc      : DWord
  sregs   : Vector SReg 32
  preds   : Vector LaneMask 8
  vregs   : Vector VReg 64
  quires  : Sparse Quire
  accs    : Sparse Quire
  stage0  : Vector (Word × Bool) 32
  stage1  : Vector (Word × Bool) 32
  weights : Sparse Line
  sys     : SysRegs
  latches : List (Nat × Latch)
  loops   : List LoopEntry
  rep     : Option RepState
  -- time (R123): clk is TCLK, or the handler's own cycle while parked holds the stopped TCLK; the context stands in
  -- module cycle modBase + rate × clk, with rate 2 on a degraded tile (R139); floor is the first cycle of clk at which an L-slot
  -- syllable, MSPILL or MFILL may issue (R322)
  clk      : Nat
  earliest : Nat
  modBase  : Int
  rate     : Nat
  seq      : Nat
  bundle   : Nat
  floor    : Nat
  parked   : Option Parked
  delay    : Option Nat
  -- what is under way
  flight   : List Flight
  accesses : List Access
  rq       : Vector (List QEntry) 4
  late     : List Trap
  wait     : Option Wait
  -- engines (R134, R184)
  cmdSeq   : Nat
  waiting  : List Command
  eqs      : Vector (List Command) 4
  batchSeq : Nat
  openB    : Batch
  closedB  : List Batch
  failures : List EngineFailure
  verdicts : Nat
  -- outstanding accesses (R167, R177, R178)
  denied   : List (DWord × Nat)
  ldaOwed  : List Nat
  -- the releases that have performed (R173)
  epoch    : Nat
  -- the syllables of pages at a peer that have been fetched, and whether their fetch is under way (R171, R229)
  code     : List (Nat × Option DWord)
  fetching : Option Nat
  -- the bytes that the next bundle has read in bank cycles before its issue, by physical address (R156)
  early    : List (Nat × Byte)
  -- groups and stops
  barriers : List (Nat × Nat)
  lastIssue : Nat
  hard     : Option Nat
  -- the module cycle of the hard pre-emption that has saved or will save the context (R103)
  askedAt  : Nat
  soft     : Bool
  boundary : Bool
  watch    : BitVec 16
  -- the module cycle in which the task started or last resumed (R111)
  began    : Nat
  -- the module cycle in which the wait of a context that has yielded its tile began (R111)
  waitedFrom : Nat
  -- copies of the allocations of a saved context (R116)
  copies   : List (Nat × List (Nat × Byte))
  -- its slot in the save area of its die and partition, from the request of its save to the end of its restore (R116, R117)
  saveSlot : Option SaveSlot
  deriving DecidableEq, Repr

end Sys2Proof.Machine
end

