-- ==== Sys2Proof/Machine/Module.lean ====
section
/-!
DEFINITION. The state of the module around its tiles: Firefly (01), the fabric ports (02), the host, images and control
cores (03), partitions and devices (04), the dispatchers (05), and the memory side (07). Plain data only.
-/
namespace Sys2Proof.Machine
open Sys2Proof

/-- A word of a sensor window (R23): VALID, ALARM and VALUE; KIND and INDEX are its place. -/
structure Sensor where
  valid : Bool
  alarm : Bool
  value : BitVec 16
  deriving DecidableEq, Repr

/-- Whether the module runs: on; off; cut by a thermal trip (R24); writing a dump after a fatal error (R25); or stopped
after a start that failed or a fatal error without a dump (R16, R25). -/
inductive Power where
  | on | off | cut | dumping | stopped
  deriving DecidableEq, Repr

/-- The wing codes of R87. -/
inductive WingCode where
  | ok | scrubPending | coreOnline | tasksResident | allocLive | lastWing | badTarget | frameForeign
  deriving DecidableEq, Repr

/-- Firefly's state (R15 to R26). The kept fields survive a module reset (R19). -/
structure Firefly where
  power     : Power
  reason    : Byte
  fails     : BitVec 4
  stage     : BitVec 4
  minimal   : Bool
  dumpValid : Bool
  lastDown  : BitVec 6
  partOk    : BitVec 8
  scrubDone : BitVec 32
  /-- SCRUBPROG of each wing: PHASE, TOTAL, DONE (R21). -/
  scrub     : Vector (BitVec 3 × BitVec 24 × BitVec 24) 32
  /-- Thermal sensors 0–63, droop monitors 64–95 and process monitors 96–111 of each die (R23), by die × 112 + i. -/
  sensors   : Sparse Sensor
  hold      : BitVec 8
  /-- The rails in mV (R12): the core and the SRAM of each compute die, and the core of each I/O die. -/
  coreMv    : Vector (BitVec 16) 8
  sramMv    : Vector (BitVec 16) 8
  ioMv      : Vector (BitVec 16) 2
  log       : List (BitVec 768)
  signedLog : List Byte
  timeUs    : Nat
  dumpCause : BitVec 32
  dumpDie   : BitVec 32
  /-- The wings on their way from one partition to another (R86): wing, partition that released it, and released frames. -/
  moving    : List (Nat × Nat × List (Nat × Nat))
  moveCode  : WingCode
  deriving DecidableEq, Repr

/-- One debt of a virtual device (R93): the lender and the amount in cycles. -/
structure Debt where
  lender : Nat
  amount : Nat
  deriving DecidableEq, Repr

/-- A virtual device (R90 to R93). Balances and debts are in cycles (R92). pending holds WEIGHT, QUANTUM, PRIOMAX and
the soft flag that take effect at the next refill. -/
structure Device where
  vd      : Nat
  weight  : Nat
  quantum : Nat
  priomax : Nat
  soft    : Bool
  balance : Int
  debts   : List Debt
  pending : Option (Nat × Nat × Nat × Bool)
  deriving DecidableEq, Repr

/-- A launch in the Hive (R95, R98): the record, its handle, what it has dispatched and what has ended. fault is the
time, task index and cause of the first trap that was not handled; core the launching control core, byTask the swarm,
cluster and uid of the task that spawned it; groups the task indices of each group; barDone the
last barrier generation of each group that has completed, with its cycle (R274). -/
structure Launch where
  handle   : Nat
  record   : BitVec 512
  device   : Nat
  prio     : Nat
  next     : Nat
  ended    : Nat
  faulted  : Nat
  fault    : Option (Nat × Nat × Nat)
  core     : Nat
  byTask   : Option (Nat × Nat × Nat)
  groups   : List (Nat × BitVec 1024)
  gang     : Bool
  placed   : Bool
  barDone  : List (Nat × Nat × Nat)
  deriving DecidableEq, Repr

/-- A loaded image (R62 to R75): the virtual address and the bytes of its code, and its scratchpad images (allocation, offset,
bytes). -/
structure ImageRec where
  handle  : DWord
  regs    : Nat
  det     : Bool
  checked : Bool
  scratch : Nat
  stack   : Nat
  groups  : Nat
  reserve : Nat
  allocs  : Nat
  entries : List DWord
  dlf     : Bool
  base    : DWord
  size    : Nat
  /-- The syllables of LIN that a translated image runs (R71, R72). -/
  lin     : List DWord
  /-- The names of the entries (R64). -/
  names   : List (BitVec 192)
  data    : List (Nat × Nat × List Byte)
  deriving DecidableEq, Repr

/-- The state of a partition (R82 and what hangs on it). -/
structure Partition where
  pnum     : Nat
  state    : Nat
  port     : Nat
  nvport   : Nat
  wings    : BitVec 32
  hbm      : List Nat
  lpd      : List Nat
  nsid     : BitVec 32
  period   : Nat
  hostwin  : Nat
  ownerKey : BitVec 16
  /-- The module cycle of the boot, from which refills count (R92). -/
  bootAt   : Nat
  refills  : Nat
  devices  : List Device
  hive     : List Launch
  nextHandle : Nat
  groupTable : List (Nat × Nat × BitVec 1024)
  images   : List ImageRec
  nextImage : Nat
  loadResult : BitVec 128
  attn     : List (BitVec 16)
  attnDrop : Bool
  attnRead : BitVec 16
  discards : Nat
  debug    : Bool
  /-- The wings whose tiles the dispatcher uses: one that has moved counts from the time its core comes online (R86 step 6). -/
  tiled    : BitVec 32
  slots    : List (Nat × Nat × Nat)
  /-- The slots that the partition was given at its boot on the mesh links which its routes cross, by link (R84). -/
  linkShare : List (Nat × BitVec 256)
  /-- The MSI-X table and the pending bits of the partition's PCIe function (R59). -/
  msix     : Vector (BitVec 128) 32
  msixPending : BitVec 32
  /-- The MSI-X messages that have gone to the host, each an address and data. -/
  msixSent : List (DWord × Word)
  lastCode : Nat
  /-- What control cores and the dispatcher have read or written in pages at a peer and not yet used, by space-0 address (R171). -/
  far      : List (Nat × Option Nat)
  deriving DecidableEq, Repr

/-- What a load-reserved of a control core holds (R181; log entry 3): bytes in the module, or a word at a peer, by the key of its address, with
the value that was read. -/
inductive Reservation where
  | here (at_ size : Nat)
  | far (key size value : Nat)
  deriving DecidableEq, Repr

/-- A control core of a wing (00_scope R1, 03_host_images_translation R77 to R80; the RV64GCH registers are RISC-V's, log entry 3): priv is 0
U, 1 S, 3 M; virt says that it runs under the H extension's virtualization; csrs holds the control and status registers by number, those that
are not listed being zero. -/
structure Core where
  reserved : Option Reservation
  xregs   : Vector DWord 32
  fregs   : Vector DWord 32
  pc      : DWord
  priv    : Nat
  virt    : Bool
  csrs    : Sparse DWord
  online  : Bool
  queue   : List (BitVec 128)
  kept    : List (BitVec 128)
  deriving DecidableEq, Repr

/-- A key slot of a die's engine: free or zeroised, bound to a partition, or bound to one wing of it (R88). -/
inductive KeySlot where
  | free
  | partition (part : Nat)
  | wing (part wing : Nat)
  deriving DecidableEq, Repr

/-- What Firefly has found of a tile at stage 1 and the slot-to-engine map that it has written: the lane group behind each of LG0 to
LG7 and the ALU behind each S slot (R139). -/
structure TileUnits where
  bad    : Defects
  lgMap  : List Nat
  aluMap : List Nat
  deriving DecidableEq, Repr

/-- How far a request has come. queued: not yet sent; moving: on its way to the slice; served: performed or denied, the
reply not yet sent or on its way; replying: the reply crosses the mesh. -/
inductive Stage where
  | queued | moving | served | replying
  deriving DecidableEq, Repr

/-- An access of a task of a swarm that leaves the cluster (R159, R162, R171), until its reply or acknowledgement reaches the
tile. acquire
marks an LDA (R178); sink says where a value goes; source is the issuing tile, tile and slot the target task's for
space-2 and space-4 accesses; slice is the TSM bit of a write (R177); data is what was read, by lane; denied says that it was not
performed; status is the status byte of R47. home is the space-0 address of an access that the owning die forwards to a peer
(R171), engine the queue and number of the engine command that sent it. bundle gives its place in program order, epoch how many
releases came before it, strong says that it is a strong access, and at_ is its place among the accesses of its bundle. An access to the own
cluster over the mesh keeps in shadow the bytes that a later write of its context through the port has replaced and that it still reads, and in
skip those that it must not write any more (R172 to R174). A request of uid 0 is one of a die's own, for the migration
whose number swarm then holds (R169). -/
structure Request where
  id      : Nat
  uid     : Nat
  part    : Nat
  swarm   : Nat
  source  : Nat
  tile    : Nat
  slot    : Nat
  addr    : DWord
  ask     : Ask
  sink    : Sink
  slice   : Option Nat
  acquire : Bool
  stage   : Stage
  readyAt : Nat
  data    : List (Nat × Nat)
  denied  : Bool
  status  : Byte
  home    : Option DWord
  engine  : Option (Nat × Nat)
  bundle  : Nat
  epoch   : Nat
  strong  : Bool
  at_     : Nat
  shadow  : List (Nat × Byte)
  skip    : List Nat
  deriving DecidableEq, Repr

/-- A cached translation (R162, R165): offset range of the die, the frame's physical place, rights RD, WR and AT. -/
structure TlbEntry where
  lo  : Nat
  size : Nat
  tier : Nat
  frame : Nat
  rd  : Bool
  wr  : Bool
  atm : Bool
  deriving DecidableEq, Repr

/-- Registers of a tile that belong to no context (R57, R139, R144, R165, R311). -/
structure TileRec where
  qcfg    : DWord
  fabtest : Word
  tlb     : List TlbEntry
  deriving DecidableEq, Repr

/-- A migration under way (R169): its number, the partition, the page by its die offset and size, the address of its leaf, the new
leaf, the hold queue's entries (offset in the page, bytes), whether the copy has ended, and how many accesses of it to a peer are not
complete. -/
structure Migration where
  num    : Nat
  part   : Nat
  va     : Nat
  size   : Nat
  leafAt : Nat
  target : DWord
  queue  : List (Nat × List Byte)
  copied : Bool
  owed   : Nat
  deriving DecidableEq, Repr

/-- The memory side of a die (R88, R162 to R170): roots of the two stages per partition, the TLB, migrations, moves by partition and
page in cycles, pinned pages with the cycle at which the pin ends, and the key slots of its engine. -/
structure DieRec where
  roots  : List (Nat × Nat)
  stage2 : List (Nat × Nat)
  keys   : Vector KeySlot 64
  tlb    : List (Nat × TlbEntry)
  migs   : List Migration
  moves  : List (Nat × Nat × Nat)
  pins   : List (Nat × Nat × Nat)
  result : Nat
  deriving DecidableEq, Repr

/-- A request that a port has sent and whose identifier is live (R37, R41 to R49, R370, R371): the target module, the request
payload, the data blocks, the class, whether its blocks go direct (R346), who issued it (a command of a context by uid, queue
and number, or a tile's request by its id), the window in which its request flit last left the port, unless it waits there, the resends
so far (R49), and the blocks that have not left the port (R43). -/
structure Outgoing where
  xfer    : Nat
  dst     : Nat
  payload : BitVec 512
  blocks  : List (BitVec 512)
  lossy   : Bool
  direct  : Bool
  command : Option (Nat × Nat × Nat)
  request : Option Nat
  sentAt  : Option Nat
  resends : Nat
  left    : Nat
  deriving DecidableEq, Repr

/-- A flit that waits for its window (R32 to R36): its channel, its phase once that is fixed (a relayed or a direct block),
the next hop then, its final target, class, the first window in which it may leave and the last one for a lossy flit, the
header without HOP1, the payload, the source module whose relay credit it holds, and the transfer whose block it is. -/
structure Waiting where
  chan    : Nat
  phase   : Option Nat
  dst     : Nat
  lossy   : Bool
  first   : Nat
  last    : Option Nat
  head    : DWord
  payload : BitVec 512
  relayOf : Option Nat
  owner   : Option Nat
  deriving DecidableEq, Repr

/-- What a meeting of the window in progress carries (R32): its index, the control, resent and relayed flits, the latest first, and the
flits of the port's own transfers, in order. Idle flits fill the rest. -/
structure Sent where
  meet  : Nat
  first : List (BitVec 608)
  own   : List (Waiting × BitVec 608)
  deriving DecidableEq, Repr

/-- A write that a port receives (R42 to R45): its source and identifier, its request payload, its class, the blocks that have
been written, whether it was denied, and the space-0 addresses that its grant gave to its data, flag and mask when it was accepted. -/
structure Incoming where
  src     : Nat
  xfer    : Nat
  payload : BitVec 512
  lossy   : Bool
  arrived : List Nat
  denied  : Bool
  data    : Nat
  flag    : Nat
  mask    : Nat
  deriving DecidableEq, Repr

/-- What a port holds for a peer: the sequence numbers of both directions, the flits kept until acknowledged and the number
from which they are to be resent (R38, R40), the flits accepted since the last acknowledgement, whether a NAK stands, the
atomic tags (R48), the relay credit that is left at the peer (R36), the control flits to send (kind and numbers), whether the
peer has left (R56), the window before whose end requests of the peer count as made before it left, the identifiers of such requests that have
been dropped, whether a flit from it has checked in the window in progress, and the last meetings in a row in which none has (R55). -/
structure Pair where
  peer     : Nat
  sendS    : Nat
  expectS  : Nat
  kept     : List (Nat × BitVec 608)
  resend   : Option Nat
  accepted : Nat
  nak      : Bool
  nextTag  : Nat
  highest  : Option Nat
  cache    : List (Nat × BitVec 512 × Byte)
  credit   : Nat
  control  : List (Nat × Nat)
  left     : Option Nat
  since    : Option Nat
  stale    : List Nat
  heard    : Bool
  silent   : Nat
  deriving DecidableEq, Repr

/-- A watch held by an exporter (R370): source module, SRCTILE, identifier and request payload. -/
structure HeldWatch where
  src     : Nat
  srctile : Nat
  xfer    : Nat
  payload : BitVec 512
  deriving DecidableEq, Repr

/-- A live grant (R51 to R53): record fields, the peer (importer of an exported grant, exporter of an imported one),
whether a recall is under way, the window from which that recall counts as acknowledged because the peer has left (R56), and whether the grant
has ended, with the window from which its frames are free. -/
structure GrantRec where
  gid     : Nat
  rights  : BitVec 8
  woff    : Nat
  len     : Nat
  fbase   : DWord
  peer    : Nat
  recalled : Bool
  lapse   : Option Nat
  freeAt  : Option Nat
  deriving DecidableEq, Repr

/-- A fabric port (02_optical_fabric). inbox holds accepted flits not yet acted on, with the window of their arrival; held the lossy and early blocks (source,
identifier, block, class, payload, window of arrival); wire what the port's meetings of the window in progress carry; down the meetings that are down (lower module × 256 + meeting index) and pendingDown the changes with the window
in which they take effect; discarded the headers of reliable flits that a reset has discarded, each with a module to be told (R46); replied the replies to writes and kernel the kernel messages, with their
numbers, that may have to be sent again (R46); qseqNext the issue numbers
of each engine queue towards each target and qseqSeen the next flag of each source queue (R45). -/
structure Port where
  nextXfer : Nat
  outgoing : List Outgoing
  waiting  : List Waiting
  relays   : List Waiting
  pairs    : List Pair
  incoming : List Incoming
  held     : List (Nat × Nat × Nat × Bool × BitVec 512 × Nat)
  inbox    : List (Nat × DWord × BitVec 512)
  wire     : List Sent
  watches  : List HeldWatch
  exported : List GrantRec
  imported : List GrantRec
  down     : List Nat
  pendingDown : List (Nat × Bool × Nat)
  discarded : List (Nat × DWord)
  replied  : List (Nat × Nat × BitVec 512)
  kernel   : List (Nat × Nat × BitVec 512)
  qseqNext : List (Nat × Nat)
  qseqSeen : List (Nat × Nat)
  deriving DecidableEq, Repr

/-- An agent that may move next: the model's schedule (plain data). A message is one of MSI-X that a partition sends to its host, by means
that the manual does not give (R59, R61; log entry 51). -/
inductive Turn where
  | event (i : Instr)
  | tile (t : Nat)
  | core (w : Nat)
  | message (part vector : Nat)
  deriving DecidableEq, Repr

/-- What the bundle being issued gives each of its syllables: its position, JO and LGDEF of the decision cycle (R127),
its 64 bits, the EXT immediate (R245), the queue places that the syllables before it take, and whether the faults and
waits of the whole bundle have been judged (passed); and what a syllable
answers to the bundle: a trap taken, a wait, the least distance
to the next bundle (R276), a taken transfer with its target, a transfer that trims no loop (CALL), and
that the syllable has done everything that follows its bundle. -/
structure Issue where
  pos      : Nat
  addr     : DWord
  size     : Nat
  jo       : Nat
  lgdef    : BitVec 8
  word     : Option DWord
  ext      : Option Word
  opened   : List Nat
  trapped  : Option Trap
  passed   : Bool
  stalled  : Bool
  gap      : Nat
  target   : Option DWord
  keep     : Bool
  ended    : Bool
  deriving DecidableEq, Repr

end Sys2Proof.Machine
end

