-- ==== Sys2Proof/Machine/Sparse.lean ====
section
/-!
DEFINITION. Maps in one canonical form, and memory as one of them (07_memory_translation): keys strictly rising, and no
entry equal to what an unlisted key reads as.
-/
namespace Sys2Proof.Machine
open Sys2Proof

/-- The value at a key; d is what an unlisted key reads as. -/
def Sparse.get {α : Type} (d : α) : Sparse α → Nat → α
  | [], _ => d
  | (k, v) :: m, a => if k = a then v else if a < k then d else Sparse.get d m a

/-- Writes a value at a key. Writing what an unlisted key reads as removes the entry. -/
def Sparse.set {α : Type} [DecidableEq α] (d : α) : Sparse α → Nat → α → Sparse α
  | [], a, x => if x = d then [] else [(a, x)]
  | (k, v) :: m, a, x =>
    if a < k then (if x = d then (k, v) :: m else (a, x) :: (k, v) :: m)
    else if a = k then (if x = d then m else (a, x) :: m)
    else (k, v) :: Sparse.set d m a x

/-- Every key is above lo, keys rise strictly, and no entry holds d. -/
def Sparse.wfFrom {α : Type} [DecidableEq α] (d : α) : Option Nat → Sparse α → Bool
  | _, [] => true
  | lo, (k, v) :: m =>
    (match lo with | none => true | some l => decide (l < k)) && decide (v ≠ d) && Sparse.wfFrom d (some k) m

/-- The canonical form. -/
def Sparse.wf {α : Type} [DecidableEq α] (d : α) (m : Sparse α) : Bool := Sparse.wfFrom d none m

/-- Memory: (physical address, byte) pairs in canonical form. -/
abbrev Memory := List Host.Cell

/-- What a byte of memory that nothing has written reads as (log entry 1; scratchpads: R88). -/
def unwritten : Byte := 0

/-- The canonical form of memory. -/
def Memory.wf (m : Memory) : Bool := Sparse.wf unwritten m

/-- One byte of memory. -/
def Memory.read (m : Memory) (a : Nat) : Byte := Sparse.get unwritten m a

/-- Writes one byte of memory. -/
def Memory.write (m : Memory) (a : Nat) (b : Byte) : Memory := Sparse.set unwritten m a b

/-- n bytes from a on, as a little-endian number (R5). -/
def Memory.readNat (m : Memory) (a : Nat) : Nat → Nat
  | 0 => 0
  | n + 1 => (Memory.read m a).toNat + 256 * Memory.readNat m (a + 1) n

/-- Writes the low n bytes of a number from a on, little-endian (R5). -/
def Memory.writeNat (m : Memory) (a : Nat) : Nat → Nat → Memory
  | 0, _ => m
  | n + 1, x => Memory.writeNat (Memory.write m a (BitVec.ofNat 8 x)) (a + 1) n (x / 256)

/-- n bytes from a on. -/
def Memory.readBytes (m : Memory) (a : Nat) : Nat → List Byte
  | 0 => []
  | n + 1 => Memory.read m a :: Memory.readBytes m (a + 1) n

/-- Writes bytes from a on. -/
def Memory.writeBytes (m : Memory) (a : Nat) : List Byte → Memory
  | [] => m
  | b :: l => Memory.writeBytes (Memory.write m a b) (a + 1) l

/-- The memories of a module as regions of one physical space (R1, R11): HBM4 of a die, LPDDR-6 of a die, the
scratchpad of a cluster, the host window of a partition (R59). -/
inductive Region where
  | hbm (die : Nat)
  | lpddr (die : Nat)
  | scratch (cluster : Nat)
  | host (part : Nat)
  deriving DecidableEq, Repr

/-- The number of a region. -/
def Region.num : Region → Nat
  | .hbm d => d
  | .lpddr d => 16 + d
  | .scratch c => 128 + c
  | .host p => 32 + p

/-- The bytes a region holds. -/
def Region.bytes : Region → Nat
  | .hbm _ => Config.hbmBytes
  | .lpddr _ => Config.lpddrBytes
  | .scratch _ => Config.scratchpadBytes
  | .host _ => 256 * 2 ^ 30

/-- The physical address of a byte of a region. -/
def Region.addr (r : Region) (off : Nat) : Nat := r.num * 2 ^ 60 + off

end Sys2Proof.Machine
end

