-- ==== Sys2Proof/Machine/State.lean ====
section
/-!
DEFINITION. The state of the FJ8 module, the reasons a step stops, and the state after reset. INVENTORY.md lists every
field with the rule that names it and its reset value.
-/
namespace Sys2Proof.Machine
open Sys2Proof

/-- Why the machine stops. -/
inductive Fault where
  /-- Raised by `step` when no event is scheduled and the module does not run (R16, R19, R24, R25): off, cut, stopped or writing
  a dump. No agent can move. Safe: the model stops where the hardware stands. -/
  | poweredOff
  deriving DecidableEq, Repr

/-- Why a step has no meaning. -/
inductive Refusal where
  /-- Raised by an arm of `exec` whose instruction has no meaning yet. Safe. -/
  | notModelled (mnemonic : String)
  deriving DecidableEq, Repr

/-- The state of the module. -/
structure State where
  /-- The context that the model looks at: the issuing context of the tile that moves. -/
  cur      : Ctx
  /-- Every other context, resident or saved. -/
  others   : List Ctx
  mem      : Memory
  tiles    : Sparse TileRec
  requests : List Request
  nextReq  : Nat
  nextUid  : Nat
  firefly  : Firefly
  parts    : Vector Partition 8
  cores    : Vector Core 32
  /-- The wing of the control core that moves. -/
  hart     : Nat
  units    : Sparse TileUnits
  degraded : BitVec 1024
  fused    : BitVec 1024
  dies     : Vector DieRec 8
  ports    : Vector Port 8
  /-- The number of the rotor window in progress, from fabric time 0 (R30). -/
  window   : Nat
  ownModule : Nat
  present  : BitVec 256
  /-- The mesh cycle count M (R369). -/
  cycle    : Nat
  /-- The model's counter of free values (log entry 8). -/
  fresh    : Nat
  issue    : Issue
  sched    : List Turn
  deriving DecidableEq, Repr

/-- A scalar register that holds 0. -/
def SReg.zero : SReg := { value := 0, poison := false }

/-- A vector register that holds 0. -/
def VReg.zero : VReg := { bits := 0, poison := 0 }

/-- The system registers of R144 at their reset values: 0 but for LGDEF (R148). -/
def SysRegs.zero : SysRegs :=
  { tpc := 0, tcause := 0, tinfo := 0, tvec := 0, jo := 0, jf := 0, slim := 0, tsm := 0, chkm := 0, mstat := 0,
    grps := 0, taskid := 0, swarmid := 0, lgdef := 0xFF, estat := 0 }

/-- No batch has taken a command. -/
def Batch.empty (n : Nat) : Batch := { num := n, left := 0, total := 0 }

/-- A context that no task has filled: every register at the value of R105, or 0 (log entry 2). -/
def Ctx.empty : Ctx :=
  { uid := 0, tile := 0, slot := 0, block := 0, part := 0, device := 0, run := .ended, image := 0, entry := 0, regs := 32,
    array := false, checked := false, det := false, gang := false, dlf := false, reserve := 0, allocs := [],
    pc := 0, sregs := Vector.replicate 32 SReg.zero, preds := (Vector.replicate 8 0).set 0 (BitVec.allOnes 128),
    vregs := Vector.replicate 64 VReg.zero, quires := [], accs := [],
    stage0 := Vector.replicate 32 (0, false), stage1 := Vector.replicate 32 (0, false), weights := [],
    sys := SysRegs.zero, latches := [], loops := [], rep := none, clk := 0, earliest := 0, modBase := 0, rate := 1, seq := 0,
    bundle := 0, floor := 0, parked := none, delay := none, flight := [], accesses := [], rq := Vector.replicate 4 [], late := [],
    wait := none, cmdSeq := 0, waiting := [], eqs := Vector.replicate 4 [], batchSeq := 0, openB := Batch.empty 0,
    closedB := [], failures := [], verdicts := 0, denied := [], ldaOwed := [], epoch := 0, code := [], early := [], fetching := none, barriers := [], lastIssue := 0,
    hard := none, askedAt := 0, soft := false, boundary := false, watch := 0, began := 0, waitedFrom := 0, copies := [], saveSlot := none }

/-- A partition that is down and that nothing has configured (R82); PERIOD has its default. -/
def Partition.down (n : Nat) : Partition :=
  { pnum := n, state := 0, port := 0, nvport := 0, wings := 0, hbm := List.replicate 8 0, lpd := List.replicate 8 0,
    nsid := 0, period := 1000, hostwin := 0, ownerKey := 0, bootAt := 0, refills := 0, devices := [], hive := [],
    nextHandle := 1, groupTable := [], images := [], nextImage := 1, loadResult := 0, attn := [], attnDrop := false,
    attnRead := 0, discards := 0, debug := false, tiled := 0, slots := [], linkShare := [],
    msix := Vector.replicate 32 (2 ^ 96), msixPending := 0, msixSent := [], lastCode := 0, far := [] }

/-- A control core at reset (log entry 3). -/
def Core.reset : Core :=
  { reserved := none, xregs := Vector.replicate 32 0, fregs := Vector.replicate 32 0, pc := 0, priv := 3, virt := false, csrs := [],
    online := false, queue := [], kept := [] }

/-- A port of a partition that has not booted (R37, R38, R48). -/
def Port.reset : Port :=
  { nextXfer := 0, outgoing := [], waiting := [], relays := [], pairs := [], incoming := [], held := [], inbox := [],
    wire := [], watches := [], exported := [], imported := [], down := [], pendingDown := [], discarded := [], replied := [],
    kernel := [], qseqNext := [], qseqSeen := [] }

/-- The memory side of a die with nothing cached and no root placed. -/
def DieRec.reset : DieRec :=
  { roots := [], stage2 := [], keys := Vector.replicate 64 .free, tlb := [], migs := [], moves := [], pins := [], result := 0 }

/-- Firefly's registers after a module reset (R19 to R23): the kept fields stand at what no earlier run has left
(log entry 2). -/
def Firefly.reset : Firefly :=
  { power := .on, reason := 0, fails := 0, stage := 0, minimal := false, dumpValid := false, lastDown := 0,
    partOk := 0, scrubDone := 0, scrub := Vector.replicate 32 (0, 0, 0), sensors := [], hold := 0,
    coreMv := Vector.replicate 8 550, sramMv := Vector.replicate 8 750, ioMv := Vector.replicate 2 750, log := [], signedLog := [], timeUs := 0, dumpCause := 0, dumpDie := 0,
    moving := [], moveCode := .ok }

/-- No bundle is being issued. -/
def Issue.none : Issue :=
  { pos := 0, addr := 0, size := 1, jo := 0, lgdef := 0xFF, word := Option.none, ext := Option.none, opened := [],
    trapped := Option.none, passed := false, stalled := false, gap := 1, target := Option.none, keep := false, ended := false }

/-- The module right after reset, before its start has run (R8, R15, R19). -/
def State.reset : State :=
  { cur := Ctx.empty, others := [], mem := [], tiles := [], requests := [], nextReq := 1, nextUid := 1,
    firefly := Firefly.reset, parts := Vector.ofFn (fun i => Partition.down i.val), cores := Vector.replicate 32 Core.reset, hart := 0,
    units := [], degraded := 0, fused := 0, dies := Vector.replicate 8 DieRec.reset, ports := Vector.replicate 8 Port.reset,
    window := 0, ownModule := 0, present := BitVec.allOnes 256, cycle := 0, fresh := 0, issue := Issue.none, sched := [] }

end Sys2Proof.Machine
end

