-- ==== Sys2Proof/Machine/Flags.lean ====
section
/-!
DEFINITION. The flag computations: JF (R221, R222, R281), MSTAT (R320, R323), ESTAT (R350, R351) and TSM (R148, R177).
-/
namespace Sys2Proof.Machine
open Sys2Proof

/-- The bits of m replaced by those of x. -/
def blend (old m x : DWord) : DWord := (old &&& ~~~m) ||| (x &&& m)

/-- MSTAT with the bits of m replaced: a CLINES above 2,048 leaves that field unchanged (R323). -/
def writeMstat (old m x : DWord) : DWord :=
  let new := blend old m x
  if 2048 < new.toNat / 2 ^ 48 % 4096 then blend new 0x0FFF_0000_0000_0000 old else new

/-- ESTAT after a POP (R350, R351). -/
def estatPopped (e : DWord) (queue : QNum) (status : Byte) : DWord :=
  let n := e.toNat
  let nrep := n / 2 ^ 8 % 256
  let nden := n / 2 ^ 16 % 256
  let nrep' := if status = 1 then min 255 (nrep + 1) else nrep
  let nden' := if status = 2 then min 255 (nden + 1) else nden
  BitVec.ofNat 64 (n / 2 ^ 34 * 2 ^ 34 + queue.toNat * 2 ^ 32 + status.toNat * 2 ^ 24 + nden' * 2 ^ 16 + nrep' * 2 ^ 8)

/-- MSTAT after a drain (R320, R323): the four flags of the row, its COUNT and ROW, and the sticky OR. -/
def mstatDrained (m : DWord) (row : BitVec 5) (flags : BitVec 4) (count : Word) : DWord :=
  let n := m.toNat
  let sticky := (BitVec.ofNat 4 (n / 2 ^ 36) ||| flags).toNat
  BitVec.ofNat 64 (n / 2 ^ 48 * 2 ^ 48 + row.toNat * 2 ^ 40 + sticky * 2 ^ 36 + flags.toNat * 2 ^ 32 + count.toNat)

/-- JF bits of rounded coefficients, coefficient i first at index i (R221, R281). -/
def flagsFrom (i : Nat) : List Rounded → DWord
  | [] => 0
  | r :: l => r.jf i ||| flagsFrom (i + 1) l

/-- PSN of the coefficients 0 to k (R281). -/
def psnFlags (k : Nat) : DWord := (List.range (k + 1)).foldl (fun a i => a ||| jfBits i false false false true) 0

/-- SAT and INX without NAR: the flags of QRND, MDRAIN, VMRED and VMSCL (R224, R299, R320). -/
def Rounded.jfSatInx (r : Rounded) (i : Nat) : DWord := jfBits i false r.sat r.inx false

/-- The TSM bit of a wing's scratchpads, of a die's memory, and of the fabric (R148). -/
def tsmClus (cluster : Nat) : Nat := cluster / 4
def tsmMemc (die : Nat) : Nat := 32 + die
def tsmFab : Nat := 40

/-- A double-word with the bits of a list set. -/
def bitsOf (l : List Nat) : DWord := BitVec.ofNat 64 (l.foldl (fun a k => a ||| 2 ^ k) 0)

/-- The TSM bits whose slice lies at least partly inside the instance of a scope (R175, R177). die and cluster name the
unit that holds the location, or the issuer for a FENCE; whole is a location of space 0, whose .C instance is its die. -/
def instanceBits (scope : Nat) (die cluster : Nat) (whole : Bool) : List Nat :=
  let dieBits (d : Nat) : List Nat := (List.range 4).map (fun w => 4 * d + w) ++ [tsmMemc d]
  match scope with
  | 0 => []
  | 1 => if whole then dieBits die else [tsmClus cluster]
  | 2 => dieBits die
  | 3 => (List.range 4).foldl (fun l i => l ++ dieBits (die / 4 * 4 + i)) []
  | 4 => List.range 40
  | _ => List.range 41

/-- The fixed part of a release or fence in cycles (R179). -/
def fixedPart (scope : Nat) : Nat :=
  match scope with
  | 0 => 0
  | 1 => 0
  | 2 => 24
  | 3 => 200
  | _ => 260

end Sys2Proof.Machine
end

