-- ==== Sys2Proof/Machine/Ops.lean ====
section
/-!
DEFINITION. The named operations over registers, time and own-cluster memory (06_tile, 07_memory_translation): reading
and writing registers, results in flight and their landing, accesses and their bank cycles, the allocation control word
and the bank ALUs.
-/
namespace Sys2Proof.Machine
open Sys2Proof

/-! ## Registers -/

/-- A scalar register; s0 reads as zero (R251). -/
def Ctx.sreg (c : Ctx) (r : SRegNo) : SReg := if r = 0 then SReg.zero else c.sregs[r.toNat]'r.isLt

/-- The value of a scalar; a poisoned scalar has zero value bits (R166). -/
def Ctx.s (c : Ctx) (r : SRegNo) : Word := if (c.sreg r).poison then 0 else (c.sreg r).value

/-- The poison bit of a scalar. -/
def Ctx.sp (c : Ctx) (r : SRegNo) : Bool := (c.sreg r).poison

/-- The even scalar of a pair (R232). -/
def lowOf (d : DNum) : SRegNo := BitVec.ofNat 5 (2 * d.toNat)

/-- The odd scalar of a pair. -/
def highOf (d : DNum) : SRegNo := BitVec.ofNat 5 (2 * d.toNat + 1)

/-- dN = s2N + 2^32 × s2N+1 (R149, R258). -/
def Ctx.d (c : Ctx) (d : DNum) : DWord := c.s (highOf d) ++ c.s (lowOf d)

/-- A pair is poisoned when either half is (R251). -/
def Ctx.dp (c : Ctx) (d : DNum) : Bool := c.sp (lowOf d) || c.sp (highOf d)

/-- A predicate register; p0 is true in every lane (R260). -/
def Ctx.p (c : Ctx) (p : PNum) : LaneMask := if p = 0 then BitVec.allOnes 128 else c.preds[p.toNat]'p.isLt

/-- A vector register. -/
def Ctx.v (c : Ctx) (v : VNum) : VReg := c.vregs[v.toNat]'v.isLt

/-- The lanes whose guard holds (R230). -/
def Ctx.guardLanes (c : Ctx) (h : Head) : LaneMask := if h.psns then ~~~(c.p h.pred) else c.p h.pred

/-- Lane 0 of the guard (R230). -/
def Ctx.guard0 (c : Ctx) (h : Head) : Bool := (c.guardLanes h).getLsbD 0

/-- The mask of n lanes, set where f holds. -/
def laneMaskOf (f : Nat → Bool) : Nat → Nat
  | 0 => 0
  | n + 1 => laneMaskOf f n + if f n then 2 ^ n else 0

/-- The lanes of the lane groups of a mask (R2). -/
def groupLanes (m : BitVec 8) : LaneMask := BitVec.ofNat 128 (laneMaskOf (fun l => m.getLsbD (l / 16)) 128)

/-- The lanes of a mask. -/
def lanesIn (m : LaneMask) : List Nat := (List.range 128).filter (fun l => m.getLsbD l)

/-- The 32 bits of every lane of a mask. -/
def laneBitsOf (m : LaneMask) : Nat → Nat
  | 0 => 0
  | n + 1 => laneBitsOf m n + if m.getLsbD n then (2 ^ 32 - 1) * 2 ^ (32 * n) else 0

/-- The bits of the lanes of a mask. -/
def expandMask (m : LaneMask) : VBits :=
  if m = BitVec.allOnes 128 then BitVec.allOnes 4096 else BitVec.ofNat 4096 (laneBitsOf m 128)

/-- Lane l of a vector. -/
def laneWord (b : VBits) (l : Nat) : Word := b.extractLsb' (32 * l) 32

/-- A lane as an operand: zero value bits where it is poisoned (R166). -/
def VReg.lane (v : VReg) (l : Nat) : Word := if v.poison.getLsbD l then 0 else laneWord v.bits l

/-- n lanes put together. -/
def lanesOf (f : Nat → Word) : Nat → Nat
  | 0 => 0
  | n + 1 => lanesOf f n + (f n).toNat * 2 ^ (32 * n)

/-- The vector whose lane l is f l in the lanes of a mask, and zero elsewhere. -/
def buildLanes (m : LaneMask) (f : Nat → Word) : VBits :=
  BitVec.ofNat 4096 (lanesOf (fun l => if m.getLsbD l then f l else 0) 128)

/-- The lanes of a mask in which f holds. -/
def buildMask (m : LaneMask) (f : Nat → Bool) : LaneMask :=
  BitVec.ofNat 128 (laneMaskOf (fun l => m.getLsbD l && f l) 128)

/-- A register with the lanes of a mask replaced, value and poison (R124). -/
def VReg.merge (v : VReg) (m : LaneMask) (bits : VBits) (poison : LaneMask) : VReg :=
  let e := expandMask m
  { bits := (v.bits &&& ~~~e) ||| (bits &&& e), poison := (v.poison &&& ~~~m) ||| (poison &&& m) }

/-- A write of a scalar register; s0 discards it (R124). -/
def Ctx.setS (c : Ctx) (r : SRegNo) (x : SReg) : Ctx := if r = 0 then c else { c with sregs := c.sregs.set r.toNat x r.isLt }

/-- A write of a predicate register; p0 discards it. -/
def Ctx.setP (c : Ctx) (p : PNum) (x : LaneMask) : Ctx := if p = 0 then c else { c with preds := c.preds.set p.toNat x p.isLt }

/-- A write of a vector register. -/
def Ctx.setV (c : Ctx) (v : VNum) (x : VReg) : Ctx := { c with vregs := c.vregs.set v.toNat x v.isLt }

/-- The lane quire q of a lane. -/
def Ctx.quire (c : Ctx) (q : QNum) (l : Nat) : Quire := Sparse.get Quire.zero c.quires (q.toNat * 128 + l)

/-- The array accumulator of a row and column (R313). -/
def Ctx.accAt (c : Ctx) (row col : Nat) : Quire := Sparse.get Quire.zero c.accs (row * 32 + col)

/-- A weight line (R161). -/
def Ctx.line (c : Ctx) (n : Nat) : Line := Sparse.get 0 c.weights n

/-- ORDER of JO (R217). -/
def joOf (j : DWord) : Nat := j.toNat % 4

/-! ## Results in flight -/

/-- Whether a landing is one of the entries of the pending-write set (R113). -/
def Landing.isEntry : Landing → Bool
  | .scalar .. | .pred .. | .vector .. | .scale .. => true
  | _ => false

/-- A SETC takes effect before the other results of its cycle (R222). -/
def Landing.rank : Landing → Nat
  | .sysreg .. => 0
  | _ => 1

/-- The order in which results land (R124, R222). -/
def Flight.before (a b : Flight) : Bool :=
  decide (a.land < b.land) || (a.land == b.land &&
    (decide (a.what.rank < b.what.rank) || (a.what.rank == b.what.rank && decide (a.seq < b.seq))))

/-- A result put in its place. -/
def insertFlight (f : Flight) : List Flight → List Flight
  | [] => [f]
  | g :: l => if f.before g then f :: g :: l else g :: insertFlight f l

/-- A result of a syllable with the number seq, readable from the cycle land on. -/
def Ctx.pushAt (c : Ctx) (land seq : Nat) (w : Landing) : Ctx :=
  { c with flight := insertFlight { land := land, seq := seq, what := w } c.flight }

/-- A result of latency lat of the syllable that issues now. -/
def Ctx.push (c : Ctx) (lat : Nat) (w : Landing) : Ctx :=
  { c.pushAt (c.clk + lat) c.seq w with seq := c.seq + 1 }

/-- A scalar result; a write of s0 is discarded (R124, R251). A poisoned result keeps the value computed from the zero
value bits of its poisoned sources (log 26, DEDUCED). -/
def Ctx.pushS (c : Ctx) (r : SRegNo) (value : Word) (poison : Bool) (lat : Nat) : Ctx :=
  if r = 0 then c else c.push lat (.scalar r value poison)

/-- A pair result: both halves land in the same cycle, both poisoned when any half of a source is (R251, R258). -/
def Ctx.pushD (c : Ctx) (d : DNum) (value : DWord) (poison : Bool) (lat : Nat) : Ctx :=
  (c.pushS (lowOf d) (value.extractLsb' 0 32) poison lat).pushS (highOf d) (value.extractLsb' 32 32) poison lat

/-- A predicate result in the lanes of a mask; p0 discards it (R260). -/
def Ctx.pushP (c : Ctx) (p : PNum) (mask value : LaneMask) (lat : Nat) : Ctx :=
  if p = 0 then c else c.push lat (.pred p mask value)

/-- A vector result in the lanes of a mask (R124); none when no lane is written. -/
def Ctx.pushV (c : Ctx) (v : VNum) (lgm : BitVec 8) (mask : LaneMask) (bits : VBits) (poison : LaneMask) (lat : Nat) :
    Ctx :=
  if mask = 0 then c else c.push lat (.vector v lgm mask bits poison)

/-- JF bits to be ORed in (R222). -/
def Ctx.pushJF (c : Ctx) (jf : DWord) (lat : Nat) : Ctx := if jf = 0 then c else c.push lat (.flags jf)

/-- Effects on lane quires (R296). -/
def Ctx.pushQ (c : Ctx) (ops : List (Nat × QuireOp)) (lat : Nat) : Ctx :=
  if ops.isEmpty then c else c.push lat (.quires ops)

/-- Effects on accumulators (R313). -/
def Ctx.pushA (c : Ctx) (ops : List (Nat × QuireOp)) (lat : Nat) : Ctx :=
  if ops.isEmpty then c else c.push lat (.accs ops)

/-- Entries of the pending-write set in flight, with the loads that will bring one (R113). -/
def Sink.entries : Sink → Nat
  | .scalar .. | .vector .. => 1
  | .pair .. => 2
  | _ => 0

/-- The first cycle at which what a sink takes is readable. -/
def Sink.landed : Sink → Nat
  | .discard | .record | .code => 0
  | .scalar _ _ _ l => l
  | .pair _ l => l
  | .vector _ _ _ l => l
  | .quires _ l => l
  | .accs l => l
  | .queue _ _ _ _ l => l

/-- The turn of an access at a bank port (R155): the tile's own L slot, arrivals, the tile's engines. -/
def Act.turn : Act → Nat
  | .arrival .. => 1
  | .fill .. | .line .. | .take .. | .put .. => 2
  | _ => 0

/-- Entries that an own-cluster access will bring. -/
def Act.entries : Act → Nat
  | .load _ k => k.entries
  | .atomic _ k => k.entries
  | .reduce _ => 1
  | _ => 0

/-- The first cycle after the effect of an access. -/
def Access.landed (a : Access) : Nat :=
  match a.act with
  | .load _ k => max (a.cycle + 1) k.landed
  | .atomic _ k => max (a.cycle + 1) k.landed
  | .store _ => a.cycle + 1
  | .reduce r => r.land
  | _ => 0

/-- The module cycle of an access of a context. -/
def Ctx.bankCycle (c : Ctx) (a : Access) : Int :=
  match a.stamp with
  | some m => (m : Int)
  | none => c.modBase + (c.rate * a.cycle : Nat)

/-- The context's own accesses that have not performed by cycle t of its clock, in handler mode those from before the trap too. Those of
its engines and arrivals do not count (R184). -/
def Ctx.unfinished (c : Ctx) (t : Nat) : List Access :=
  c.accesses.filter (fun a => a.act.turn == 0 && (!a.done || (a.stamp.isNone && decide (t < a.cycle))))

/-- Those of the mode that it is in: the handler's in handler mode. -/
def Ctx.unfinishedHere (c : Ctx) (t : Nat) : List Access := (c.unfinished t).filter (fun a => a.handler || c.parked.isNone)

/-- The results of a context that are in flight at cycle t of its clock, in entries (R113). -/
def Ctx.inFlightAt (c : Ctx) (t : Nat) : Nat :=
  (c.flight.filter (fun f => f.what.isEntry && decide (t < f.land))).length +
    ((c.accesses.filter (fun a => !a.done && decide (t < a.landed))).map (fun a => a.act.entries)).foldl (· + ·) 0

/-! ## System registers -/

/-- The writable bits of a system register at user level (R144 to R148, R221, R323, R350); none for RO registers and for
those of privileged level. -/
def sysWritable (idx : Nat) : Option DWord :=
  match idx with
  | 0x00 => some (BitVec.allOnes 64)
  | 0x01 | 0x02 | 0x04 | 0x0B | 0x0C | 0x0D | 0x10 | 0x11 => some 0
  | 0x03 => some (BitVec.allOnes 64)
  | 0x05 => some 0x3
  | 0x06 => some 0x7_FFFF
  | 0x07 => some (BitVec.allOnes 64)
  | 0x08 => some 0x1FF_FFFF_FFFF
  | 0x09 => some 0x1
  | 0x0A => some 0x0FFF_00F0_0000_0000
  | 0x0E => some 0xFF
  | 0x0F => some 0x0000_FFF0_00FF_FF00
  | _ => none

/-- The bits of SysRegs by index (R144). -/
def SysRegs.read (r : SysRegs) (idx : Nat) : DWord :=
  match idx with
  | 0x00 => r.tpc
  | 0x01 => r.tcause
  | 0x02 => r.tinfo
  | 0x03 => r.tvec
  | 0x05 => r.jo
  | 0x06 => r.jf
  | 0x07 => r.slim
  | 0x08 => r.tsm
  | 0x09 => r.chkm
  | 0x0A => r.mstat
  | 0x0B => r.grps
  | 0x0C => r.taskid
  | 0x0D => r.swarmid
  | 0x0E => r.lgdef
  | 0x0F => r.estat
  | _ => 0

/-- SysRegs with the bits of m of a register replaced. -/
def SysRegs.write (r : SysRegs) (idx : Nat) (m x : DWord) : SysRegs :=
  match idx with
  | 0x00 => { r with tpc := blend r.tpc m x }
  | 0x03 => { r with tvec := blend r.tvec m x }
  | 0x05 => { r with jo := blend r.jo m x }
  | 0x06 => { r with jf := blend r.jf m x }
  | 0x07 => { r with slim := blend r.slim m x }
  | 0x08 => { r with tsm := blend r.tsm m x }
  | 0x09 => { r with chkm := blend r.chkm m x }
  | 0x0A => { r with mstat := writeMstat r.mstat m x }
  | 0x0E => { r with lgdef := blend r.lgdef m x }
  | 0x0F => { r with estat := blend r.estat m x }
  | _ => r

/-! ## Engine commands -/

/-- A command of a batch is complete (R184). -/
def Ctx.batchDone (c : Ctx) (n : Nat) : Ctx :=
  if c.openB.num = n then { c with openB := { c.openB with left := c.openB.left - 1 } }
  else { c with closedB := (c.closedB.map (fun b => if b.num = n then { b with left := b.left - 1 } else b)).filter
                  (fun b => b.left != 0) }

/-- The engine queues of a context with a command replaced, by its number. -/
def Ctx.mapCommand (c : Ctx) (num : Nat) (f : Command → Command) : Ctx :=
  { c with eqs := c.eqs.map (fun q => q.map (fun k => if k.num = num then f k else k)) }

/-- The command of a number. -/
def Ctx.command (c : Ctx) (num : Nat) : Option Command := (c.eqs.toList.flatten).find? (fun k => k.num == num)

/-- A command is complete: it leaves its queues, and its batch counts it (R184). -/
def Ctx.finishCommand (c : Ctx) (k : Command) : Ctx :=
  ({ c with eqs := c.eqs.map (fun q : List Command => q.filter (fun x => x.num != k.num)) }).batchDone k.batch

/-- A failure that reaches the tile is recorded (R184); a fabric failure also in ESTAT while FKIND is 0 (R350): kind 1 denied, 2 the
peer left. -/
def Ctx.fail (c : Ctx) (denied : Bool) (addr : DWord) (peer : Byte) (eq : QNum) (kind : Nat) : Ctx :=
  let d := { c with failures := c.failures ++ [{ denied := denied, addr := addr, peer := peer, eq := eq }] }
  if denied ∨ c.sys.estat.toNat / 2 ^ 36 % 4 ≠ 0 then d
  else { d with sys := { d.sys with
    estat := blend d.sys.estat 0x0000_FFF0_0000_0000 (BitVec.ofNat 64 (peer.toNat * 2 ^ 40 + eq.toNat * 2 ^ 38 + kind * 2 ^ 36)) } }

/-- An access of a command has been denied at a pointer (R339). -/
def Ctx.deny (c : Ctx) (cmd : Nat) (ptr : DWord) : Ctx := c.fail true ptr 0 (((c.command cmd).map (·.eq)).getD 0) 0

/-- A command has one part less to wait for; one that is closed, waits for nothing and owes no flag is complete. -/
def Ctx.partDone (c : Ctx) (num : Nat) : Ctx :=
  let d := c.mapCommand num (fun k => { k with owed := k.owed - 1 })
  match d.command num with
  | some k => if k.closed ∧ k.owed = 0 ∧ k.flag.isNone then d.finishCommand k else d
  | none => d

/-! ## Landing -/

/-- The quires of a map with effects applied in order. -/
def applyOps (m : Sparse Quire) : List (Nat × QuireOp) → Sparse Quire
  | [] => m
  | (k, o) :: l => applyOps (Sparse.set Quire.zero m k (o.apply (Sparse.get Quire.zero m k))) l

/-- A latch after a result has landed in a register (R137). -/
def Latch.mark (l : Latch) (v : VNum) : Latch :=
  if l.reg.toNat ≤ v.toNat ∧ v.toNat ≤ l.reg.toNat + l.order then { l with stale := true } else l

/-- The hold latches of a context after a result has landed in a register (R137). -/
def Ctx.markStale (c : Ctx) (v : VNum) : Ctx :=
  if c.latches.isEmpty then c else { c with latches := c.latches.map (fun x => (x.1, x.2.mark v)) }

/-- What a landing result does to the registers of its context. -/
def Ctx.landOne (c : Ctx) : Landing → Ctx
  | .scalar r value poison => c.setS r { value := value, poison := poison }
  | .pred p mask value => c.setP p ((c.p p &&& ~~~mask) ||| (value &&& mask))
  | .vector v _ mask bits poison => (c.markStale v).setV v ((c.v v).merge mask bits poison)
  | .scale v _ mask sel bytes =>
    let one : VBits := BitVec.ofNat 4096 (lanesOf (fun l => if mask.getLsbD l then BitVec.ofNat 32 (0xFF * 2 ^ (8 * sel)) else 0) 128)
    (c.markStale v).setV v { c.v v with bits := ((c.v v).bits &&& ~~~one) ||| (bytes &&& one) }
  | .quires ops => { c with quires := applyOps c.quires ops }
  | .accs ops => { c with accs := applyOps c.accs ops }
  | .flags jf => { c with sys := { c.sys with jf := c.sys.jf ||| jf } }
  | .sysreg idx mask value =>
    { c with sys := c.sys.write idx mask value
             -- a handler that writes TPC discards the REP state in force (R244)
             parked := if idx = 0 then c.parked.map (fun p => { p with rep := none }) else c.parked }
  | .popped queue status => { c with sys := { c.sys with estat := estatPopped c.sys.estat queue status } }
  | .drained row flags count => { c with sys := { c.sys with mstat := mstatDrained c.sys.mstat row flags count } }
  | .push rows => { c with stage1 := c.stage0, stage0 := Vector.ofFn (fun i => rows.getD i.val (0, false)) }
  | .shift =>
    let all := c.stage0.toList ++ c.stage1.toList
    { c with stage0 := Vector.ofFn (fun i => all.getD (i.val + 1) (0, false)),
             stage1 := Vector.ofFn (fun i => all.getD ((i.val + 33) % 64) (0, false)) }
  | .tsm bits => { c with sys := { c.sys with tsm := c.sys.tsm ||| bits } }

/-- The registers of a tile that belong to no context, at reset (R57, R311). -/
def TileRec.reset : TileRec := { qcfg := 0, fabtest := 0, tlb := [] }

/-- The record of a tile. -/
def State.tileRec (s : State) (t : Nat) : TileRec := Sparse.get TileRec.reset s.tiles t

/-- The record of a tile replaced. -/
def State.setTile (s : State) (t : Nat) (r : TileRec) : State := { s with tiles := Sparse.set TileRec.reset s.tiles t r }

/-- The context replaced. -/
def State.withCur (s : State) (c : Ctx) : State := { s with cur := c }

/-- Whether an effect on a quire brings a value. -/
def QuireOp.isValue : QuireOp → Bool
  | .inexact => false
  | _ => true

/-- Whether an armed QCFG fires on a landing: a value lands in the target lane (R311). -/
def qcfgHits (q : DWord) (w : Landing) : Bool :=
  let n := q.toNat
  let lane := n / 2 ^ 15 % 128
  let reg := n / 2 ^ 9 % 64
  q.getLsbD 23 && (match w with
    | .vector v _ mask _ _ => !q.getLsbD 22 && v.toNat == reg && mask.getLsbD lane
    | .scale v _ mask _ _ => !q.getLsbD 22 && v.toNat == reg && mask.getLsbD lane
    | .quires ops => q.getLsbD 22 && ops.any (fun o => o.2.isValue && o.1 == reg % 4 * 128 + lane)
    | _ => false)

/-- The inversion of R311, after the landing. -/
def Ctx.invert (c : Ctx) (q : DWord) : Ctx :=
  let n := q.toNat
  let lane := n / 2 ^ 15 % 128
  let reg := n / 2 ^ 9 % 64
  let bit := n % 512
  if q.getLsbD 22 then
    let k := reg % 4 * 128 + lane
    let x := Sparse.get Quire.zero c.quires k
    { c with quires := Sparse.set Quire.zero c.quires k { x with value := x.value ^^^ BitVec.ofNat 512 (2 ^ bit) } }
  else
    let v : VNum := BitVec.ofNat 6 reg
    c.setV v { c.v v with bits := (c.v v).bits ^^^ BitVec.ofNat 4096 (2 ^ (32 * lane + bit % 32)) }

/-- One result lands; with an inversion that QCFG owes the end of the landing cycle (R311). -/
def State.landWith (s : State) (w : Landing) (owed : Option DWord) : State × Option DWord :=
  let t := s.tileRec s.cur.tile
  let u := s.withCur (s.cur.landOne w)
  if qcfgHits t.qcfg w then (u.setTile s.cur.tile { t with qcfg := t.qcfg &&& ~~~(0x80_0000 : DWord) }, some t.qcfg) else (u, owed)

/-- The landing cycle ends, and with it the inversion is made. -/
def State.endLanding (s : State) (owed : Option DWord) : State :=
  match owed with
  | some q => s.withCur (s.cur.invert q)
  | none => s

/-- One result lands in a cycle of its own. -/
def State.land (s : State) (w : Landing) : State := let x := s.landWith w none; x.1.endLanding x.2

/-- The results readable at cycle t land, in order (R124); owed is the inversion that the end of landing cycle at_ makes. -/
def State.landList (s : State) (t : Nat) (at_ : Nat) (owed : Option DWord) : List Flight → State
  | [] => let u := s.endLanding owed; u.withCur { u.cur with flight := [] }
  | f :: l =>
    if f.land ≤ t then
      let u := if f.land = at_ then (s, owed) else (s.endLanding owed, none)
      let x := u.1.landWith f.what u.2
      State.landList x.1 t f.land x.2 l
    else let u := s.endLanding owed; u.withCur { u.cur with flight := f :: l }

/-- Every result readable at cycle t has landed. -/
def State.landTo (s : State) (t : Nat) : State := s.landList t 0 none s.cur.flight

/-! ## Own-cluster memory -/

/-- The cluster of a tile (R2). -/
def clusterOf (tile : Nat) : Nat := tile / 8

/-- The tile's rank in its cluster (R2). -/
def rankOf (tile : Nat) : Nat := tile % 8

/-- The die of a tile. -/
def dieOf (tile : Nat) : Nat := tile / 128

/-- The wing of a tile (R2). -/
def wingOf (tile : Nat) : Nat := tile / 32

/-- A resident context is on its tile (R106). -/
def Run.resident : Run → Bool
  | .issuing | .ready | .waiting | .halted | .saving | .restoring => true
  | .saved | .ended => false

/-- Every context. -/
def State.ctxs (s : State) : List Ctx := s.cur :: s.others

/-- The resident context of a tile and slot. -/
def State.ctxAt (s : State) (tile slot : Nat) : Option Ctx :=
  s.ctxs.find? (fun c => c.run.resident && c.tile == tile && c.slot == slot)

/-- The allocation entry of a task (R152). -/
def Ctx.alloc (c : Ctx) (atag : Nat) : Option Alloc := c.allocs.find? (fun a => a.atag == atag)

/-- o' of R154. -/
def swizzle (z o : Nat) : Nat :=
  if z = 0 then o
  else
    let span := 2 ^ (z + 3)
    let n := 2048 / span
    let h := o / 2048
    h * 2048 + (o % 2048 / span ^^^ h % n) * span + o % span

/-- The scratchpad byte offset that an offset in an allocation reaches (R154). -/
def Alloc.phys (a : Alloc) (o : Nat) : Nat := a.base + swizzle a.swz o

/-- The bank words that n bytes at off of an allocation touch (R154): a span holds at least 16 bytes. -/
def Alloc.words (a : Alloc) (off n : Nat) : List Nat :=
  if n = 0 then [] else (List.range ((off + n - 1) / 16 - off / 16 + 1)).map (fun i => a.phys ((off / 16 + i) * 16) / 64)

/-- The physical addresses of n bytes from an offset of an allocation. -/
def Alloc.addrs (a : Alloc) (cluster o n : Nat) : List Nat :=
  (List.range n).map (fun i => (Region.scratch cluster).addr (a.phys (o + i)))

/-- The allocation that a site names, with its cluster. -/
def State.siteAlloc (s : State) : Site → Option (Nat × Alloc)
  | .alloc tile slot atag => ((s.ctxAt tile slot).bind (fun c => c.alloc atag)).map (fun a => (clusterOf tile, a))
  | _ => none

/-- The word of an allocation control word (R153). -/
def Alloc.controlWord (a : Alloc) : Nat := (a.size - 1) * 2 ^ 16 + a.swz

/-- A number from bytes, little-endian (R5). -/
def natOfBytes : List Byte → Nat
  | [] => 0
  | b :: l => b.toNat + 256 * natOfBytes l

/-- n bytes of a number, little-endian (R5). -/
def bytesOfNat : Nat → Nat → List Byte
  | 0, _ => []
  | n + 1, x => BitVec.ofNat 8 x :: bytesOfNat n (x / 256)

/-- The physical addresses that size bytes at off of a site are; empty for the weight buffer, the control word and an
allocation that is gone. -/
def State.siteAddrs (s : State) (site : Site) (off size : Nat) : List Nat :=
  match s.siteAlloc site with
  | some (cl, a) => a.addrs cl off size
  | none => []

/-- size bytes at off of a site, as a number. Bytes of shadow stand for those of memory (R172). -/
def State.siteRead (s : State) (shadow : List (Nat × Byte)) (site : Site) (off size : Nat) : Nat :=
  match site with
  | .weight => (s.cur.line (off / 128)).toNat / 2 ^ (8 * (off % 128)) % 2 ^ (8 * size)
  | .control atag => match s.cur.alloc atag with | some a => a.controlWord | none => 0
  | .alloc .. => natOfBytes ((s.siteAddrs site off size).map (fun p =>
      match shadow.find? (fun x => x.1 == p) with | some x => x.2 | none => Memory.read s.mem p))

/-- A weight line with size bytes at byte k replaced. -/
def writeLine (l : Line) (k size value : Nat) : Line :=
  let n := l.toNat
  let m := 2 ^ (8 * size)
  BitVec.ofNat 1024 (n / 2 ^ (8 * k) / m * m * 2 ^ (8 * k) + value % m * 2 ^ (8 * k) + n % 2 ^ (8 * k))

/-- The allocation entry atag with a new swizzle code. -/
def setSwz (atag z : Nat) : List Alloc → List Alloc
  | [] => []
  | a :: l => (if a.atag = atag then { a with swz := z } else a) :: setSwz atag z l

/-- Bytes written at physical addresses, but for those of skip. -/
def writeAddrs (m : Memory) (skip : List Nat) : List Nat → Nat → Memory
  | [], _ => m
  | p :: l, x =>
    writeAddrs (if skip.contains p then m else Memory.write m p (BitVec.ofNat 8 x)) skip l (x / 256)

/-- Bytes at physical addresses as another memory has them. -/
def copyAddrs (src : Memory) (as : List Nat) (m : Memory) : Memory := as.foldl (fun x p => Memory.write x p (Memory.read src p)) m

/-- size bytes written at off of a site, but for the physical bytes of skip. -/
def State.siteWrite (s : State) (skip : List Nat) (site : Site) (off size value : Nat) : State :=
  match site with
  | .weight =>
    let n := off / 128
    s.withCur { s.cur with weights := Sparse.set 0 s.cur.weights n (writeLine (s.cur.line n) (off % 128) size value) }
  | .control atag => s.withCur { s.cur with allocs := setSwz atag (value % 8) s.cur.allocs }
  | .alloc .. => { s with mem := writeAddrs s.mem skip (s.siteAddrs site off size) value }

/-- The new word of a bank ALU operation on a word of w bits (R158). -/
def AmoOp.eval (o : AmoOp) (w : Nat) (old a : Nat) : Nat :=
  match o with
  | .add => (old + a) % 2 ^ w
  | .and => old &&& a % 2 ^ w
  | .or => old ||| a % 2 ^ w
  | .xor => old ^^^ a % 2 ^ w
  | .min => if signedOf (a % 2 ^ w) w < signedOf old w then a % 2 ^ w else old
  | .max => if signedOf old w < signedOf (a % 2 ^ w) w then a % 2 ^ w else old
  | .maxu => if old < a % 2 ^ w then a % 2 ^ w else old
  | .minu => if a % 2 ^ w < old then a % 2 ^ w else old
  | .xchg => a % 2 ^ w
  | .cas c => if old = c.toNat % 2 ^ w then a % 2 ^ w else old
  | .padd fmt =>
    let n := fmtWidth fmt
    let e := fmtEs fmt
    match decodePat (old % 2 ^ n) n e, decodePat (a % 2 ^ n) n e with
    | some x, some y => (roundRat (x + y) (2 ^ fxBits) n e).pat
    | _, _ => narPat n

/-- The quire of a 72-byte image read as a number (R213). -/
def quireOfNat (x : Nat) : Quire := Quire.ofImage (BitVec.ofNat 576 x)

/-- One atomic at a site: the state after it, with the old value by lane (R158). It reads the bytes of shadow for those of memory, and does
not write those of skip (R174). -/
def State.siteAtomVia (s : State) (shadow : List (Nat × Byte)) (skip : List Nat) (site : Site) (a : Atom) : State × (Nat × Nat) :=
  match a with
  | .word lane off size op operand =>
    let old := s.siteRead shadow site off size
    (s.siteWrite skip site off size (op.eval (8 * size) old operand.toNat), (lane, old))
  | .quire lane off image =>
    let old := s.siteRead shadow site off 72
    let new := (quireOfNat old).merge (Quire.ofImage image)
    (s.siteWrite skip site off 72 new.image.toNat, (lane, 0))

/-- One atomic at a site. -/
def State.siteAtom (s : State) (site : Site) (a : Atom) : State × (Nat × Nat) := s.siteAtomVia [] [] site a

/-- Atomics in order, with their old values. -/
def State.siteAtoms (s : State) (site : Site) : List Atom → List (Nat × Nat) → State × List (Nat × Nat)
  | [], acc => (s, acc)
  | a :: l, acc => let r := s.siteAtom site a; r.1.siteAtoms site l (acc ++ [r.2])

/-- Sign extension of the low w bits to 32. -/
def sext32 (x w : Nat) : Word := BitVec.ofInt 32 (signedOf (x % 2 ^ w) w)

/-- The value by lane of data read, 0 where none. -/
def dataAt (data : List (Nat × Nat)) (l : Nat) : Nat :=
  match data.find? (fun x => x.1 == l) with | some x => x.2 | none => 0

/-- The lanes of data read, as a vector. -/
def vectorOf (data : List (Nat × Nat)) : VBits :=
  BitVec.ofNat 4096 ((data.map (fun x => x.2 % 2 ^ 32 * 2 ^ (32 * x.1))).foldl (· + ·) 0)

/-- The value that a queue entry takes from data read: a scalar, sign-extended where the load says so, a pair, or the
lanes (R132). -/
def entryValue (kind bits : Nat) (signed : Bool) (data : List (Nat × Nat)) : VBits :=
  if kind = 2 then vectorOf data
  else if kind = 1 then BitVec.ofNat 4096 (dataAt data 0 % 2 ^ 64)
  else BitVec.ofNat 4096 (if signed then (sext32 (dataAt data 0) bits).toNat else dataAt data 0 % 2 ^ 32)

/-- One part of the entry of a request arrives, poppable from the cycle ready (R132). -/
def QEntry.fill (e : QEntry) (ready : Nat) (signed : Bool) (bits : Nat) (data : List (Nat × Nat)) (poison : LaneMask)
    (status : Byte) : QEntry :=
  { e with owed := e.owed - 1, ready := max e.ready ready, value := e.value ||| entryValue e.kind bits signed data,
           poison := e.poison ||| (poison &&& e.lanes), status := BitVec.ofNat 8 (max e.status.toNat status.toNat) }

/-- The place of a request in a queue takes what f makes of it. -/
def fillEntry (req : Nat) (f : QEntry → QEntry) : List QEntry → List QEntry
  | [] => []
  | e :: l => (if e.request = req then f e else e) :: fillEntry req f l

/-- One part of a queue entry arrives. -/
def Ctx.fillQueue (c : Ctx) (k : QNum) (req : Nat) (f : QEntry → QEntry) : Ctx :=
  { c with rq := c.rq.set k.toNat (fillEntry req f (c.rq[k.toNat]'k.isLt)) k.isLt }

/-- Where the data of an access goes, as results of the syllable numbered seq. -/
def Ctx.deliver (c : Ctx) (seq : Nat) (k : Sink) (data : List (Nat × Nat)) : Ctx :=
  match k with
  | .discard => c
  | .scalar r bits signed land =>
    let x := dataAt data 0
    if r = 0 then c
    else c.pushAt land seq (.scalar r (if signed then sext32 x bits else BitVec.ofNat 32 x) false)
  | .pair r land =>
    let x := dataAt data 0
    let c1 := if r = 0 then c else c.pushAt land seq (.scalar r (BitVec.ofNat 32 x) false)
    c1.pushAt land seq (.scalar (r ||| 1) (BitVec.ofNat 32 (x / 2 ^ 32)) false)
  | .vector v lgm mask land => if mask = 0 then c else c.pushAt land seq (.vector v lgm mask (vectorOf data) 0)
  | .quires q land =>
    c.pushAt land seq (.quires (data.map (fun x => (q.toNat * 128 + x.1, QuireOp.set (quireOfNat x.2)))))
  | .accs land => c.pushAt land seq (.accs (data.map (fun x => (x.1, QuireOp.set (quireOfNat x.2)))))
  | .queue q req signed bits land =>
    c.fillQueue q req (fun e => e.fill land signed bits data 0 0)
  | .record | .code => c

/-- The bits of a VMRED mask and contributions (R291): rescaled sums by lane, and the JF bits. -/
def State.reduceLanes (s : State) (shadow : List (Nat × Byte)) (r : Reduce) : VBits × DWord :=
  let n := fmtWidth r.fmt
  let e := fmtEs r.fmt
  let valid (g : Nat) : List Nat := (List.range r.p).filter (fun c =>
    let j := c * r.stride + g
    (s.siteRead shadow r.valid (r.moff + j / 8) 1).testBit (j % 8))
  let lane (l : Nat) : List Rounded :=
    let g := l / 16
    let cs := valid g
    (List.range (fmtElems r.fmt)).map (fun el =>
      rescale (sumFx (cs.map (fun c =>
        decodePat (elemOf (s.siteRead shadow r.data (r.doff + 64 * (c * r.stride + g) + 4 * (l % 16)) 4) n el) n e)))
        r.p cs.length n e)
  let lanes := (List.range 128).filter (fun l => r.mask.getLsbD l)
  let res := lanes.map (fun l => (l, lane l))
  (vectorOf (res.map (fun x => (x.1, laneOf n (x.2.map (·.pat))))),
    res.foldl (fun a x => x.2.foldl (fun b y => b ||| y.jf 0) a) 0)

/-- The run that an atomic changes. -/
def Atom.run : Atom → Nat × Nat
  | .word _ off size _ _ => (off, size)
  | .quire _ off _ => (off, 72)

/-- The physical bytes that an act writes. -/
def State.actWrites (s : State) (site : Site) : Act → List Nat
  | .store parts => parts.foldl (fun l p => l ++ s.siteAddrs site p.off p.size) []
  | .atomic atoms _ => atoms.foldl (fun l a => l ++ s.siteAddrs site a.run.1 a.run.2) []
  | .arrival _ (.store parts) => parts.foldl (fun l p => l ++ s.siteAddrs site p.off p.size) []
  | .arrival _ (.atomic a) => s.siteAddrs site a.run.1 a.run.2
  | .put _ p _ => s.siteAddrs site p.off (if p.flag then 4 else p.bytes.length)
  | _ => []

/-- An act that writes memory. -/
def Act.isWrite : Act → Bool
  | .store _ => true
  | .atomic .. => true
  | _ => false

/-- The accesses of the same bundle that are still to come: a read keeps the bytes that stood before the write, a write
by an earlier syllable leaves the bytes of this one (R172). -/
def shadowRest (m : Memory) (a : Access) (ws : List Nat) : List Access → List Access
  | [] => []
  | b :: l =>
    (if b.bundle = a.bundle ∧ !b.act.isWrite then
        { b with shadow := b.shadow ++ (ws.filter (fun p => !(b.shadow.any (fun x => x.1 == p)))).map
                  (fun p => (p, Memory.read m p)) }
      else if b.bundle = a.bundle ∧ b.act.isWrite ∧ b.seq < a.seq then { b with skip := b.skip ++ ws }
      else b) :: shadowRest m a ws l

/-- A read that is still to come sees what anyone else has written since (R322): the bytes that it kept of its own bundle's write are
gone; keep names the bundle that writes, where that is the context's own. -/
def Ctx.unshadow (c : Ctx) (keep : Option Nat) (ws : List Nat) : Ctx :=
  if c.accesses.any (fun a => !a.shadow.isEmpty) then
    { c with accesses := c.accesses.map (fun a =>
      if keep = some a.bundle then a else { a with shadow := a.shadow.filter (fun x => !ws.contains x.1) }) }
  else c

/-- A write to physical bytes, by a bundle of the context in view, or by another agent. -/
def State.unshadow (s : State) (own : Option Nat) (ws : List Nat) : State :=
  if ws.isEmpty then s
  else { s with cur := s.cur.unshadow own ws, others := s.others.map (fun c => c.unshadow none ws) }

/-- The order of accesses in their bank cycles: reads, then atomics, then stores (R157); an allocation control word takes its value
after them, since a new mapping begins with the bank cycle that follows (R153). -/
def Access.kind (a : Access) : Nat :=
  match a.act with
  | .store _ => (match a.site with | .control _ => 3 | _ => 2)
  | .atomic .. => 1
  | .arrival _ (.store _) => 2
  | .arrival _ (.atomic _) => 1
  | .put _ p _ => if p.flag then 1 else 2
  | .line .. => 2
  | _ => 0

/-- The order of a context's accesses: by bank cycle, by kind, and in issue order (R157). -/
def Access.before (a b : Access) : Bool :=
  decide (a.cycle < b.cycle) || (a.cycle == b.cycle && (decide (a.kind < b.kind) || (a.kind == b.kind && decide (a.seq < b.seq))))

/-- An access put in its place. -/
def insertAccess (a : Access) : List Access → List Access
  | [] => [a]
  | b :: l => if a.before b then a :: b :: l else b :: insertAccess a l

/-- An access of the bundle at issue, without its cycle. -/
def Ctx.newAccess (c : Ctx) (cycle : Nat) (site : Site) (act : Act) : Access :=
  { cycle := cycle, seq := c.seq, bundle := c.bundle, site := site, act := act, shadow := [], skip := [], done := false, stamp := none,
    acquire := false, strong := false, handler := c.parked.isSome }

/-- An access of the context under way. -/
def Ctx.addAccess (c : Ctx) (a : Access) : Ctx := { c with accesses := insertAccess a c.accesses, seq := c.seq + 1 }

/-- An own-cluster access of the syllable that issues now, in bank cycle I + 4 + late (R155). -/
def Ctx.access (c : Ctx) (late : Nat) (site : Site) (act : Act) : Ctx := c.addAccess (c.newAccess (c.clk + 4 + late) site act)

/-- A strong access, and an acquire (R174, R178). -/
def Ctx.strongAccess (c : Ctx) (site : Site) (act : Act) (acquire : Bool) : Ctx :=
  c.addAccess { c.newAccess (c.clk + 4) site act with acquire := acquire, strong := true }

/-- An access of an engine or of an arrival, in a module cycle. -/
def Ctx.stampAccess (c : Ctx) (m : Nat) (site : Site) (act : Act) : Ctx :=
  c.addAccess { c.newAccess c.clk site act with stamp := some m, bundle := 0, handler := false }

/-- The runs that a request reads or writes, by offset and length. -/
def Ask.runs : Ask → List (Nat × Nat)
  | .load ps => ps.map (fun p => (p.off, p.size))
  | .store ps => ps.map (fun p => (p.off, p.size))
  | .atomic x => [x.run]
  | .wait .. => []

/-- The runs that a request writes. -/
def Ask.writes (a : Ask) : List (Nat × Nat) :=
  match a with
  | .store ps => ps.map (fun p => (p.off, p.size))
  | .atomic x => [x.run]
  | _ => []

/-- The runs that an access reads or writes in the data banks, by offset and length. -/
def Act.runs : Act → List (Nat × Nat)
  | .load pieces _ => pieces.map (fun p => (p.off, p.size))
  | .store parts => parts.map (fun p => (p.off, p.size))
  | .atomic atoms _ => atoms.map Atom.run
  | .reduce _ => []
  | .fill _ _ off _ => [(off, 128)]
  | .line .. => []
  | .arrival _ ask => ask.runs
  | .take _ off size _ _ => [(off, size)]
  | .put _ p _ => [(p.off, p.bytes.length)]
  | .peek runs _ => runs

/-- The data banks that runs of a site lie in (R154). -/
def State.banksOf (s : State) (site : Site) (runs : List (Nat × Nat)) : List Nat :=
  match s.siteAlloc site with
  | some (_, a) => (runs.map (fun r => a.words r.1 r.2)).flatten.map (· % 32)
  | none => []

/-- An access goes one cycle later. -/
def Access.putOff (a : Access) : Access := { a with cycle := a.cycle + 1, stamp := a.stamp.map (· + 1) }

/-- An access that finds its port taken waits for the next cycle, and with it the later lines of a WLD (R155, R342). -/
def Ctx.delayAccess (c : Ctx) (a : Access) : Ctx :=
  let mine (b : Access) : Bool := b.seq == a.seq || (!b.done && (match a.act, b.act with | .fill k _ _ _, .fill j _ _ _ => k == j | _, _ => false))
  { c with accesses := ((c.accesses.filter mine).map Access.putOff).foldl (fun l a => insertAccess a l) (c.accesses.filter (fun b => !mine b)) }

/-- Whether a bank port that an arrival or an engine needs serves in the same cycle an access that comes before it (R155). -/
def State.portTaken (s : State) (a : Access) : Bool :=
  let banks := s.banksOf a.site a.act.runs
  s.ctxs.any (fun c => c.tile == s.cur.tile && c.accesses.any (fun b =>
    c.bankCycle b == s.cur.bankCycle a && (decide (b.act.turn < a.act.turn) || (b.done && b.act.turn == a.act.turn)) &&
    (s.banksOf b.site b.act.runs).any (fun x => banks.contains x)))

/-- A weight line is read for WLD and is written 8 cycles later, in full (R342). A source that is gone denies it (R339). -/
def State.fillLine (s : State) (a : Access) (cmd line off : Nat) (ptr : DWord) : State :=
  if (s.siteAddrs a.site off 128).isEmpty ∧ a.site ≠ .weight then
    s.withCur ((s.cur.deny cmd ptr).partDone cmd)
  else
    s.withCur (s.cur.stampAccess ((s.cur.bankCycle a).toNat + 8 * s.cur.rate) .weight
      (.line cmd line (BitVec.ofNat 1024 (s.siteRead [] a.site off 128))))

/-- The bytes of a source that an engine has read, by pointer. -/
def Ctx.gotBytes (c : Ctx) (cmd : Nat) (ptr : DWord) (bytes : List Byte) : Ctx :=
  c.mapCommand cmd (fun k => { k with got := k.got ++ bytes.zipIdx.map (fun x => (ptr.toNat + x.2, x.1)) })

/-- An engine has read one run of own-cluster bytes, and goes on with the next in the same cycle as far as the ports allow (R339). -/
def State.takeRun (s : State) (a : Access) (cmd off size : Nat) (ptr : DWord) (rest : List (Site × Nat × Nat × DWord)) : State :=
  let gone := (s.siteAddrs a.site off size).isEmpty && a.site != .weight
  let x := s.siteRead [] a.site off size
  let c := if gone then s.cur else s.cur.gotBytes cmd ptr (bytesOfNat size x)
  s.withCur (match rest with
    | [] => c.mapCommand cmd (fun k => { k with pend := false })
    | (site, o, n, p) :: l => c.stampAccess (c.bankCycle a).toNat site (.take cmd o n p l))

/-- An engine has made one write in the own cluster, and goes on with the next in the same cycle as far as the ports allow (R339). -/
def State.putRun (s : State) (a : Access) (cmd : Nat) (p : Put) (rest : List Put) : State :=
  let t := if (s.siteAddrs p.site p.off 1).isEmpty then s.withCur ((s.cur.deny cmd p.ptr).mapCommand cmd (fun k => { k with flag := none }))
    else if p.flag then (s.siteAtom p.site (.word 0 p.off 4 .add 1)).1
    else s.siteWrite [] p.site p.off p.bytes.length (natOfBytes p.bytes)
  t.withCur (match rest with
    | [] => t.cur.partDone cmd
    | q :: l => t.cur.stampAccess (t.cur.bankCycle a).toNat q.site (.put cmd q l))

/-- A request answered at its slice. -/
def Request.answer (r : Request) (cycle : Nat) (data : List (Nat × Nat)) (denied : Bool) : Request :=
  { r with stage := .served, readyAt := cycle, data := data, denied := denied }

/-- A request replaced by others; its own number may be among theirs. -/
def State.replace (s : State) (id : Nat) (rs : List Request) : State :=
  { s with requests := (s.requests.map (fun r => if r.id = id then rs else [r])).flatten }

/-- The request of a number. -/
def State.requestOf (s : State) (id : Nat) : Option Request := s.requests.find? (fun r => r.id == id)

/-- An arrival is served at a site in its bank cycle (R155, R159). -/
def State.serveArrival (s : State) (site : Site) (cycle req : Nat) (ask : Ask) : State :=
  match s.requestOf req with
  | none => s
  | some r => match ask with
    | .load ps => s.replace req [r.answer cycle (ps.map (fun p => (p.lane, s.siteRead r.shadow site p.off p.size))) false]
    | .store ps => (ps.foldl (fun t p => t.siteWrite r.skip site p.off p.size p.value) s).replace req [r.answer cycle [] false]
    | .atomic a => let x := s.siteAtomVia r.shadow r.skip site a; x.1.replace req [r.answer cycle [x.2] false]
    | .wait .. => s

/-! ## The own cluster by two ways (R172 to R174) -/

/-- The task that a mesh access names, while its swarm's task is there. -/
def State.meshTask (s : State) (r : Request) : Option Ctx :=
  (s.ctxAt r.tile r.slot).bind (fun c => if c.part = r.part ∧ c.sys.swarmid.toNat % 2 ^ 32 = r.swarm then some c else none)

/-- Where a mesh access performs. -/
def Request.meshSite (r : Request) : Site := .alloc r.tile r.slot (r.addr.toNat / 2 ^ 48 % 32)

/-- A request of the context in view that is on its way over the mesh to its own cluster. -/
def State.inMesh (s : State) (r : Request) : Bool :=
  r.uid == s.cur.uid && r.engine.isNone && (r.stage == .queued || r.stage == .moving) && (r.addr.toNat / 2 ^ 60 == 2 || r.addr.toNat / 2 ^ 60 == 4) &&
    clusterOf r.tile == clusterOf s.cur.tile && (s.meshTask r).isSome

/-- The writes to the own cluster that the context has sent over the mesh in bundles before one and that have not performed. -/
def State.meshWrites (s : State) (bundle : Nat) : List Request :=
  s.requests.filter (fun r => decide (r.bundle < bundle) && !r.ask.writes.isEmpty && s.inMesh r)

/-- Memory as the context's own accesses through the port have to see it: with what it has sent over the mesh before (R174). -/
def State.foreseen (s : State) (bundle : Nat) : State :=
  (s.meshWrites bundle).foldl (fun t r => match r.ask with
    | .store ps => ps.foldl (fun u p => u.siteWrite r.skip r.meshSite p.off p.size p.value) t
    | .atomic x => (t.siteAtomVia r.shadow r.skip r.meshSite x).1
    | _ => t) s

/-- A write through the port goes before what the context has sent over the mesh: the earlier accesses of its bundle and of those before
read what stood before it, and the earlier writes leave its bytes; every read of its own bundle reads what stood before (R172, R174). -/
def State.outrun (s : State) (a : Access) (ws : List Nat) : State :=
  { s with requests := s.requests.map (fun r =>
      if r.bundle ≤ a.bundle ∧ s.inMesh r then
        let new := ws.filter (fun p => !(r.shadow.any (fun x => x.1 == p)))
        let m := (s.foreseen r.bundle).mem
        { r with shadow := r.shadow ++ new.map (fun p => (p, Memory.read m p))
                 skip := if r.bundle < a.bundle ∨ r.at_ ≤ a.seq then r.skip ++ ws else r.skip }
      else r) }

/-- What an access has brought, at a context: results of the syllable where its clock runs on; where a stop has overtaken the access,
the entries of its pending-write set, and everything else complete (R113, R114, R142). -/
def State.bring (s : State) (a : Access) (f : Ctx → Ctx) : State :=
  if a.stamp.isNone || (s.cur.run == .issuing && s.cur.parked.isNone) then s.withCur (f s.cur)
  else
    let d := f { s.cur with flight := [] }
    let keep := d.flight.filter (fun x => x.what.isEntry)
    let e := match d.parked with
      | some p => if a.handler then { d with flight := keep.foldl (fun l x => insertFlight x l) s.cur.flight }
                  else { d with flight := s.cur.flight, parked := some { p with pending := keep.foldl (fun l x => insertFlight x l) p.pending } }
      | none => { d with flight := keep.foldl (fun l x => insertFlight x l) s.cur.flight }
    (d.flight.filter (fun x => !x.what.isEntry)).foldl (fun t x => t.land x.what) (s.withCur e)

/-- The bytes that a load reads in a bank cycle before its issue (R156), but for those that a write of the context has still to reach
(R173). -/
def State.peekRuns (s : State) (site : Site) (runs : List (Nat × Nat)) : State :=
  let late := ((s.cur.accesses.filter (fun b => !b.done && b.act.isWrite)).map (fun b => s.actWrites b.site b.act)).flatten ++
    ((s.meshWrites (s.cur.bundle + 1)).map (fun r => (r.ask.writes.map (fun w => s.siteAddrs r.meshSite w.1 w.2)).flatten)).flatten
  let new := ((runs.map (fun r => s.siteAddrs site r.1 r.2)).flatten).filter (fun p => !late.contains p)
  s.withCur { s.cur with early := s.cur.early ++ new.map (fun p => (p, Memory.read s.mem p)) }

/-- An access performs in its bank cycle (R155, R157): reads take what stands, atomics and stores write. -/
def State.perform (s : State) (a : Access) : State :=
  match a.act with
  | .load pieces k =>
    let v := s.foreseen a.bundle
    let data := pieces.map (fun p => (p.lane, v.siteRead a.shadow a.site p.off p.size))
    s.bring a (fun c => c.deliver a.seq k data)
  | .store parts => parts.foldl (fun t p => t.siteWrite a.skip a.site p.off p.size p.value) s
  | .atomic atoms k =>
    let r := (s.foreseen a.bundle).siteAtoms a.site atoms []
    let t := { s with mem := copyAddrs r.1.mem (s.actWrites a.site a.act) s.mem }
    t.bring a (fun c => c.deliver a.seq k r.2)
  | .reduce r =>
    let x := (s.foreseen a.bundle).reduceLanes a.shadow r
    s.bring a (fun c =>
      let d := if r.mask = 0 then c else c.pushAt r.land a.seq (.vector r.vd r.lgm r.mask x.1 0)
      if x.2 = 0 then d else d.pushAt r.land a.seq (.flags x.2))
  | .fill cmd line off ptr => s.fillLine a cmd line off ptr
  | .line cmd line bits => s.withCur (({ s.cur with weights := Sparse.set 0 s.cur.weights line bits }).partDone cmd)
  | .arrival req ask => s.serveArrival a.site (s.cur.bankCycle a).toNat req ask
  | .take cmd off size ptr rest => s.takeRun a cmd off size ptr rest
  | .put cmd p rest => s.putRun a cmd p rest
  | .peek runs keep => if keep then s.peekRuns a.site runs else s

/-- The physical bytes that an access writes. -/
def State.accessWrites (s : State) (a : Access) : List Nat :=
  let ws := s.actWrites a.site a.act
  match a.act with
  | .arrival id _ => (match s.requestOf id with | some r => ws.filter (fun p => !r.skip.contains p) | none => ws)
  | _ => ws.filter (fun p => !a.skip.contains p)

/-- The access of a number is done. -/
def markDone (seq : Nat) : List Access → List Access
  | [] => []
  | a :: l => (if a.seq = seq then { a with done := true } else a) :: markDone seq l

/-- An access of the context in view performs, and is marked as done; an arrival or an engine that finds its port taken waits. -/
def State.performHere (s : State) (a : Access) : State :=
  if a.act.turn ≠ 0 ∧ s.portTaken a then s.withCur (s.cur.delayAccess a)
  else
    let ws := s.accessWrites a
    let l := markDone a.seq s.cur.accesses
    if a.act.turn ≠ 0 ∨ ws.isEmpty then ((s.withCur { s.cur with accesses := l }).unshadow none ws).perform a
    else (((s.withCur { s.cur with accesses := shadowRest (s.foreseen a.bundle).mem a ws l }).unshadow (some a.bundle) ws).outrun a ws).perform a

/-- The model looks at another context; the one that it leaves stays. -/
def State.lookAt (s : State) (uid : Nat) : State :=
  if s.cur.uid = uid then s
  else match s.others.find? (fun c => c.uid == uid) with
    | none => s
    | some c => { s with cur := c, others := s.cur :: s.others.filter (fun d => d.uid != uid) }

/-- The accesses of a context that are still to perform and whose bank cycles have come in module cycle m. -/
def Ctx.dueList (c : Ctx) (m : Nat) : List (Ctx × Access) :=
  (c.accesses.filter (fun a => !a.done && decide (c.bankCycle a ≤ (m : Int)))).map (fun a => (c, a))

/-- Of two accesses of a cluster the one that performs first: by cycle, by kind, and in ascending tile rank (R157); at one tile in the
order of its ports (R155). -/
def meetsBefore (x y : Ctx × Access) : Bool :=
  let m (z : Ctx × Access) : Int := z.1.bankCycle z.2
  decide (m x < m y) || (m x == m y && (decide (x.2.kind < y.2.kind) || (x.2.kind == y.2.kind &&
    (decide (x.1.tile < y.1.tile) || (x.1.tile == y.1.tile && (decide (x.2.act.turn < y.2.act.turn) ||
      (x.2.act.turn == y.2.act.turn && decide (x.2.seq < y.2.seq))))))))

/-- The first of a list of accesses to perform. -/
def firstDue : List (Ctx × Access) → Option (Ctx × Access)
  | [] => none
  | x :: l => match firstDue l with
    | none => some x
    | some y => if meetsBefore y x then some y else some x

/-- The contexts of a cluster. -/
def State.inCluster (s : State) (cl : Nat) : List Ctx := s.ctxs.filter (fun c => clusterOf c.tile == cl)

/-- The accesses of a cluster perform whose bank cycles have come by module cycle m; n bounds how many. -/
def State.performDue (s : State) (cl m : Nat) : Nat → State
  | 0 => s
  | n + 1 => match firstDue ((s.inCluster cl).map (fun c => c.dueList m)).flatten with
    | none => s
    | some x => State.performDue (((s.lookAt x.1.uid).performHere x.2).lookAt s.cur.uid) cl m n

/-- How many accesses of a cluster may perform by module cycle m, with those that a taken port puts off and those that follow another: in
each cycle every access that is under way, and one for each of the 32 bank ports of each tile. -/
def State.dueBound (s : State) (cl m : Nat) : Nat :=
  let l := ((s.inCluster cl).map (fun c => c.dueList m)).flatten
  let first := ((l.map (fun x => (x.1.bankCycle x.2).toNat)).min?).getD m
  l.length * 33 * (m + 1 - first) + l.length

/-- The accesses of a cluster perform whose bank cycles have come by module cycle m (R155, R157). -/
def State.passCluster (s : State) (cl m : Nat) : State := s.performDue cl m (s.dueBound cl m)

/-- Performs the accesses whose bank cycle has come at t, with those of the cluster's other tasks that meet them (R157). -/
def State.performTo (s : State) (t : Nat) : State :=
  let m := s.cur.modBase + (s.cur.rate * t : Nat)
  let s1 := s.passCluster (clusterOf s.cur.tile) m.toNat
  s1.withCur { s1.cur with accesses := s1.cur.accesses.filter (fun a => !a.done || decide (m ≤ s1.cur.bankCycle a)) }

/-- The clock of the context reaches t: accesses with bank cycles up to t have performed, results readable at t have
landed, and module time has run on (R123, R124, R155). -/
def State.runTo (s : State) (t : Nat) : State :=
  let s1 := (s.performTo t).landTo t
  { s1 with cur := { s1.cur with clk := t }, cycle := max s1.cycle (s1.cur.modBase + (s1.cur.rate * t : Nat)).toNat }

/-! ## Contexts, partitions and launches -/

/-- The partition of a context. -/
def State.partOf (s : State) (c : Ctx) : Partition := if h : c.part < 8 then s.parts[c.part] else s.parts[0]

/-- The Hive handle of a context's launch (R144). -/
def Ctx.handle (c : Ctx) : Nat := c.sys.swarmid.toNat % 2 ^ 32

/-- The launch of a context. -/
def State.launchOf (s : State) (c : Ctx) : Option Launch := (s.partOf c).hive.find? (fun l => l.handle == c.handle)

/-- Whether a context belongs to a gang (R95, R151). -/
def State.inGang (s : State) (c : Ctx) : Bool := match s.launchOf c with | some l => l.gang | none => false

/-- Two contexts of one swarm. -/
def Ctx.mate (c d : Ctx) : Bool := d.part == c.part && d.handle == c.handle

/-- The context of a swarm that is resident on a tile (R152). -/
def State.mateAt (s : State) (c : Ctx) (tile : Nat) : Option Ctx :=
  s.ctxs.find? (fun d => d.run.resident && d.tile == tile && c.mate d)

/-- The members of a group of a context's swarm, in ascending tile; none when the group does not exist (R101). -/
def State.members (s : State) (c : Ctx) (gidx : Nat) : Option (List Ctx) :=
  match (s.partOf c).groupTable.find? (fun e => e.1 == c.handle && e.2.1 == gidx) with
  | none => none
  | some e => some ((List.range 1024).filterMap (fun t => if e.2.2.getLsbD t then s.mateAt c t else none))

/-- A partition replaced. -/
def State.mapPart (s : State) (n : Nat) (f : Partition → Partition) : State :=
  if h : n < 8 then { s with parts := s.parts.set n (f (s.parts[n]'h)) h } else s

/-- The launch of a handle replaced. -/
def mapLaunch (handle : Nat) (f : Launch → Launch) (l : List Launch) : List Launch :=
  l.map (fun x => if x.handle = handle then f x else x)

/-- The context that a number names. -/
def State.ctxOf (s : State) (uid : Nat) : Option Ctx := s.ctxs.find? (fun c => c.uid == uid)

/-- The context of a number replaced. -/
def State.mapCtx (s : State) (uid : Nat) (f : Ctx → Ctx) : State :=
  { s with cur := if s.cur.uid = uid then f s.cur else s.cur,
           others := s.others.map (fun c => if c.uid = uid then f c else c) }

/-- The model looks at another context. A context that has ended and that it leaves is gone. -/
def State.focus (s : State) (uid : Nat) : State :=
  if s.cur.uid = uid then s
  else match s.others.find? (fun c => c.uid == uid) with
    | none => s
    | some c => { s with cur := c, others := (if s.cur.run = .ended then [] else [s.cur]) ++
                    s.others.filter (fun d => d.uid != uid) }

/-- The module cycle in which a context stands (R139, R369). -/
def Ctx.module (c : Ctx) : Nat := (c.modBase + (c.rate * c.clk : Nat)).toNat

/-- Whether a context is in handler mode (R142). -/
def Ctx.handling (c : Ctx) : Bool := c.parked.isSome

/-- The earlier of a first trap and another: by time, then by task index (R110). -/
def firstFault (a : Option (Nat × Nat × Nat)) (b : Nat × Nat × Nat) : Option (Nat × Nat × Nat) :=
  match a with
  | none => some b
  | some x => if b.1 < x.1 ∨ (b.1 = x.1 ∧ b.2.1 < x.2.1) then some b else some x

/-- A context whose task has ended: its registers, allocations, queues and reservation are free (R99, R270). -/
def Ctx.ended (c : Ctx) : Ctx :=
  { c with run := .ended, reserve := 0, allocs := [], flight := [], accesses := [], rq := Vector.replicate 4 [],
           late := [], wait := none, parked := none, waiting := [], eqs := Vector.replicate 4 [], failures := [],
           denied := [], ldaOwed := [], loops := [], rep := none, latches := [], saveSlot := none }

/-- The bank cycle of the last own access of a context that is still to perform. -/
def Ctx.lastBank (c : Ctx) : Nat :=
  ((c.accesses.filter (fun a => !a.done && a.act.turn == 0)).map (fun a => (c.bankCycle a).toNat)).foldl max 0

/-- The accesses that a task has issued perform in their bank cycles, before it goes (R114). -/
def State.finishAccesses (s : State) : State :=
  if s.cur.lastBank = 0 then s else s.passCluster (clusterOf s.cur.tile) s.cur.lastBank

/-- The barrier generations that a member has reached on a group (R273). -/
def Ctx.generation (c : Ctx) (g : Nat) : Nat := ((c.barriers.find? (fun x => x.1 == g)).map (·.2)).getD 0

/-- The least number of a list. -/
def least : List Nat → Nat
  | [] => 0
  | [a] => a
  | a :: l => min a (least l)

/-- A list of numbers by key, with one replaced. -/
def setKey (k : Nat) {α : Type} (v : α) : List (Nat × α) → List (Nat × α)
  | [] => [(k, v)]
  | x :: l => if x.1 = k then (k, v) :: l else x :: setKey k v l

/-- A generation of a group completes when every member that still runs has arrived (R273, R274): c names the swarm. -/
def State.barrierDone (s : State) (c : Ctx) (g : Nat) : State :=
  match s.launchOf c with
  | none => s
  | some l =>
    let set := ((l.groups.find? (fun x => x.1 == g)).map (·.2)).getD 0
    let ms := s.ctxs.filter (fun d => c.mate d && d.run != .ended && set.getLsbD (d.sys.taskid.toNat % 1024))
    let n := least (ms.map (fun d => d.generation g))
    let old := ((l.barDone.find? (fun x => x.1 == g)).map (·.2.1)).getD 0
    if ms.isEmpty ∨ n ≤ old then s
    else s.mapPart c.part (fun p => { p with hive := mapLaunch c.handle (fun x =>
      { x with barDone := setKey g (n, c.module) x.barDone }) p.hive })

/-- The task in issue ends; code is the cause of a trap that was not handled (R109, R110, R142, R270), and leaves its barriers (R274). -/
def State.endTask (s0 : State) (code : Option Nat) : State :=
  let s := s0.finishAccesses
  let c := s.cur
  let s1 := s.mapPart c.part (fun p => { p with hive := mapLaunch c.handle (fun l => match code with
    | none => { l with ended := l.ended + 1 }
    | some k => { l with ended := l.ended + 1, faulted := l.faulted + 1,
                         fault := firstFault l.fault (c.module, c.sys.taskid.toNat, k) }) p.hive })
  let s2 := { s1 with cur := c.ended, issue := { s1.issue with ended := true } }
  match s.launchOf c with
  | none => s2
  | some l => l.groups.foldl (fun t x => t.barrierDone c x.1) s2

/-! ## Waiting at issue -/

/-- The earliest issue cycle of the bundle at issue, without its waits and floors (R123, R177). -/
def Ctx.since (c : Ctx) : Nat := match c.wait with | some w => w.since | none => c.clk

/-- The barrier generation at which the waiting bundle has arrived. -/
def Ctx.arrivedAt (c : Ctx) : Option Nat := c.wait.bind (·.arrived)

/-- A wait that begins. -/
def Wait.start (since jo : Nat) (lgdef : BitVec 8) : Wait :=
  { since := since, jo := jo, lgdef := lgdef, arrived := none, leaving := false, watch := none, met := none,
    denied := false, seen := none, yielding := false, stopping := false }

/-- What a stop keeps of a wait: the barrier generation at which the bundle has arrived (R274). -/
def keptWait (since : Nat) (arrived : Option Nat) : Option Wait :=
  arrived.map (fun n => { Wait.start since 0 0 with arrived := some n })

/-- The bundle waits at issue for one more cycle (R123); yields says that the wait is one of R107, stops that it is a stop point of R112.
Of a bundle with several waits one of either kind is enough. -/
def State.stallAs (s : State) (yields stops : Bool) (f : Wait → Wait) : State :=
  let w := s.cur.wait.getD (Wait.start s.cur.clk s.issue.jo s.issue.lgdef)
  { s with cur := { s.cur with wait := some { f w with yielding := yields || (s.issue.stalled && w.yielding)
                                                       stopping := stops || (s.issue.stalled && w.stopping) } },
           issue := { s.issue with stalled := true } }

/-- A wait that is both of R107 and a stop point, or neither. -/
def State.stall (s : State) (yields : Bool) (f : Wait → Wait) : State := s.stallAs yields yields f

/-- A wait that holds the bundle until a condition holds (R123): one that the bundle has passed holds no more. -/
def State.holdUntil (s : State) (yields cond : Bool) (eff : State → State) : State :=
  if s.issue.passed || cond then eff s else s.stall yields id

/-! ## The next bundle -/

/-- What the end of the bundle at a does to the loop stack: the entries left, the next bundle, and whether an iteration
has ended (R265). -/
def loopNext (a next : DWord) : List LoopEntry → List LoopEntry × DWord × Bool
  | [] => ([], next, false)
  | e :: l =>
    if a = e.stop then
      if 1 < e.count then ({ e with count := e.count - 1 } :: l, e.start, true)
      else let r := loopNext a next l; (r.1, r.2.1, true)
    else (e :: l, next, false)

/-- The loop entries that stay after a transfer to a target (R262). -/
def trimLoops (target : DWord) : List LoopEntry → List LoopEntry
  | [] => []
  | e :: l => if e.start.toNat ≤ target.toNat ∧ target.toNat ≤ e.stop.toNat then e :: l else trimLoops target l

/-- The bundle of size n at the program counter has issued. -/
def Ctx.issued (c : Ctx) : Ctx :=
  { c with delay := none, wait := none, bundle := c.bundle + 1, lastIssue := c.module }

/-- The loop stack that stays after a bundle. Of the entries that stood at a trap, those that are left are the outermost ones
(R143). -/
def Ctx.withLoops (c : Ctx) (l : List LoopEntry) : Ctx :=
  { c with loops := l, parked := c.parked.map (fun p => { p with depth := min p.depth l.length }) }

/-- The next bundle, or the next repeat, when no transfer was taken (R126, R244, R265); gap is 1, or 4 after a wait on
the own cluster (R276). -/
def Ctx.follow (c : Ctx) (n gap : Nat) : Ctx :=
  match c.rep with
  | some _ => { c.issued with earliest := c.clk + gap, boundary := true }
  | none =>
    let r := loopNext c.pc (c.pc + BitVec.ofNat 64 (8 * n)) c.loops
    { c.issued with earliest := c.clk + gap, pc := r.2.1, boundary := r.2.2 }.withLoops r.1

/-- The bundle at the target of a taken transfer (R126, R262); keep leaves the loop stack as it is. -/
def Ctx.transfer (c : Ctx) (target : DWord) (keep : Bool) (gap : Nat) : Ctx :=
  { c.issued with earliest := c.clk + max 3 gap, pc := target, rep := none, boundary := false }.withLoops
    (if keep then c.loops else trimLoops target c.loops)

/-! ## Taking a trap and returning from it -/

/-- Whether a trap is reported before another: the lowest cause code, then the earliest position (R140). -/
def Trap.before (a b : Trap) : Bool :=
  decide (causeCode a.cause < causeCode b.cause) || (a.cause == b.cause && decide (a.pos < b.pos))

/-- The trap of a list that is taken (R140). -/
def lowestTrap : List Trap → Option Trap
  | [] => none
  | t :: l => match lowestTrap l with
    | none => some t
    | some u => if u.before t then some u else some t

/-- TCAUSE after a trap (R145). -/
def Trap.word (t : Trap) : DWord :=
  BitVec.ofNat 64 ((if t.addr then 2 ^ 15 else 0) + t.pos % 8 * 2 ^ 12 + t.cls % 8 * 2 ^ 9 + 2 ^ 8 + causeCode t.cause)

/-- The accesses of a context whose clock stops keep the module cycles of their bank cycles (R114). -/
def Ctx.stampAll (c : Ctx) : Ctx :=
  { c with accesses := c.accesses.map (fun a => if a.done || a.stamp.isSome then a else { a with stamp := some (c.bankCycle a).toNat }) }

/-- The clock of the context stops: its accesses keep their bank cycles, and of the results in flight only the entries of the
pending-write set stay (R113, R114). The others land, cycle by cycle, since an inversion of QCFG ends its landing cycle (R311). -/
def State.stop (s : State) : State :=
  let s1 := s.withCur s.cur.stampAll
  let rest := s1.cur.flight.filter (fun f => !f.what.isEntry)
  let s2 := s1.landList ((rest.map (·.land)).foldl max 0) 0 none rest
  s2.withCur { s2.cur with flight := s1.cur.flight.filter (fun f => f.what.isEntry), latches := [] }

/-- What is left of the floor of R322 after n module cycles with a stopped clock, in cycles of the clock that goes on. -/
def Ctx.carryFloor (c : Ctx) (n : Nat) : Nat := (c.rate * (c.floor - c.clk) - n + (c.rate - 1)) / c.rate

/-- Trap entry before the bundle at the program counter, at the cycle that the context has reached; d is the delay that
the bundle still has to serve (R142). A trap without a handler, or in handler mode, ends the task (R110). -/
def State.takeTrap (s : State) (d : Nat) (t : Trap) : State :=
  let s1 := s.stop
  let c := s1.cur
  let sys : SysRegs :=
    { c.sys with tcause := t.word, tinfo := if t.cause = .poisonConsumed then c.sys.tinfo else t.info }
  let s2 := { s1 with fresh := s1.fresh + 1, issue := { s1.issue with trapped := some t, ended := true } }
  if c.handling || c.sys.tvec = 0 then
    (s2.withCur { c with sys := sys }).endTask (some (causeCode t.cause))
  else
    s2.withCur { c with
      sys := { sys with tpc := c.pc }
      parked := some { c := c.clk, d := d, tpc := c.pc, pending := c.flight, depth := c.loops.length, rep := c.rep,
                       arrived := c.wait.bind (·.arrived), floor := c.floor }
      flight := [], late := [], rep := none, wait := none, delay := none, pc := c.sys.tvec, modBase := (c.module : Int) + 3,
      clk := 0, earliest := 0, floor := c.carryFloor 3 }

/-- The queue entries of a handler's requests once it has returned. -/
def QEntry.returned (e : QEntry) : QEntry := if e.handler then { e with handler := false, ready := 0 } else e

/-- The return from a trap, once the handler's results have landed (R143). -/
def State.returnFrom (s : State) (p : Parked) : State :=
  let c := s.cur
  let same := c.sys.tpc = p.tpc
  { s with
    cur := { c with
      sys := { c.sys with tcause := c.sys.tcause &&& ~~~(0x100 : DWord) }
      parked := none, latches := [], loops := c.loops.drop (c.loops.length - p.depth), pc := c.sys.tpc,
      flight := p.pending, modBase := (c.module : Int) + 3 - (c.rate * p.c : Nat), clk := p.c, earliest := p.c,
      delay := if same then some p.d else none, rep := if same then p.rep else none,
      wait := if same then keptWait p.c p.arrived else none, boundary := false,
      bundle := c.bundle + 1, rq := c.rq.map (fun l => l.map QEntry.returned), floor := max p.floor (p.c + c.carryFloor 3) }
    issue := { s.issue with ended := true } }

end Sys2Proof.Machine
end

