-- ==== Sys2Proof/Machine/Operands.lean ====
section
/-!
DEFINITION. The operand forms of the tile: which registers a syllable names (R131, R217, R231), its guard and its lane
groups (R230, R277), hold latches (R129, R130), bank reads (R128), the checking scoreboard (R137), and tagged pointers
with the checks that an access makes at issue (R149 to R153, R165).
-/
namespace Sys2Proof.Machine
open Sys2Proof

/-- How a syllable names a vector register (R217, R218): a jet group under JO, the base of a group of which it reads c0
only, a single register, or the second operand of JSEED, which JO = 0 does not read (R302). -/
inductive VKind where
  | group | head | plain | second
  deriving DecidableEq, Repr

/-- A vector source: its register, its latch (0 A, 1 B, 2 C) where it has one, its hold bit, and how it is named. -/
structure VSrc where
  reg  : VNum
  pos  : Option Nat
  held : Bool
  kind : VKind
  deriving DecidableEq, Repr

/-- The first source of a syllable, which the O bit marks (R231). -/
inductive First where
  | scalar (r : SRegNo)
  | pair (d : DNum)
  | pred (p : PNum)
  | vector (v : VNum)
  | other
  deriving DecidableEq, Repr

/-- How a guard applies (R230, R309): to the whole syllable by lane 0, lane by lane, or at one lane. -/
inductive Guarding where
  | whole
  | lanes
  | lane (n : Nat)
  deriving DecidableEq, Repr

/-- The lane groups whose registers a syllable reads (R122, R277, R308, R261). -/
inductive Groups where
  | lgm (m : Lgm)
  | lgdef
  | all
  | group (g : Nat)
  | rotated (m : Lgm) (bcast : Bool) (rot : BitVec 3)
  deriving DecidableEq, Repr

/-- The accumulator rows that a syllable reads (R313). -/
inductive Rows where
  | noRow
  | row (r : BitVec 5)
  | every
  deriving DecidableEq, Repr

/-- What a syllable names: its sources, those of its first source at the head of their list, the registers it writes, further runs of registers, its first source, its guard
and lane groups, and the array state it needs and reads. -/
structure Shape where
  scalars : List SRegNo
  preds   : List PNum
  srcs    : List VSrc
  dests   : List (VNum × VKind)
  names   : List (VNum × Nat)
  first   : First
  guard   : Guarding
  mask    : Groups
  array   : Bool
  quires  : List QNum
  rows    : Rows
  deriving DecidableEq, Repr

/-- A syllable that names nothing. -/
def Shape.none : Shape :=
  { scalars := [], preds := [], srcs := [], dests := [], names := [], first := .other, guard := .whole, mask := .all,
    array := false, quires := [], rows := .noRow }

/-- The number of source registers of VQNT (R289); codes between which it has no m name VA alone. -/
def quantSpan (target src : Fmt) : Nat :=
  if fmtElems src = 0 ∨ fmtElems target % fmtElems src ≠ 0 then 1 else max 1 (fmtElems target / fmtElems src)

/-- The number of registers that UNPK writes (R307); with the unassigned code 0x3 there is no m, and VD alone is named. -/
def unpkSpan (target src : Fmt) : Nat :=
  if fmtElems src = 0 ∨ fmtElems target = 0 then 1 else (fmtElems src + fmtElems target - 1) / fmtElems target

/-- The scalar that a DATA field names (R232). -/
def scalarOf (data : VNum) : SRegNo := BitVec.ofNat 5 data.toNat

/-- The scalars that a store reads as data (R327). -/
def storeScalars (width : BitVec 2) (data : VNum) : List SRegNo :=
  if width = 3 then [scalarOf data, scalarOf data ||| 1] else [scalarOf data]

/-- What each syllable names; nothing for an operation that is no syllable. -/
def shapeOf : Instr → Shape
  | .add _ _ ra rb => { Shape.none with scalars := [ra, rb], first := .scalar ra }
  | .sub _ _ ra rb => { Shape.none with scalars := [ra, rb], first := .scalar ra }
  | .mul _ _ ra rb => { Shape.none with scalars := [ra, rb], first := .scalar ra }
  | .mulh _ _ ra rb => { Shape.none with scalars := [ra, rb], first := .scalar ra }
  | .mulhu _ _ ra rb => { Shape.none with scalars := [ra, rb], first := .scalar ra }
  | .div _ _ ra rb => { Shape.none with scalars := [ra, rb], first := .scalar ra }
  | .divu _ _ ra rb => { Shape.none with scalars := [ra, rb], first := .scalar ra }
  | .rem _ _ ra rb => { Shape.none with scalars := [ra, rb], first := .scalar ra }
  | .remu _ _ ra rb => { Shape.none with scalars := [ra, rb], first := .scalar ra }
  | .and _ _ ra rb => { Shape.none with scalars := [ra, rb], first := .scalar ra }
  | .or _ _ ra rb => { Shape.none with scalars := [ra, rb], first := .scalar ra }
  | .xor _ _ ra rb => { Shape.none with scalars := [ra, rb], first := .scalar ra }
  | .andn _ _ ra rb => { Shape.none with scalars := [ra, rb], first := .scalar ra }
  | .shl _ _ ra rb => { Shape.none with scalars := [ra, rb], first := .scalar ra }
  | .shr _ _ ra rb => { Shape.none with scalars := [ra, rb], first := .scalar ra }
  | .sar _ _ ra rb => { Shape.none with scalars := [ra, rb], first := .scalar ra }
  | .rot _ _ ra rb => { Shape.none with scalars := [ra, rb], first := .scalar ra }
  | .min _ _ ra rb => { Shape.none with scalars := [ra, rb], first := .scalar ra }
  | .max _ _ ra rb => { Shape.none with scalars := [ra, rb], first := .scalar ra }
  | .minu _ _ ra rb => { Shape.none with scalars := [ra, rb], first := .scalar ra }
  | .maxu _ _ ra rb => { Shape.none with scalars := [ra, rb], first := .scalar ra }
  | .clz _ _ ra => { Shape.none with scalars := [ra], first := .scalar ra }
  | .ctz _ _ ra => { Shape.none with scalars := [ra], first := .scalar ra }
  | .popc _ _ ra => { Shape.none with scalars := [ra], first := .scalar ra }
  | .mov _ _ ra => { Shape.none with scalars := [ra], first := .scalar ra }
  | .addi _ _ ra _ => { Shape.none with scalars := [ra], first := .scalar ra }
  | .andi _ _ ra _ => { Shape.none with scalars := [ra], first := .scalar ra }
  | .ori _ _ ra _ => { Shape.none with scalars := [ra], first := .scalar ra }
  | .xori _ _ ra _ => { Shape.none with scalars := [ra], first := .scalar ra }
  | .shli _ _ ra _ => { Shape.none with scalars := [ra], first := .scalar ra }
  | .shri _ _ ra _ => { Shape.none with scalars := [ra], first := .scalar ra }
  | .sari _ _ ra _ => { Shape.none with scalars := [ra], first := .scalar ra }
  | .li _ _ _ => Shape.none
  | .lih _ rd _ => { Shape.none with scalars := [rd] }
  | .bext _ _ ra _ _ => { Shape.none with scalars := [ra], first := .scalar ra }
  | .bins _ rd ra _ _ => { Shape.none with scalars := [ra, rd], first := .scalar ra }
  | .sel _ _ ra rb ps => { Shape.none with scalars := [ra, rb], preds := [ps], first := .scalar ra }
  | .cmp _ _ ra rb _ => { Shape.none with scalars := [ra, rb], first := .scalar ra }
  | .cmpi _ _ ra _ _ => { Shape.none with scalars := [ra], first := .scalar ra }
  | .addd _ _ da db => { Shape.none with scalars := [lowOf da, highOf da, lowOf db, highOf db], first := .pair da }
  | .subd _ _ da db => { Shape.none with scalars := [lowOf da, highOf da, lowOf db, highOf db], first := .pair da }
  | .adddi _ _ da _ => { Shape.none with scalars := [lowOf da, highOf da], first := .pair da }
  | .shld _ _ da rb => { Shape.none with scalars := [lowOf da, highOf da, rb], first := .pair da }
  | .tagd _ _ da rs _ => { Shape.none with scalars := [lowOf da, highOf da, rs], first := .pair da }
  | .tagx _ da _ _ => { Shape.none with scalars := [lowOf da, highOf da], first := .pair da }
  | .pand _ _ pa pb => { Shape.none with preds := [pa, pb], first := .pred pa }
  | .por _ _ pa pb => { Shape.none with preds := [pa, pb], first := .pred pa }
  | .pxor _ _ pa pb => { Shape.none with preds := [pa, pb], first := .pred pa }
  | .pnot _ _ pa => { Shape.none with preds := [pa], first := .pred pa }
  | .pmov _ _ pa => { Shape.none with preds := [pa], first := .pred pa }
  | .pany _ _ pa => { Shape.none with preds := [pa], first := .pred pa }
  | .pall _ _ pa => { Shape.none with preds := [pa], first := .pred pa }
  | .pset _ _ _ => Shape.none
  | .pcnt _ _ pa => { Shape.none with preds := [pa], first := .pred pa }
  | .ppack _ vd => { Shape.none with guard := .lanes, mask := .all, dests := [(vd, .plain)], preds := [1, 2, 3, 4, 5, 6, 7] }
  | .punpk _ va => { Shape.none with guard := .lanes, mask := .all, srcs := [⟨va, none, false, .plain⟩], first := .vector va }
  | .nopb _ => Shape.none
  | .br _ _ => Shape.none
  | .brc _ ra rb _ _ => { Shape.none with scalars := [ra, rb], first := .scalar ra }
  | .brz _ ra _ => { Shape.none with scalars := [ra], first := .scalar ra }
  | .jmp _ da => { Shape.none with scalars := [lowOf da, highOf da], first := .pair da }
  | .call _ _ => Shape.none
  | .callr _ da => { Shape.none with scalars := [lowOf da, highOf da], first := .pair da }
  | .ret _ => { Shape.none with scalars := [1] }
  | .loop _ _ _ => Shape.none
  | .loopr _ ra _ => { Shape.none with scalars := [ra], first := .scalar ra }
  | .lbrk _ => Shape.none
  | .trap _ _ => Shape.none
  | .sysc _ _ => Shape.none
  | .eret _ => Shape.none
  | .halt _ => Shape.none
  | .exit _ => Shape.none
  | .exits _ _ _ => Shape.none
  | .spawn _ _ da => { Shape.none with scalars := [lowOf da, highOf da], first := .pair da }
  | .bar _ _ => Shape.none
  | .waitge _ da _ _ rs => { Shape.none with scalars := [lowOf da, highOf da, rs], first := .pair da }
  | .waiteq _ da _ _ rs => { Shape.none with scalars := [lowOf da, highOf da, rs], first := .pair da }
  | .vadd _ lgm _ vd va vb ha hb => { Shape.none with guard := .lanes, mask := .lgm lgm, dests := [(vd, .group)], srcs := [⟨va, some 0, ha, .group⟩, ⟨vb, some 1, hb, .group⟩], first := .vector va }
  | .vsub _ lgm _ vd va vb ha hb => { Shape.none with guard := .lanes, mask := .lgm lgm, dests := [(vd, .group)], srcs := [⟨va, some 0, ha, .group⟩, ⟨vb, some 1, hb, .group⟩], first := .vector va }
  | .vmul _ lgm _ vd va vb ha hb => { Shape.none with guard := .lanes, mask := .lgm lgm, dests := [(vd, .group)], srcs := [⟨va, some 0, ha, .group⟩, ⟨vb, some 1, hb, .group⟩], first := .vector va }
  | .vdiv _ lgm _ vd va vb ha hb => { Shape.none with guard := .lanes, mask := .lgm lgm, dests := [(vd, .group)], srcs := [⟨va, some 0, ha, .group⟩, ⟨vb, some 1, hb, .group⟩], first := .vector va }
  | .vfma _ lgm _ vd va vb vc ha hb hc => { Shape.none with guard := .lanes, mask := .lgm lgm, dests := [(vd, .group)], srcs := [⟨va, some 0, ha, .group⟩, ⟨vb, some 1, hb, .group⟩, ⟨vc, some 2, hc, .group⟩], first := .vector va }
  | .vfms _ lgm _ vd va vb vc ha hb hc => { Shape.none with guard := .lanes, mask := .lgm lgm, dests := [(vd, .group)], srcs := [⟨va, some 0, ha, .group⟩, ⟨vb, some 1, hb, .group⟩, ⟨vc, some 2, hc, .group⟩], first := .vector va }
  | .vfnma _ lgm _ vd va vb vc ha hb hc => { Shape.none with guard := .lanes, mask := .lgm lgm, dests := [(vd, .group)], srcs := [⟨va, some 0, ha, .group⟩, ⟨vb, some 1, hb, .group⟩, ⟨vc, some 2, hc, .group⟩], first := .vector va }
  | .vsqrt _ lgm _ vd va ha => { Shape.none with guard := .lanes, mask := .lgm lgm, dests := [(vd, .group)], srcs := [⟨va, some 0, ha, .group⟩], first := .vector va }
  | .vrsqrt _ lgm _ vd va ha => { Shape.none with guard := .lanes, mask := .lgm lgm, dests := [(vd, .group)], srcs := [⟨va, some 0, ha, .group⟩], first := .vector va }
  | .vrcp _ lgm _ vd va ha => { Shape.none with guard := .lanes, mask := .lgm lgm, dests := [(vd, .group)], srcs := [⟨va, some 0, ha, .group⟩], first := .vector va }
  | .vexp _ lgm _ vd va ha => { Shape.none with guard := .lanes, mask := .lgm lgm, dests := [(vd, .group)], srcs := [⟨va, some 0, ha, .group⟩], first := .vector va }
  | .vexp2 _ lgm _ vd va ha => { Shape.none with guard := .lanes, mask := .lgm lgm, dests := [(vd, .group)], srcs := [⟨va, some 0, ha, .group⟩], first := .vector va }
  | .vlog _ lgm _ vd va ha => { Shape.none with guard := .lanes, mask := .lgm lgm, dests := [(vd, .group)], srcs := [⟨va, some 0, ha, .group⟩], first := .vector va }
  | .vlog2 _ lgm _ vd va ha => { Shape.none with guard := .lanes, mask := .lgm lgm, dests := [(vd, .group)], srcs := [⟨va, some 0, ha, .group⟩], first := .vector va }
  | .vsin _ lgm _ vd va ha => { Shape.none with guard := .lanes, mask := .lgm lgm, dests := [(vd, .group)], srcs := [⟨va, some 0, ha, .group⟩], first := .vector va }
  | .vcos _ lgm _ vd va ha => { Shape.none with guard := .lanes, mask := .lgm lgm, dests := [(vd, .group)], srcs := [⟨va, some 0, ha, .group⟩], first := .vector va }
  | .vtanh _ lgm _ vd va ha => { Shape.none with guard := .lanes, mask := .lgm lgm, dests := [(vd, .group)], srcs := [⟨va, some 0, ha, .group⟩], first := .vector va }
  | .vsigm _ lgm _ vd va ha => { Shape.none with guard := .lanes, mask := .lgm lgm, dests := [(vd, .group)], srcs := [⟨va, some 0, ha, .group⟩], first := .vector va }
  | .vmin _ lgm _ vd va vb ha hb => { Shape.none with guard := .lanes, mask := .lgm lgm, dests := [(vd, .group)], srcs := [⟨va, some 0, ha, .group⟩, ⟨vb, some 1, hb, .group⟩], first := .vector va }
  | .vmax _ lgm _ vd va vb ha hb => { Shape.none with guard := .lanes, mask := .lgm lgm, dests := [(vd, .group)], srcs := [⟨va, some 0, ha, .group⟩, ⟨vb, some 1, hb, .group⟩], first := .vector va }
  | .vabs _ lgm _ vd va ha => { Shape.none with guard := .lanes, mask := .lgm lgm, dests := [(vd, .group)], srcs := [⟨va, some 0, ha, .group⟩], first := .vector va }
  | .vneg _ lgm _ vd va ha => { Shape.none with guard := .lanes, mask := .lgm lgm, dests := [(vd, .group)], srcs := [⟨va, some 0, ha, .group⟩], first := .vector va }
  | .vround _ lgm _ vd va ha => { Shape.none with guard := .lanes, mask := .lgm lgm, dests := [(vd, .group)], srcs := [⟨va, some 0, ha, .group⟩], first := .vector va }
  | .vclamp _ lgm _ vd va vb vc ha hb hc => { Shape.none with guard := .lanes, mask := .lgm lgm, dests := [(vd, .group)], srcs := [⟨va, some 0, ha, .group⟩, ⟨vb, some 1, hb, .head⟩, ⟨vc, some 2, hc, .head⟩], first := .vector va }
  | .vcmp _ lgm _ _ va vb ha hb _ => { Shape.none with guard := .lanes, mask := .lgm lgm, srcs := [⟨va, some 0, ha, .head⟩, ⟨vb, some 1, hb, .head⟩], first := .vector va }
  | .vsel _ lgm _ vd va vb ha hb ps => { Shape.none with guard := .lanes, mask := .lgm lgm, dests := [(vd, .group)], preds := [ps], srcs := [⟨va, some 0, ha, .group⟩, ⟨vb, some 1, hb, .group⟩], first := .vector va }
  | .vcvt _ lgm _ vd va vs scaled _ ha hb _ _ => { Shape.none with guard := .lanes, mask := .lgm lgm, dests := [(vd, .plain)], srcs := [⟨va, some 0, ha, .plain⟩] ++ (if scaled then [⟨vs, some 1, hb, .plain⟩] else []), first := .vector va }
  | .vqnt _ lgm fmt vd va vs src ha _ => { Shape.none with guard := .lanes, mask := .lgm lgm, dests := [(vd, .plain), (vs, .plain)], srcs := [⟨va, some 0, ha, .plain⟩] ++ ((List.range (quantSpan fmt src - 1)).map (fun r => ⟨va + BitVec.ofNat 6 (r + 1), none, false, .plain⟩)), names := [(va, quantSpan fmt src)], first := .vector va }
  | .vscl _ lgm _ vd va vs ha hb _ => { Shape.none with guard := .lanes, mask := .lgm lgm, dests := [(vd, .group)], srcs := [⟨va, some 0, ha, .group⟩, ⟨vs, some 1, hb, .plain⟩], first := .vector va }
  | .vred _ lgm _ vd va ha => { Shape.none with guard := .lanes, mask := .lgm lgm, dests := [(vd, .group)], srcs := [⟨va, some 0, ha, .group⟩], first := .vector va }
  | .vmred _ lgm _ vd dn dm k => { Shape.none with guard := .lanes, mask := .lgm lgm, dests := [(vd, .plain)], scalars := [lowOf dn, highOf dn, lowOf dm, highOf dm, k], first := .pair dn }
  | .vmscl _ lgm _ vd va vb k ha hb => { Shape.none with guard := .lanes, mask := .lgm lgm, dests := [(vd, .plain)], srcs := [⟨va, some 0, ha, .plain⟩, ⟨vb, some 1, hb, .plain⟩], scalars := [k], first := .vector va }
  | .viadd _ lgm _ vd va vb ha hb => { Shape.none with guard := .lanes, mask := .lgm lgm, dests := [(vd, .plain)], srcs := [⟨va, some 0, ha, .plain⟩, ⟨vb, some 1, hb, .plain⟩], first := .vector va }
  | .visub _ lgm _ vd va vb ha hb => { Shape.none with guard := .lanes, mask := .lgm lgm, dests := [(vd, .plain)], srcs := [⟨va, some 0, ha, .plain⟩, ⟨vb, some 1, hb, .plain⟩], first := .vector va }
  | .vimul _ lgm _ vd va vb ha hb => { Shape.none with guard := .lanes, mask := .lgm lgm, dests := [(vd, .plain)], srcs := [⟨va, some 0, ha, .plain⟩, ⟨vb, some 1, hb, .plain⟩], first := .vector va }
  | .vimin _ lgm _ vd va vb ha hb => { Shape.none with guard := .lanes, mask := .lgm lgm, dests := [(vd, .plain)], srcs := [⟨va, some 0, ha, .plain⟩, ⟨vb, some 1, hb, .plain⟩], first := .vector va }
  | .vimax _ lgm _ vd va vb ha hb => { Shape.none with guard := .lanes, mask := .lgm lgm, dests := [(vd, .plain)], srcs := [⟨va, some 0, ha, .plain⟩, ⟨vb, some 1, hb, .plain⟩], first := .vector va }
  | .vand _ lgm _ vd va vb ha hb => { Shape.none with guard := .lanes, mask := .lgm lgm, dests := [(vd, .plain)], srcs := [⟨va, some 0, ha, .plain⟩, ⟨vb, some 1, hb, .plain⟩], first := .vector va }
  | .vor _ lgm _ vd va vb ha hb => { Shape.none with guard := .lanes, mask := .lgm lgm, dests := [(vd, .plain)], srcs := [⟨va, some 0, ha, .plain⟩, ⟨vb, some 1, hb, .plain⟩], first := .vector va }
  | .vxor _ lgm _ vd va vb ha hb => { Shape.none with guard := .lanes, mask := .lgm lgm, dests := [(vd, .plain)], srcs := [⟨va, some 0, ha, .plain⟩, ⟨vb, some 1, hb, .plain⟩], first := .vector va }
  | .vnot _ lgm _ vd va ha => { Shape.none with guard := .lanes, mask := .lgm lgm, dests := [(vd, .plain)], srcs := [⟨va, some 0, ha, .plain⟩], first := .vector va }
  | .vshl _ lgm _ vd va vb ha hb => { Shape.none with guard := .lanes, mask := .lgm lgm, dests := [(vd, .plain)], srcs := [⟨va, some 0, ha, .plain⟩, ⟨vb, some 1, hb, .plain⟩], first := .vector va }
  | .vshr _ lgm _ vd va vb ha hb => { Shape.none with guard := .lanes, mask := .lgm lgm, dests := [(vd, .plain)], srcs := [⟨va, some 0, ha, .plain⟩, ⟨vb, some 1, hb, .plain⟩], first := .vector va }
  | .vsar _ lgm _ vd va vb ha hb => { Shape.none with guard := .lanes, mask := .lgm lgm, dests := [(vd, .plain)], srcs := [⟨va, some 0, ha, .plain⟩, ⟨vb, some 1, hb, .plain⟩], first := .vector va }
  | .vicmp _ lgm _ _ va vb ha hb _ => { Shape.none with guard := .lanes, mask := .lgm lgm, srcs := [⟨va, some 0, ha, .plain⟩, ⟨vb, some 1, hb, .plain⟩], first := .vector va }
  | .vperm _ lgm vd va vb ha hb => { Shape.none with guard := .lanes, mask := .lgm lgm, dests := [(vd, .plain)], srcs := [⟨va, some 0, ha, .plain⟩, ⟨vb, some 1, hb, .plain⟩], first := .vector va }
  | .vbcast _ lgm _ vd sa => { Shape.none with guard := .lanes, mask := .lgm lgm, dests := [(vd, .plain)], scalars := [sa], first := .scalar sa }
  | .viota _ lgm _ vd => { Shape.none with guard := .lanes, mask := .lgm lgm, dests := [(vd, .plain)] }
  | .qclr _ lgm _ => { Shape.none with guard := .lanes, mask := .lgm lgm, array := true }
  | .qmac _ lgm _ _ va vb ha hb => { Shape.none with guard := .lanes, mask := .lgm lgm, array := true, srcs := [⟨va, some 0, ha, .plain⟩, ⟨vb, some 1, hb, .plain⟩], first := .vector va }
  | .qmsb _ lgm _ _ va vb ha hb => { Shape.none with guard := .lanes, mask := .lgm lgm, array := true, srcs := [⟨va, some 0, ha, .plain⟩, ⟨vb, some 1, hb, .plain⟩], first := .vector va }
  | .qadd _ lgm _ _ va ha => { Shape.none with guard := .lanes, mask := .lgm lgm, array := true, srcs := [⟨va, some 0, ha, .plain⟩], first := .vector va }
  | .qaddq _ lgm _ qa => { Shape.none with guard := .lanes, mask := .lgm lgm, array := true, quires := [qa], first := .other }
  | .qrnd _ lgm _ vd q => { Shape.none with guard := .lanes, mask := .lgm lgm, array := true, quires := [q], dests := [(vd, .plain)], first := .other }
  | .qneg _ lgm _ => { Shape.none with guard := .lanes, mask := .lgm lgm, array := true }
  | .qst _ lgm vd q _ => { Shape.none with guard := .lanes, mask := .lgm lgm, array := true, quires := [q], dests := [(vd, .plain)], first := .other }
  | .qmov _ lgm _ qa => { Shape.none with guard := .lanes, mask := .lgm lgm, array := true, quires := [qa], first := .other }
  | .jseed _ lgm vd va vb ha hb => { Shape.none with guard := .lanes, mask := .lgm lgm, dests := [(vd, .group)], srcs := [⟨va, some 0, ha, .plain⟩, ⟨vb, some 1, hb, .second⟩], first := .vector va }
  | .jget _ lgm _ vd va ha _ _ => { Shape.none with guard := .lanes, mask := .lgm lgm, dests := [(vd, .plain)], srcs := [⟨va, some 0, ha, .group⟩], first := .vector va }
  | .jset _ lgm vd va ha _ => { Shape.none with guard := .lanes, mask := .lgm lgm, dests := [(vd, .group)], srcs := [⟨va, some 0, ha, .plain⟩], first := .vector va }
  | .jscale _ lgm _ vd va vt ha hb => { Shape.none with guard := .lanes, mask := .lgm lgm, dests := [(vd, .group)], srcs := [⟨va, some 0, ha, .group⟩, ⟨vt, some 1, hb, .plain⟩], first := .vector va }
  | .mpush _ lgm va => { Shape.none with array := true, srcs := [⟨va, none, false, .plain⟩, ⟨va + 1, none, false, .plain⟩], names := [(va, 2)], mask := .lgm lgm }
  | .mshift _ => { Shape.none with array := true }
  | .macc _ _ _ => { Shape.none with array := true }
  | .mdrain _ lgm fmt vd row => { Shape.none with array := true, names := [(vd, if fmt.toNat < 3 then 2 else 1)], rows := .row row, mask := .lgm lgm }
  | .mclr _ _ _ => { Shape.none with array := true }
  | .mspill _ row da all => { Shape.none with array := true, scalars := [lowOf da, highOf da], rows := if all then .every else .row row }
  | .mfill _ _ da _ => { Shape.none with array := true, scalars := [lowOf da, highOf da] }
  | .mstat _ _ => { Shape.none with array := true }
  | .ld _ da _ _ _ _ _ => { Shape.none with scalars := [lowOf da, highOf da], first := .pair da }
  | .st _ da _ width data => { Shape.none with scalars := [lowOf da, highOf da] ++ (storeScalars width data), first := .pair da }
  | .ldv _ da _ lgm data q => { Shape.none with scalars := [lowOf da, highOf da], guard := .lanes, mask := .lgm lgm, dests := (if q then [] else [(data, .plain)]), first := .pair da }
  | .stv _ da _ lgm data => { Shape.none with scalars := [lowOf da, highOf da], guard := .lanes, mask := .lgm lgm, srcs := [⟨data, none, false, .plain⟩], first := .pair da }
  | .ldvs _ da _ stride _ data q => { Shape.none with scalars := [lowOf da, highOf da, stride], guard := .lanes, mask := .lgdef, dests := (if q then [] else [(data, .plain)]), first := .pair da }
  | .stvs _ da _ stride _ data => { Shape.none with scalars := [lowOf da, highOf da, stride], guard := .lanes, mask := .lgdef, srcs := [⟨data, none, false, .plain⟩], first := .pair da }
  | .ldq _ da _ lgm _ => { Shape.none with scalars := [lowOf da, highOf da], guard := .lanes, mask := .lgm lgm, array := true, first := .pair da }
  | .stq _ da _ lgm q => { Shape.none with scalars := [lowOf da, highOf da], guard := .lanes, mask := .lgm lgm, array := true, quires := [q], first := .pair da }
  | .lda _ da _ _ _ _ _ => { Shape.none with scalars := [lowOf da, highOf da], first := .pair da }
  | .stl _ da _ _ width data => { Shape.none with scalars := [lowOf da, highOf da] ++ (storeScalars width data), first := .pair da }
  | .amoAdd _ da _ _ rs _ => { Shape.none with scalars := [lowOf da, highOf da, rs], first := .pair da }
  | .amoAnd _ da _ _ rs _ => { Shape.none with scalars := [lowOf da, highOf da, rs], first := .pair da }
  | .amoOr _ da _ _ rs _ => { Shape.none with scalars := [lowOf da, highOf da, rs], first := .pair da }
  | .amoXor _ da _ _ rs _ => { Shape.none with scalars := [lowOf da, highOf da, rs], first := .pair da }
  | .amoMin _ da _ _ rs _ => { Shape.none with scalars := [lowOf da, highOf da, rs], first := .pair da }
  | .amoMax _ da _ _ rs _ => { Shape.none with scalars := [lowOf da, highOf da, rs], first := .pair da }
  | .amoMaxu _ da _ _ rs _ => { Shape.none with scalars := [lowOf da, highOf da, rs], first := .pair da }
  | .amoMinu _ da _ _ rs _ => { Shape.none with scalars := [lowOf da, highOf da, rs], first := .pair da }
  | .amoXchg _ da _ _ rs _ wide => { Shape.none with scalars := [lowOf da, highOf da] ++ (if wide then [rs, rs ||| 1] else [rs]), first := .pair da }
  | .amoQadd _ da _ q => { Shape.none with scalars := [lowOf da, highOf da], guard := .lanes, mask := .lgdef, array := true, quires := [q], first := .pair da }
  | .amoPadd _ da _ _ rs _ _ => { Shape.none with scalars := [lowOf da, highOf da, rs], first := .pair da }
  | .amocas _ da _ _ rc rn _ => { Shape.none with scalars := [lowOf da, highOf da, rc, rn], first := .pair da }
  | .amocasD _ da _ _ rc rn _ => { Shape.none with scalars := [lowOf da, highOf da, rc, rc ||| 1, rn, rn ||| 1], first := .pair da }
  | .fence _ _ => Shape.none
  | .drain _ => Shape.none
  | .pref _ da _ => { Shape.none with scalars := [lowOf da, highOf da], first := .pair da }
  | .cpy _ _ _ dst src len => { Shape.none with scalars := [lowOf src, highOf src, lowOf dst, highOf dst, len], first := .pair src }
  | .gth _ _ _ dst base idx count _ => { Shape.none with scalars := [lowOf dst, highOf dst, lowOf base, highOf base, count], srcs := [⟨idx, none, false, .plain⟩], mask := .all }
  | .sct _ _ _ dst base idx count _ => { Shape.none with scalars := [lowOf dst, highOf dst, lowOf base, highOf base, count], srcs := [⟨idx, none, false, .plain⟩], mask := .all }
  | .wld _ _ _ src line count => { Shape.none with scalars := [lowOf src, highOf src, line, count], array := true, first := .pair src }
  | .rwr _ _ _ dst src len flag lossy mask => { Shape.none with scalars := [lowOf src, highOf src, lowOf dst, highOf dst, len, lowOf flag, highOf flag] ++ (if lossy then [lowOf mask, highOf mask] else []), first := .pair src }
  | .rwg _ _ _ dst src len flag lossy mask => { Shape.none with scalars := [lowOf src, highOf src, lowOf dst, highOf dst, len, lowOf flag, highOf flag] ++ (if lossy then [lowOf mask, highOf mask] else []), first := .pair src }
  | .rrd _ _ _ src _ len => { Shape.none with scalars := [lowOf src, highOf src, len], first := .pair src }
  | .collGrp _ _ _ dst src len flag grp => { Shape.none with scalars := [lowOf src, highOf src, lowOf dst, highOf dst, len, lowOf flag, highOf flag, grp], first := .pair src }
  | .collMod _ _ _ dst src len flag grp => { Shape.none with scalars := [lowOf src, highOf src, lowOf dst, highOf dst, len, lowOf flag, highOf flag, grp], first := .pair src }
  | .collLossy _ _ _ dst src len flag grp => { Shape.none with scalars := [lowOf src, highOf src, lowOf dst, highOf dst, len, lowOf flag, highOf flag, grp], first := .pair src }
  | .qfence _ _ _ => Shape.none
  | .eclose _ => Shape.none
  | .ewait _ _ => Shape.none
  | .estat _ _ _ => Shape.none
  | .popW _ d _ kind => { Shape.none with guard := if kind = 2 then .lanes else .whole, dests := (if kind = 2 then [(d, .plain)] else []) }
  | .popF _ d _ kind _ => { Shape.none with guard := if kind = 2 then .lanes else .whole, dests := (if kind = 2 then [(d, .plain)] else []) }
  | .pack _ _ vd va vb _ => { Shape.none with guard := .lanes, mask := .lgdef, dests := [(vd, .plain)], srcs := [⟨va, none, false, .plain⟩, ⟨vb, none, false, .plain⟩], first := .vector va }
  | .unpk _ fmt vd va vs _ scaled src => { Shape.none with guard := .lanes, mask := .lgdef, names := [(vd, unpkSpan fmt src)], srcs := [⟨va, none, false, .plain⟩] ++ (if scaled then [⟨vs, none, false, .plain⟩] else []), first := .vector va }
  | .xlg _ lgm vd va bcast rot => { Shape.none with guard := .lanes, mask := .rotated lgm bcast rot, dests := [(vd, .plain)], srcs := [⟨va, none, false, .plain⟩], first := .vector va }
  | .chk _ lgm va => { Shape.none with guard := .lanes, mask := .lgm lgm, srcs := [⟨va, none, false, .plain⟩, ⟨va + 32, none, false, .plain⟩], first := .vector va }
  | .movv _ lgm vd va => { Shape.none with guard := .lanes, mask := .lgm lgm, dests := [(vd, .plain)], srcs := [⟨va, none, false, .plain⟩], first := .vector va }
  | .movs _ _ va lane => { Shape.none with guard := .lane lane.toNat, mask := .group (lane.toNat / 16), srcs := [⟨va, none, false, .plain⟩], first := .vector va }
  | .getc _ _ _ => Shape.none
  | .setc _ sa _ => { Shape.none with scalars := (if sa.toNat % 2 = 0 then [sa, sa ||| 1] else [sa]), first := (if sa.toNat % 2 = 0 then .pair (BitVec.ofNat 4 (sa.toNat / 2)) else .scalar sa) }
  | .feat _ _ _ => Shape.none
  | .rep _ _ _ _ => Shape.none
  | .ext _ _ => Shape.none
  | .dlaunch _ _ => Shape.none
  | .devq _ _ => Shape.none
  | .moduleStart _ _ _ _ _ _ => Shape.none
  | .stageTimeLimit => Shape.none
  | .imageCheckRequest _ _ _ => Shape.none
  | .attestationLogRequest _ => Shape.none
  | .bootComplete => Shape.none
  | .start _ => Shape.none
  | .hostattn _ _ => Shape.none
  | .dumpvalidRelease _ => Shape.none
  | .registerWrite _ _ _ => Shape.none
  | .droopRead _ _ _ => Shape.none
  | .sensorSample _ _ _ _ => Shape.none
  | .droopAlarm _ _ _ => Shape.none
  | .droopFatal _ _ _ => Shape.none
  | .fatalError _ _ => Shape.none
  | .benalePanic => Shape.none
  | .fireflyWatchdog => Shape.none
  | .dumpDone => Shape.none
  | .moduleReset => Shape.none
  | .powerOff => Shape.none
  | .grenzorLoad _ _ _ _ => Shape.none
  | .unload _ _ => Shape.none
  | .partitionReset _ => Shape.none
  | .partitionReboot _ => Shape.none
  | .release _ _ => Shape.none
  | .assign _ _ => Shape.none
  | .coreOnline _ => Shape.none
  | .coreOffline _ => Shape.none
  | .termiteUnit _ => Shape.none
  | .termiteKeySlots _ => Shape.none
  | .vdcfg _ _ _ _ _ _ => Shape.none
  | .refill _ => Shape.none
  | .dispatchSelect _ _ => Shape.none
  | .swarmComplete _ _ => Shape.none
  | .eventPost _ => Shape.none
  | .quantumExpiry _ _ => Shape.none
  | .waitQuantumExpiry _ _ => Shape.none
  | .preemptRequest _ _ => Shape.none
  | .hardStop _ _ => Shape.none
  | .preempt4096Expiry _ _ => Shape.none
  | .waitYield _ => Shape.none
  | .debugResume _ _ => Shape.none
  | .engineCommandStart _ _ => Shape.none
  | .engineCommandComplete _ _ _ => Shape.none
  | .transferClose _ _ _ => Shape.none
  | .replyArrival _ => Shape.none
  | .storeAck _ => Shape.none
  | .waitConditionMet _ _ => Shape.none
  | .barLeave _ _ => Shape.none
  | .remoteAccessArrival _ => Shape.none
  | .memsideAccess _ => Shape.none
  | .tlbInvalidate _ _ _ _ => Shape.none
  | .migrate _ _ _ _ _ _ => Shape.none
  | .migrationCopyDone _ _ _ => Shape.none
  | .migrationSwitch _ _ _ => Shape.none
  | .pinExpiry _ _ _ => Shape.none
  | .windowStart => Shape.none
  | .flitReceive _ _ _ => Shape.none
  | .nak _ _ _ => Shape.none
  | .ack _ _ _ => Shape.none
  | .creditReturn _ _ _ => Shape.none
  | .downMapUpdate _ _ _ _ => Shape.none
  | .downMapEffect _ => Shape.none
  | .portResetNotice _ _ => Shape.none
  | .discardNotice _ _ _ _ _ => Shape.none
  | .remoteWriteRequest _ => Shape.none
  | .lossyWriteRequest _ => Shape.none
  | .dataBlockArrival _ => Shape.none
  | .flagIncrement _ _ _ => Shape.none
  | .lossyDeadline _ _ _ => Shape.none
  | .heldBlockExpiry _ _ _ => Shape.none
  | .storeWrite _ => Shape.none
  | .remoteLoad _ => Shape.none
  | .remoteAtomic _ => Shape.none
  | .watch _ => Shape.none
  | .watchSatisfied _ _ _ => Shape.none
  | .completionReply _ => Shape.none
  | .verdict _ => Shape.none
  | .resendTimeout _ _ => Shape.none
  | .peerLeave _ _ => Shape.none
  | .recallAutoAck _ _ => Shape.none
  | .grantHandoff _ _ _ => Shape.none
  | .grant _ => Shape.none
  | .grantRecall _ => Shape.none
  | .recallAck _ => Shape.none
  | .fabtestArm _ _ => Shape.none
  | .qcfgArm _ _ => Shape.none
  | .popWTimeout _ _ => Shape.none
  | .saveComplete _ _ => Shape.none
  | .restoreComplete _ _ => Shape.none
  | .meshSlot _ => Shape.none
  | .hostattnCodeRead _ => Shape.none

/-! ## Guards and lane groups -/

/-- The effective mask of an LGM field (R277). -/
def maskOf (m : Lgm) (lgdef : BitVec 8) : BitVec 8 := if m = 0 then lgdef else m

/-- The source groups of XLG (R308). -/
def rotatedGroups (m : BitVec 8) (bcast : Bool) (rot : BitVec 3) : BitVec 8 :=
  BitVec.ofNat 8 ((List.range 8).foldl (fun a g =>
    if m.getLsbD g then a ||| 2 ^ (if bcast then rot.toNat else (g + rot.toNat) % 8) else a) 0)

/-- The lane groups of a Groups under an LGDEF mask. -/
def Groups.eval (g : Groups) (lgdef : BitVec 8) : BitVec 8 :=
  match g with
  | .lgm m => maskOf m lgdef
  | .lgdef => lgdef
  | .all => 0xFF
  | .group g => BitVec.ofNat 8 (2 ^ g)
  | .rotated m b r => rotatedGroups (maskOf m lgdef) b r

/-- The head of a syllable, or that of an unguarded one. -/
def headIn (i : Instr) : Head := (headOf i).getD { last := true, stall := 0, old := false, pred := 0, psns := false }

/-- Whether a syllable acts at all: lane 0 of its guard, or the lane that MOVS names (R230, R309). -/
def Ctx.acts (c : Ctx) (i : Instr) : Bool :=
  match (shapeOf i).guard with
  | .whole => c.guard0 (headIn i)
  | .lanes => true
  | .lane n => (c.guardLanes (headIn i)).getLsbD n

/-- The active lanes of a syllable that acts on the groups of a mask (R277). -/
def Ctx.active (c : Ctx) (h : Head) (m : BitVec 8) : LaneMask := groupLanes m &&& c.guardLanes h

/-! ## Register names -/

/-- Whether a vector register belongs to the context: below its declared count, or a shadow of one (R131, R138). -/
def Ctx.owns (c : Ctx) (v : Nat) : Bool :=
  decide (v < c.regs) || (c.checked && decide (c.regs < 64) && decide (32 ≤ v) && decide (v < 32 + c.regs))

/-- The faults of naming n registers from v on. -/
def Ctx.runFaults (c : Ctx) (v n : Nat) : List Cause :=
  faultIf ((List.range n).any (fun j => !c.owns (v + j))) .illegalSyllable

/-- A jet group that begins below the declared count runs past it (R131): its shadow range is no part of the group. -/
def Ctx.runsPast (c : Ctx) (v n : Nat) : Bool := decide (v < c.regs) && decide (c.regs < v + n)

/-- The faults of one register name at order k (R131, R217). -/
def Ctx.nameFaults (c : Ctx) (k : Nat) (v : VNum) (kind : VKind) : List Cause :=
  match kind with
  | .group | .head => faultIf (v.toNat % (k + 1) != 0) .jetGroup ++ faultIf (c.runsPast v.toNat (k + 1)) .illegalSyllable ++
      c.runFaults v.toNat (k + 1)
  | .plain | .second => c.runFaults v.toNat 1

/-- The register faults of a syllable at order k. -/
def Ctx.registerFaults (c : Ctx) (k : Nat) (sh : Shape) : List Cause :=
  (sh.dests.map (fun d => c.nameFaults k d.1 d.2)).flatten ++
  (sh.srcs.map (fun x => c.nameFaults k x.reg x.kind)).flatten ++
  (sh.names.map (fun n => c.runFaults n.1.toNat n.2)).flatten

/-! ## Hold latches -/

/-- The order at which a source is read: k for a jet group, else 0. -/
def VSrc.order (x : VSrc) (k : Nat) : Nat := match x.kind with | .group => k | _ => 0

/-- The registers that a source reads from the file at order k, held or not. -/
def VSrc.regs (x : VSrc) (k : Nat) : List Nat :=
  match x.kind with
  | .group => (List.range (k + 1)).map (fun j => x.reg.toNat + j)
  | .second => if k = 0 then [] else [x.reg.toNat]
  | _ => [x.reg.toNat]

/-- The latch of a position and lane group. -/
def Ctx.latch (c : Ctx) (pos g : Nat) : Option Latch :=
  (c.latches.find? (fun x => x.1 == pos * 8 + g)).map (fun x => x.2)

/-- Whether a latch may serve a held source (R129). -/
def Latch.serves (l : Latch) (x : VSrc) (k : Nat) : Bool :=
  decide (l.reg = x.reg) && (x.order k == 0 || l.order == x.order k)

/-- A held operand that names another register than its latch holds (R129). -/
def Ctx.latchFaults (c : Ctx) (k : Nat) (m : BitVec 8) (sh : Shape) : List Cause :=
  faultIf (sh.srcs.any (fun x => x.held && !(x.regs k).isEmpty && (List.range 8).any (fun g =>
    m.getLsbD g && (match x.pos with
      | some p => (match c.latch p g with | some l => !l.serves x k | none => false)
      | none => false)))) .illegalSyllable

/-- The register of a number. -/
def Ctx.vAt (c : Ctx) (n : Nat) : VReg := c.v (BitVec.ofNat 6 n)

/-- A register with one lane group taken from a latch. -/
def VReg.withGroup (v : VReg) (g : Nat) (bits : BitVec 512) (poison : BitVec 16) : VReg :=
  v.merge (groupLanes (BitVec.ofNat 8 (2 ^ g))) (BitVec.ofNat 4096 (bits.toNat * 2 ^ (512 * g)))
    (BitVec.ofNat 128 (poison.toNat * 2 ^ (16 * g)))

/-- Coefficient j of a source as the syllable sees it: from the file, but for the held groups whose latch is full. -/
def Ctx.coefficient (c : Ctx) (m : BitVec 8) (x : VSrc) (j : Nat) : VReg :=
  match x.held, x.pos with
  | true, some p =>
    (List.range 8).foldl (fun v g =>
      if m.getLsbD g then
        match c.latch p g with
        | some l => v.withGroup g (l.bits.getD j 0) (l.poison.getD j 0)
        | none => v
      else v) (c.vAt (x.reg.toNat + j))
  | _, _ => c.vAt (x.reg.toNat + j)

/-- A source as the syllable sees it: one register, or the k + 1 of a jet group (R217). -/
def Ctx.operand (c : Ctx) (k : Nat) (m : BitVec 8) (x : VSrc) : List VReg :=
  (List.range (x.order k + 1)).map (c.coefficient m x)

/-- What a read of the file loads into a latch (R129). -/
def Ctx.readLatch (c : Ctx) (x : VSrc) (k g : Nat) : Latch :=
  let rs := (List.range (x.order k + 1)).map (fun j => c.vAt (x.reg.toNat + j))
  { reg := x.reg, order := x.order k, stale := false, bits := rs.map (fun r => r.bits.extractLsb' (512 * g) 512),
    poison := rs.map (fun r => r.poison.extractLsb' (16 * g) 16) }

/-- A latch put in its place. -/
def setLatch (key : Nat) (l : Latch) : List (Nat × Latch) → List (Nat × Latch)
  | [] => [(key, l)]
  | x :: r => if x.1 = key then (key, l) :: r else x :: setLatch key l r

/-- The latches after a source has been read in the groups of a mask: a file read loads, a held operand that finds its
latch full leaves it (R129, R130). -/
def Ctx.loadLatch (c : Ctx) (k : Nat) (m : BitVec 8) (ls : List (Nat × Latch)) (x : VSrc) : List (Nat × Latch) :=
  match x.pos with
  | none => ls
  | some p =>
    if (x.regs k).isEmpty then ls
    else (List.range 8).foldl (fun l g =>
      if m.getLsbD g && !(x.held && (c.latch p g).isSome) then setLatch (p * 8 + g) (c.readLatch x k g) l else l) ls

/-- The context after a V syllable has read its sources. -/
def Ctx.loadLatches (c : Ctx) (k : Nat) (m : BitVec 8) (srcs : List VSrc) : Ctx :=
  { c with latches := srcs.foldl (c.loadLatch k m) c.latches }

/-! ## Bank reads -/

/-- The registers that a syllable reads from the file, with the groups in which it reads them (R128). -/
def bankReads (i : Instr) (k : Nat) (lgdef : BitVec 8) : List (Nat × BitVec 8) :=
  let sh := shapeOf i
  let m := sh.mask.eval lgdef
  if classOf i = 5 then []
  else ((sh.srcs.filter (fun x => !x.held)).map (fun x => (x.regs k).map (fun r => (r, m)))).flatten

/-- Distinct numbers of a list. -/
def distinct : List Nat → List Nat
  | [] => []
  | a :: l => if l.contains a then distinct l else a :: distinct l

/-- The bank delay of a bundle (R128). -/
def bankDelay (reads : List (Nat × BitVec 8)) : Nat :=
  (List.range 8).foldl (fun a g => (List.range 6).foldl (fun b k =>
    max b ((distinct ((reads.filter (fun r => r.2.getLsbD g && r.1 % 6 == k)).map (·.1))).length - 1)) a) 0

/-! ## The checking scoreboard -/

/-- Every result pending: in flight, or parked by a trap. -/
def Ctx.pending (c : Ctx) : List Landing :=
  c.flight.map (·.what) ++ (match c.parked with | some p => p.pending.map (·.what) | none => [])

/-- The sinks of the accesses still to perform. -/
def Ctx.sinks (c : Ctx) : List Act := (c.accesses.filter (fun a => !a.done)).map (·.act)

/-- Whether a scalar has a write in flight. -/
def Ctx.scalarBusy (c : Ctx) (r : SRegNo) : Bool :=
  c.pending.any (fun w => match w with | .scalar q _ _ => q == r | _ => false) ||
  c.sinks.any (fun a => match a with
    | .load _ (.scalar q ..) => q == r
    | .load _ (.pair q _) => q == r || (q ||| 1) == r
    | .atomic _ (.scalar q ..) => q == r
    | .atomic _ (.pair q _) => q == r || (q ||| 1) == r
    | _ => false)

/-- Whether a predicate has a write in flight. -/
def Ctx.predBusy (c : Ctx) (p : PNum) : Bool :=
  c.pending.any (fun w => match w with | .pred q _ _ => q == p | _ => false)

/-- Whether a vector register has a write in flight. -/
def Ctx.vectorBusy (c : Ctx) (v : Nat) : Bool :=
  c.pending.any (fun w => match w with
    | .vector q _ _ _ _ => q.toNat == v
    | .scale q _ _ _ _ => q.toNat == v
    | _ => false) ||
  c.sinks.any (fun a => match a with
    | .load _ (.vector q ..) => q.toNat == v
    | .reduce r => r.vd.toNat == v
    | _ => false)

/-- Whether a lane quire has an effect in flight (R114, R296). -/
def Ctx.quireBusy (c : Ctx) (q : QNum) (lanes : LaneMask) : Bool :=
  let hit (k : Nat) : Bool := k / 128 == q.toNat && lanes.getLsbD (k % 128)
  c.pending.any (fun w => match w with | .quires ops => ops.any (fun o => hit o.1) | _ => false) ||
  c.sinks.any (fun a => match a with
    | .load ps (.quires r _) => r == q && ps.any (fun p => lanes.getLsbD p.lane)
    | _ => false)

/-- Whether an accumulator that a syllable reads has an effect in flight (R114, R313). -/
def Ctx.rowsBusy (c : Ctx) (r : Rows) : Bool :=
  let hit (k : Nat) : Bool := match r with | .noRow => false | .row x => k / 32 == x.toNat | .every => true
  c.pending.any (fun w => match w with | .accs ops => ops.any (fun o => hit o.1) | _ => false) ||
  c.sinks.any (fun a => match a with
    | .load ps (.accs _) => ps.any (fun p => hit p.lane)
    | _ => false)

/-- TINFO of STALL_SHORT (R146). -/
def stallInfo (kind : Nat) (old held : Bool) (reg : Nat) : DWord :=
  BitVec.ofNat 64 (kind * 2 ^ 10 + old.toNat * 2 ^ 9 + held.toNat * 2 ^ 8 + reg)

/-- How many scalars, predicates and vectors at the head of a syllable's reads are its first source (R231). -/
def First.scalars : First → Nat
  | .scalar _ => 1
  | .pair _ => 2
  | _ => 0
def First.preds : First → Nat
  | .pred _ => 1
  | _ => 0
def First.vectors : First → Nat
  | .vector _ => 1
  | _ => 0

/-- The vector reads that the field of the first source names: VQNT reads a run of registers from VA on, CHK a register and its
shadow (R289, R310). -/
def firstReads (i : Instr) : Nat :=
  match i with
  | .vqnt .. | .chk .. => (shapeOf i).srcs.length
  | _ => (shapeOf i).first.vectors

/-- Reads with whether the old-read mark stands on them: it marks the first n (R137). -/
def markFirst {α : Type} (old : Bool) (n : Nat) (l : List α) : List (α × Bool) := l.zipIdx.map (fun x => (x.1, old && decide (x.2 < n)))

/-- The first read of a syllable that the scoreboard refuses, as TINFO (R137); opaqueInfo is TINFO for a quire or an
accumulator row, which R146 gives no code. A guard that fails for the whole syllable leaves the faults of decoding only (R230). -/
def Ctx.scoreboard (c : Ctx) (i : Instr) (k : Nat) (lgdef : BitVec 8) (opaqueInfo : DWord) : List DWord :=
  let sh := shapeOf i
  let h := headIn i
  let m := sh.mask.eval lgdef
  let check (kind : Nat) (old busy : Bool) (r : Nat) : List DWord :=
    if old = busy then [] else [stallInfo kind old false r]
  let guard : List DWord := if h.pred = 0 then [] else check 2 false (c.predBusy h.pred) h.pred.toNat
  if !c.acts i then []
  else
    let scalars := (((markFirst h.old sh.first.scalars sh.scalars).filter (fun r => r.1 ≠ 0)).map (fun r =>
      check 1 r.2 (c.scalarBusy r.1) r.1.toNat)).flatten
    let preds := (((markFirst h.old sh.first.preds sh.preds).filter (fun p => p.1 ≠ 0)).map (fun p =>
      check 2 p.2 (c.predBusy p.1) p.1.toNat)).flatten
    let vectors := ((markFirst h.old (firstReads i) sh.srcs).map (fun y =>
      let x := y.1
      let old := y.2
      let full (g : Nat) : Bool := x.held && (match x.pos with | some p => (c.latch p g).isSome | none => false)
      let stale : Bool := !(x.regs k).isEmpty && (List.range 8).any (fun g => m.getLsbD g && full g &&
        (match x.pos with
          | some p => (match c.latch p g with | some l => l.stale | none => false)
          | none => false))
      let file : Bool := x.pos.isNone || (List.range 8).any (fun g => m.getLsbD g && !full g)
      if m = 0 then []
      else (if stale && !old then [stallInfo 0 old true x.reg.toNat] else []) ++
        (if file then ((x.regs k).map (fun r => check 0 old (c.vectorBusy r) r)).flatten else []))).flatten
    let quires := if sh.quires.any (fun q => c.quireBusy q (c.active h m)) || c.rowsBusy sh.rows then [opaqueInfo] else []
    guard ++ scalars ++ preds ++ vectors ++ quires

/-! ## Tagged pointers -/

/-- The width of the field that an access adds to, by space (R150). -/
def fieldBits (space : Nat) : Nat :=
  match space with
  | 0 => 57
  | 1 | 2 | 4 => 44
  | 3 => 48
  | 5 => 52
  | _ => 60

/-- The space of a pointer (R149). -/
def spaceOf (p : DWord) : Nat := p.toNat / 2 ^ 60

/-- The sum of R150, and whether a carry or borrow leaves the field. -/
def addField (p : DWord) (imm : Int) : DWord × Bool :=
  let n := 2 ^ fieldBits (spaceOf p)
  let f : Int := (p.toNat % n : Nat)
  let t := f + imm
  (BitVec.ofNat 64 (p.toNat / n * n + (t % (n : Int)).toNat), decide (t < 0) || decide ((n : Int) ≤ t))

/-- What an access does at its address (R151, R153, R165). own is a quire or accumulator load, which reaches only the
issuer's own allocations (R322, R330); source and dest are an engine's reads and writes (R338). -/
inductive Kind where
  | load | store | atomic | acquire | release | wait | own | source | dest
  deriving DecidableEq, Repr

/-- An access that a tile refuses at issue where the page denies it (R165). -/
def Kind.writes : Kind → Bool
  | .store | .atomic | .release | .wait => true
  | _ => false

/-- A resolved address: its tagged address, space, die, cluster, peer, the byte offset in the memory named, whether it
is the control word, and the tasks that hold the allocation (tile, slot). -/
structure Loc where
  addr    : DWord
  space   : Nat
  die     : Nat
  cluster : Nat
  peer    : Nat
  off     : Nat
  atag    : Nat
  control : Bool
  holders : List (Nat × Nat)
  deriving DecidableEq, Repr

/-- A die on which a partition holds a memory share (R82, R165). -/
def Partition.holds (p : Partition) (die : Nat) : Bool := decide (0 < p.hbm.getD die 0) || decide (0 < p.lpd.getD die 0)

/-- The slot of a pair of clusters on the mesh (R159, R369): the default slots of a die, those of the partition's slot
table, and none needed inside a cluster (log entry 14). -/
def State.slotFor (s : State) (c : Ctx) (a b : Nat) : Option Nat :=
  if a = b then some 0
  else match (s.partOf c).slots.find? (fun x => x.1 == a && x.2.1 == b) with
    | some x => some x.2.2
    | none => if a / 16 = b / 16 then some (16 * (a % 16) + b % 16) else none

/-- Faults of an access of size bytes at off of the allocations of tasks: no entry, or past its SIZE (R151). -/
def allocFaults (holders : List Ctx) (atag off size : Nat) : List Cause :=
  (holders.map (fun d => match d.alloc atag with
    | none => [Cause.access]
    | some a => faultIf (decide (a.size * 64 < off + size)) .bounds)).flatten

/-- The tile TLB's entry for an offset of its die. -/
def TileRec.hit (t : TileRec) (off : Nat) : Option TlbEntry := t.tlb.find? (fun e => decide (e.lo ≤ off) && decide (off < e.lo + e.size))

/-- A denial that the tile finds at issue (R165): a die without a share, or a denying entry of its TLB. -/
def State.deniedAtIssue (s : State) (c : Ctx) (die off : Nat) (k : Kind) : Bool :=
  k.writes && (!(s.partOf c).holds die ||
    (die == dieOf c.tile && (match (s.tileRec c.tile).hit off with
      | some e => match k with | .atomic => !(e.wr && e.atm) | .wait => !e.rd | _ => !e.wr
      | none => false)))

/-- Space 1, 2 or 4: the tasks that hold the allocation, with the faults of finding them (R151 to R153, R159). -/
def State.holders (s : State) (c : Ctx) (addr : DWord) (k : Kind) : List Ctx × List Cause :=
  let n := addr.toNat
  let sp := n / 2 ^ 60
  let crank := n / 2 ^ 53 % 128
  let trank := n / 2 ^ 45 % 8
  let own := clusterOf c.tile
  let gang := s.inGang c
  if sp = 4 then
    match s.members c (n / 2 ^ 47 % 2 * 128 + crank) with
    | none => ([], [.access])
    | some ms => (ms, faultIf (!gang || !(k == .store || k == .dest) || ms.any (fun d => (s.slotFor c own (clusterOf d.tile)).isNone)) .access)
  else if sp = 1 then
    let wrong := faultIf (crank != 0x7F && crank != own) .space
    if trank = rankOf c.tile then ([c], wrong)
    else if !gang then ([], Cause.access :: wrong)
    else match s.mateAt c (own * 8 + trank) with
      | some d => ([d], faultIf (k == .own) .access ++ wrong)
      | none => ([], Cause.access :: wrong)
  else
    let noSlot := faultIf (s.slotFor c own crank).isNone .access
    if !gang then ([], [.access])
    else match s.mateAt c (crank * 8 + trank) with
      | some d => ([d], noSlot)
      | none => ([], [.access])

/-- The address of an access and its faults (R150, R151). base15 says that the base register is d15. -/
def State.resolve (s : State) (ptr : DWord) (imm : Int) (size align : Nat) (k : Kind) (base15 : Bool) : Loc × List Cause :=
  let c := s.cur
  let a := addField ptr imm
  let addr := a.1
  let n := addr.toNat
  let sp := n / 2 ^ 60
  let common := faultIf a.2 .bounds ++ faultIf (decide (5 < sp)) .space ++
    faultIf (base15 && decide (n < c.sys.slim.toNat)) .stackLimit ++ faultIf (n % align != 0) .align ++
    faultIf (k == .own && sp != 1) .access
  let loc : Loc := { addr := addr, space := sp, die := n / 2 ^ 57 % 8, cluster := clusterOf c.tile, peer := n / 2 ^ 52 % 256,
                     off := n % 2 ^ fieldBits sp, atag := n / 2 ^ 48 % 32, control := false, holders := [] }
  match sp with
  | 0 => (loc, common ++ faultIf (s.deniedAtIssue c loc.die loc.off k) .pageDenied)
  | 3 => (loc, common ++ faultIf (n / 2 ^ 48 % 2 ^ 12 != 0) .space ++ faultIf (decide (2 ^ 18 < loc.off + size)) .bounds ++
      faultIf (k == .atomic || !c.array) .access)
  | 5 => (loc, common ++ faultIf (loc.peer == s.ownModule || !s.present.getLsbD loc.peer) .fabric)
  | 1 | 2 | 4 =>
    let o := n % 2 ^ 22
    let wide := faultIf (n / 2 ^ 22 % 2 ^ 22 != 0) .bounds
    let h := s.holders c addr k
    let held := h.2 ++ allocFaults h.1 loc.atag o size
    if sp ≠ 4 ∧ addr.getLsbD 44 then
      if sp = 1 ∧ n / 2 ^ 45 % 8 = rankOf c.tile ∧ n % 2 ^ 44 = 0 ∧ size = 4 ∧ (k = .load ∨ k = .store) ∧
          (c.alloc loc.atag).isSome then
        ({ loc with off := 0, control := true, holders := [(c.tile, c.slot)] },
          common ++ faultIf (n / 2 ^ 53 % 128 != 0x7F && n / 2 ^ 53 % 128 != clusterOf c.tile) .space)
      else (loc, common ++ wide ++ held ++ [.access])
    else
      ({ loc with off := o, cluster := if sp = 2 then n / 2 ^ 53 % 128 else clusterOf c.tile,
                  holders := h.1.map (fun d => (d.tile, d.slot)) },
        common ++ wide ++ held)
  | _ => (loc, common)

/-- The site of a resolved own-cluster address. -/
def Loc.site (l : Loc) : Site :=
  if l.space = 3 then .weight
  else if l.control then .control l.atag
  else match l.holders with
    | h :: _ => .alloc h.1 h.2 l.atag
    | [] => .control l.atag

/-- An address that the issuing tile reaches through its own ports at the fixed timing (R155, R159, R325). -/
def Loc.fixed (l : Loc) : Bool := l.space == 1 || l.space == 3

/-! ## Parity -/

/-- The least n of R156 for the word counts of a group, at least from; fuel bounds the search. -/
def groupCycles (ms : List Nat) (n : Nat) : Nat → Nat
  | 0 => n
  | f + 1 => if (ms.map (fun m => m - n)).foldl (· + ·) 0 ≤ n then n else groupCycles ms (n + 1) f

/-- The parity delay of a syllable that needs bank words (R156). -/
def parityDelay (words : List Nat) : Nat :=
  let ws := distinct words
  let m (b : Nat) : Nat := (ws.filter (fun w => w % 32 == b)).length
  (List.range 8).foldl (fun a g => max a (groupCycles [m (4 * g), m (4 * g + 1), m (4 * g + 2), m (4 * g + 3)] 1 512 - 1)) 0

end Sys2Proof.Machine
end

