-- ==== Sys2Proof/Machine/Translate.lean ====
section
/-!
DEFINITION. Translation of global addresses at the owning die (07_memory_translation R162 to R165) and the fetch of a
bundle (11_encoding_syntax R229).
-/
namespace Sys2Proof.Machine
open Sys2Proof

/-- The offset bits indexed at each level: the lowest, and how many (R163). -/
def pageLevels : List (Nat × Nat) := [(38, 19), (34, 4), (30, 4), (25, 5), (21, 4), (16, 5), (12, 4)]

/-- Fields of a page-table entry (R164). -/
def pteLeaf (e : DWord) : Bool := e.getLsbD 62
def pteTier (e : DWord) : Nat := e.toNat / 2 ^ 57 % 4
def pteFrame (e : DWord) : Nat := e.toNat / 2 ^ 12 % 2 ^ 36 * 2 ^ 12

/-- An entry is valid when V is 1, TIER is not 3 and the reserved bits are 0 (R164); where its frame may lie is tested apart. -/
def pteValid (e : DWord) : Bool := e.getLsbD 63 && pteTier e != 3 && e.toNat % 2 ^ 12 == 0

/-- A physical place of a die: tier 0 is HBM4, tier 1 LPDDR-6 (R164). -/
def tierAddr (die tier off : Nat) : Nat := (if tier = 0 then Region.hbm die else Region.lpddr die).addr off

/-- The bytes that a tier of a die holds. -/
def tierBytes (tier : Nat) : Nat := if tier = 0 then Config.hbmBytes else Config.lpddrBytes

/-- The leaf that a table gives for an offset: the entry, its physical address and the log of its page size (R163). within says
whether a frame of a tier, of a length in bytes, may be named (R164). -/
def walk (m : Memory) (die off : Nat) (within : Nat → Nat → Nat → Bool) : List (Nat × Nat) → Nat → Nat → Option (DWord × Nat × Nat)
  | [], _, _ => none
  | (sh, b) :: l, tier, base =>
    let a := tierAddr die tier (base + off / 2 ^ sh % 2 ^ b * 8)
    let e : DWord := BitVec.ofNat 64 (Memory.readNat m a 8)
    if !pteValid e then none
    else if pteLeaf e then
      (if pteFrame e % 2 ^ sh = 0 ∧ (pteTier e = 2 ∨ within (pteTier e) (pteFrame e) (2 ^ sh)) then some (e, a, sh) else none)
    else if pteTier e = 2 ∨ !within (pteTier e) (pteFrame e) (2 ^ 12) then none
    else walk m die off within l (pteTier e) (pteFrame e)

/-- The share of a partition in a tier of a die, in bytes (R82). -/
def Partition.share (p : Partition) (die tier : Nat) : Nat := (if tier = 0 then p.hbm else p.lpd).getD die 0 * 2 ^ 30

/-- The memory that Benale takes of a partition's HBM4 on a die of its wings, as the save area (R81, R117). -/
def saveBytes : Nat := 3 * 2 ^ 29

/-- Where the share of a partition begins in a tier of a die: the shares stand one above the other in the order of the partitions,
above the GiB of die 0's LPDDR-6 that Benale keeps (R81; log entry 15). -/
def State.shareBase (s : State) (part die tier : Nat) : Nat :=
  ((s.parts.toList.take part).map (fun p => p.share die tier)).foldl (· + ·) (if tier = 1 ∧ die = 0 then 2 ^ 30 else 0)

/-- What Benale takes at the beginning of a share (R81). -/
def Partition.reservedBytes (p : Partition) (die tier : Nat) : Nat :=
  if tier = 0 ∧ p.wings.extractLsb' (4 * die) 4 ≠ 0 then saveBytes else 0

/-- The number of a partition, and its record. -/
def State.partN (s : State) (n : Nat) : Partition := if h : n < 8 then s.parts[n] else s.parts[0]

/-- Whether a range of a tier of a die lies in the share of a partition that its tables may name (R81, R164). -/
def State.inShare (s : State) (part die tier lo len : Nat) : Bool :=
  let p := s.partN part
  let base := s.shareBase part die tier
  decide (base + p.reservedBytes die tier ≤ lo) && decide (lo + len ≤ base + p.share die tier)

/-- The record of a die. -/
def State.dieRec (s : State) (d : Nat) : DieRec := if h : d < 8 then s.dies[d] else s.dies[0]

/-- A die's record replaced. -/
def State.mapDie (s : State) (d : Nat) (f : DieRec → DieRec) : State :=
  if h : d < 8 then { s with dies := s.dies.set d (f (s.dies[d]'h)) h } else s

/-- The root of a partition's table on a die (R163; log entry 15). -/
def DieRec.root (d : DieRec) (part : Nat) : Option Nat := (d.roots.find? (fun x => x.1 == part)).map (·.2)

/-- The root of Benale's stage two for a partition on a die (R162; log entry 15). -/
def DieRec.root2 (d : DieRec) (part : Nat) : Option Nat := (d.stage2.find? (fun x => x.1 == part)).map (·.2)

/-- The leaf of stage one for an offset of a die (R162 step 1): every frame that an entry names lies in the partition's shares
(R164). -/
def State.leafOf (s : State) (part die off : Nat) : Option (DWord × Nat × Nat) :=
  ((s.dieRec die).root part).bind (fun r => walk s.mem die off (s.inShare part die) pageLevels 0 r)

/-- Both stages for an offset of a die (R162 steps 1 and 2): stage two places the frame of stage one, within the partition's shares; a
peer frame is used as stage one gives it (log entry 15). -/
def State.walkBoth (s : State) (part die off : Nat) : Option TlbEntry :=
  match s.leafOf part die off with
  | none => none
  | some (e1, _, s1) =>
    let t1 := pteTier e1
    let rd := e1.getLsbD 61
    let wr := e1.getLsbD 60
    let atm := e1.getLsbD 59 && wr
    if t1 = 2 then
      some { lo := off / 2 ^ s1 * 2 ^ s1, size := 2 ^ s1, tier := 2, frame := pteFrame e1, rd := rd, wr := wr, atm := atm }
    else
      let a1 := pteFrame e1 + off % 2 ^ s1
      match ((s.dieRec die).root2 part).bind (fun r =>
          walk s.mem die (t1 * 2 ^ 48 + a1) (fun _ _ _ => true) pageLevels 0 r) with
      | none => none
      | some (e2, _, s2) =>
        let sh := min s1 s2
        let frame := pteFrame e2 + a1 % 2 ^ s2 / 2 ^ sh * 2 ^ sh
        if pteTier e2 = 2 ∨ tierBytes (pteTier e2) < frame + 2 ^ sh ∨ !s.inShare part die (pteTier e2) frame (2 ^ sh) then none
        else some { lo := off / 2 ^ sh * 2 ^ sh, size := 2 ^ sh, tier := pteTier e2, frame := frame,
                    rd := rd && e2.getLsbD 61, wr := wr && e2.getLsbD 60,
                    atm := atm && e2.getLsbD 59 && e2.getLsbD 60 }

/-- Whether a cached translation covers an offset. -/
def TlbEntry.covers (e : TlbEntry) (off : Nat) : Bool := decide (e.lo ≤ off) && decide (off < e.lo + e.size)

/-- The memory-side TLB's entry for an offset. -/
def DieRec.cached (d : DieRec) (part off : Nat) : Option TlbEntry :=
  (d.tlb.find? (fun x => x.1 == part && x.2.covers off)).map (·.2)

/-- The translation of an offset of a die for a partition: the cached one, else that of the tables (R162). -/
def State.translate (s : State) (part die off : Nat) : Option TlbEntry :=
  match (s.dieRec die).cached part off with
  | some e => some e
  | none => s.walkBoth part die off

/-- The physical address of an offset under a translation of tier 0 or 1. -/
def TlbEntry.phys (e : TlbEntry) (die off : Nat) : Nat := tierAddr die e.tier (e.frame + (off - e.lo))

/-- Whether an access of a kind is allowed (R164). -/
def TlbEntry.allows (e : TlbEntry) (write atomic : Bool) : Bool :=
  if atomic then e.wr && e.atm else if write then e.wr else e.rd

/-! ## Fetch -/

/-- The image of a context. -/
def State.imageOf (s : State) (c : Ctx) : Option ImageRec := (s.partOf c).images.find? (fun i => i.handle == c.image)

/-- The syllable of LIN that a context of a translated image runs at an address (R71, R72; log entry 13). -/
def State.linAt (s : State) (a : Nat) : Option DWord :=
  if s.cur.dlf then
    (s.imageOf s.cur).bind (fun i => if i.base.toNat ≤ a then i.lin[(a - i.base.toNat) / 8]? else none)
  else none

/-- What the fetch of a syllable finds: its 64 bits, or that they have still to come from a peer (R171), or no valid leaf or no RD. -/
inductive Fetched where
  | word (w : DWord)
  | away
  | denied
  deriving DecidableEq, Repr

/-- The syllable of a page at a peer, where it has come (R171). -/
def Ctx.farWord (c : Ctx) (a : Nat) : Fetched :=
  match c.code.find? (fun x => x.1 == a) with
  | some (_, some w) => .word w
  | some (_, none) => .denied
  | none => .away

/-- The syllable at an offset of a die (R229). -/
def State.fetchWord (s : State) (part die off : Nat) : Fetched :=
  match s.translate part die off with
  | some e =>
    if !e.rd then .denied
    else match s.linAt (die * 2 ^ 57 + off) with
      | some w => .word w
      | none => if e.tier = 2 then s.cur.farWord (die * 2 ^ 57 + off) else .word (BitVec.ofNat 64 (Memory.readNat s.mem (e.phys die off) 8))
  | none => .denied

/-- The syllables of a bundle from an offset on, up to the first with L = 1 or n (R229), and what has ended them early. -/
def State.fetchFrom (s : State) (part die off : Nat) : Nat → List DWord × Option Fetched
  | 0 => ([], none)
  | n + 1 =>
    match s.fetchWord part die off with
    | .word w => if w.getLsbD 63 then ([w], none) else let r := s.fetchFrom part die (off + 8) n; (w :: r.1, r.2)
    | x => ([], some x)

/-- The bundle at an address, or the fault of its fetch (R229). It is empty while some of it has still to come from a peer. -/
def State.fetch (s : State) (pc : DWord) : Except Cause (List DWord) :=
  let n := pc.toNat
  if n % 8 ≠ 0 then .error .align
  else if n / 2 ^ 60 ≠ 0 then .error .space
  else match s.fetchFrom s.cur.part (n / 2 ^ 57 % 8) (n % 2 ^ 57) 8 with
    | (l, none) => .ok l
    | (_, some .away) => .ok []
    | (_, some _) => .error .pageDenied

end Sys2Proof.Machine
end

