-- ==== Sys2Proof/Machine/Pages.lean ====
section
/-!
DEFINITION. Pages of global memory at their owning die (07_memory_translation R158, R162 to R171): where a run of bytes lies, the
translations that are kept, the hold queues of pages that migrate, reads, writes and atomics, and the accesses of control cores and of
the dispatcher.
-/
namespace Sys2Proof.Machine
open Sys2Proof

/-! ## Translation at the owner (R162 to R165) -/

/-- Where n bytes of global memory lie: the physical address of each, or a window offset of a peer, or nowhere. -/
inductive Spot where
  | here (as : List Nat)
  | far (peer off : Nat)
  | denied
  deriving DecidableEq, Repr

/-- The window offset of a peer that an offset of a page in TIER 2 is, with the peer (R164, R171). -/
def TlbEntry.away (e : TlbEntry) (off : Nat) : Nat × Nat := (e.frame / 2 ^ 40 % 256, e.frame % 2 ^ 40 + (off - e.lo))

/-- The migration that covers an offset of a die. -/
def DieRec.migOf (d : DieRec) (part off : Nat) : Option Migration :=
  d.migs.find? (fun m => m.part == part && decide (m.va ≤ off) && decide (off < m.va + m.size))

/-- The bytes of a run that one agent holds, under the rights that an access needs: this module, or a peer under one run of window offsets
(R164, R171). A run that is parted between them, or between a page that migrates and one that does not, is none. -/
def State.spot (s : State) (part die off n : Nat) (write atomic : Bool) : Spot :=
  let es := (List.range n).map (fun i => (off + i, s.translate part die (off + i)))
  match s.translate part die off with
  | none => .denied
  | some e =>
    if es.any (fun x => match x.2 with | some y => !y.allows write atomic || ((y.tier == 2) != (e.tier == 2)) | none => true) then .denied
    else
      let f := e.away off
      if e.tier ≠ 2 then .here (es.map (fun x => match x.2 with | some y => y.phys die x.1 | none => 0))
      else if es.all (fun x => match x.2 with | some y => y.away x.1 == (f.1, f.2 + (x.1 - off)) | none => false) &&
          ((s.dieRec die).migOf part off == (s.dieRec die).migOf part (off + n - 1)) then .far f.1 f.2
      else .denied

/-- The memory-side TLB of a die keeps a translation that it has walked (R162); the oldest leaves when it is full. -/
def State.keepTlb (s : State) (part die off : Nat) : State :=
  match (s.dieRec die).cached part off, s.walkBoth part die off with
  | none, some e => s.mapDie die (fun d => { d with tlb := ((part, e) :: d.tlb).take Config.memTlbEntries })
  | _, _ => s

/-- The memory-side TLB keeps the translation of every page in which a run of bytes lies (R162). -/
def State.keepRun (s : State) (part die off n : Nat) : State :=
  (List.range ((off % 4096 + n + 4095) / 4096)).foldl (fun t i => t.keepTlb part die (max off (off / 4096 * 4096 + 4096 * i))) s

/-- A tile's TLB may keep the translation of an access to its own die (R165): a free choice. -/
def State.keepTile (s : State) (tile part die off : Nat) : State :=
  if dieOf tile ≠ die then s
  else match s.translate part die off with
    | none => s
    | some e =>
      let t := { s with fresh := s.fresh + 1 }
      let r := t.tileRec tile
      if Config.freeBit s.fresh then t.setTile tile { r with tlb := (e :: r.tlb).take Config.tileTlbEntries } else t

/-! ## Migrating pages (R169) -/

/-- The entries in a die's hold queue. -/
def DieRec.heldEntries (d : DieRec) : Nat := (d.migs.map (fun m => m.queue.length)).foldl (· + ·) 0

/-- A migration of a die is gone. -/
def DieRec.dropMig (d : DieRec) (part va : Nat) : DieRec :=
  { d with migs := d.migs.filter (fun m => m.part != part || m.va != va) }

/-- Bits of a leaf of a page table: MIG and PIN (R164). -/
def migBit : Nat := 56
def pinBit : Nat := 55

/-- A bit of the entry at a physical address set or cleared. -/
def setEntryBit (m : Memory) (a k : Nat) (v : Bool) : Memory :=
  let x := Memory.readNat m a 8
  Memory.writeNat m a 8 (if x.testBit k == v then x else if v then x + 2 ^ k else x - 2 ^ k)

/-- MIGRATE's result codes (R168). -/
def migDone : Nat := 0
def migAbandoned : Nat := 1
def migPinned : Nat := 2
def migBusy : Nat := 3
def migBad : Nat := 4

/-- A migration ends with its page in its old frame (R169 step 6). -/
def State.abandon (s : State) (die : Nat) (m : Migration) : State :=
  ({ s with mem := setEntryBit s.mem m.leafAt migBit false }).mapDie die (fun d =>
    { d.dropMig m.part m.va with result := migAbandoned })

/-- What a write leaves at an offset of a migrating page is appended to the hold queue (R169 steps 3 and 6). -/
def State.holdPage (s : State) (part die off : Nat) (bytes : List Byte) : State :=
  match (s.dieRec die).migOf part off with
  | none => s
  | some m =>
    if (s.dieRec die).heldEntries < Config.holdQueueEntries then
      s.mapDie die (fun d => { d with migs := d.migs.map (fun x =>
        if x.part = m.part ∧ x.va = m.va then { x with queue := x.queue ++ [(off - m.va, bytes)] } else x) })
    else s.abandon die m

/-- What a write of at most 4 KiB leaves is held, where it runs on into another page for each of the two (R169). -/
def State.hold (s : State) (part die off : Nat) (bytes : List Byte) : State :=
  let k := 4096 - off % 4096
  let d := s.dieRec die
  if bytes.length ≤ k ∨ d.migOf part off = d.migOf part (off + k) then s.holdPage part die off bytes
  else (s.holdPage part die off (bytes.take k)).holdPage part die (off + k) (bytes.drop k)

/-- Where stage two places a stage-one address of a tier for a partition (R162 step 2; log entry 15). -/
def State.stageTwo (s : State) (part die tier a : Nat) : Option Nat :=
  match ((s.dieRec die).root2 part).bind (fun r => walk s.mem die (tier * 2 ^ 48 + a) (fun _ _ _ => true) pageLevels 0 r) with
  | none => none
  | some (e, _, sh) =>
    let f := pteFrame e + a % 2 ^ sh
    if pteTier e = 2 ∨ !s.inShare part die (pteTier e) f 1 then none else some (tierAddr die (pteTier e) f)

/-- A request is one that a die has forwarded to a page that migrates from a peer. -/
def Request.movesWith (q : Request) (die : Nat) (m : Migration) : Bool :=
  q.part == m.part && q.addr.toNat / 2 ^ 60 == 5 && (match q.home with
    | some p => p.toNat / 2 ^ 57 % 8 == die && decide (m.va ≤ p.toNat % 2 ^ 57) && decide (p.toNat % 2 ^ 57 < m.va + m.size)
    | none => false)

/-- What a request leaves in a page is not yet known: an atomic on its way, or a word that one has left and that is being read back
(R169). -/
def Request.unknown (q : Request) : Bool := (match q.ask with | .atomic _ => true | _ => false) || (q.uid == 0 && q.sink == .code)

/-- A write that a die has forwarded to a page that migrates from a peer is on its way, or what an atomic has left there is being read
(R169): the next write to the page waits for it, so that the hold queue keeps the order in which they perform. -/
def State.settling (s : State) (part die off : Nat) : Bool :=
  match (s.dieRec die).migOf part off with
  | none => false
  | some m => s.requests.any (fun q => q.movesWith die m &&
      ((!q.ask.writes.isEmpty && !(q.uid == 0 && q.sink == .discard && q.swarm != 0)) || q.unknown))

/-! ## Accesses to global memory -/

/-- A write of these bytes ends a reservation of a control core (R181; log entry 3). -/
def Core.unreserve (c : Core) (as : List Nat) : Core :=
  match c.reserved with
  | some (.here p n) => if as.any (fun a => decide (p ≤ a) && decide (a < p + n)) then { c with reserved := none } else c
  | _ => c

/-- The reservations that a write of these bytes leaves. -/
def State.unreserve (s : State) (as : List Nat) : State := { s with cores := s.cores.map (fun c => c.unreserve as) }

/-- n bytes written at physical addresses, which are an offset of a die. -/
def State.write0 (s : State) (part die off : Nat) (as : List Nat) (value : Nat) : State :=
  (({ s with mem := writeAddrs s.mem [] as value }).unreserve as).hold part die off (bytesOfNat as.length value)

/-- The bytes at physical addresses, as a number. -/
def State.read0 (s : State) (as : List Nat) : Nat := natOfBytes (as.map (fun a => Memory.read s.mem a))

/-- An atomic at physical addresses: the state after it and the old value (R158). -/
def State.atom0 (s : State) (part die off : Nat) (as : List Nat) (a : Atom) : State × Nat :=
  let old := s.read0 as
  match a with
  | .word _ _ size op operand => (s.write0 part die off as (op.eval (8 * size) old operand.toNat), old)
  | .quire _ _ image => (s.write0 part die off as ((quireOfNat old).merge (Quire.ofImage image)).image.toNat, 0)

/-- The offset, size and lane of an atomic. -/
def Atom.off : Atom → Nat
  | .word _ o _ _ _ => o
  | .quire _ o _ => o
def Atom.size : Atom → Nat
  | .word _ _ n _ _ => n
  | .quire .. => 72
def Atom.lane : Atom → Nat
  | .word l _ _ _ _ => l
  | .quire l _ _ => l
def Atom.moved (o : Nat) : Atom → Atom
  | .word l _ n op x => .word l o n op x
  | .quire l _ x => .quire l o x

/-- A pointer into a peer's window (R149). -/
def peerPointer (peer off : Nat) : DWord := BitVec.ofNat 64 (5 * 2 ^ 60 + peer % 256 * 2 ^ 52 + off % 2 ^ 52)

/-- A tagged address of global memory (R149). -/
def globalPointer (die off : Nat) : DWord := BitVec.ofNat 64 (die * 2 ^ 57 + off)

/-- An access of the module's own to a peer, for an agent that is no task: owner tells which, and sink what becomes of the answer. home is
the space-0 address that the owning die forwards (R171). -/
def State.ownRequest (s : State) (part die owner : Nat) (addr : DWord) (ask : Ask) (sink : Sink) (home : DWord) : State :=
  { s with
    requests := s.requests ++ [{ id := s.nextReq, uid := 0, part := part, swarm := owner, source := 128 * die, tile := 128 * die,
                                 slot := 0, addr := addr, ask := ask, sink := sink, slice := none, acquire := false,
                                 stage := .queued, readyAt := s.cycle, data := [], denied := false, status := 0,
                                 home := some home, engine := none, bundle := 0, epoch := 0, strong := false, at_ := 0,
                                 shadow := [], skip := [] }]
    nextReq := s.nextReq + 1 }

/-! ## Accesses of control cores and of the dispatcher (R78, R95, R162, R171) -/

/-- What an access has brought: a value, or it is still to be made at a peer, or it is denied. -/
inductive Reading where
  | got (x : Nat)
  | away
  | denied
  deriving DecidableEq, Repr

/-- The key under which a partition keeps what an agent has read, or written, at an address that lives at a peer. The agent is a control
core by its wing, or the dispatcher on behalf of a context. -/
def farKey (who die off : Nat) (write : Bool) : Nat := die * 2 ^ 57 + off + (if write then 2 ^ 64 else 0) + who * 2 ^ 65

/-- The dispatcher on behalf of a context. -/
def whoOf (uid : Nat) : Nat := 32 + uid

/-- What has come for a key. -/
def Partition.farAnswer (p : Partition) (k : Nat) : Reading :=
  match p.far.find? (fun x => x.1 == k) with
  | some (_, some x) => .got x
  | some (_, none) => .denied
  | none => .away

/-- n bytes of global memory of a partition, which lie in one page. -/
def State.readVia (s : State) (who part die off n : Nat) : Reading :=
  match s.spot part die off n false false with
  | .here as => .got (s.read0 as)
  | .far .. => (s.partN part).farAnswer (farKey who die off false)
  | .denied => .denied

/-- An access of an agent to a run that lives at a peer is under way. -/
def State.asked (s : State) (who part die off : Nat) (write : Bool) : Bool :=
  s.requests.any (fun r => r.uid == 0 && r.sink == .record && r.part == part && r.home == some (globalPointer die off) &&
    r.swarm == 2 * who + (if write then 1 else 0))

/-- An access is made at the peer where a spot lies, once. -/
def State.goTo (s : State) (who part die off : Nat) (write : Bool) (at_ : Spot) (ask : Nat → Ask) : State :=
  if s.asked who part die off write then s
  else match at_ with
    | .far peer o => s.ownRequest part die (2 * who + (if write then 1 else 0)) (peerPointer peer o) (ask o) .record (globalPointer die off)
    | _ => s

/-- An access is made at the peer where the page of an address lives, once. -/
def State.goFar (s : State) (who part die off : Nat) (write : Bool) (ask : Nat → Ask) : State :=
  s.goTo who part die off write (s.spot part die off 1 write false) ask

/-- n bytes that live at a peer are asked for. -/
def State.askVia (s : State) (who part die off n : Nat) : State := s.goFar who part die off false (fun o => .load [⟨0, o, n⟩])

/-- What has come from peers for an agent has been used. -/
def State.useFar (s : State) (who part : Nat) : State :=
  if h : part < 8 then
    { s with parts := s.parts.set part { s.parts[part] with far := s.parts[part].far.filter (fun x => x.1 / 2 ^ 65 != who) } h }
  else s

/-- The answer to such an access has come: it is kept for the agent. -/
def State.takeFar (s : State) (r : Request) : State :=
  if h : r.part < 8 then
    let p := s.parts[r.part]
    let x := r.home.getD r.addr
    let k := farKey (r.swarm / 2) (x.toNat / 2 ^ 57 % 8) (x.toNat % 2 ^ 57) (r.swarm % 2 == 1)
    { s with parts := s.parts.set r.part { p with far := p.far ++ [(k, if r.denied then none else some (dataAt r.data 0))] } h }
  else s

/-! ## Quire adds on pages that more than one agent holds (R158, R171; log entry 56) -/

/-- The agents of merges have the highest numbers: the one that merges the image of a request, and the one that does so for another agent. -/
def firstMerge : Nat := 2 ^ 43
def mergeAgent (id : Nat) : Nat := firstMerge + 2 * id
def mergeFor (who : Nat) : Nat := firstMerge + 2 * who + 1

/-- The parts of a quire image at an offset, each in one page. -/
def imageCuts (off : Nat) : List (Nat × Nat) :=
  let k := 4096 - off % 4096
  if 72 ≤ k then [(off, 64), (off + 64, 8)] else [(off, k), (off + k, 72 - k)]

/-- An atomic is a quire add on an image whose parts lie in different places, and each of them allows it. -/
def State.parted (s : State) (part die : Nat) (a : Atom) : Bool :=
  match a with
  | .word .. => false
  | .quire _ off _ => s.spot part die off 72 true true == .denied && (imageCuts off).all (fun c => s.spot part die c.1 c.2 true true != .denied)

/-- The part of an image, with its place: what it holds, when that is known. -/
def State.partRead (s : State) (who part die : Nat) (c : Nat × Nat) : Reading :=
  match s.spot part die c.1 c.2 true true with
  | .here as => .got (s.read0 as)
  | .far .. => (s.partN part).farAnswer (farKey who die c.1 false)
  | .denied => .denied

/-- One part of an image is written: here, or at its peer, where the hold queue of a migration takes it too (R169). -/
def State.partWrite (s : State) (who part die : Nat) (c : Nat × Nat) (x : Nat) : State :=
  match s.spot part die c.1 c.2 true true with
  | .here as => s.write0 part die c.1 as x
  | l => (s.hold part die c.1 (bytesOfNat c.2 x)).goTo who part die c.1 true l (fun o => .store [⟨o, c.2, x⟩])

/-- A write to bytes of a spot at a peer is on its way there. -/
def State.writesTo (s : State) (l : Spot) (n : Nat) : Bool :=
  match l with
  | .far peer o => s.requests.any (fun q => q.addr.toNat / 2 ^ 52 == 5 * 256 + peer &&
      q.ask.writes.any (fun w => decide (w.1 < o + n) && decide (o < w.1 + w.2)))
  | _ => false

/-- The part of an image that lives at a peer is read there, once no write to it is on its way. -/
def State.partAsk (s : State) (who part die : Nat) (c : Nat × Nat) : State :=
  let l := s.spot part die c.1 c.2 true true
  if s.partRead who part die c = .away ∧ !s.writesTo l c.2 then s.goTo who part die c.1 false l (fun o => .load [⟨0, o, c.2⟩]) else s

/-- The merge of an image into one whose parts lie in different places, one step at a time: the parts at peers are read, all of it is merged,
and what the peers hold is written there. -/
def State.mergeVia (s : State) (who part die off : Nat) (image : BitVec 576) : State × Reading :=
  let cs := imageCuts off
  let far := cs.filter (fun c => match s.spot part die c.1 c.2 true true with | .far .. => true | _ => false)
  let put (c : Nat × Nat) : Reading := (s.partN part).farAnswer (farKey who die c.1 true)
  let open_ := cs.any (fun c => s.asked who part die c.1 false || s.asked who part die c.1 true)
  if cs.any (fun c => s.partRead who part die c == .denied || put c == .denied) then (if open_ then (s, .away) else (s.useFar who part, .denied))
  else if cs.any (fun c => s.partRead who part die c == .away) then (far.foldl (fun t c => t.partAsk who part die c) s, .away)
  else if far.all (fun c => put c != .away) then (s.useFar who part, .got 0)
  else if open_ then (s, .away)
  else
    let old := (cs.map (fun c => match s.partRead who part die c with | .got x => x * 2 ^ (8 * (c.1 - off)) | _ => 0)).foldl (· + ·) 0
    let new := ((quireOfNat old).merge (Quire.ofImage image)).image.toNat
    (cs.foldl (fun t c => t.partWrite who part die c (new / 2 ^ (8 * (c.1 - off)) % 2 ^ (8 * c.2))) s, .away)

/-- Runs of a die meet what another agent is merging: they wait. -/
def State.merging (s : State) (who part die : Nat) (runs : List (Nat × Nat)) : Bool :=
  let mine (k : Nat) : Bool := decide (k < firstMerge) || k == who
  let meets (p : Nat) : Bool := p / 2 ^ 57 % 8 == die && runs.any (fun r => decide (r.1 < p % 2 ^ 57 + 64) && decide (p % 2 ^ 57 < r.1 + r.2))
  s.requests.any (fun q => q.uid == 0 && q.sink == .record && q.part == part && !mine (q.swarm / 2) && (q.home.any (fun p => meets p.toNat))) ||
    (s.partN part).far.any (fun x => !mine (x.1 / 2 ^ 65) && meets (x.1 % 2 ^ 64))

end Sys2Proof.Machine
end

