-- ==== Sys2Proof/Machine/Issue.lean ====
section
/-!
DEFINITION. The issue of a syllable (06_tile R120 to R140): the start of engine commands as the clock runs (R134 to
R136), the delays of a bundle (R123), the faults and effects that every syllable shares, result-queue places (R132),
accesses and requests (R155, R159, R162, R171), and what releases and acquires wait for (R177, R178).
-/
namespace Sys2Proof.Machine
open Sys2Proof

/-! ## Engine commands and the clock -/

/-- The engine queues of a command (R134, R183). -/
def Command.queues (k : Command) : List QNum :=
  match k.cmd with
  | .qfence m => ([0, 1, 2, 3] : List QNum).filter (fun q => m.getLsbD q.toNat)
  | _ => [k.eq]

/-- A pointer advanced within its field (R150). -/
def ptrAdd (p : DWord) (n : Nat) : DWord := (addField p n).1

/-- What a command reads: pointer and length of each run of source bytes (R339). -/
def Cmd.sources : Cmd → List (DWord × Nat)
  | .cpy _ src len => [(src, len)]
  | .gth _ base _ idx esz _ => idx.map (fun i => (ptrAdd base (i * esz), esz))
  | .sct packed _ idx esz => [(packed, idx.length * esz)]
  | .wld src _ count => [(src, 128 * count)]
  | .rwr _ src len _ _ _ => [(src, len)]
  | .rwg _ src len _ => [(src, len)]
  | .rrd src len _ _ => [(src, len)]
  | .coll _ src len _ _ _ => [(src, len)]
  | .qfence _ => []

/-- The own-cluster place of a pointer, for R135. -/
def State.ownSite (s : State) (p : DWord) : Option (Site × Nat) :=
  let l := (s.resolve p 0 1 1 .source false).1
  if l.space = 3 then some (.weight, l.off)
  else if l.space = 1 ∨ (l.space = 2 ∧ l.cluster = clusterOf s.cur.tile) then
    (l.holders.head?).map (fun h => (.alloc h.1 h.2 l.atag, l.off))
  else none

/-- The runs that the stores of an access write, by offset and length. -/
def Act.stores : Act → List (Nat × Nat)
  | .store parts => parts.map (fun p => (p.off, p.size))
  | _ => []

/-- The stores of a request over the mesh that have not performed: the site and the runs that they write. -/
def Request.meshStores (r : Request) : Site × List (Nat × Nat) :=
  (.alloc r.tile r.slot (r.addr.toNat / 2 ^ 48 % 32), match r.ask with
    | .store ps => if r.stage = .queued ∨ r.stage = .moving then ps.map (fun p => (p.off, p.size)) else []
    | _ => [])

/-- What the stores issued before a command have still to write in a cluster at its start cycle: through the own port, or on its way
over the mesh (R135, R159). -/
def State.unwritten (s : State) (k : Command) : List (Site × List (Nat × Nat)) :=
  ((s.cur.unfinished k.start).filter (fun a => decide (a.bundle < k.bundle))).map (fun a => (a.site, a.act.stores)) ++
    (s.requests.filter (fun r => r.uid == s.cur.uid && r.engine.isNone && decide (r.bundle < k.bundle) &&
      (r.addr.toNat / 2 ^ 60 == 2 || r.addr.toNat / 2 ^ 60 == 4))).map Request.meshStores

/-- Whether a command reads bytes that a store or matrix syllable issued before it has not yet written (R135). -/
def State.unperformed (s : State) (k : Command) : Bool :=
  k.cmd.sources.any (fun r => match s.ownSite r.1 with
    | none => false
    | some (site, off) => (s.unwritten k).any (fun a => a.1 == site &&
        a.2.any (fun w => decide (w.1 < off + r.2) && decide (off < w.1 + w.2))))

/-- The open batch closes; an empty one is not closed (R184). -/
def Ctx.closeBatch (c : Ctx) : Ctx :=
  if c.openB.total = 0 then c
  else { c with closedB := if c.openB.left = 0 then c.closedB else c.closedB ++ [c.openB],
                openB := Batch.empty (c.batchSeq + 1), batchSeq := c.batchSeq + 1 }

/-- A queue place that no reply will fill is gone. -/
def Ctx.dropRequest (c : Ctx) (req : Nat) : Ctx :=
  { c with rq := c.rq.map (fun l => l.filter (fun e => e.request != req || e.owed == 0)) }

/-- The result-queue request of a command. -/
def Cmd.request : Cmd → Option Nat
  | .gth _ _ true _ _ req => some req
  | .rrd _ _ _ req => some req
  | _ => none

/-- TINFO of TIMING (R146). -/
def timingInfo (start count why : Nat) (q : QNum) : DWord :=
  BitVec.ofNat 64 (start % 2 ^ 48 * 2 ^ 16 + count % 256 * 2 ^ 8 + why * 2 ^ 2 + q.toNat)

/-- A TIMING trap joins those found: one more command of the same start cycle counts in the first (R135). No syllable of
the bundle is at fault: position and class are 0 (log 25, DEDUCED). -/
def addTiming (start why : Nat) (q : QNum) : List Trap → List Trap
  | [] => [{ cause := .timing, info := timingInfo start 1 why q, addr := false, pos := 0, cls := 0 }]
  | t :: l =>
    if t.cause = .timing ∧ t.info.toNat / 2 ^ 16 = start % 2 ^ 48 then { t with info := t.info + 0x100 } :: l
    else t :: addTiming start why q l

/-- A command that fails at its start cycle is discarded (R135). -/
def Ctx.discard (c : Ctx) (k : Command) (why : Nat) (q : QNum) : Ctx :=
  let c1 := match k.cmd.request with | some r => c.dropRequest r | none => c
  { c1.batchDone k.batch with late := addTiming k.start why q c.late }

/-- A command enters its queues. -/
def Ctx.enqueue (c : Ctx) (k : Command) : Ctx :=
  k.queues.foldl (fun d q => { d with eqs := d.eqs.set q.toNat ((d.eqs[q.toNat]'q.isLt) ++ [k]) q.isLt }) c

/-- A queue of a command that has no room (R134, R347). -/
def Ctx.fullQueue (c : Ctx) (k : Command) : Option QNum :=
  k.queues.find? (fun q => decide (16 ≤ (c.eqs[q.toNat]'q.isLt).length))

/-- A run of bytes cut where the address crosses a multiple of 64, by pointer and length: each piece lies in one page. -/
def chunksOf (p : DWord) (n : Nat) : List (DWord × Nat) :=
  let o := p.toNat % 64
  ((List.range ((o + n + 63) / 64)).map (fun i => (max o (64 * i), min (o + n) (64 * (i + 1))))).filterMap (fun x =>
    if x.1 < x.2 then some (ptrAdd p (x.1 - o), x.2 - x.1) else none)

/-- The pieces of a command's sources that lie in the own cluster. -/
def State.ownRuns (s : State) (k : Cmd) : List (Site × Nat × Nat × DWord) :=
  ((k.sources.map (fun x => chunksOf x.1 x.2)).flatten).filterMap (fun x =>
    (s.ownSite x.1).map (fun y => (y.1, y.2, x.2, x.1)))

/-- The lines of a WLD with an own-cluster source that is there: the place of each (R342). -/
def State.fills (s : State) (k : Cmd) : List (Site × Nat × Nat × DWord) :=
  match k with
  | .wld src line count => match s.ownSite src with
    | some (site, off) => match s.siteAlloc site with
      | some (_, a) =>
        if off + 128 * count ≤ 64 * a.size then (List.range count).map (fun n => (site, line + n, off + 128 * n, ptrAdd src (128 * n)))
        else []
      | none => []
    | none => []
  | _ => []

/-- A command whose turn has come begins its own-cluster reads in module cycle m (R339): WLD reads line n in cycle m + n (R342), the
others go on run by run. -/
def State.readOwn (s : State) (k : Command) (m : Nat) : State :=
  let c := s.cur.mapCommand k.num (fun x => { x with begun := true })
  match s.fills k.cmd with
  | [] => match s.ownRuns k.cmd with
    | [] => s.withCur c
    | (site, o, n, p) :: l =>
      s.withCur ((c.mapCommand k.num (fun x => { x with pend := true })).stampAccess m site (.take k.num o n p l))
  | fs =>
    let d := c.mapCommand k.num (fun x => { x with closed := true, owed := fs.length })
    s.withCur (fs.zipIdx.foldl (fun e x => e.stampAccess (m + c.rate * x.2) x.1.1 (.fill k.num x.1.2.1 x.1.2.2.1 x.1.2.2.2)) d)

/-- A command enters its queues in module cycle m. One that finds them empty makes its first access at once (R339). -/
def State.enqueue (s : State) (k : Command) (m : Nat) : State :=
  let t := s.withCur (s.cur.enqueue k)
  if k.queues.all (fun q => (s.cur.eqs[q.toNat]'q.isLt).isEmpty) then t.readOwn k m else t

/-- A command reaches its start cycle (R134, R135). -/
def State.startCommand (s : State) (k : Command) : State :=
  let c := s.cur
  match c.fullQueue k with
  | some q => s.withCur (c.discard k 0 q)
  | none =>
    if s.unperformed k then s.withCur (c.discard k 1 k.eq)
    else s.enqueue k (c.modBase + (c.rate * max k.start (if c.dlf then c.clk else 0) : Nat)).toNat

/-- A command of a DLF task starts only when its queues have room and what it reads has performed: no start cycle of Grenzor's choice
brings a TIMING fault (R71). -/
def State.startWaits (s : State) (k : Command) : Bool := s.cur.dlf && ((s.cur.fullQueue k).isSome || s.unperformed k)

/-- Commands issued in handler mode enter in order while there is room (R136). -/
def State.enter (s : State) : List Command → List Command → State
  | [], rest => s.withCur { s.cur with waiting := rest }
  | k :: l, rest =>
    if k.handler && !(rest.any (·.handler)) && (s.cur.fullQueue k).isNone then (s.enqueue k s.cur.module).enter l rest
    else s.enter l (rest ++ [k])

/-- Handler commands that have room enter their queues. -/
def State.admitHandler (s : State) : State := if s.cur.waiting.any (·.handler) then s.enter s.cur.waiting [] else s

/-- The waiting command that starts first: the one with the least start cycle, and of those the oldest (R134, R183). -/
def firstTimed : List Command → Option Command
  | [] => none
  | k :: l =>
    if k.handler then firstTimed l
    else match firstTimed l with
      | none => some k
      | some j => if j.start < k.start then some j else some k

/-- The commands whose start cycles come before t start in order, each after the accesses of its cycle (R115, R134); in DLF one that has to
wait holds back those after it (R71). n bounds how many. -/
def State.startDue (s : State) (t : Nat) : Nat → State
  | 0 => s
  | n + 1 =>
    match firstTimed s.cur.waiting with
    | none => s
    | some k =>
      if k.start < t then
        let s1 := s.performTo k.start
        if s1.startWaits k then s1
        else State.startDue ((s1.withCur { s1.cur with waiting := s1.cur.waiting.filter (fun x => x.num != k.num) }).startCommand k) t n
      else s

/-- The clock of the context reaches t (R123): accesses perform, results land, and commands start, but for those that
wait for a TCLK that stands still (R115). -/
def State.advance (s : State) (t : Nat) : State :=
  let s1 := if s.cur.handling then s else s.startDue t s.cur.waiting.length
  (s1.runTo t).admitHandler

/-! ## Delays -/

/-- The runs of bytes that an L-slot syllable reaches in lanes, by offset from its address (R326). -/
def spans (c : Ctx) (lanes : LaneMask) : Instr → Option (DNum × BitVec 24 × List (Int × Nat))
  | .ldv _ da off _ _ _ | .stv _ da off _ _ => some (da, off,
      ((List.range 8).filter (fun g => lanes.extractLsb' (16 * g) 16 != 0)).map (fun g => ((64 * g : Nat), 64)))
  | .ldq _ da off _ _ | .stq _ da off _ _ | .amoQadd _ da off _ => some (da, off, (lanesIn lanes).map (fun l => ((72 * l : Nat), 72)))
  | .ldvs _ da off st ew _ _ | .stvs _ da off st ew _ => some (da, off,
      (lanesIn lanes).map (fun (l : Nat) => (Int.ofNat l * (c.s st).toInt, 4 / 2 ^ ew.toNat)))
  | _ => none

/-- The runs of bytes of its own cluster that an L-slot syllable reaches in lanes, at the registers of the state: the site and its
allocation, and each run that lies in it. -/
def State.ownSpans (s : State) (lanes : LaneMask) (i : Instr) : Option (Site × Alloc × List (Nat × Nat)) :=
  match spans s.cur lanes i with
  | none => none
  | some (da, off, runs) =>
    let l := (s.resolve (s.cur.d da) off.toInt 1 1 .load false).1
    if l.space ≠ 1 ∨ l.control then none
    else match s.siteAlloc l.site with
      | none => none
      | some (_, a) => some (l.site, a, runs.filterMap (fun r =>
          let o := (l.off : Int) + r.1
          if 0 ≤ o ∧ o + r.2 ≤ (a.size * 64 : Nat) then some (o.toNat, r.2) else none))

/-- The parity delay of a syllable at the registers of the state: that of every lane of its lane groups (R156, R326). -/
def State.parityOf (s : State) (lgdef : BitVec 8) (i : Instr) : Nat :=
  match s.ownSpans (groupLanes ((shapeOf i).mask.eval lgdef)) i with
  | none => 0
  | some (_, a, runs) => parityDelay ((runs.map (fun r => a.words r.1 r.2)).flatten)

/-- The operand delay of a VMRED (R291). -/
def State.operandDelay (s : State) : Instr → Nat
  | .vmred _ _ _ _ _ _ k => let p := (s.cur.s k).toNat % 2 ^ 16; p + (p + 7) / 8 - 2
  | _ => 0

/-- The delays of a bundle between its decision cycle and its earliest issue cycle, at the registers of the state
(R123). -/
def State.delays (s : State) (jo : Nat) (lgdef : BitVec 8) (is : List Instr) : Nat :=
  bankDelay ((is.map (fun i => bankReads i jo lgdef)).flatten) + (is.map (s.parityOf lgdef)).foldl (· + ·) 0 +
    (is.map s.operandDelay).foldl (· + ·) 0

/-- The stall count of a bundle (R123, R243): that of its first syllable, under REP for repeat 0 only. -/
def Ctx.stallOf (c : Ctx) (ws : List DWord) : Nat :=
  match ws with
  | [] => 0
  | w :: _ => if c.rep.any (fun r => r.j != 0) then 0 else fld w.toNat 57 3

/-- The instructions that the syllables of a bundle name. -/
def instrsOf (ws : List DWord) : List Instr := ws.filterMap decodeLoose

/-- A syllable that gives an engine a command. -/
def givesCommand : Instr → Bool
  | .cpy .. | .gth .. | .sct .. | .wld .. | .rwr .. | .rwg .. | .rrd .. | .collGrp .. | .collMod .. | .collLossy ..
  | .qfence .. => true
  | _ => false

/-- A syllable that an MSPILL or MFILL holds back: those of the L slot, and the two themselves (R322). -/
def behindSpill (i : Instr) : Bool :=
  match i with
  | .mspill .. | .mfill .. => true
  | _ => classOf i == 4

/-- The commands that wait for a start cycle (R115). -/
def Ctx.timed (c : Ctx) : List Command := c.waiting.filter (fun k => !k.handler)

/-- The limit on waiting commands holds a bundle back: one of its syllables would give a 33rd command (R115, R230). -/
def State.fullOf (s : State) (is : List Instr) : Bool :=
  !s.cur.handling && is.any (fun i => givesCommand i && s.cur.acts i) && decide (32 ≤ s.cur.timed.length)

/-- The two halves of a pair. -/
def halves (d : DNum) : List SRegNo := [lowOf d, highOf d]

/-- The scalars that a DATA field names as the destination of a load of a width. -/
def loadScalars (width : BitVec 2) (data : VNum) : List SRegNo :=
  if width = 3 then [scalarOf data, scalarOf data ||| 1] else [scalarOf data]

/-- The scalars that a syllable writes when it brings its result. -/
def scalarDests : Instr → List SRegNo
  | .add _ r _ _ | .sub _ r _ _ | .mul _ r _ _ | .mulh _ r _ _ | .mulhu _ r _ _ | .div _ r _ _ | .divu _ r _ _ | .rem _ r _ _
  | .remu _ r _ _ | .and _ r _ _ | .or _ r _ _ | .xor _ r _ _ | .andn _ r _ _ | .shl _ r _ _ | .shr _ r _ _ | .sar _ r _ _
  | .rot _ r _ _ | .min _ r _ _ | .max _ r _ _ | .minu _ r _ _ | .maxu _ r _ _ | .clz _ r _ | .ctz _ r _ | .popc _ r _ | .mov _ r _
  | .addi _ r _ _ | .andi _ r _ _ | .ori _ r _ _ | .xori _ r _ _ | .shli _ r _ _ | .shri _ r _ _ | .sari _ r _ _ | .li _ r _
  | .lih _ r _ | .bext _ r _ _ _ | .bins _ r _ _ _ | .sel _ r _ _ _ | .pcnt _ r _ | .estat _ _ r | .movs _ r _ _ | .mstat _ r
  | .feat _ r _ | .tagx _ _ r _ => [r]
  | .addd _ d _ _ | .subd _ d _ _ | .adddi _ d _ _ | .shld _ d _ _ | .tagd _ d _ _ _ => halves d
  | .call .. | .callr .. => [1]
  | .spawn _ r _ => [r, r ||| 1]
  | .getc _ r _ => if r.getLsbD 0 then [r] else [r, r ||| 1]
  | .ld _ _ _ width _ data q => if q then [] else loadScalars width data
  | .lda _ _ _ _ width data q => if q then [] else loadScalars width data
  | .amoAdd _ _ _ r _ q | .amoAnd _ _ _ r _ q | .amoOr _ _ _ r _ q | .amoXor _ _ _ r _ q | .amoMin _ _ _ r _ q | .amoMax _ _ _ r _ q
  | .amoMaxu _ _ _ r _ q | .amoMinu _ _ _ r _ q | .amoPadd _ _ _ r _ _ q | .amocas _ _ _ r _ _ q => if q then [] else [r]
  | .amoXchg _ _ _ r _ q wide => if q then [] else if wide then [r, r ||| 1] else [r]
  | .amocasD _ _ _ r _ _ q => if q then [] else [r, r ||| 1]
  | .popW _ d _ kind | .popF _ d _ kind _ => if kind = 0 then [scalarOf d] else if kind = 1 then halves (BitVec.ofNat 4 (d.toNat / 2)) else []
  | _ => []

/-- The predicates that a syllable writes. -/
def predDests : Instr → List PNum
  | .cmp _ p _ _ _ | .cmpi _ p _ _ _ | .pand _ p _ _ | .por _ p _ _ | .pxor _ p _ _ | .pnot _ p _ | .pmov _ p _ | .pany _ p _
  | .pall _ p _ | .pset _ p _ | .popF _ _ _ _ p => [p]
  | .punpk .. => [1, 2, 3, 4, 5, 6, 7]
  | .vcmp _ _ _ p _ _ _ _ _ | .vicmp _ _ _ p _ _ _ _ _ => [p]
  | _ => []

/-- How many vector registers a syllable writes at order k. -/
def vectorDests (k : Nat) (i : Instr) : Nat :=
  match i with
  | .jset .. => 1
  | .unpk .. | .mdrain .. => ((shapeOf i).names.map (·.2)).foldl (· + ·) 0
  | _ => ((shapeOf i).dests.map (fun d => match d.2 with | .group => k + 1 | _ => 1)).foldl (· + ·) 0

/-- The oldest entry of a queue, when it is poppable (R132). In a handler the cycles of entries that the task's own
requests fill count on the stopped clock of the task. -/
def Ctx.poppable (c : Ctx) (k : QNum) : Option QEntry :=
  match (c.rq[k.toNat]'k.isLt).head? with
  | none => none
  | some e =>
    let ready : Bool := match c.parked with
      | none => decide (e.ready ≤ c.clk)
      | some p => if e.handler then decide (e.ready ≤ c.clk) else decide (e.ready ≤ p.c + 3 + c.clk)
    if e.owed = 0 ∧ ready then some e else none

/-- The results in flight that the issue of a syllable adds, in entries (R113); one that would not act adds none. -/
def Ctx.newEntries (c : Ctx) (k : Nat) (lgdef : BitVec 8) (i : Instr) : Nat :=
  let sh := shapeOf i
  let active := c.active (headIn i) (sh.mask.eval lgdef)
  let preds := ((predDests i).filter (· != 0)).length
  let all := ((scalarDests i).filter (· != 0)).length + preds
  if !c.acts i then 0
  else match i with
    | .popW _ _ rq kind => if kind = 2 then (match c.poppable rq with | some e => if e.lanes &&& c.guardLanes (headIn i) = 0 then 0 else 1 | none => 1) else all
    | .popF _ _ rq kind _ => (match c.poppable rq with
        | none => preds
        | some e => if kind = 2 then preds + (if e.lanes &&& c.guardLanes (headIn i) = 0 then 0 else 1) else all)
    | _ => all + (if active = 0 then 0 else vectorDests k i)

/-- The results that a bundle adds (R113). -/
def Ctx.bundleEntries (c : Ctx) (k : Nat) (lgdef : BitVec 8) (is : List Instr) : Nat :=
  (is.map (c.newEntries k lgdef)).foldl (· + ·) 0

/-- A floor holds a bundle back: it would leave more than 48 results in flight (R113), give a 33rd command (R115), or follow an MSPILL or
MFILL too soon (R123, R322). -/
def State.floored (s : State) (jo : Nat) (lgdef : BitVec 8) (is : List Instr) : Bool :=
  decide (48 < s.cur.inFlightAt s.cur.clk + s.cur.bundleEntries jo lgdef is) || s.fullOf is ||
    (is.any behindSpill && decide (s.cur.clk < s.cur.floor))

/-- The cycles that a bundle has still to serve of the floors, from a cycle of the clock on (R116). No result takes as long as 64 cycles. -/
def State.floorLeft (s : State) (jo : Nat) (lgdef : BitVec 8) (is : List Instr) (t : Nat) : Nat :=
  let n := s.cur.bundleEntries jo lgdef is
  max (((List.range 64).find? (fun j => decide (s.cur.inFlightAt (t + j) + n ≤ 48))).getD 64)
    (max (if s.fullOf is then (((s.cur.timed.map (·.start)).min?).getD 0 + 1) - t else 0)
      (if is.any behindSpill then s.cur.floor - t else 0))

/-- A bundle that REP heads has its REP state from its first repeat on (R244). -/
def State.openRep (s : State) (raw : List DWord) : State :=
  match s.cur.rep, raw with
  | none, w :: _ => (match decodeLoose w with
      | some (.rep ..) => s.withCur { s.cur with rep := some { word := w, j := 0 } }
      | _ => s)
  | _, _ => s

/-- The delay that the bundle at the program counter has to serve from its earliest cycle on: its stall count, its delays, with the
registers of its decision cycle, and what is left of its floors (R112, R116, R142); stepped gives the syllables of the repeat to
issue. -/
def State.serve (s : State) (stepped : Ctx → Nat → List DWord → List DWord) : Nat :=
  match s.fetch s.cur.pc with
  | .error _ => s.cur.delay.getD 0
  | .ok ws =>
    let st := if s.cur.delay.isSome then 0 else s.cur.stallOf ws
    let p := s.landTo (s.cur.clk + st)
    let jo := joOf p.cur.sys.jo
    let lgdef : BitVec 8 := p.cur.sys.lgdef.setWidth 8
    let is := instrsOf (stepped p.cur jo ws)
    let d := s.cur.delay.getD (st + p.delays jo lgdef is)
    d + (s.landTo (s.cur.clk + d)).floorLeft jo lgdef is (s.cur.clk + d)

/-! ## Bank cycles before the issue (R156) -/

/-- How many cycles before the last of its syllable each bank word is served: in a parity group that takes n cycles, word j of a bank in
cycle j while j < n, and the words that are rebuilt one in each cycle; all in the order in which the syllable names them (log entry
12). -/
def wordCycles (words : List Nat) : List (Nat × Nat) :=
  let ws := (distinct words.reverse).reverse
  let of (b : Nat) : List Nat := ws.filter (fun w => w % 32 == b)
  ((List.range 8).map (fun g =>
    let bs := (List.range 4).map (fun i => of (4 * g + i))
    let n := groupCycles (bs.map (·.length)) 1 512
    ((bs.map (fun l => (l.take n).zipIdx)).flatten ++ ((bs.map (fun l => l.drop n)).flatten).zipIdx).map (fun x => (x.1, n - 1 - x.2)))).flatten

/-- The pieces of a run of bytes that each lie in one bank word: a span of a word holds 16 bytes (R154). -/
def wordRuns (r : Nat × Nat) : List (Nat × Nat) :=
  ((List.range ((r.1 + r.2 + 15) / 16 - r.1 / 16)).map (fun i =>
    let lo := max r.1 (16 * (r.1 / 16 + i))
    (lo, min (r.1 + r.2) (16 * (r.1 / 16 + i + 1)) - lo))).filter (fun x => x.2 != 0)

/-- A syllable that loads. -/
def isLoad : Instr → Bool
  | .ldv .. | .ldvs .. | .ldq .. => true
  | _ => false

/-- The address of an L-slot syllable of several runs is poisoned: it has no access (R326). -/
def Ctx.spansPoisoned (c : Ctx) (i : Instr) : Bool :=
  (match spans c 0 i with | some (da, _, _) => c.dp da | none => false) ||
    (match i with | .ldvs _ _ _ st _ _ _ | .stvs _ _ _ st _ _ => c.sp st | _ => false)

/-- The words of a syllable whose bank cycles lie before the cycle after its issue: how long before the last each run of them is
served. -/
def State.earlyRuns (s : State) (lgdef : BitVec 8) (i : Instr) : List (Nat × Site × Nat × Nat) :=
  if !s.cur.acts i || s.cur.spansPoisoned i then []
  else match s.ownSpans (s.cur.active (headIn i) ((shapeOf i).mask.eval lgdef)) i with
    | none => []
    | some (site, a, runs) =>
      let cs := wordCycles ((runs.map (fun r => a.words r.1 r.2)).flatten)
      ((runs.map wordRuns).flatten).filterMap (fun r => match cs.find? (fun x => (a.words r.1 r.2).contains x.1) with
        | some x => if 3 < x.2 then some (x.2, site, r) else none
        | none => none)

/-- The bank cycles before cycle t, in which a bundle issues, take their ports, and a load reads in them (R156). What they have read for
an earlier bundle is gone. -/
def State.openBanks (s : State) (jo : Nat) (lgdef : BitVec 8) (is : List Instr) (t : Nat) : State :=
  let i := s.landTo t
  let at_ := t + i.floorLeft jo lgdef is t
  let xs := (is.map (fun x => (i.earlyRuns lgdef x).map (fun r => (isLoad x, r)))).flatten
  s.withCur (xs.foldl (fun c x =>
    c.addAccess (c.newAccess (max (c.clk + 1) (at_ + 4 - x.2.1)) x.2.2.1 (.peek [x.2.2.2] x.1))) { s.cur with early := [] })

/-- What a stop records of the next bundle: its delay d, and the REP syllable that heads it (R112, R244); nothing of a bundle that has still
to come from a peer. -/
def State.noteNext (s : State) (d : Nat) : State :=
  match s.fetch s.cur.pc with
  | .ok [] => s
  | .ok raw => (s.withCur { s.cur with delay := some d }).openRep raw
  | .error _ => s.withCur { s.cur with delay := some d }

/-! ## Traps of a syllable -/

/-- A trap whose TINFO is the syllable (R146). -/
def State.synTrap (s : State) (i : Instr) (k : Cause) : Trap :=
  { cause := k, info := s.issue.word.getD (encode i), addr := false, pos := s.issue.pos, cls := classOf i }

/-- A trap whose TINFO is a tagged address. -/
def State.addrTrap (s : State) (i : Instr) (a : DWord) (k : Cause) : Trap :=
  { cause := k, info := a, addr := true, pos := s.issue.pos, cls := classOf i }

/-- A trap with a TINFO of its own. -/
def State.infoTrap (s : State) (i : Instr) (k : Cause) (info : DWord) : Trap :=
  { cause := k, info := info, addr := false, pos := s.issue.pos, cls := classOf i }

/-- A trap when a condition holds. -/
def trapIf (b : Bool) (t : Trap) : List Trap := if b then [t] else []

/-- POISON_CONSUMED when a syllable consumes poison (R166). -/
def State.poisonIf (s : State) (i : Instr) (b : Bool) : List Trap := trapIf b (s.addrTrap i 0 .poisonConsumed)

/-- The traps of an address (R146, R151): FABRIC names the peer and the engine queue. -/
def State.locTraps (s : State) (i : Instr) (eq : Nat) (r : Loc × List Cause) : List Trap :=
  r.2.map (fun k => if k = .fabric then s.infoTrap i k (BitVec.ofNat 64 (r.1.peer * 2 ^ 8 + eq)) else s.addrTrap i r.1.addr k)

/-- The groups on which a syllable acts. -/
def State.groups (s : State) (i : Instr) : BitVec 8 := (shapeOf i).mask.eval s.issue.lgdef

/-- Whether a syllable acts: its guard holds for it, and it names a lane group (R230, R277). -/
def State.acts (s : State) (i : Instr) : Bool := s.cur.acts i && s.groups i != 0

/-- Whether the bundle at issue is the end bundle of the innermost loop (R266). -/
def Ctx.inEnd (c : Ctx) : Bool := match c.loops with | e :: _ => c.pc == e.stop | [] => false

/-- ILLEGAL_SYLLABLE for a use that depends on the context: loops (R265, R266), ERET outside handler mode (R268), HALT
without debugging (R269), an entry that the image does not have (R271), a coefficient above the order (R305), and CHK
without CHKM.D (R310). -/
def State.useFaults (s : State) : Instr → List Cause
  | .call .. | .callr .. => faultIf s.cur.inEnd .illegalSyllable
  | .loop .. | .loopr .. => faultIf (s.cur.inEnd || decide (6 ≤ s.cur.loops.length)) .illegalSyllable
  | .lbrk .. => faultIf s.cur.loops.isEmpty .illegalSyllable
  | .eret .. => faultIf (!s.cur.handling) .illegalSyllable
  | .halt .. => faultIf (!(s.partOf s.cur).debug) .illegalSyllable
  | .jget _ _ _ _ _ _ _ ci => faultIf (decide (s.issue.jo < ci.toNat)) .illegalSyllable
  | .jset _ _ _ _ _ ci => faultIf (decide (s.issue.jo < ci.toNat)) .illegalSyllable
  | .chk .. => faultIf (!s.cur.sys.chkm.getLsbD 1) .illegalSyllable
  | .exits _ _ entry => faultIf (match s.imageOf s.cur with
      | some i => decide (i.entries.length ≤ entry.toNat)
      | none => true) .illegalSyllable
  | _ => []

/-- The faults of a syllable at issue (R140): those of decoding, which a failed guard does not lift (R230); array state
without ARRAY (R106); the scoreboard (R137); and the syllable's own. -/
def State.faults (s : State) (i : Instr) (own : List Trap) : List Trap :=
  let sh := shapeOf i
  let k := s.issue.jo
  let decoding := (staticFaults i ++ s.useFaults i ++ s.cur.registerFaults k sh ++ s.cur.latchFaults k (s.groups i) sh).map (s.synTrap i)
  let board := if s.cur.sys.chkm.getLsbD 0 ∧ s.groups i ≠ 0 then
      (s.cur.scoreboard i k s.issue.lgdef (Config.freeWord s.fresh)).map (s.infoTrap i .stallShort) else []
  decoding ++ board ++ (if s.acts i then trapIf (sh.array && !s.cur.array) (s.synTrap i .access) ++ own else [])

/-- A syllable issues: the lowest of its faults is taken (R140), or its guard fails and it has no effect (R230), or it
has its effect. onTrap is what a trap of the syllable's own leaves besides. A bundle whose faults have been judged raises
none. -/
def State.issueWith (s : State) (i : Instr) (own : List Trap) (onTrap : Trap → State → State) (eff : State → State) :
    Host.Outcome State Fault Refusal :=
  match (if s.issue.passed then none else lowestTrap (s.faults i own)) with
  | some t => .next ((onTrap t s).takeTrap 0 t)
  | none => .next (if s.acts i then eff s else s)

/-- A syllable issues. -/
def State.issueOp (s : State) (i : Instr) (own : List Trap) (eff : State → State) : Host.Outcome State Fault Refusal :=
  s.issueWith i own (fun _ t => t) eff

/-- A V syllable issues: the sources that it reads load their latches (R129). -/
def State.issueV (s : State) (i : Instr) (own : List Trap) (eff : State → State) : Host.Outcome State Fault Refusal :=
  s.issueOp i own (fun t =>
    let r := eff t
    r.withCur { r.cur with latches := (t.cur.loadLatches t.issue.jo (t.groups i) (shapeOf i).srcs).latches })

/-! ## Result queues -/

/-- ACCESS when a result queue has no place left (R132). -/
def State.queueTraps (s : State) (i : Instr) (k : QNum) : List Trap :=
  trapIf (decide (4 ≤ (s.cur.rq[k.toNat]'k.isLt).length + (s.issue.opened.filter (· == k.toNat)).length)) (s.synTrap i .access)

/-- A place in a result queue for a request with parts replies to come, of the program or of one of its engine commands (R132). -/
def State.openEntry (s : State) (k : QNum) (req parts kind : Nat) (lanes : LaneMask) (engine : Bool) : State :=
  let e : QEntry := { request := req, owed := parts, ready := 0, handler := s.cur.handling, kind := kind, lanes := lanes,
                      value := 0, poison := 0, status := 0, engine := engine }
  { s with cur := { s.cur with rq := s.cur.rq.set k.toNat ((s.cur.rq[k.toNat]'k.isLt) ++ [e]) k.isLt },
           issue := { s.issue with opened := s.issue.opened ++ [k.toNat] } }

/-- A place for a request of the program. -/
def State.openQueue (s : State) (k : QNum) (req parts kind : Nat) (lanes : LaneMask) : State := s.openEntry k req parts kind lanes false

/-! ## Accesses and requests -/

/-- TSM bits set by the writes that issue now (R177): seen from the next cycle on. -/
def State.markTsm (s : State) (bits : List Nat) : State :=
  if bits.isEmpty then s else s.withCur (s.cur.push 1 (.tsm (bitsOf bits)))

/-- A request that leaves the cluster, to a slice or to the fabric (R159, R162, R171). -/
def State.send (s : State) (tile slot : Nat) (addr : DWord) (ask : Ask) (sink : Sink) (slice : Option Nat)
    (acquire strong : Bool) : State :=
  { s with
    requests := s.requests ++ [{ id := s.nextReq, uid := s.cur.uid, part := s.cur.part, swarm := s.cur.handle,
                                 source := s.cur.tile, tile := tile, slot := slot, addr := addr, ask := ask,
                                 sink := sink, slice := slice, acquire := acquire, stage := .queued,
                                 readyAt := s.cur.module, data := [], denied := false, status := 0, home := none,
                                 engine := none, bundle := s.cur.bundle, epoch := s.cur.epoch, strong := strong,
                                 at_ := s.cur.seq, shadow := [], skip := [] }]
    nextReq := s.nextReq + 1 }

/-- The code at an address is asked for at the peer where its page lives, a syllable at a time (R171, R229). -/
def State.askCode (s : State) (pc : DWord) : State :=
  let die := pc.toNat / 2 ^ 57 % 8
  let r := s.fetchFrom s.cur.part die (pc.toNat % 2 ^ 57) 8
  let o := pc.toNat % 2 ^ 57 + 8 * r.1.length
  if s.cur.fetching.isSome ∨ r.2 ≠ some .away then s
  else
    let t := s.send s.cur.tile s.cur.slot (globalPointer die o) (.load [⟨0, o, 8⟩]) .code none false false
    t.withCur { t.cur with fetching := some (globalPointer die o).toNat }

/-- The translation of the bundle that is fetched is kept (R162). -/
def State.keepCode (s : State) (n : Nat) : State :=
  s.keepRun s.cur.part (s.cur.pc.toNat / 2 ^ 57 % 8) (s.cur.pc.toNat % 2 ^ 57) (8 * n)

/-- The slices on which the context has a write outstanding, as TSM bits (R177). -/
def State.owing (s : State) : List Nat :=
  (s.requests.filter (fun r => r.uid == s.cur.uid && r.engine.isNone)).filterMap (fun r => r.slice) ++
  ((s.cur.unfinished s.cur.clk).filter (fun a => a.act.isWrite)).filterMap (fun a => match a.site with
    | .alloc tile _ _ => some (tsmClus (clusterOf tile))
    | _ => none)

/-- The request of a watch is not an access that DRAIN waits for. -/
def Ask.isWait : Ask → Bool
  | .wait .. => true
  | _ => false

/-- A request is an access of its context's program: no engine's, no watch and no fetch. -/
def Request.isAccess (r : Request) : Bool := r.uid != 0 && r.engine.isNone && !r.ask.isWait && r.sink != .code

/-- Every earlier access has performed and every reply owed to a result queue has arrived (R180). Engine commands do not count
(R184). -/
def State.quiet (s : State) : Bool :=
  (s.cur.unfinished s.cur.clk).isEmpty && !(s.requests.any (fun r => r.uid == s.cur.uid && r.isAccess)) &&
    s.cur.rq.toList.all (fun l => l.all (fun e => e.owed == 0 || e.engine))

/-- An entry of a result queue whose reply has not arrived, on the clock that counts for it. -/
def Ctx.awaits (c : Ctx) (e : QEntry) : Bool := e.owed != 0 || (e.handler == c.handling && decide (c.clk < e.ready))

/-- An access waits while the reply of an LDA is owed to a result queue (R178). -/
def State.acquiring (s : State) : Bool :=
  s.cur.rq.toList.any (fun l => l.any (fun e => s.cur.ldaOwed.contains e.request && s.cur.awaits e))

/-- An LDA owes its reply to a result queue (R178). -/
def State.oweLda (s : State) (req : Nat) : State := s.withCur { s.cur with ldaOwed := s.cur.ldaOwed ++ [req] }

/-- A syllable that is an access: it waits for an LDA reply (R178), and then has its effect. -/
def State.issueAccess (s : State) (i : Instr) (own : List Trap) (eff : State → State) :
    Host.Outcome State Fault Refusal :=
  s.issueOp i own (fun t => t.holdUntil false (!t.acquiring) eff)

/-! ## Releases -/

/-- The TSM bits of a release on a location (R175, R177): space 3 is the issuer's tile, space 5 the domain. -/
def Loc.bits (l : Loc) (scope : Nat) : List Nat :=
  match l.space with
  | 0 => instanceBits scope l.die 0 true
  | 3 => []
  | 5 => instanceBits 5 0 0 false
  | _ => instanceBits scope (l.cluster / 16) l.cluster false

/-- The TSM bits of a FENCE or barrier of the issuing tile. -/
def State.fenceBits (s : State) (scope : Nat) : List Nat :=
  instanceBits scope (dieOf s.cur.tile) (clusterOf s.cur.tile) false

/-- A denial recorded in a slice that a release waits for, as PAGE_DENIED (R167). -/
def State.deniedTraps (s : State) (i : Instr) (bits : List Nat) : List Trap :=
  match s.cur.denied.find? (fun d => bits.contains d.2) with
  | some d => [s.addrTrap i d.1 .pageDenied]
  | none => []

/-- The denials of a set of slices have been raised. -/
def clearDenied (bits : List Nat) (t : Trap) (s : State) : State :=
  if t.cause = .pageDenied then s.withCur { s.cur with denied := s.cur.denied.filter (fun d => !bits.contains d.2) } else s

/-- Every slice: what DRAIN and EXIT wait for. -/
def allSlices : List Nat := List.range 41

/-- A release can perform: no write outstanding on its slices, and its fixed part has elapsed since the bundle's earliest
issue cycle (R177, R179). -/
def State.released (s : State) (scope : Nat) (bits : List Nat) : Bool :=
  s.owing.all (fun b => !bits.contains b) && decide (s.cur.since + fixedPart scope ≤ s.cur.clk)

/-- The release clears the bits that it waited on (R177); no access of the context that came before it performs after one that follows
(R173). -/
def State.clearTsm (s : State) (bits : List Nat) : State :=
  s.withCur { s.cur with sys := { s.cur.sys with tsm := s.cur.sys.tsm &&& ~~~(bitsOf bits) }, epoch := s.cur.epoch + 1 }

end Sys2Proof.Machine
end

