-- ==== Sys2Proof/Machine/Hive.lean ====
section
/-!
DEFINITION. The Hive (05_dispatcher R95 to R102): launch records and their checks, event records and their queues (R79,
R109, R110), and the budgets of devices (04_partitions_qos R90 to R94).
-/
namespace Sys2Proof.Machine
open Sys2Proof

/-! ## Resources of a partition -/

/-- Bytes lo to lo + n - 1 of a record, as a number. -/
def recField (r : BitVec 512) (lo n : Nat) : Nat := r.toNat / 2 ^ (8 * lo) % 2 ^ (8 * n)

/-- The fields of a launch record (R95). -/
def Launch.image (l : Launch) : DWord := BitVec.ofNat 64 (recField l.record 0 8)
def Launch.entry (l : Launch) : Nat := recField l.record 8 2
def Launch.tasks (l : Launch) : Nat := recField l.record 12 2 + 1
def Launch.arraySet (l : Launch) : Bool := recField l.record 14 1 % 2 == 1
def Launch.noEvent (l : Launch) : Bool := recField l.record 14 1 / 2 % 2 == 1
def Launch.die (l : Launch) : Nat := recField l.record 15 1
def Launch.args (l : Launch) : DWord := BitVec.ofNat 64 (recField l.record 16 8)
def Launch.cflag (l : Launch) : DWord := BitVec.ofNat 64 (recField l.record 32 8)
def Launch.prereqs (l : Launch) : List Nat := [recField l.record 40 4, recField l.record 44 4, recField l.record 48 4, recField l.record 52 4]
def Launch.param (l : Launch) : Word := BitVec.ofNat 32 (recField l.record 58 4)

/-- The wings of a partition, in ascending order. -/
def Partition.wingList (p : Partition) : List Nat := (List.range 32).filter (fun w => p.wings.getLsbD w)

/-- The partition's clusters, on one die if DIE names one (R97). -/
def Partition.clusters (p : Partition) (die : Nat) : List Nat :=
  (List.range 128).filter (fun c => p.wings.getLsbD (c / 4) && (die == 0xFF || c / 16 == die))

/-- A partition whose dispatchers run (R82). -/
def Partition.up (p : Partition) : Bool := p.state == 2 || p.state == 4

/-- The partition's tiles that its dispatchers use and that are not fused off, on one die if DIE names one (R86 step 6, R139). That tiles
which are fused off do not count in the T of R92 either is the model's choice (DESIGN CHOICE, log entry 29). -/
def State.tilesOf (s : State) (p : Partition) (die : Nat) : List Nat :=
  (List.range 1024).filter (fun t => p.tiled.getLsbD (wingOf t) && (die == 0xFF || dieOf t == die) && !s.fused.getLsbD t)

/-- The tiles that a launch of an image may use: under DET, those that are not degraded (R97, R104). -/
def State.usable (s : State) (p : Partition) (die : Nat) (det : Bool) : List Nat :=
  (s.tilesOf p die).filter (fun t => !det || !s.degraded.getLsbD t)

/-- The image of a handle. -/
def Partition.imageOf (p : Partition) (h : DWord) : Option ImageRec := p.images.find? (fun i => i.handle == h)

/-- The Hive entries held in reservations (R99). -/
def State.reserved (s : State) (p : Partition) : Nat :=
  ((s.ctxs.filter (fun c => c.part == p.pnum)).map (·.reserve)).foldl (· + ·) 0

/-- The free Hive entries (R98). -/
def State.hiveFree (s : State) (p : Partition) : Nat := Config.hiveEntries - p.hive.length - s.reserved p

/-- A launch with a task that has not ended. -/
def Launch.live (l : Launch) : Bool := decide (l.ended < l.tasks)

/-- A device with a pending or running launch (R91, R100): one whose completion has not been posted. -/
def Partition.hasLaunch (p : Partition) (vd : Nat) : Bool := p.hive.any (fun l => l.device == vd)

/-- A device with a pending or running task (R93). -/
def Partition.busy (p : Partition) (vd : Nat) : Bool := p.hive.any (fun l => l.device == vd && l.live)

/-- The device of a number. -/
def Partition.dev (p : Partition) (vd : Nat) : Option Device := p.devices.find? (fun d => d.vd == vd)

/-! ## Event records -/

/-- An event record (R110). -/
def eventRecord (handle kind code vd part count info : Nat) : BitVec 128 :=
  BitVec.ofNat 128 (handle % 2 ^ 32 + kind % 2 ^ 8 * 2 ^ 32 + code % 2 ^ 8 * 2 ^ 40 + vd % 2 ^ 6 * 2 ^ 48 +
    part % 2 ^ 3 * 2 ^ 56 + count % 2 ^ 32 * 2 ^ 64 + info % 2 ^ 32 * 2 ^ 96)

/-- A core's record replaced. -/
def State.mapCore (s : State) (w : Nat) (f : Core → Core) : State :=
  if h : w < 32 then { s with cores := s.cores.set w (f (s.cores[w]'h)) h } else s

/-- A control core. -/
def State.coreN (s : State) (w : Nat) : Core := if h : w < 32 then s.cores[w] else s.cores[0]

/-- A record goes to a core's event queue, or is kept while the queue is full (R79). -/
def State.post (s : State) (core : Nat) (r : BitVec 128) : State :=
  s.mapCore core (fun c =>
    if c.kept.isEmpty ∧ c.queue.length < Config.coreQueueRecords then { c with queue := c.queue ++ [r] }
    else { c with kept := c.kept ++ [r] })

/-- The control core of the partition's lowest-numbered wing (R109). -/
def Partition.home (p : Partition) : Nat := p.wingList.headD 0

/-- A record that is not about a launch (R109). -/
def State.postHome (s : State) (p : Partition) (kind code vd count info : Nat) : State :=
  s.post p.home (eventRecord 0 kind code vd p.pnum count info)

/-! ## Budgets -/

/-- A lender: an idle device with a positive balance (R93). -/
def Partition.lends (p : Partition) (d : Device) : Bool := decide (0 < d.balance) && !p.busy d.vd

/-- Whether some idle device lends. -/
def Partition.hasLender (p : Partition) : Bool := p.devices.any p.lends

/-- A debt grows: the newest when it is to the same lender (R93). -/
def addDebt (l : Nat) (a : Nat) : List Debt → List Debt
  | [] => [{ lender := l, amount := a }]
  | [d] => if d.lender = l then [{ d with amount := d.amount + a }] else [d, { lender := l, amount := a }]
  | d :: r => d :: addDebt l a r

/-- A device replaced. -/
def mapDev (vd : Nat) (f : Device → Device) (l : List Device) : List Device := l.map (fun d => if d.vd = vd then f d else d)

/-- What a lender with a balance moves to a borrower whose balance is zero or below: whole tokens, one at a time, until the borrower's
balance is positive or the lender's is zero; the last token is what the lender has left (R93; log entry 29). -/
def tokensMoved (lender borrower : Nat) : Nat := min lender ((borrower / Config.cyclesPerUs + 1) * Config.cyclesPerUs)

/-- A device borrows from the lenders of a list, in order, while its balance is zero or below (R93). -/
def Partition.borrow (p : Partition) (vd : Nat) : List Nat → Partition
  | [] => p
  | l :: r =>
    match p.dev vd, p.dev l with
    | some b, some d =>
      if 0 < b.balance ∨ l = vd ∨ !p.lends d then p.borrow vd r
      else
        let a := tokensMoved d.balance.toNat (-b.balance).toNat
        let ds := mapDev l (fun x => { x with balance := x.balance - a }) p.devices
        let es := mapDev vd (fun x => { x with balance := x.balance + a, debts := addDebt l a x.debts }) ds
        Partition.borrow { p with devices := es } vd r
    | _, _ => p.borrow vd r

/-- Devices in ascending number. -/
def insertDev (d : Device) : List Device → List Device
  | [] => [d]
  | e :: l => if d.vd ≤ e.vd then d :: e :: l else e :: insertDev d l

/-- A device put in the order of descending balances; ties in ascending number (R103). -/
def insertBalance (d : Device) : List Device → List Device
  | [] => [d]
  | e :: l => if e.balance < d.balance ∨ (e.balance = d.balance ∧ d.vd < e.vd) then d :: e :: l else e :: insertBalance d l

/-- Devices in the order of the dispatcher's selection (R103). -/
def Partition.selection (p : Partition) : List Device := p.devices.foldr insertBalance []

/-- Idle devices lend (R93): the devices with pending work whose balance is zero or below borrow in the order of the dispatcher's
selection, from lenders in ascending number. -/
def Partition.lend (p : Partition) : Partition :=
  if !p.hasLender then p
  else
    let lenders := (p.devices.foldr insertDev []).map (·.vd)
    (p.selection.filter (fun d => decide (d.balance ≤ 0) && p.busy d.vd)).foldl (fun q d => q.borrow d.vd lenders) p

/-- The charge of cycles of a tile's issue to a device, and what is lent then (R92, R93). -/
def Partition.charge (p : Partition) (vd cycles : Nat) : Partition :=
  { p with devices := mapDev vd (fun x => { x with balance := x.balance - cycles }) p.devices }.lend

/-- The charge of the issuing context (R92). -/
def State.charge (s : State) (cycles : Nat) : State :=
  if cycles = 0 then s else s.mapPart s.cur.part (fun p => p.charge s.cur.device cycles)

/-! ## Submission (R95 to R99) -/

/-- A group descriptor (R96): GIDX, reserved bits, FIRST, COUNT, STRIDE. -/
structure GroupDesc where
  gidx   : Nat
  rsvd   : Nat
  first  : Nat
  count  : Nat
  stride : Nat
  deriving DecidableEq, Repr

/-- The descriptors of a record: how many, none where their number is out of range, and the address of the first. -/
def descsOf (r : BitVec 512) : Nat × DWord :=
  (if 1024 < recField r 56 2 then 0 else recField r 56 2, BitVec.ofNat 64 (recField r 24 8))

/-- A group descriptor of global memory (R96); none when it cannot be read. -/
def State.descRead (s : State) (who part : Nat) (p : DWord) : Reading := s.readVia who part (p.toNat / 2 ^ 57 % 8) (p.toNat % 2 ^ 57) 16

/-- The descriptors of a record that have still to come from a peer (R171). -/
def State.descsAway (s : State) (who part : Nat) (r : BitVec 512) : List DWord :=
  let d := descsOf r
  ((List.range d.1).map (fun i => d.2 + BitVec.ofNat 64 (16 * i))).filter (fun p => s.descRead who part p == .away)

/-- Those descriptors are asked for. -/
def State.askDescs (s : State) (who part : Nat) (r : BitVec 512) : State :=
  (s.descsAway who part r).foldl (fun t p => t.askVia who part (p.toNat / 2 ^ 57 % 8) (p.toNat % 2 ^ 57) 16) s

/-- The group descriptors from an address on; none when one cannot be read. -/
def State.groupDescs (s : State) (who part : Nat) (p : DWord) : Nat → Option (List GroupDesc)
  | 0 => some []
  | n + 1 =>
    match s.descRead who part p, s.groupDescs who part (p + 16) n with
    | .got x, some l => some ({ gidx := x % 2 ^ 16, rsvd := x / 2 ^ 16 % 2 ^ 16, first := x / 2 ^ 32 % 2 ^ 32,
                                count := x / 2 ^ 64 % 2 ^ 32, stride := x / 2 ^ 96 % 2 ^ 32 } :: l)
    | _, _ => none

/-- The descriptor is in range for n tasks (R96). -/
def GroupDesc.ok (d : GroupDesc) (n : Nat) : Bool :=
  d.rsvd == 0 && decide (1 ≤ d.count) && decide (1 ≤ d.stride) && decide (d.first + (d.count - 1) * d.stride < n)

/-- Whether a descriptor names a task. -/
def GroupDesc.has (d : GroupDesc) (t : Nat) : Bool :=
  decide (d.first ≤ t) && (t - d.first) % d.stride == 0 && decide ((t - d.first) / d.stride < d.count)

/-- The number of groups of a task (R97 field 3). -/
def groupsOfTask (ds : List GroupDesc) (groups t : Nat) : Nat :=
  ((List.range groups).filter (fun g => ds.any (fun d => d.gidx == g && d.has t))).length

/-- The task indices of a group of a gang. -/
def groupTasks (ds : List GroupDesc) (g n : Nat) : BitVec 1024 :=
  BitVec.ofNat 1024 (laneMaskOf (fun t => ds.any (fun d => d.gidx == g && d.has t)) (min n 1024))

/-- The record fields that fail step 1 of R97, by byte offset. parent is the device of the spawning task; ds are the descriptors, of
which none is read when NGDESC is out of range. -/
def badFields (p : Partition) (r : BitVec 512) (parent : Option Nat) (ds : Option (List GroupDesc)) :
    List Nat :=
  let f := recField r
  let img := p.imageOf (BitVec.ofNat 64 (f 0 8))
  let cflag := f 32 8
  let bad (b : Bool) (k : Nat) : List Nat := if b then [k] else []
  bad (match img with | some i => decide (i.entries.length ≤ f 8 2) | none => false) 8 ++
  bad (decide (64 ≤ f 10 1) || (match parent with | some v => f 10 1 != v | none => false)) 10 ++
  bad (decide (8 ≤ f 11 1)) 11 ++
  bad (decide (4 ≤ f 14 1)) 14 ++
  bad (f 15 1 != 0xFF && (p.clusters (f 15 1)).isEmpty) 15 ++
  bad (match ds with
    | none => true
    | some l => (f 56 2 == 0 && f 24 8 != 0) || f 24 8 % 16 != 0 || l.any (fun d => !d.ok (f 12 2 + 1)) ||
        (match img with
          | some i => decide (f 56 2 ≤ 1024) && (l.any (fun d => decide (i.groups ≤ d.gidx)) ||
              (List.range i.groups).any (fun g => !l.any (fun d => d.gidx == g)))
          | none => false)) 24 ++
  bad (cflag != 0 && (decide (3 ≤ cflag / 2 ^ 60) || cflag % 4 != 0 || (cflag / 2 ^ 60 != 0 && parent.isNone))) 32 ++
  bad (decide (1024 < f 56 2)) 56 ++
  bad (f 62 2 != 0) 62

/-- The first field of step 5 of R97 that fails, with the requested amount and the limit. -/
def State.lres (s : State) (p : Partition) (i : ImageRec) (n die : Nat) (ds : List GroupDesc) : Option (Nat × Nat × Nat) :=
  let gang := decide (0 < i.groups)
  let k := max 1 (min 8 (Config.scratchpadBytes / max 1 i.scratch))
  let need := (n + k - 1) / k
  let have_ := (p.clusters die).length
  let most := (List.range n).foldl (fun a t => max a (groupsOfTask ds i.groups t)) 0
  let tiles := (s.usable p die i.det).length
  if i.checked ∧ i.regs = 64 then some (1, 128, 64)
  else if gang ∧ have_ < need then some (2, need, have_)
  else if 4 < most then some (3, most, 4)
  else if gang ∧ tiles < n then some (4, n, tiles)
  else if i.det ∧ tiles = 0 then some (4, 1, 0)
  else if gang ∧ 4096 < n * i.reserve + 1 then some (5, n * i.reserve + 1, 4096)
  else none

/-- The handle after a handle: ascending from 1, skipping 0 (R98). -/
def nextHandleOf (h : Nat) : Nat := if (h + 1) % 2 ^ 32 = 0 then 1 else (h + 1) % 2 ^ 32

/-- What a submission answers: status, field and handle (R78). -/
structure Answer where
  status : Nat
  field  : Nat
  handle : Nat
  deriving DecidableEq, Repr

/-- The translations of the descriptors are kept (R162). -/
def State.keepDescs (s : State) (part : Nat) (r : BitVec 512) : State :=
  let d := descsOf r
  (List.range d.1).foldl (fun t i => let p := d.2 + BitVec.ofNat 64 (16 * i)
    t.keepRun part (p.toNat / 2 ^ 57 % 8) (p.toNat % 2 ^ 57) 16) s

/-- A submission of a record to a partition's dispatcher (R97 to R99). core is the launching control core; parent, for
SPAWN, the device, swarm, cluster and uid of the spawning task, which is the context in issue. -/
def State.submit (s0 : State) (part core : Nat) (parent : Option (Nat × Nat × Nat × Nat)) (r : BitVec 512) : State × Answer :=
  let f := recField r
  let n := f 12 2 + 1
  let who := match parent with | some x => whoOf x.2.2.2 | none => core
  let ds := s0.groupDescs who part (descsOf r).2 (descsOf r).1
  let s := (s0.keepDescs part r).useFar who part
  let p := s.partN part
  match badFields p r (parent.map (·.1)) ds with
  | k :: _ => (s, ⟨3, k, 0⟩)
  | [] =>
    match p.imageOf (BitVec.ofNat 64 (f 0 8)) with
    | none => (s, ⟨4, 0, 0⟩)
    | some i =>
      match p.dev (f 10 1) with
      | none => (s, ⟨5, 0, 0⟩)
      | some dv =>
        if dv.priomax < f 11 1 then (s, ⟨3, 11, 0⟩)
        else match s.lres p i n (f 15 1) (ds.getD []) with
          | some (k, req, lim) => (s.postHome p 3 k (f 10 1) req lim, ⟨1, k, 0⟩)
          | none =>
            let own := parent.isSome && decide (0 < s.cur.reserve)
            if !own && s.hiveFree p == 0 then (s, ⟨2, 0, 0⟩)
            else
              let s1 := if own then s.withCur { s.cur with reserve := s.cur.reserve - 1 } else s
              let l : Launch :=
                { handle := p.nextHandle, record := r, device := f 10 1, prio := f 11 1, next := 0, ended := 0, faulted := 0,
                  fault := none, core := core, byTask := parent.map (·.2),
                  groups := (List.range i.groups).map (fun g => (g, groupTasks (ds.getD []) g n)),
                  gang := decide (0 < i.groups), placed := false, barDone := [] }
              (s1.mapPart part (fun q => { q with hive := q.hive ++ [l], nextHandle := nextHandleOf q.nextHandle }),
                ⟨0, 0, p.nextHandle⟩)

/-! ## The state at the start of a task (R105, R108) -/

/-- A space-1 pointer into allocation 0 of a tile (R105, R149). -/
def stackPointer (tile off : Nat) : DWord :=
  BitVec.ofNat 64 (2 ^ 60 + 0x7F * 2 ^ 53 + tile % 8 * 2 ^ 45 + off)

/-- The scalars of R105: d1 = ARGS, s4 the task index, s5 the number of tasks, s6 = PARAM, d15 the top of the stack. -/
def startScalars (args : DWord) (task tasks : Nat) (param : Word) (top : DWord) : Vector SReg 32 :=
  Vector.ofFn (fun i =>
    { value := match i.val with
        | 2 => args.extractLsb' 0 32
        | 3 => args.extractLsb' 32 32
        | 4 => BitVec.ofNat 32 task
        | 5 => BitVec.ofNat 32 tasks
        | 6 => param
        | 30 => top.extractLsb' 0 32
        | 31 => top.extractLsb' 32 32
        | _ => 0
      poison := false })

/-- The registers, queues and loop stack that the dispatcher sets before the first bundle of an entry (R105). array
keeps what a successor keeps of the array state, quires its lane quires (R108). -/
def Ctx.begin (c : Ctx) (array quires : Bool) (args : DWord) (tasks : Nat) (param : Word) : Ctx :=
  let stack := ((c.alloc 0).map (fun a => a.size * 64)).getD 0
  { c with
    sregs := startScalars args (c.sys.taskid.toNat % 2 ^ 16) tasks param (stackPointer c.tile stack)
    preds := (Vector.replicate 8 0).set 0 (BitVec.allOnes 128)
    vregs := Vector.replicate 64 VReg.zero
    quires := if quires then c.quires else []
    accs := if array then c.accs else []
    weights := if array then c.weights else []
    stage0 := Vector.replicate 32 (0, false), stage1 := Vector.replicate 32 (0, false)
    sys := { SysRegs.zero with slim := stackPointer c.tile 0, chkm := if c.checked then 2 else 0,
                               mstat := if array then c.sys.mstat else 0, grps := c.sys.grps, taskid := c.sys.taskid,
                               swarmid := c.sys.swarmid }
    latches := [], loops := [], rep := none, parked := none, delay := none, flight := [], accesses := [],
    rq := Vector.replicate 4 [], late := [], wait := none, waiting := [], denied := [], ldaOwed := [], failures := [],
    boundary := false }

/-- What goes on of the accesses of an entry that ends: the writes of its last bundle, of which no value is taken any more, and what engines and
arrivals do in the tile (R108, R155). -/
def Access.outlives (a : Access) : Option Access :=
  match a.act with
  | .atomic atoms _ => some { a with act := .atomic atoms .discard }
  | .load .. | .reduce _ | .peek .. => none
  | _ => some a

/-- The successor at an entry of the image, three cycles on (R108, R271). The commands of the last bundle are its own. -/
def State.successor (s : State) (entry : Nat) (keepq : Bool) : State :=
  let c := s.cur
  match s.imageOf c, s.launchOf c with
  | some i, some l =>
    let d := c.begin true keepq l.args l.tasks l.param
    { s with cur := { d.issued with entry := entry, pc := i.entries.getD entry 0, earliest := c.clk + 3,
                                    accesses := c.accesses.filterMap Access.outlives, waiting := c.waiting },
             issue := { s.issue with ended := true } }
  | _, _ => s.endTask none

end Sys2Proof.Machine
end

