-- ==== Sys2Proof/Machine/Scalar.lean ====
section
/-!
DEFINITION. The S class: scalar arithmetic, compares, pairs and tagged pointers (12_isa_scalar_control R251 to R259).
-/
namespace Sys2Proof.Machine
open Sys2Proof

/-! ## Shared operations -/

/-- A scalar result from two scalars (R251, R252). -/
def State.alu2 (s : State) (i : Instr) (rd ra rb : SRegNo) (lat : Nat) (f : Word → Word → Word) :
    Host.Outcome State Fault Refusal :=
  s.issueOp i [] (fun t => t.withCur (t.cur.pushS rd (f (t.cur.s ra) (t.cur.s rb)) (t.cur.sp ra || t.cur.sp rb) lat))

/-- A scalar result from one scalar (R251, R254). -/
def State.alu1 (s : State) (i : Instr) (rd ra : SRegNo) (f : Word → Word) : Host.Outcome State Fault Refusal :=
  s.issueOp i [] (fun t => t.withCur (t.cur.pushS rd (f (t.cur.s ra)) (t.cur.sp ra) 1))

/-- The 32-bit immediate of a syllable: that of an EXT prefix, or its own, sign-extended (R235, R245). -/
def State.imm32 (s : State) (imm : BitVec 24) : Word := s.issue.ext.getD (imm.signExtend 32)

/-- A predicate result in every lane (R257). -/
def State.testP (s : State) (i : Instr) (pd : PNum) (poison value : Bool) : Host.Outcome State Fault Refusal :=
  s.issueOp i (s.poisonIf i poison) (fun t =>
    t.withCur (t.cur.pushP pd (BitVec.allOnes 128) (if value then BitVec.allOnes 128 else 0) 1))

/-- A pair result from two pairs (R251, R258). -/
def State.pair2 (s : State) (i : Instr) (dd da db : DNum) (f : DWord → DWord → DWord) :
    Host.Outcome State Fault Refusal :=
  s.issueOp i [] (fun t => t.withCur (t.cur.pushD dd (f (t.cur.d da) (t.cur.d db)) (t.cur.dp da || t.cur.dp db) 2))

/-- Truncated division (R253). -/
def divS (a b : Word) : Word := if b = 0 then 0xFFFF_FFFF else BitVec.ofInt 32 (a.toInt.tdiv b.toInt)
def divU (a b : Word) : Word := if b = 0 then 0xFFFF_FFFF else BitVec.ofNat 32 (a.toNat / b.toNat)
/-- Remainders (R253). -/
def remS (a b : Word) : Word := if b = 0 then a else BitVec.ofInt 32 (a.toInt.tmod b.toInt)
def remU (a b : Word) : Word := if b = 0 then a else BitVec.ofNat 32 (a.toNat % b.toNat)

/-- Counts of leading zeros, trailing zeros and ones (R254). -/
def clz32 (x : Word) : Nat := if x = 0 then 32 else 31 - x.toNat.log2
def ctz32 (x : Word) : Nat := ((List.range 32).find? (fun k => x.getLsbD k)).getD 32
def popc32 (x : Word) : Nat := ((List.range 32).filter (fun k => x.getLsbD k)).length

/-- The tests of R233; a reserved code never issues. -/
def condHolds (cond : Cond) (a b : Word) : Bool :=
  match cond.toNat with
  | 0x0 => a == b
  | 0x1 => a != b
  | 0x2 => decide (a.toInt < b.toInt)
  | 0x3 => decide (b.toInt ≤ a.toInt)
  | 0x4 => decide (a.toInt ≤ b.toInt)
  | 0x5 => decide (b.toInt < a.toInt)
  | 0x6 => decide (a.toNat < b.toNat)
  | 0x7 => decide (b.toNat ≤ a.toNat)
  | 0x8 => decide (a.toNat ≤ b.toNat)
  | 0x9 => decide (b.toNat < a.toNat)
  | _ => false

/-- The bits that FLD selects: the lowest, and how many (R235). -/
def tagField (fld : BitVec 3) : Nat × Nat :=
  match fld.toNat with
  | 0 => (60, 4)
  | 1 => (53, 7)
  | 2 => (48, 5)
  | 3 => (45, 3)
  | 4 => (44, 1)
  | 5 => (57, 3)
  | 6 => (52, 8)
  | _ => (0, 0)

/-- A double-word with a field replaced (R259). -/
def insertField (x : DWord) (lo w : Nat) (v : Word) : DWord :=
  let m : DWord := BitVec.ofNat 64 ((2 ^ w - 1) * 2 ^ lo)
  blend x m (BitVec.ofNat 64 (v.toNat % 2 ^ w * 2 ^ lo))

/-! ## Arithmetic and logic (R252, R253) -/

/-- ADD. R252. -/
def execAdd (h : Head) (rd ra rb : SRegNo) (s : State) : Host.Outcome State Fault Refusal :=
  s.alu2 (.add h rd ra rb) rd ra rb 1 (fun a b => a + b)

/-- SUB. R252. -/
def execSub (h : Head) (rd ra rb : SRegNo) (s : State) : Host.Outcome State Fault Refusal :=
  s.alu2 (.sub h rd ra rb) rd ra rb 1 (fun a b => a - b)

/-- MUL: the low 32 bits of the product. R252. -/
def execMul (h : Head) (rd ra rb : SRegNo) (s : State) : Host.Outcome State Fault Refusal :=
  s.alu2 (.mul h rd ra rb) rd ra rb 3 (fun a b => a * b)

/-- MULH: bits 63:32 of the signed product. R252. -/
def execMulh (h : Head) (rd ra rb : SRegNo) (s : State) : Host.Outcome State Fault Refusal :=
  s.alu2 (.mulh h rd ra rb) rd ra rb 3 (fun a b => BitVec.ofInt 32 (a.toInt * b.toInt / 2 ^ 32))

/-- MULHU: bits 63:32 of the unsigned product. R252. -/
def execMulhu (h : Head) (rd ra rb : SRegNo) (s : State) : Host.Outcome State Fault Refusal :=
  s.alu2 (.mulhu h rd ra rb) rd ra rb 3 (fun a b => BitVec.ofNat 32 (a.toNat * b.toNat / 2 ^ 32))

/-- DIV. R252. -/
def execDiv (h : Head) (rd ra rb : SRegNo) (s : State) : Host.Outcome State Fault Refusal :=
  s.alu2 (.div h rd ra rb) rd ra rb 18 (fun a b => divS a b)

/-- DIVU. R252. -/
def execDivu (h : Head) (rd ra rb : SRegNo) (s : State) : Host.Outcome State Fault Refusal :=
  s.alu2 (.divu h rd ra rb) rd ra rb 18 (fun a b => divU a b)

/-- REM. R252. -/
def execRem (h : Head) (rd ra rb : SRegNo) (s : State) : Host.Outcome State Fault Refusal :=
  s.alu2 (.rem h rd ra rb) rd ra rb 18 (fun a b => remS a b)

/-- REMU. R252. -/
def execRemu (h : Head) (rd ra rb : SRegNo) (s : State) : Host.Outcome State Fault Refusal :=
  s.alu2 (.remu h rd ra rb) rd ra rb 18 (fun a b => remU a b)

/-- AND. R252. -/
def execAnd (h : Head) (rd ra rb : SRegNo) (s : State) : Host.Outcome State Fault Refusal :=
  s.alu2 (.and h rd ra rb) rd ra rb 1 (fun a b => a &&& b)

/-- OR. R252. -/
def execOr (h : Head) (rd ra rb : SRegNo) (s : State) : Host.Outcome State Fault Refusal :=
  s.alu2 (.or h rd ra rb) rd ra rb 1 (fun a b => a ||| b)

/-- XOR. R252. -/
def execXor (h : Head) (rd ra rb : SRegNo) (s : State) : Host.Outcome State Fault Refusal :=
  s.alu2 (.xor h rd ra rb) rd ra rb 1 (fun a b => a ^^^ b)

/-- ANDN. R252. -/
def execAndn (h : Head) (rd ra rb : SRegNo) (s : State) : Host.Outcome State Fault Refusal :=
  s.alu2 (.andn h rd ra rb) rd ra rb 1 (fun a b => a &&& ~~~b)

/-- SHL. R252. -/
def execShl (h : Head) (rd ra rb : SRegNo) (s : State) : Host.Outcome State Fault Refusal :=
  s.alu2 (.shl h rd ra rb) rd ra rb 1 (fun a b => a <<< (b.toNat % 32))

/-- SHR. R252. -/
def execShr (h : Head) (rd ra rb : SRegNo) (s : State) : Host.Outcome State Fault Refusal :=
  s.alu2 (.shr h rd ra rb) rd ra rb 1 (fun a b => a >>> (b.toNat % 32))

/-- SAR. R252. -/
def execSar (h : Head) (rd ra rb : SRegNo) (s : State) : Host.Outcome State Fault Refusal :=
  s.alu2 (.sar h rd ra rb) rd ra rb 1 (fun a b => a.sshiftRight (b.toNat % 32))

/-- ROT: rotate left. R252. -/
def execRot (h : Head) (rd ra rb : SRegNo) (s : State) : Host.Outcome State Fault Refusal :=
  s.alu2 (.rot h rd ra rb) rd ra rb 1 (fun a b => a.rotateLeft (b.toNat % 32))

/-- MIN, signed. R252. -/
def execMin (h : Head) (rd ra rb : SRegNo) (s : State) : Host.Outcome State Fault Refusal :=
  s.alu2 (.min h rd ra rb) rd ra rb 1 (fun a b => if a.toInt ≤ b.toInt then a else b)

/-- MAX, signed. R252. -/
def execMax (h : Head) (rd ra rb : SRegNo) (s : State) : Host.Outcome State Fault Refusal :=
  s.alu2 (.max h rd ra rb) rd ra rb 1 (fun a b => if a.toInt ≤ b.toInt then b else a)

/-- MINU. R252. -/
def execMinu (h : Head) (rd ra rb : SRegNo) (s : State) : Host.Outcome State Fault Refusal :=
  s.alu2 (.minu h rd ra rb) rd ra rb 1 (fun a b => if a.toNat ≤ b.toNat then a else b)

/-- MAXU. R252. -/
def execMaxu (h : Head) (rd ra rb : SRegNo) (s : State) : Host.Outcome State Fault Refusal :=
  s.alu2 (.maxu h rd ra rb) rd ra rb 1 (fun a b => if a.toNat ≤ b.toNat then b else a)

/-! ## Unary and immediate forms (R254, R255) -/

/-- CLZ. R254. -/
def execClz (h : Head) (rd ra : SRegNo) (s : State) : Host.Outcome State Fault Refusal :=
  s.alu1 (.clz h rd ra) rd ra (fun a => BitVec.ofNat 32 (clz32 a))

/-- CTZ. R254. -/
def execCtz (h : Head) (rd ra : SRegNo) (s : State) : Host.Outcome State Fault Refusal :=
  s.alu1 (.ctz h rd ra) rd ra (fun a => BitVec.ofNat 32 (ctz32 a))

/-- POPC. R254. -/
def execPopc (h : Head) (rd ra : SRegNo) (s : State) : Host.Outcome State Fault Refusal :=
  s.alu1 (.popc h rd ra) rd ra (fun a => BitVec.ofNat 32 (popc32 a))

/-- MOV. R254. -/
def execMov (h : Head) (rd ra : SRegNo) (s : State) : Host.Outcome State Fault Refusal :=
  s.alu1 (.mov h rd ra) rd ra (fun a => a)

/-- ADDI. R255. -/
def execAddi (h : Head) (rd ra : SRegNo) (imm : BitVec 24) (s : State) : Host.Outcome State Fault Refusal :=
  s.alu1 (.addi h rd ra imm) rd ra (fun a => a + s.imm32 imm)

/-- ANDI. R255. -/
def execAndi (h : Head) (rd ra : SRegNo) (imm : BitVec 24) (s : State) : Host.Outcome State Fault Refusal :=
  s.alu1 (.andi h rd ra imm) rd ra (fun a => a &&& s.imm32 imm)

/-- ORI. R255. -/
def execOri (h : Head) (rd ra : SRegNo) (imm : BitVec 24) (s : State) : Host.Outcome State Fault Refusal :=
  s.alu1 (.ori h rd ra imm) rd ra (fun a => a ||| s.imm32 imm)

/-- XORI. R255. -/
def execXori (h : Head) (rd ra : SRegNo) (imm : BitVec 24) (s : State) : Host.Outcome State Fault Refusal :=
  s.alu1 (.xori h rd ra imm) rd ra (fun a => a ^^^ s.imm32 imm)

/-- SHLI, by 0 to 31. R255. -/
def execShli (h : Head) (rd ra : SRegNo) (imm : BitVec 24) (s : State) : Host.Outcome State Fault Refusal :=
  s.alu1 (.shli h rd ra imm) rd ra (fun a => a <<< imm.toNat)

/-- SHRI. R255. -/
def execShri (h : Head) (rd ra : SRegNo) (imm : BitVec 24) (s : State) : Host.Outcome State Fault Refusal :=
  s.alu1 (.shri h rd ra imm) rd ra (fun a => a >>> imm.toNat)

/-- SARI. R255. -/
def execSari (h : Head) (rd ra : SRegNo) (imm : BitVec 24) (s : State) : Host.Outcome State Fault Refusal :=
  s.alu1 (.sari h rd ra imm) rd ra (fun a => a.sshiftRight imm.toNat)

/-- LI. R255. -/
def execLi (h : Head) (rd : SRegNo) (imm : BitVec 24) (s : State) : Host.Outcome State Fault Refusal :=
  s.issueOp (.li h rd imm) [] (fun t => t.withCur (t.cur.pushS rd (t.imm32 imm) false 1))

/-- LIH: reads its own destination. R255. -/
def execLih (h : Head) (rd : SRegNo) (imm : BitVec 24) (s : State) : Host.Outcome State Fault Refusal :=
  s.alu1 (.lih h rd imm) rd rd (fun a => BitVec.ofNat 32 (imm.toNat * 2 ^ 16 + a.toNat % 2 ^ 16))

/-! ## Bit fields, select and compare (R256, R257) -/

/-- BEXT: LEN is the width less one. R256. -/
def execBext (h : Head) (rd ra : SRegNo) (pos len : BitVec 5) (s : State) : Host.Outcome State Fault Refusal :=
  s.alu1 (.bext h rd ra pos len) rd ra (fun a => BitVec.ofNat 32 (a.toNat / 2 ^ pos.toNat % 2 ^ (len.toNat + 1)))

/-- BINS: reads rd. R256. -/
def execBins (h : Head) (rd ra : SRegNo) (pos len : BitVec 5) (s : State) : Host.Outcome State Fault Refusal :=
  s.alu2 (.bins h rd ra pos len) rd rd ra 1 (fun a b =>
    let m : Word := BitVec.ofNat 32 ((2 ^ (len.toNat + 1) - 1) * 2 ^ pos.toNat)
    (a &&& ~~~m) ||| (BitVec.ofNat 32 (b.toNat * 2 ^ pos.toNat) &&& m))

/-- SEL. R257. -/
def execSel (h : Head) (rd ra rb : SRegNo) (ps : PNum) (s : State) : Host.Outcome State Fault Refusal :=
  s.alu2 (.sel h rd ra rb ps) rd ra rb 1 (fun a b => if (s.cur.p ps).getLsbD 0 then a else b)

/-- CMP. R257. -/
def execCmp (h : Head) (pd : PNum) (ra rb : SRegNo) (cond : Cond) (s : State) : Host.Outcome State Fault Refusal :=
  s.testP (.cmp h pd ra rb cond) pd (s.cur.sp ra || s.cur.sp rb) (condHolds cond (s.cur.s ra) (s.cur.s rb))

/-- CMPI. R257. -/
def execCmpi (h : Head) (pd : PNum) (ra : SRegNo) (cond : Cond) (imm : BitVec 24) (s : State) : Host.Outcome State Fault Refusal :=
  s.testP (.cmpi h pd ra cond imm) pd (s.cur.sp ra) (condHolds cond (s.cur.s ra) (s.imm32 imm))

/-! ## Pairs and tagged pointers (R258, R259) -/

/-- ADDD. R258. -/
def execAddd (h : Head) (dd da db : DNum) (s : State) : Host.Outcome State Fault Refusal :=
  s.pair2 (.addd h dd da db) dd da db (fun a b => a + b)

/-- SUBD. R258. -/
def execSubd (h : Head) (dd da db : DNum) (s : State) : Host.Outcome State Fault Refusal :=
  s.pair2 (.subd h dd da db) dd da db (fun a b => a - b)

/-- ADDDI. R258. -/
def execAdddi (h : Head) (dd da : DNum) (imm : BitVec 24) (s : State) : Host.Outcome State Fault Refusal :=
  s.pair2 (.adddi h dd da imm) dd da da (fun a _ => a + (s.imm32 imm).signExtend 64)

/-- SHLD. R258. -/
def execShld (h : Head) (dd da : DNum) (rb : SRegNo) (s : State) : Host.Outcome State Fault Refusal :=
  s.issueOp (.shld h dd da rb) [] (fun t =>
    t.withCur (t.cur.pushD dd (t.cur.d da <<< ((t.cur.s rb).toNat % 64)) (t.cur.dp da || t.cur.sp rb) 2))

/-- TAGD. R259. -/
def execTagd (h : Head) (dd da : DNum) (rs : SRegNo) (fld : BitVec 3) (s : State) : Host.Outcome State Fault Refusal :=
  s.issueOp (.tagd h dd da rs fld) [] (fun t =>
    t.withCur (t.cur.pushD dd (insertField (t.cur.d da) (tagField fld).1 (tagField fld).2 (t.cur.s rs))
      (t.cur.dp da || t.cur.sp rs) 2))

/-- TAGX. R259. -/
def execTagx (h : Head) (da : DNum) (rs : SRegNo) (fld : BitVec 3) (s : State) : Host.Outcome State Fault Refusal :=
  s.issueOp (.tagx h da rs fld) [] (fun t =>
    t.withCur (t.cur.pushS rs (BitVec.ofNat 32 ((t.cur.d da).toNat / 2 ^ (tagField fld).1 % 2 ^ (tagField fld).2))
      (t.cur.dp da) 2))

end Sys2Proof.Machine
end

