-- ==== Sys2Proof/Machine/Control.lean ====
section
/-!
DEFINITION. The B class: transfers, hardware loops, traps and returns, the end of a task, SPAWN and BAR
(12_isa_scalar_control R262 to R274).
-/
namespace Sys2Proof.Machine
open Sys2Proof

/-! ## Transfers (R262 to R264) -/

/-- The address of the syllable at issue. -/
def State.here (s : State) : DWord := s.issue.addr + BitVec.ofNat 64 (8 * s.issue.pos)

/-- The address after the bundle at issue. -/
def State.after (s : State) : DWord := s.issue.addr + BitVec.ofNat 64 (8 * s.issue.size)

/-- A taken transfer (R262); keep leaves the loop stack as it is. -/
def State.jump (s : State) (target : DWord) (keep : Bool) : State :=
  { s with issue := { s.issue with target := some target, keep := keep } }

/-- The target of a displacement in syllables (R262). -/
def State.label (s : State) (disp : BitVec 30) : DWord := s.here + disp.signExtend 64 * 8

/-- A transfer under a condition, with poisoned operands a trap (R262). -/
def State.branch (s : State) (i : Instr) (poison taken : Bool) (target : DWord) : Host.Outcome State Fault Refusal :=
  s.issueOp i (s.poisonIf i poison) (fun t => if taken then t.jump target false else t)

/-- CALL and CALLR write the return address to s1 (R264). -/
def State.callTo (s : State) (target : DWord) : State :=
  let t := s.jump target true
  t.withCur (t.cur.pushS 1 (t.after.extractLsb' 0 32) false 1)

/-- NOPB. R269. -/
def execNopb (h : Head) (s : State) : Host.Outcome State Fault Refusal := s.issueOp (.nopb h) [] id

/-- BR. R263. -/
def execBr (h : Head) (disp : BitVec 30) (s : State) : Host.Outcome State Fault Refusal :=
  s.branch (.br h disp) false true (s.label disp)

/-- BRC. R263. -/
def execBrc (h : Head) (ra rb : SRegNo) (cond : Cond) (disp : BitVec 30) (s : State) :
    Host.Outcome State Fault Refusal :=
  s.branch (.brc h ra rb cond disp) (s.cur.sp ra || s.cur.sp rb) (condHolds cond (s.cur.s ra) (s.cur.s rb)) (s.label disp)

/-- BRZ. R263. -/
def execBrz (h : Head) (ra : SRegNo) (disp : BitVec 30) (s : State) : Host.Outcome State Fault Refusal :=
  s.branch (.brz h ra disp) (s.cur.sp ra) (s.cur.s ra == 0) (s.label disp)

/-- JMP. R264. -/
def execJmp (h : Head) (da : DNum) (s : State) : Host.Outcome State Fault Refusal :=
  s.branch (.jmp h da) (s.cur.dp da) true (s.cur.d da)

/-- CALL. R264. -/
def execCall (h : Head) (disp : BitVec 30) (s : State) : Host.Outcome State Fault Refusal :=
  s.issueOp (.call h disp) [] (fun t => t.callTo (t.label disp))

/-- CALLR. R264. -/
def execCallr (h : Head) (da : DNum) (s : State) : Host.Outcome State Fault Refusal :=
  s.issueOp (.callr h da) (s.poisonIf (.callr h da) (s.cur.dp da)) (fun t => t.callTo (t.cur.d da))

/-- RET. R264. -/
def execRet (h : Head) (s : State) : Host.Outcome State Fault Refusal :=
  s.branch (.ret h) (s.cur.sp 1) true (s.here.extractLsb' 32 32 ++ s.cur.s 1)

/-! ## Hardware loops (R265, R266) -/

/-- An entry pushed onto the loop stack: the body starts after the bundle at issue and ends at the syllable that END
names (R265). -/
def State.pushLoop (s : State) (count : Nat) (stop : DWord) : State :=
  s.withCur { s.cur with loops := { count := count, start := s.after, stop := stop } :: s.cur.loops }

/-- The transfer to the bundle after the one at an address; where that one cannot be read, its length is not known and
the target is a free value (log entry 8). -/
def State.skipPast (s : State) (stop : DWord) : State :=
  match s.fetch stop with
  | .ok l => s.jump (stop + BitVec.ofNat 64 (8 * l.length)) false
  | .error _ => { s.jump (Config.freeWord s.fresh) false with fresh := s.fresh + 1 }

/-- An effect that needs the bundle at an address waits while some of it has still to come from a peer (R171). -/
def State.withBundle (s : State) (a : DWord) (eff : State → State) : State :=
  match s.fetch a with
  | .ok [] => if s.issue.passed then eff s else (s.askCode a).stall false id
  | _ => eff s

/-- The end bundle of a loop. -/
def State.loopEnd (s : State) (endDisp : BitVec 24) : DWord := s.here + endDisp.signExtend 64 * 8

/-- LOOP. R265. -/
def execLoop (h : Head) (count : BitVec 20) (endDisp : BitVec 24) (s : State) : Host.Outcome State Fault Refusal :=
  s.issueOp (.loop h count endDisp) [] (fun t => t.pushLoop count.toNat (t.loopEnd endDisp))

/-- LOOPR. R265, R266. -/
def execLoopr (h : Head) (ra : SRegNo) (endDisp : BitVec 24) (s : State) : Host.Outcome State Fault Refusal :=
  s.issueOp (.loopr h ra endDisp) (s.poisonIf (.loopr h ra endDisp) (s.cur.sp ra)) (fun t =>
    if t.cur.s ra = 0 then t.withBundle (t.loopEnd endDisp) (fun u => u.skipPast (t.loopEnd endDisp)) else t.pushLoop (t.cur.s ra).toNat (t.loopEnd endDisp))

/-- LBRK. R266. -/
def execLbrk (h : Head) (s : State) : Host.Outcome State Fault Refusal :=
  s.issueOp (.lbrk h) [] (fun t => match t.cur.loops with
    | [] => t
    | e :: l => t.withBundle e.stop (fun u => (u.withCur { u.cur with loops := l }).skipPast e.stop))

/-! ## Traps, returns and halts (R267 to R269) -/

/-- The bundle takes its effect and the context reaches the next bundle's earliest cycle, one on. -/
def State.finishBundle (s : State) : State :=
  let t := s.withCur (s.cur.follow s.issue.size 1)
  t.advance (t.cur.clk + 1)

/-- The REP state of the bundle at the program counter (R244). -/
def State.openNext (s : State) : State := match s.fetch s.cur.pc with | .ok raw => s.openRep raw | .error _ => s

/-- A trap before the next bundle, with the late traps that meet it there (R140); d is what that bundle has to serve. -/
def State.trapAfter (s : State) (t : Trap) : State :=
  let u := s.finishBundle
  let v := (u.withCur { u.cur with late := [] }).openNext
  v.takeTrap (v.serve (fun _ _ ws => ws)) ((lowestTrap (t :: u.cur.late)).getD t)

/-- TRAP. R267. -/
def execTrap (h : Head) (imm : BitVec 16) (s : State) : Host.Outcome State Fault Refusal :=
  s.issueOp (.trap h imm) [] (fun t => t.trapAfter (t.infoTrap (.trap h imm) .brk (imm.setWidth 64)))

/-- SYSC. R267. -/
def execSysc (h : Head) (imm : BitVec 16) (s : State) : Host.Outcome State Fault Refusal :=
  s.issueOp (.sysc h imm) [] (fun t => t.trapAfter (t.infoTrap (.sysc h imm) .syscall (imm.setWidth 64)))

/-- Every result lands. -/
def State.settle (s : State) : State := s.landTo ((s.cur.flight.map (·.land)).foldl max 0)

/-- ERET. R143, R268. -/
def execEret (h : Head) (s : State) : Host.Outcome State Fault Refusal :=
  s.issueOp (.eret h) [] (fun t => t.holdUntil false (t.cur.flight.isEmpty && (t.cur.unfinishedHere t.cur.clk).isEmpty) (fun u =>
    match u.cur.parked with
    | some p => u.settle.returnFrom p
    | none => u))

/-- HALT. R269. -/
def execHalt (h : Head) (s : State) : Host.Outcome State Fault Refusal :=
  s.issueOp (.halt h) [] (fun t =>
    let v := t.finishBundle
    let u := v.stop.noteNext (v.serve (fun _ _ ws => ws))
    { u with cur := { u.cur with run := .halted }, issue := { u.issue with ended := true } })

/-! ## The end of a task (R270, R271) -/

/-- The recorded failure of an engine command that an EWAIT or EXIT raises (R184, R350): a denial raises PAGE_DENIED at an EWAIT (R339), and
FABRIC at an EXIT (R270); the peer that TINFO names there is a free value, since no peer has denied it (log entry 54). -/
def State.failureTraps (s : State) (i : Instr) (atExit : Bool) : List Trap :=
  match s.cur.failures with
  | [] => []
  | f :: _ =>
    let peer : Byte := if f.denied then (Config.freeWord s.fresh).setWidth 8 else f.peer
    if f.denied && !atExit then [s.addrTrap i f.addr .pageDenied]
    else [s.infoTrap i .fabric (BitVec.ofNat 64 (peer.toNat * 2 ^ 8 + f.eq.toNat))]

/-- The failure that a trap has raised is no longer recorded. -/
def dropFailure (t : Trap) (s : State) : State :=
  if t.cause = .fabric ∨ t.cause = .pageDenied then s.withCur { s.cur with failures := s.cur.failures.drop 1 } else s

/-- A denial of an access, and else a failure of an engine command, is no longer recorded. -/
def dropEnd (t : Trap) (s : State) : State :=
  if t.cause = .pageDenied ∧ !s.cur.denied.isEmpty then clearDenied allSlices t s else dropFailure t s

/-- Whether one more batch may close (R348). -/
def Ctx.mayClose (c : Ctx) : Bool := decide (c.openB.total = 0) || decide (c.closedB.length < 255)

/-- The completion conditions of R270. -/
def State.complete (s : State) : Bool :=
  s.cur.flight.isEmpty && s.cur.mayClose && s.cur.closeBatch.closedB.isEmpty && s.quiet && s.cur.verdicts == 0

/-- What EXIT and EXITS raise (R270): nothing in handler mode. -/
def State.exitTraps (s : State) (i : Instr) : List Trap :=
  if s.cur.handling then [] else s.deniedTraps i allSlices ++ s.failureTraps i true

/-- The end of the running entry: it waits for the completion conditions, closing the open batch. In handler mode the
task ends as a trap that was not handled (R270). -/
def State.finishEntry (s : State) (eff : State → State) : State :=
  if s.issue.passed || s.complete then
    let t := s.settle
    if t.cur.handling then t.endTask (some (t.cur.sys.tcause.toNat % 256)) else eff t
  else
    let t := if s.cur.mayClose then s.withCur s.cur.closeBatch else s
    t.stall false id

/-- EXIT. R270. -/
def execExit (h : Head) (s : State) : Host.Outcome State Fault Refusal :=
  s.issueWith (.exit h) (s.exitTraps (.exit h)) dropEnd (fun t => t.finishEntry (fun u => u.endTask none))

/-- EXITS. R108, R271. -/
def execExits (h : Head) (keepq : Bool) (entry : BitVec 8) (s : State) : Host.Outcome State Fault Refusal :=
  let i := Instr.exits h keepq entry
  s.issueWith i (trapIf (keepq && !s.cur.array) (s.synTrap i .access) ++ s.exitTraps i) dropEnd
    (fun t => t.finishEntry (fun u => u.successor entry.toNat keepq))

/-! ## Spawning (R272) -/

/-- The 64 bytes of a launch record. -/
def State.launchRecord (s : State) (l : Loc) : Reading :=
  if l.space ≠ 0 then .got (s.siteRead [] l.site l.off 64) else s.readVia (whoOf s.cur.uid) s.cur.part l.die l.off 64

/-- What the dispatcher needs of a submission has still to come from a peer: the record, or its descriptors. -/
def State.spawnAway (s : State) (l : Loc) : Bool :=
  match s.launchRecord l with
  | .away => true
  | .got x => !(s.descsAway (whoOf s.cur.uid) s.cur.part (BitVec.ofNat 512 x)).isEmpty
  | .denied => false

/-- What is still away is asked for. -/
def State.askSpawn (s : State) (l : Loc) : State :=
  match s.launchRecord l with
  | .away => s.askVia (whoOf s.cur.uid) s.cur.part l.die l.off 64
  | .got x => s.askDescs (whoOf s.cur.uid) s.cur.part (BitVec.ofNat 512 x)
  | .denied => s

/-- The slices of a release at .M. -/
def moduleSlices : List Nat := instanceBits 4 0 0 false

/-- SPAWN. R272. -/
def execSpawn (h : Head) (rd : SRegNo) (da : DNum) (s : State) : Host.Outcome State Fault Refusal :=
  let i := Instr.spawn h rd da
  let r := s.resolve (s.cur.d da) 0 64 64 .load false
  let far := decide (2 ≤ r.1.space) && decide (r.1.space ≤ 5)
  let bad := s.poisonIf i (s.cur.dp da) ++
    (if far then [s.addrTrap i r.1.addr .access] ++ trapIf (r.1.addr.toNat % 64 != 0) (s.addrTrap i r.1.addr .align)
     else s.locTraps i 0 r)
  let denials := s.deniedTraps i moduleSlices
  let own := bad ++ denials ++
    (if bad.isEmpty && s.released 4 moduleSlices && s.launchRecord r.1 == .denied then [s.addrTrap i r.1.addr .pageDenied]
     else [])
  s.issueWith i own (fun t u => if !bad.isEmpty then u else if denials.isEmpty then u.clearTsm moduleSlices else clearDenied moduleSlices t u) (fun t =>
    let hold (v : State) : State := v.stallAs true false id
    if !t.issue.passed && !t.released 4 moduleSlices then hold t
    else if !t.issue.passed && t.spawnAway r.1 then hold (t.askSpawn r.1)
    else
      let v := t.clearTsm moduleSlices
      let u := if r.1.space = 0 then v.keepRun v.cur.part r.1.die r.1.off 64 else v
      match u.launchRecord r.1, u.launchOf u.cur with
      | .got rec, some l =>
        let x := u.submit u.cur.part l.core (some (u.cur.device, u.cur.handle, clusterOf u.cur.tile, u.cur.uid)) (BitVec.ofNat 512 rec)
        x.1.withCur ((x.1.cur.pushS rd (BitVec.ofNat 32 (if x.2.status = 0 then x.2.handle else 0)) false 1).pushS
          (rd ||| 1) (BitVec.ofNat 32 (x.2.field * 2 ^ 16 + x.2.status)) false 1)
      | _, _ => u)

/-! ## Barriers (R273, R274) -/

/-- Whether a valid slot of GRPS names a group (R101). -/
def namesGroup (grps : DWord) (g : Nat) : Bool :=
  (List.range 4).any (fun k => grps.toNat / 2 ^ (16 * k) % 2 ^ 16 == 0x8000 + g)

/-- The narrowest scope that contains every tile of a set (R273). -/
def scopeOf (tiles : BitVec 1024) : Nat :=
  let ts := (List.range 1024).filter (fun t => tiles.getLsbD t)
  let t0 := ts.headD 0
  if ts.all (fun t => clusterOf t == clusterOf t0) then 1
  else if ts.all (fun t => dieOf t == dieOf t0) then 2
  else if ts.all (fun t => dieOf t / 4 == dieOf t0 / 4) then 3
  else 4

/-- The scope of a group of the issuing task (R101, R273). -/
def State.groupScope (s : State) (g : Nat) : Option Nat :=
  ((s.partOf s.cur).groupTable.find? (fun e => e.1 == s.cur.handle && e.2.1 == g)).map (fun e => scopeOf e.2.2)

/-- B(X) in module cycles (R273). -/
def barrierDelay (scope : Nat) : Nat :=
  match scope with
  | 0 => 4
  | 1 => 4
  | 2 => 12
  | 3 => 40
  | _ => 72

/-- Whether the waiting member may leave generation n of group g (R273, R274). -/
def State.mayLeave (s : State) (g n scope : Nat) : Bool :=
  (match s.cur.wait with | some w => w.leaving | none => false) ||
  (match s.launchOf s.cur with
    | some l => l.barDone.any (fun x => x.1 == g && decide (n ≤ x.2.1) &&
        decide (x.2.2 + barrierDelay scope ≤ s.cur.module))
    | none => false)

/-- The arrival of a member at its next generation of a group (R273). -/
def State.arrive (s : State) (g : Nat) : State :=
  let n := s.cur.generation g + 1
  let t := s.withCur { s.cur with barriers := setKey g n s.cur.barriers }
  (t.barrierDone t.cur g).stall true (fun w => { w with arrived := some n })

/-- BAR. R273, R274. -/
def execBar (h : Head) (gidx : BitVec 8) (s : State) : Host.Outcome State Fault Refusal :=
  let i := Instr.bar h gidx
  let g := gidx.toNat
  let scope := s.groupScope g
  let known := namesGroup s.cur.sys.grps g && scope.isSome
  let x := scope.getD 4
  let bits := s.fenceBits x
  s.issueWith i (trapIf (!known) (s.synTrap i .access) ++
      (if known && s.cur.arrivedAt.isNone then s.deniedTraps i bits else [])) (clearDenied bits) (fun t =>
    if t.issue.passed then t
    else match t.cur.arrivedAt with
      | some n => if t.mayLeave g n x then t else t.stall true id
      | none => if t.released x bits then (t.clearTsm bits).arrive g else t.stall true id)

end Sys2Proof.Machine
end

