-- ==== Sys2Proof/Machine/Vector.lean ====
section
/-!
DEFINITION. The arithmetic of the V class on posits (13_isa_vector_quire_jet R277 to R292, R301): lanes, elements and
masks, the elementwise operations and special functions at every order, selections, conversions, quantisation, and the
reductions.
-/
namespace Sys2Proof.Machine
open Sys2Proof

/-! ## Shared operations -/

/-- The vector sources of a syllable as it sees them, in the order of its shape: one register, or a jet group (R217). -/
def State.sources (s : State) (i : Instr) : List (List VReg) :=
  (shapeOf i).srcs.map (s.cur.operand s.issue.jo (s.groups i))

/-- The active lanes of a V or X syllable (R277). -/
def State.activeLanes (s : State) (i : Instr) (h : Head) : LaneMask := s.cur.active h (s.groups i)

/-- The lanes that are poisoned in any of some registers (R280). -/
def poisonOf (os : List (List VReg)) : LaneMask := os.flatten.foldl (fun a r => a ||| r.poison) 0

/-- What a syllable forms in one lane: the word of every register that it writes, and JF bits (R281). -/
structure LaneResult where
  words : List Word
  jf    : DWord
  deriving DecidableEq, Repr

/-- The n registers from vd on, written in the active lanes, in one cycle (R279). -/
def Ctx.pushLanes (c : Ctx) (vd : VNum) (n : Nat) (groups : BitVec 8) (active : LaneMask) (out : List (Nat × LaneResult))
    (poison : LaneMask) (lat : Nat) : Ctx :=
  (List.range n).foldl (fun d r => d.pushV (vd + BitVec.ofNat 6 r) groups active
    (vectorOf (out.map (fun x => (x.1, (x.2.words.getD r 0).toNat)))) poison lat) c

/-- Registers copied with their poison, in the active lanes (R280). -/
def Ctx.pushRegs (c : Ctx) (vd : VNum) (groups : BitVec 8) (active : LaneMask) (rs : List VReg) (lat : Nat) : Ctx :=
  (List.range rs.length).foldl (fun d r => match rs[r]? with
    | some v => d.pushV (vd + BitVec.ofNat 6 r) groups active v.bits v.poison lat
    | none => d) c

/-- The JF bits of lane results, with PSN of n coefficients where a syllable that rounds writes a poisoned lane (R281). -/
def laneFlags (out : List (Nat × LaneResult)) (psn : Bool) (poison : LaneMask) (n : Nat) : DWord :=
  out.foldl (fun a x => a ||| x.2.jf) (if psn && poison != 0 then psnFlags (n - 1) else 0)

/-- A syllable that forms n registers lane by lane from its sources (R277 to R281): a poisoned source lane reads as zero
and poisons the lane, as do the lanes of more; psn says that the syllable rounds. -/
def State.laneOp (s : State) (i : Instr) (h : Head) (vd : VNum) (n lat : Nat) (psn : Bool) (more : LaneMask)
    (f : Nat → List (List Word) → LaneResult) : State :=
  let os := s.sources i
  let active := s.activeLanes i h
  let poison := active &&& (poisonOf os ||| more)
  let out := (lanesIn active).map (fun l => (l, f l (os.map (fun o => o.map (fun r => r.lane l)))))
  s.withCur ((s.cur.pushLanes vd n (s.groups i) active out poison lat).pushJF (laneFlags out psn poison n) lat)

/-- A lane formed element by element in a format, n registers (R278). -/
def byElement (fmt : Fmt) (n : Nat) (f : Nat → List Rounded) : LaneResult :=
  let es := (List.range (fmtElems fmt)).map f
  { words := (List.range n).map (fun r => BitVec.ofNat 32 (laneOf (fmtWidth fmt) (es.map (fun e => (e.map (·.pat)).getD r 0))))
    jf := es.foldl (fun a e => a ||| flagsFrom 0 e) 0 }

/-- The element patterns j of a source, by coefficient. -/
def patsOf (ws : List (List Word)) (a : Nat) (fmt : Fmt) (j : Nat) : List Nat :=
  (ws.getD a []).map (fun w => elemOf w.toNat (fmtWidth fmt) j)

/-- The exact values of the elements j of a source, by coefficient. -/
def valsOf (ws : List (List Word)) (a : Nat) (fmt : Fmt) (j : Nat) : List Fx :=
  (patsOf ws a fmt j).map (fun p => decodePat p (fmtWidth fmt) (fmtEs fmt))

/-- A coefficient written as a pattern, without a flag. -/
def Rounded.exact (p : Nat) : Rounded := { pat := p, nar := false, sat := false, inx := false }

/-- The latencies of R301: a + b k. -/
def arithLat (o : Arith) (fmt : Fmt) (k : Nat) : Nat :=
  match o with
  | .add | .sub => 3
  | .mul => 4 + 2 * k
  | .fma | .fms | .fnma => 5 + 2 * k
  | .div => (if fmtWidth fmt = 32 then 10 else 8) + 3 * k

/-- The latencies of R301 for one operand. -/
def fnLat (f : Fn) (fmt : Fmt) (k : Nat) : Nat :=
  match f with
  | .sqrt | .rsqrt | .rcp => (if fmtWidth fmt = 32 then 10 else 8) + 3 * k
  | _ => 12 + 4 * k

/-- A binary or ternary posit operation on elements or jets (R282, R301). -/
def State.arith (s : State) (i : Instr) (h : Head) (fmt : Fmt) (vd : VNum) (o : Arith) : Host.Outcome State Fault Refusal :=
  let k := s.issue.jo
  let n := fmtWidth fmt
  let e := fmtEs fmt
  s.issueV i [] (fun t => t.laneOp i h vd (k + 1) (arithLat o fmt k) true 0 (fun _ ws =>
    byElement fmt (k + 1) (fun j => o.jet (valsOf ws 0 fmt j) (valsOf ws 1 fmt j) (valsOf ws 2 fmt j) k n e)))

/-- A special function on elements or jets (R283, R301). -/
def State.special (s : State) (i : Instr) (h : Head) (fmt : Fmt) (vd : VNum) (f : Fn) : Host.Outcome State Fault Refusal :=
  let k := s.issue.jo
  let n := fmtWidth fmt
  let e := fmtEs fmt
  s.issueV i [] (fun t => t.laneOp i h vd (k + 1) (fnLat f fmt k) true 0 (fun _ ws =>
    byElement fmt (k + 1) (fun j => f.jet (valsOf ws 0 fmt j) k n e)))

/-- A selection or sign change on the patterns of elements or jets (R284): no flag, latency 3. -/
def State.select (s : State) (i : Instr) (h : Head) (fmt : Fmt) (vd : VNum) (f : List Nat → List Nat → List Nat → List Nat) :
    Host.Outcome State Fault Refusal :=
  let k := s.issue.jo
  s.issueV i [] (fun t => t.laneOp i h vd (k + 1) 3 false 0 (fun _ ws =>
    byElement fmt (k + 1) (fun j => (f (patsOf ws 0 fmt j) (patsOf ws 1 fmt j) (patsOf ws 2 fmt j)).map Rounded.exact)))

/-- A syllable that writes predicate lanes (R285, R294): the test holds for every element of c0. -/
def State.compareLanes (s : State) (i : Instr) (h : Head) (pd : PNum) (lat w elems : Nat) (test : Nat → Nat → Bool) :
    Host.Outcome State Fault Refusal :=
  s.issueV i [] (fun t =>
    let os := t.sources i
    let active := t.activeLanes i h
    let word (a l : Nat) : Nat := (((os.getD a []).map (fun r => (r.lane l).toNat)).getD 0 0)
    t.withCur (if active = 0 then t.cur else t.cur.pushP pd active (buildMask active (fun l =>
      (List.range elems).all (fun j => test (elemOf (word 0 l) w j) (elemOf (word 1 l) w j)))) lat))

/-- The tests of R233 on w-bit patterns; a reserved code never issues. -/
def condPat (cond : Cond) (w a b : Nat) : Bool :=
  match cond.toNat with
  | 0x0 => a == b
  | 0x1 => a != b
  | 0x2 => decide (patOrder a w < patOrder b w)
  | 0x3 => decide (patOrder b w ≤ patOrder a w)
  | 0x4 => decide (patOrder a w ≤ patOrder b w)
  | 0x5 => decide (patOrder b w < patOrder a w)
  | 0x6 => decide (a < b)
  | 0x7 => decide (b ≤ a)
  | 0x8 => decide (a ≤ b)
  | 0x9 => decide (b < a)
  | _ => false

/-- The negation of an n-bit pattern; 0 and NaR stay (R284). -/
def negPat (n p : Nat) : Nat := (2 ^ n - p) % 2 ^ n

/-- The signed scale byte SEL of a lane word (R215). -/
def scaleByte (w : Nat) (sel : BitVec 2) : Int := signedOf (w / 2 ^ (8 * sel.toNat) % 256) 8

/-- The first word of a source. -/
def wordOf (ws : List (List Word)) (a : Nat) : Nat := (((ws.getD a []).map (·.toNat)).getD 0 0)

/-! ## Posit arithmetic (R282) -/

/-- VADD. R282. -/
def execVadd (h : Head) (lgm : Lgm) (fmt : Fmt) (vd va vb : VNum) (ha hb : Bool) (s : State) :
    Host.Outcome State Fault Refusal := s.arith (.vadd h lgm fmt vd va vb ha hb) h fmt vd .add

/-- VSUB. R282. -/
def execVsub (h : Head) (lgm : Lgm) (fmt : Fmt) (vd va vb : VNum) (ha hb : Bool) (s : State) :
    Host.Outcome State Fault Refusal := s.arith (.vsub h lgm fmt vd va vb ha hb) h fmt vd .sub

/-- VMUL. R282. -/
def execVmul (h : Head) (lgm : Lgm) (fmt : Fmt) (vd va vb : VNum) (ha hb : Bool) (s : State) :
    Host.Outcome State Fault Refusal := s.arith (.vmul h lgm fmt vd va vb ha hb) h fmt vd .mul

/-- VDIV. R282. -/
def execVdiv (h : Head) (lgm : Lgm) (fmt : Fmt) (vd va vb : VNum) (ha hb : Bool) (s : State) :
    Host.Outcome State Fault Refusal := s.arith (.vdiv h lgm fmt vd va vb ha hb) h fmt vd .div

/-- VFMA. R282. -/
def execVfma (h : Head) (lgm : Lgm) (fmt : Fmt) (vd va vb vc : VNum) (ha hb hc : Bool) (s : State) :
    Host.Outcome State Fault Refusal := s.arith (.vfma h lgm fmt vd va vb vc ha hb hc) h fmt vd .fma

/-- VFMS. R282. -/
def execVfms (h : Head) (lgm : Lgm) (fmt : Fmt) (vd va vb vc : VNum) (ha hb hc : Bool) (s : State) :
    Host.Outcome State Fault Refusal := s.arith (.vfms h lgm fmt vd va vb vc ha hb hc) h fmt vd .fms

/-- VFNMA. R282. -/
def execVfnma (h : Head) (lgm : Lgm) (fmt : Fmt) (vd va vb vc : VNum) (ha hb hc : Bool) (s : State) :
    Host.Outcome State Fault Refusal := s.arith (.vfnma h lgm fmt vd va vb vc ha hb hc) h fmt vd .fnma

/-! ## Special functions (R283) -/

/-- VSQRT. R283. -/
def execVsqrt (h : Head) (lgm : Lgm) (fmt : Fmt) (vd va : VNum) (ha : Bool) (s : State) :
    Host.Outcome State Fault Refusal := s.special (.vsqrt h lgm fmt vd va ha) h fmt vd .sqrt

/-- VRSQRT. R283. -/
def execVrsqrt (h : Head) (lgm : Lgm) (fmt : Fmt) (vd va : VNum) (ha : Bool) (s : State) :
    Host.Outcome State Fault Refusal := s.special (.vrsqrt h lgm fmt vd va ha) h fmt vd .rsqrt

/-- VRCP. R283. -/
def execVrcp (h : Head) (lgm : Lgm) (fmt : Fmt) (vd va : VNum) (ha : Bool) (s : State) :
    Host.Outcome State Fault Refusal := s.special (.vrcp h lgm fmt vd va ha) h fmt vd .rcp

/-- VEXP. R283. -/
def execVexp (h : Head) (lgm : Lgm) (fmt : Fmt) (vd va : VNum) (ha : Bool) (s : State) :
    Host.Outcome State Fault Refusal := s.special (.vexp h lgm fmt vd va ha) h fmt vd .exp

/-- VEXP2. R283. -/
def execVexp2 (h : Head) (lgm : Lgm) (fmt : Fmt) (vd va : VNum) (ha : Bool) (s : State) :
    Host.Outcome State Fault Refusal := s.special (.vexp2 h lgm fmt vd va ha) h fmt vd .exp2

/-- VLOG. R283. -/
def execVlog (h : Head) (lgm : Lgm) (fmt : Fmt) (vd va : VNum) (ha : Bool) (s : State) :
    Host.Outcome State Fault Refusal := s.special (.vlog h lgm fmt vd va ha) h fmt vd .log

/-- VLOG2. R283. -/
def execVlog2 (h : Head) (lgm : Lgm) (fmt : Fmt) (vd va : VNum) (ha : Bool) (s : State) :
    Host.Outcome State Fault Refusal := s.special (.vlog2 h lgm fmt vd va ha) h fmt vd .log2

/-- VSIN. R283. -/
def execVsin (h : Head) (lgm : Lgm) (fmt : Fmt) (vd va : VNum) (ha : Bool) (s : State) :
    Host.Outcome State Fault Refusal := s.special (.vsin h lgm fmt vd va ha) h fmt vd .sin

/-- VCOS. R283. -/
def execVcos (h : Head) (lgm : Lgm) (fmt : Fmt) (vd va : VNum) (ha : Bool) (s : State) :
    Host.Outcome State Fault Refusal := s.special (.vcos h lgm fmt vd va ha) h fmt vd .cos

/-- VTANH. R283. -/
def execVtanh (h : Head) (lgm : Lgm) (fmt : Fmt) (vd va : VNum) (ha : Bool) (s : State) :
    Host.Outcome State Fault Refusal := s.special (.vtanh h lgm fmt vd va ha) h fmt vd .tanh

/-- VSIGM. R283. -/
def execVsigm (h : Head) (lgm : Lgm) (fmt : Fmt) (vd va : VNum) (ha : Bool) (s : State) :
    Host.Outcome State Fault Refusal := s.special (.vsigm h lgm fmt vd va ha) h fmt vd .sigm

/-! ## Selections and sign changes (R284 to R286) -/

/-- VMIN. R284: the whole chosen jet; ties take va. -/
def execVmin (h : Head) (lgm : Lgm) (fmt : Fmt) (vd va vb : VNum) (ha hb : Bool) (s : State) :
    Host.Outcome State Fault Refusal :=
  let n := fmtWidth fmt
  s.select (.vmin h lgm fmt vd va vb ha hb) h fmt vd (fun a b _ =>
    if patOrder (a.getD 0 0) n ≤ patOrder (b.getD 0 0) n then a else b)

/-- VMAX. R284: the whole chosen jet; ties take va. -/
def execVmax (h : Head) (lgm : Lgm) (fmt : Fmt) (vd va vb : VNum) (ha hb : Bool) (s : State) :
    Host.Outcome State Fault Refusal :=
  let n := fmtWidth fmt
  s.select (.vmax h lgm fmt vd va vb ha hb) h fmt vd (fun a b _ =>
    if patOrder (b.getD 0 0) n ≤ patOrder (a.getD 0 0) n then a else b)

/-- VABS. R284: the whole jet is negated when c0 is below zero; NaR stays. -/
def execVabs (h : Head) (lgm : Lgm) (fmt : Fmt) (vd va : VNum) (ha : Bool) (s : State) :
    Host.Outcome State Fault Refusal :=
  let n := fmtWidth fmt
  s.select (.vabs h lgm fmt vd va ha) h fmt vd (fun a _ _ =>
    if narPat n < a.getD 0 0 then a.map (negPat n) else a)

/-- VNEG. R284. -/
def execVneg (h : Head) (lgm : Lgm) (fmt : Fmt) (vd va : VNum) (ha : Bool) (s : State) :
    Host.Outcome State Fault Refusal :=
  s.select (.vneg h lgm fmt vd va ha) h fmt vd (fun a _ _ => a.map (negPat (fmtWidth fmt)))

/-- VCLAMP. R284: min(max(a, lo), hi) of c0, and zero above it. -/
def execVclamp (h : Head) (lgm : Lgm) (fmt : Fmt) (vd va vb vc : VNum) (ha hb hc : Bool) (s : State) :
    Host.Outcome State Fault Refusal :=
  let n := fmtWidth fmt
  s.select (.vclamp h lgm fmt vd va vb vc ha hb hc) h fmt vd (fun a lo hi =>
    let x := if patOrder (a.getD 0 0) n < patOrder (lo.getD 0 0) n then lo.getD 0 0 else a.getD 0 0
    [if patOrder (hi.getD 0 0) n < patOrder x n then hi.getD 0 0 else x])

/-- VROUND. R284: the nearest integer of c0, INX0 when the value changes, and zero above it. -/
def execVround (h : Head) (lgm : Lgm) (fmt : Fmt) (vd va : VNum) (ha : Bool) (s : State) :
    Host.Outcome State Fault Refusal :=
  let k := s.issue.jo
  let n := fmtWidth fmt
  s.issueV (.vround h lgm fmt vd va ha) [] (fun t => t.laneOp (.vround h lgm fmt vd va ha) h vd (k + 1) 3 true 0 (fun _ ws =>
    byElement fmt (k + 1) (fun j => match (valsOf ws 0 fmt j).getD 0 none with
      | none => [narOperand n]
      | some x =>
        let y := nearestInt x
        [{ roundFx (some y) n (fmtEs fmt) with inx := decide (y ≠ x) }])))

/-- VCMP. R285. -/
def execVcmp (h : Head) (lgm : Lgm) (fmt : Fmt) (pd : PNum) (va vb : VNum) (ha hb : Bool) (cond : Cond) (s : State) :
    Host.Outcome State Fault Refusal :=
  s.compareLanes (.vcmp h lgm fmt pd va vb ha hb cond) h pd 3 (fmtWidth fmt) (fmtElems fmt) (condPat cond (fmtWidth fmt))

/-- VSEL. R286: the whole lane, or the whole group, with the poison of the selected operand. -/
def execVsel (h : Head) (lgm : Lgm) (fmt : Fmt) (vd va vb : VNum) (ha hb : Bool) (ps : PNum) (s : State) :
    Host.Outcome State Fault Refusal :=
  let i := Instr.vsel h lgm fmt vd va vb ha hb ps
  s.issueV i [] (fun t =>
    let os := t.sources i
    let p := t.cur.p ps
    let rs := ((os.getD 1 []).zip (os.getD 0 [])).map (fun x => x.1.merge p x.2.bits x.2.poison)
    t.withCur (t.cur.pushRegs vd (t.groups i) (t.activeLanes i h) rs 3))

/-! ## Conversion, scaling and quantisation (R287 to R289) -/

/-- Widths of the two sides of a VCVT: source and target (R287). -/
def cvtWidths (fmt : Fmt) (other : BitVec 4) (kind : BitVec 3) : Nat × Nat :=
  let n := fmtWidth fmt
  let w := if other.getLsbD 0 then 8 else 32
  match kind.toNat with
  | 0 => (fmtWidth other, n)
  | 1 => (32, n)
  | 2 => (16, n)
  | 3 => (n, 32)
  | 4 => (n, 16)
  | 5 => (w, n)
  | _ => (n, w)

/-- One element of a VCVT, of an exact value scaled by 2^sc (R208, R209, R215, R287). -/
def cvtElem (fmt : Fmt) (other : BitVec 4) (kind : BitVec 3) (x : Nat) (sc : Int) : Rounded :=
  let n := fmtWidth fmt
  let e := fmtEs fmt
  let w := if other.getLsbD 0 then 8 else 32
  match kind.toNat with
  | 0 => roundScaled (decodePat x (fmtWidth other) (fmtEs other)) sc n e
  | 1 => ieeeToPosit x 8 23 n e sc
  | 2 => ieeeToPosit x 5 10 n e sc
  | 3 => positToIeee (decodePat x n e) 8 23
  | 4 => positToIeee (decodePat x n e) 5 10
  | 5 => roundScaled (some (signedOf x w * 2 ^ fxBits)) sc n e
  | _ => toIntSat (decodePat x n e) w

/-- A T6 source lane holds bits above its five elements (R201). -/
def State.badT6 (s : State) (i : Instr) (h : Head) (src : BitVec 4) : Bool :=
  (src == 12 || src == 13) && (lanesIn (s.activeLanes i h)).any (fun l =>
    ((s.sources i).getD 0 []).any (fun r => decide (2 ^ 30 ≤ (r.lane l).toNat)))

/-- VCVT. R287. -/
def execVcvt (h : Head) (lgm : Lgm) (fmt : Fmt) (vd va vs : VNum) (scaled : Bool) (other : BitVec 4) (ha hb : Bool)
    (kind : BitVec 3) (sel : BitVec 2) (s : State) : Host.Outcome State Fault Refusal :=
  let i := Instr.vcvt h lgm fmt vd va vs scaled other ha hb kind sel
  let w := cvtWidths fmt other kind
  let q := min (32 / w.1) (32 / w.2)
  s.issueV i (trapIf (kind == 0 && s.badT6 i h other) (s.synTrap i .format)) (fun t =>
    t.laneOp i h vd 1 3 true 0 (fun _ ws =>
      let sc := if scaled then scaleByte (wordOf ws 1) sel else 0
      let rs := (List.range q).map (fun j => cvtElem fmt other kind (elemOf (wordOf ws 0) w.1 j) sc)
      { words := [BitVec.ofNat 32 (laneOf w.2 (rs.map (·.pat)))], jf := rs.foldl (fun a r => a ||| r.jf 0) 0 }))

/-- VQNT. R289: elements into vd, the scale byte into vs, both landing together. -/
def execVqnt (h : Head) (lgm : Lgm) (fmt : Fmt) (vd va vs : VNum) (src : BitVec 4) (ha : Bool) (sel : BitVec 2) (s : State) :
    Host.Outcome State Fault Refusal :=
  let i := Instr.vqnt h lgm fmt vd va vs src ha sel
  let n := fmtWidth fmt
  s.issueV i [] (fun t =>
    let os := t.sources i
    let active := t.activeLanes i h
    let poison := active &&& poisonOf os
    let qs := (lanesIn active).map (fun l =>
      (l, vqnt (((os.map (fun o => (o.map (fun r => decodeLane (r.lane l) src)).flatten)).flatten)) n (fmtEs fmt)))
    let out := qs.map (fun x => (x.1,
      { words := [BitVec.ofNat 32 (laneOf n (x.2.elems.map (·.pat)))]
        jf := x.2.elems.foldl (fun a r => a ||| r.jf 0)
          (BitVec.ofNat 64 (x.2.zb.toNat * 2 ^ 16 + x.2.nb.toNat * 2 ^ 17 + x.2.scl.toNat * 2 ^ 18)) : LaneResult }))
    let bytes := vectorOf (qs.map (fun x => (x.1, x.2.scale.toNat * 2 ^ (8 * sel.toNat))))
    let c := t.cur.pushLanes vd 1 (t.groups i) active out poison 4
    let c1 := if active = 0 then c else c.push 4 (.scale vs (t.groups i) active sel.toNat bytes)
    t.withCur (c1.pushJF (laneFlags out true poison 1) 4))

/-- VSCL. R288. -/
def execVscl (h : Head) (lgm : Lgm) (fmt : Fmt) (vd va vs : VNum) (ha hb : Bool) (sel : BitVec 2) (s : State) :
    Host.Outcome State Fault Refusal :=
  let i := Instr.vscl h lgm fmt vd va vs ha hb sel
  let k := s.issue.jo
  s.issueV i [] (fun t => t.laneOp i h vd (k + 1) 3 true 0 (fun _ ws =>
    byElement fmt (k + 1) (fun j => (valsOf ws 0 fmt j).map (fun x =>
      roundScaled x (scaleByte (wordOf ws 1) sel) (fmtWidth fmt) (fmtEs fmt)))))

/-! ## Reductions and masked rescale (R290 to R292) -/

/-- VRED. R290: each lane group on its own. -/
def execVred (h : Head) (lgm : Lgm) (fmt : Fmt) (vd va : VNum) (ha : Bool) (s : State) :
    Host.Outcome State Fault Refusal :=
  let i := Instr.vred h lgm fmt vd va ha
  let k := s.issue.jo
  s.issueV i [] (fun t =>
    let rs := (t.sources i).getD 0 []
    let active := t.activeLanes i h
    let group (l : Nat) : LaneMask := groupLanes (BitVec.ofNat 8 (2 ^ (l / 16)))
    let poison := buildMask active (fun l => rs.any (fun r => r.poison &&& active &&& group l != 0))
    let sums := (List.range 8).map (fun g => rs.map (fun r =>
      roundFx (sumFx (((lanesIn (active &&& group (16 * g))).map (fun l => decodeLane (r.lane l) fmt)).flatten))
        (fmtWidth fmt) (fmtEs fmt)))
    let out := (lanesIn active).map (fun l =>
      let x := sums.getD (l / 16) []
      (l, { words := x.map (fun r => BitVec.ofNat 32 r.pat), jf := flagsFrom 0 x : LaneResult }))
    t.withCur ((t.cur.pushLanes vd (k + 1) (t.groups i) active out poison 8).pushJF (laneFlags out true poison (k + 1)) 8))

/-- The traps of a VMRED (R291): the space, the alignment, the extents and the checks of R151; poison of its scalars. -/
def State.reduceTraps (s : State) (i : Instr) (dn dm : DNum) (k : SRegNo) : List Trap :=
  let p := (s.cur.s k).toNat % 2 ^ 16
  let st := (s.cur.s k).toNat / 2 ^ 16
  let last := (p - 1) * st + 7
  let one (d : DNum) (size align : Nat) : List Trap :=
    let x := s.cur.d d
    if s.cur.dp d then []
    else
      let r := s.resolve x 0 (if p = 0 then 0 else size) align .load (d == 15)
      s.locTraps i 0 r ++ trapIf (spaceOf x != 1 || r.1.control) (s.addrTrap i x .access)
  s.poisonIf i (s.cur.dp dn || s.cur.dp dm || s.cur.sp k) ++ one dn (64 * last + 64) 64 ++ one dm (last / 8 + 1) 1

/-- VMRED. R291: an access of the own cluster; its sums land at I + 16. -/
def execVmred (h : Head) (lgm : Lgm) (fmt : Fmt) (vd : VNum) (dn dm : DNum) (k : SRegNo) (s : State) :
    Host.Outcome State Fault Refusal :=
  let i := Instr.vmred h lgm fmt vd dn dm k
  s.issueAccess i (s.reduceTraps i dn dm k) (fun t =>
    let c := t.cur
    let x := (c.s k).toNat
    let l := (t.resolve (c.d dn) 0 1 1 .load false).1
    let m := (t.resolve (c.d dm) 0 1 1 .load false).1
    t.withCur (c.access 0 l.site (.reduce
      { fmt := fmt
        vd := vd
        lgm := t.groups i
        mask := t.activeLanes i h
        data := l.site
        doff := l.off
        valid := m.site
        moff := m.off
        p := x % 2 ^ 16
        stride := x / 2 ^ 16
        land := c.clk + 16 })))

/-- VMSCL. R292. -/
def execVmscl (h : Head) (lgm : Lgm) (fmt : Fmt) (vd va vb : VNum) (k : SRegNo) (ha hb : Bool) (s : State) :
    Host.Outcome State Fault Refusal :=
  let i := Instr.vmscl h lgm fmt vd va vb k ha hb
  s.issueV i [] (fun t => t.laneOp i h vd 1 5 true (if t.cur.sp k then BitVec.allOnes 128 else 0) (fun _ ws =>
    byElement fmt 1 (fun j =>
      [{ rescale ((valsOf ws 0 fmt j).getD 0 none) (t.cur.s k).toNat (wordOf ws 1) (fmtWidth fmt) (fmtEs fmt) with nar := false }])))

end Sys2Proof.Machine
end

