-- ==== Sys2Proof/Machine/Access.lean ====
section
/-!
DEFINITION. What the accesses of the L and M slots share (14_isa_matrix_memory_engines R325, R326): the checks of their
addresses, loads into registers or result queues, stores, and requests to other slices.
-/
namespace Sys2Proof.Machine
open Sys2Proof

/-- A run of bytes that a syllable reaches: lane, displacement from its address, and length. -/
structure Reach where
  lane : Nat
  rel  : Int
  size : Nat
  deriving DecidableEq, Repr

/-- The place of a run of bytes, with its faults (R150, R151): dN + OFF is formed first, and the displacement is added to it, each
within the field. -/
def State.placeAt (s : State) (da : DNum) (off : BitVec 24) (align : Nat) (k : Kind) (r : Reach) : Loc × List Cause :=
  let a := addField (s.cur.d da) off.toInt
  let x := s.resolve a.1 r.rel r.size align k (da == 15)
  (x.1, faultIf a.2 .bounds ++ x.2)

/-- The address of a syllable, without the faults of its length. -/
def State.baseLoc (s : State) (da : DNum) (off : BitVec 24) (k : Kind) : Loc := (s.placeAt da off 1 k ⟨0, 0, 1⟩).1

/-- The faults of the runs of a syllable (R151); ctl says that the control word is legal (R327). -/
def State.reachTraps (s : State) (i : Instr) (da : DNum) (off : BitVec 24) (align : Nat) (k : Kind) (ctl : Bool)
    (rs : List Reach) : List Trap :=
  (rs.map (fun r =>
    let x := s.placeAt da off align k r
    s.locTraps i 0 x ++ trapIf (x.1.control && !ctl) (s.addrTrap i x.1.addr .access))).flatten

/-- The faults of a syllable that delivers a value (R325, R326): with a poisoned address it has no access. -/
def State.loadTraps (s : State) (i : Instr) (da : DNum) (off : BitVec 24) (align : Nat) (k : Kind) (ctl : Bool)
    (q : Option QNum) (rs : List Reach) : List Trap :=
  (if s.cur.dp da then []
   else s.reachTraps i da off align k ctl rs ++
     (match rs.head?, q with
       | some r, none => let l := (s.placeAt da off align k r).1; trapIf (!l.fixed) (s.addrTrap i l.addr .access)
       | _, _ => [])) ++
  (match q with | some k => s.queueTraps i k | none => [])

/-- The pieces of runs of bytes, by their offsets. -/
def State.piecesOf (s : State) (da : DNum) (off : BitVec 24) (rs : List Reach) : List Piece :=
  rs.map (fun r => { lane := r.lane, off := (s.placeAt da off 1 .load r).1.off, size := r.size })

/-- Where a queue's entry is filled at once: nothing was read, or the address was poisoned. -/
def State.fillNow (s : State) (k : QNum) (lat kind : Nat) (lanes poison : LaneMask) : State :=
  let r := s.nextReq
  let s1 := s.openQueue k r 1 kind lanes
  { s1 with cur := s1.cur.fillQueue k r (fun e => e.fill (s.cur.clk + lat) false 32 [] poison 0), nextReq := r + 1 }

/-- A request of the issuing context to the slice of a location. -/
def State.sendTo (s : State) (l : Loc) (ask : Ask) (sink : Sink) (slice : Option Nat) (acquire strong : Bool) : State :=
  let h := l.holders.headD (s.cur.tile, s.cur.slot)
  s.send h.1 h.2 l.addr ask sink slice acquire strong

/-! ## The bank cycles of a syllable (R156) -/

/-- The cycles by which a run of bytes comes before the last bank cycle of its syllable: those of its last word. -/
def runEarly (a : Alloc) (cs : List (Nat × Nat)) (r : Nat × Nat) : Nat :=
  (((a.words r.1 r.2).map (fun w => ((cs.find? (fun x => x.1 == w)).map (·.2)).getD 0)).min?).getD 0

/-- Things with runs of bytes, in groups of one bank cycle each: how long before I + 4, and which. What is not done by the issue, of those
whose cycles lie before it, is served in the cycle after it (log entry 12). -/
def State.byCycle (s : State) {α : Type} (l : Loc) (run : α → Nat × Nat) (xs : List α) : List (Nat × List α) :=
  match (if l.space = 1 then s.siteAlloc l.site else none) with
  | none => [(0, xs)]
  | some (_, a) =>
    let cs := wordCycles ((xs.map (fun x => a.words (run x).1 (run x).2)).flatten)
    let ys := xs.map (fun x => (min 3 (runEarly a cs (run x)), x))
    ([3, 2, 1, 0].map (fun k => (k, (ys.filter (fun y => y.1 == k)).map (·.2)))).filter (fun g => !g.2.isEmpty)

/-- The part of a sink that the lanes of a group fill. -/
def Sink.forLanes (k : Sink) (lanes : List Nat) : Sink :=
  match k with
  | .vector v lgm mask land => .vector v lgm (mask &&& BitVec.ofNat 128 (laneMaskOf (fun l => lanes.contains l) 128)) land
  | _ => k

/-- An access of the syllable that issues now, some cycles before I + 4. -/
def Ctx.accessEarly (c : Ctx) (early : Nat) (l : Loc) (act : Act) (acquire strong : Bool) : Ctx :=
  c.addAccess { c.newAccess (c.clk + 4 - early) l.site act with acquire := acquire, strong := strong }

/-- The value of a run of bytes of the own cluster that bank cycles before the issue have read in full (R156). -/
def State.known (s : State) (l : Loc) (p : Piece) : Option Nat :=
  let as := s.siteAddrs l.site p.off p.size
  let bs := as.filterMap (fun a => (s.cur.early.find? (fun x => x.1 == a)).map (·.2))
  if as.length ≤ bs.length ∧ !as.isEmpty then some (natOfBytes bs) else none

/-- The bank cycles of the pieces of a load (R156): those that are still to come, and what those before the issue have read, by lane. -/
def State.bankGroups (s : State) (l : Loc) (ps : List Piece) : List (Nat × List Piece) × List (Nat × Nat) :=
  let gs := s.byCycle l (fun p => (p.off, p.size)) ps
  if s.cur.early.isEmpty then (gs, [])
  else ((gs.map (fun g => (g.1, g.2.filter (fun p => (s.known l p).isNone)))).filter (fun g => !g.2.isEmpty),
    ps.filterMap (fun p => (s.known l p).map (fun x => (p.lane, x))))

/-- A load of the own cluster in its bank cycles. -/
def Ctx.loadOwn (c : Ctx) (l : Loc) (gs : List (Nat × List Piece) × List (Nat × Nat)) (sink : Sink) (acquire : Bool) : Ctx :=
  let c1 := if gs.2.isEmpty then c else { c.deliver c.seq (sink.forLanes (gs.2.map (·.1))) gs.2 with seq := c.seq + 1 }
  gs.1.foldl (fun d g => d.accessEarly g.1 l (.load g.2 (sink.forLanes (g.2.map (·.lane)))) acquire acquire) c1

/-- The write of one syllable and an earlier one of its bundle, on the same bytes: the bytes of the later stay (R172). -/
def Part.without (p : Part) (off size : Nat) : List Part :=
  if off + size ≤ p.off ∨ p.off + p.size ≤ off then [p]
  else
    (if p.off < off then [{ p with size := off - p.off, value := p.value % 2 ^ (8 * (off - p.off)) }] else []) ++
    (if off + size < p.off + p.size then
      [⟨off + size, p.off + p.size - (off + size), p.value / 2 ^ (8 * (off + size - p.off))⟩] else [])

/-- An earlier write of the bundle leaves the bytes that runs of a later one cover (R172). -/
def Ask.without (a : Ask) (runs : List (Nat × Nat)) : Ask :=
  match a with
  | .store ps => .store (runs.foldl (fun l r => (l.map (fun p => p.without r.1 r.2)).flatten) ps)
  | x => x

/-- Where a request goes, but for its offset: space and die, cluster, allocation and task, or peer. -/
def Request.target (r : Request) : Nat :=
  let n := r.addr.toNat
  match n / 2 ^ 60 with
  | 0 => n / 2 ^ 57
  | 5 => n / 2 ^ 52
  | sp => ((sp * 32 + n / 2 ^ 48 % 32) * 1024 + r.tile) * 4 + r.slot

/-- The requests sent since a state leave alone none of the bytes that earlier syllables of the bundle write: those lose them (R172). -/
def State.overwrite (s : State) (n : Nat) : State :=
  let new := s.requests.filter (fun r => decide (n ≤ r.id))
  if s.requests.any (fun r => decide (r.id < n) && r.uid == s.cur.uid && r.engine.isNone && r.bundle == s.cur.bundle && !r.ask.writes.isEmpty) then
    { s with requests := s.requests.map (fun r =>
        if r.id < n ∧ r.uid = s.cur.uid ∧ r.engine = none ∧ r.bundle = s.cur.bundle then
          { r with ask := r.ask.without (((new.filter (fun x => x.target == r.target)).map (fun x => x.ask.writes)).flatten) }
        else r) }
  else s

/-- A load of pieces: from the own cluster in its bank cycle, or as one request, or one for each part in space 5
(R47); into a register, or into a queue as an entry of a kind with its lanes (R132, R325). -/
def State.loadFrom (s : State) (l : Loc) (parts : List (List Piece)) (reg : Sink) (q : Option QNum) (kind : Nat)
    (lanes : LaneMask) (bits : Nat) (signed acquire : Bool) (lat : Nat) : State :=
  match q with
  | none => s.withCur (s.cur.loadOwn l (s.bankGroups l parts.flatten) reg acquire)
  | some k =>
    if parts.flatten.isEmpty then s.fillNow k lat kind lanes 0
    else
      let r := s.nextReq
      let t := if acquire then s.oweLda r else s
      if l.fixed then
        let gs := s.bankGroups l parts.flatten
        let s1 := t.openQueue k r (gs.1.length + (if gs.2.isEmpty then 0 else 1)) kind lanes
        { s1.withCur (s1.cur.loadOwn l gs (.queue k r signed bits (s.cur.clk + lat)) acquire) with nextReq := r + 1 }
      else
        let asks := if l.space = 5 then parts else [parts.flatten]
        asks.foldl (fun u ps => u.sendTo l (.load ps) (.queue k r signed bits 0) none acquire acquire) (t.openQueue k r asks.length kind lanes)

/-- The TSM bit of the slice of a location's writes (R148, R177). -/
def Loc.slice (l : Loc) : Option Nat :=
  match l.space with
  | 0 => some (tsmMemc l.die)
  | 1 | 2 => some (tsmClus l.cluster)
  | 5 => some tsmFab
  | _ => none

/-- A store of parts: in the own cluster's bank cycle, at every member of a group, or as requests (R159, R160, R325). -/
def State.storeTo (s : State) (l : Loc) (parts : List (List Part)) (strong : Bool) : State :=
  if parts.flatten.isEmpty then s
  else if l.fixed then
    let s1 := s.withCur ((s.byCycle l (fun p => (p.off, p.size)) parts.flatten).foldl (fun c g =>
      c.accessEarly g.1 l (.store g.2) false strong) s.cur)
    s1.markTsm l.slice.toList
  else if l.space = 4 then
    let s1 := l.holders.foldl (fun t h =>
      t.send h.1 h.2 l.addr (.store parts.flatten) .discard (some (tsmClus (clusterOf h.1))) false strong) s
    (s1.overwrite s.nextReq).markTsm (distinct (l.holders.map (fun h => tsmClus (clusterOf h.1))))
  else
    let asks := if l.space = 5 then parts else [parts.flatten]
    ((asks.foldl (fun t ps => t.sendTo l (.store ps) .discard l.slice false strong) s).overwrite s.nextReq).markTsm l.slice.toList

/-- Atomics of the own cluster in their bank cycles. -/
def Ctx.atomicOwn (c : Ctx) (l : Loc) (gs : List (Nat × List Atom)) (sink : Sink) : Ctx :=
  gs.foldl (fun d g => d.accessEarly g.1 l (.atomic g.2 sink) false true) c

/-- Atomics: in the own cluster's bank cycle, or each as a request (R158, R332, R335). -/
def State.atomicTo (s : State) (l : Loc) (atoms : List Atom) (reg : Sink) (q : Option QNum) (kind : Nat) : State :=
  let s1 := s.markTsm (if atoms.isEmpty then [] else l.slice.toList)
  match q with
  | none =>
    if l.fixed then (if atoms.isEmpty then s else s1.withCur (s1.cur.atomicOwn l (s.byCycle l Atom.run atoms) reg))
    else (atoms.foldl (fun t a => t.sendTo l (.atomic a) .discard l.slice false true) s1).overwrite s.nextReq
  | some k =>
    let r := s.nextReq
    let s2 := s1.openQueue k r atoms.length kind 1
    if l.fixed then
      { s2.withCur (s2.cur.atomicOwn l (s.byCycle l Atom.run atoms) (.queue k r false 32 (s.cur.clk + 10))) with nextReq := r + 1 }
    else (atoms.foldl (fun t a => t.sendTo l (.atomic a) (.queue k r false 32 0) l.slice false true) s2).overwrite s.nextReq

/-- The queue that Q and DATA name. -/
def queueOf (q : Bool) (data : BitVec n) : Option QNum := if q then some (data.setWidth 2) else none

/-- The lane groups in which a lane is active. -/
def groupsIn (m : LaneMask) : List Nat := (List.range 8).filter (fun g => m.extractLsb' (16 * g) 16 != 0)

/-- The runs of bytes of lanes at a pitch. -/
def laneReach (m : LaneMask) (pitch : Int) (size : Nat) : List Reach :=
  (lanesIn m).map (fun (l : Nat) => { lane := l, rel := Int.ofNat l * pitch, size := size })

/-- The blocks that the active lanes of LDV and STV reach (R328). -/
def blockReach (m : LaneMask) : List Reach := (groupsIn m).map (fun (g : Nat) => { lane := 16 * g, rel := Int.ofNat (64 * g), size := 64 })

/-- The lanes of each lane group. -/
def byGroup (m : LaneMask) : List (List Nat) := (groupsIn m).map (fun g => (lanesIn m).filter (fun l => l / 16 == g))

end Sys2Proof.Machine
end

