-- ==== Sys2Proof/Machine/MemoryOps.lean ====
section
/-!
DEFINITION. Loads, stores, fences and prefetches of the L class (14_isa_matrix_memory_engines R325 to R331, R336, R337).
-/
namespace Sys2Proof.Machine
open Sys2Proof

/-! ## Shared operations -/

/-- The bytes of WIDTH (R239). -/
def widthBytes (w : BitVec 2) : Nat := 2 ^ w.toNat

/-- Where a load of one scalar or pair goes at the fixed latency. -/
def scalarSink (data : VNum) (width : BitVec 2) (signed : Bool) (land : Nat) : Sink :=
  if width = 3 then .pair (scalarOf data) land else .scalar (scalarOf data) (8 * widthBytes width) signed land

/-- A load whose address is poisoned: no access, and its destination is poisoned (R326). -/
def State.poisonScalar (s : State) (q : Option QNum) (data : VNum) (width : BitVec 2) : State :=
  match q with
  | some k => s.fillNow k 8 (if width = 3 then 1 else 0) 1 1
  | none =>
    if width = 3 then s.withCur (s.cur.pushD (BitVec.ofNat 4 (data.toNat / 2)) 0 true 8)
    else s.withCur (s.cur.pushS (scalarOf data) 0 true 8)

/-- The data of a scalar store, and its poison. -/
def Ctx.storeData (c : Ctx) (data : VNum) (width : BitVec 2) : DWord × Bool :=
  if width = 3 then (c.d (BitVec.ofNat 4 (data.toNat / 2)), c.dp (BitVec.ofNat 4 (data.toNat / 2)))
  else ((c.s (scalarOf data)).setWidth 64, c.sp (scalarOf data))

/-- A load of one scalar or pair (R327, R331). -/
def State.loadScalar (s : State) (i : Instr) (da : DNum) (off : BitVec 24) (width : BitVec 2) (signed : Bool) (data : VNum)
    (q : Bool) (k : Kind) : Host.Outcome State Fault Refusal :=
  let n := widthBytes width
  let rs : List Reach := [⟨0, 0, n⟩]
  s.issueAccess i (s.loadTraps i da off n k (k == .load && width == 2) (queueOf q data) rs) (fun t =>
    if t.cur.dp da then t.poisonScalar (queueOf q data) data width
    else t.loadFrom (t.baseLoc da off k) [t.piecesOf da off rs] (scalarSink data width signed (t.cur.clk + 8))
      (queueOf q data) (if width = 3 then 1 else 0) 1 (8 * n) signed (k == .acquire) 8)

/-- A store to the allocation control word that R153 turns away. -/
def State.controlTraps (s : State) (i : Instr) (l : Loc) (x : DWord) : List Trap :=
  if !l.control then []
  else
    let z := x.toNat % 8
    let size := ((s.cur.alloc l.atag).map (·.size)).getD 0
    trapIf (x.toNat % 2 ^ 32 / 8 != 0 || z == 7 || (z != 0 && size * 64 % 2048 != 0)) (s.addrTrap i l.addr .access)

/-- The faults of a scalar store (R151, R153, R326). -/
def State.storeTraps (s : State) (i : Instr) (da : DNum) (off : BitVec 24) (width : BitVec 2) (data : VNum) (k : Kind) :
    List Trap :=
  let n := widthBytes width
  let x := s.cur.storeData data width
  let l := (s.placeAt da off n k ⟨0, 0, n⟩).1
  s.poisonIf i (s.cur.dp da || x.2) ++
    (if s.cur.dp da then [] else s.reachTraps i da off n k (k == .store && width == 2) [⟨0, 0, n⟩] ++
      (if x.2 then [] else s.controlTraps i { l with control := l.control && width == 2 } x.1))

/-- The store of one scalar or pair. -/
def State.storeScalar (s : State) (da : DNum) (off : BitVec 24) (width : BitVec 2) (data : VNum) (k : Kind) : State :=
  let n := widthBytes width
  let l := (s.placeAt da off n k ⟨0, 0, n⟩).1
  s.storeTo l [[{ off := l.off, size := n, value := (s.cur.storeData data width).1.toNat % 2 ^ (8 * n) }]] (k == .release)

/-- The part of a store at a run of bytes. -/
def State.partAt (s : State) (da : DNum) (off : BitVec 24) (r : Reach) (value : Nat) : Part :=
  { off := (s.placeAt da off 1 .store r).1.off, size := r.size, value := value }

/-- A vector load whose address is poisoned (R326). -/
def State.poisonVector (s : State) (q : Option QNum) (v : VNum) (groups : BitVec 8) (m : LaneMask) : State :=
  match q with
  | some k => s.fillNow k 8 2 m m
  | none => s.withCur (s.cur.pushV v groups m 0 m 8)

/-! ## Scalar loads and stores (R327) -/

/-- LD. R327. -/
def execLd (h : Head) (da : DNum) (off : BitVec 24) (width : BitVec 2) (sx : Bool) (data : VNum) (q : Bool) (s : State) :
    Host.Outcome State Fault Refusal :=
  s.loadScalar (.ld h da off width sx data q) da off width sx data q .load

/-- ST. R327. -/
def execSt (h : Head) (da : DNum) (off : BitVec 24) (width : BitVec 2) (data : VNum) (s : State) :
    Host.Outcome State Fault Refusal :=
  let i := Instr.st h da off width data
  s.issueAccess i (s.storeTraps i da off width data .store) (fun t => t.storeScalar da off width data .store)

/-! ## Vector loads and stores (R328, R329) -/

/-- LDV. R328: the 64-byte blocks of the lane groups that have an active lane. -/
def execLdv (h : Head) (da : DNum) (off : BitVec 24) (lgm : Lgm) (data : VNum) (q : Bool) (s : State) :
    Host.Outcome State Fault Refusal :=
  let i := Instr.ldv h da off lgm data q
  let m := s.activeLanes i h
  s.issueAccess i (s.loadTraps i da off 64 .load false (queueOf q data) (blockReach m)) (fun t =>
    if t.cur.dp da then t.poisonVector (queueOf q data) data (t.groups i) m
    else t.loadFrom (t.baseLoc da off .load)
      ((byGroup m).map (fun ls => t.piecesOf da off (ls.map (fun (l : Nat) => ⟨l, Int.ofNat (4 * l), 4⟩))))
      (.vector data (t.groups i) m (t.cur.clk + 8)) (queueOf q data) 2 m 32 false false 8)

/-- The runs of neighbouring lanes of a list in rising order; the run being built comes first. -/
def laneRuns : List Nat → List Nat → List (List Nat)
  | cur, [] => if cur.isEmpty then [] else [cur]
  | cur, l :: r =>
    match cur.getLast? with
    | some k => if l = k + 1 then laneRuns (cur ++ [l]) r else cur :: laneRuns [l] r
    | none => laneRuns [l] r

/-- STV. R328, R371: in space 5 a store write for each lane group. One carries a run of bytes, so that a group with gaps between its active
lanes takes one for each run of them (log entry 37). -/
def execStv (h : Head) (da : DNum) (off : BitVec 24) (lgm : Lgm) (data : VNum) (s : State) :
    Host.Outcome State Fault Refusal :=
  let i := Instr.stv h da off lgm data
  let m := s.activeLanes i h
  let v := s.cur.v data
  s.issueAccess i (s.poisonIf i (m != 0 && (s.cur.dp da || v.poison &&& m != 0)) ++
      (if s.cur.dp da then [] else s.reachTraps i da off 64 .store false (blockReach m))) (fun t =>
    let part (l : Nat) : Part := t.partAt da off ⟨l, Int.ofNat (4 * l), 4⟩ (laneWord v.bits l).toNat
    let whole (g : Nat) : Part :=
      t.partAt da off ⟨16 * g, Int.ofNat (64 * g), 64⟩ ((v.bits.extractLsb' (512 * g) 512).toNat)
    t.storeTo (t.baseLoc da off .store) (((byGroup m).map (fun ls =>
      if ls.length = 16 then [[whole (ls.headD 0 / 16)]] else (laneRuns [] ls).map (fun r => r.map part))).flatten) false)

/-- The lanes that LDVS and STVS reach, at a pitch of a scalar (R329). -/
def State.stridedReach (s : State) (m : LaneMask) (stride : SRegNo) (ew : BitVec 2) : List Reach :=
  laneReach m (s.cur.s stride).toInt (4 / 2 ^ ew.toNat)

/-- LDVS. R329. -/
def execLdvs (h : Head) (da : DNum) (off : BitVec 24) (stride : SRegNo) (ew : BitVec 2) (data : VNum) (q : Bool) (s : State) :
    Host.Outcome State Fault Refusal :=
  let i := Instr.ldvs h da off stride ew data q
  let m := s.activeLanes i h
  let rs := s.stridedReach m stride ew
  let poisoned := s.cur.dp da || s.cur.sp stride
  s.issueAccess i (if s.cur.sp stride then (match queueOf q data with | some k => s.queueTraps i k | none => [])
      else s.loadTraps i da off (4 / 2 ^ ew.toNat) .load false (queueOf q data) rs) (fun t =>
    if poisoned then t.poisonVector (queueOf q data) data (t.groups i) m
    else t.loadFrom (t.baseLoc da off .load) ((t.piecesOf da off rs).map (fun p => [p]))
      (.vector data (t.groups i) m (t.cur.clk + 8)) (queueOf q data) 2 m 32 false false 8)

/-- STVS. R329: a repeated place keeps the highest lane. -/
def execStvs (h : Head) (da : DNum) (off : BitVec 24) (stride : SRegNo) (ew : BitVec 2) (data : VNum) (s : State) :
    Host.Outcome State Fault Refusal :=
  let i := Instr.stvs h da off stride ew data
  let m := s.activeLanes i h
  let v := s.cur.v data
  let rs := s.stridedReach m stride ew
  let poisoned := s.cur.dp da || s.cur.sp stride
  s.issueAccess i (s.poisonIf i (m != 0 && (poisoned || v.poison &&& m != 0)) ++
      (if poisoned then [] else s.reachTraps i da off (4 / 2 ^ ew.toNat) .store false rs)) (fun t =>
    t.storeTo (t.baseLoc da off .store) (rs.map (fun r =>
      [t.partAt da off r ((laneWord v.bits r.lane).toNat % 2 ^ (8 * r.size))])) false)

/-! ## Quire images (R330) -/

/-- LDQ. R330. -/
def execLdq (h : Head) (da : DNum) (off : BitVec 24) (lgm : Lgm) (q : QNum) (s : State) : Host.Outcome State Fault Refusal :=
  let i := Instr.ldq h da off lgm q
  let m := s.activeLanes i h
  let rs := laneReach m 72 72
  s.issueAccess i (if s.cur.dp da then [] else s.reachTraps i da off 8 .own false rs) (fun t =>
    if t.cur.dp da then
      t.withCur (t.cur.pushQ ((lanesIn m).map (fun l => (q.toNat * 128 + l, QuireOp.set Quire.poisoned))) 10)
    else t.loadFrom (t.baseLoc da off .own) [t.piecesOf da off rs] (.quires q (t.cur.clk + 10)) none 2 m 576 false false 10)

/-- STQ. R330, R371: in space 5 two store writes for each lane. -/
def execStq (h : Head) (da : DNum) (off : BitVec 24) (lgm : Lgm) (q : QNum) (s : State) : Host.Outcome State Fault Refusal :=
  let i := Instr.stq h da off lgm q
  let m := s.activeLanes i h
  let rs := laneReach m 72 72
  let l := s.baseLoc da off .store
  s.issueAccess i (s.poisonIf i (m != 0 && s.cur.dp da) ++
      (if s.cur.dp da then [] else s.reachTraps i da off 8 .store false rs ++
        trapIf (m != 0 && l.space == 3) (s.addrTrap i l.addr .access))) (fun t =>
    t.storeTo l ((rs.map (fun r =>
      let x := (t.cur.quire q r.lane).image.toNat
      [[t.partAt da off { r with size := 64 } (x % 2 ^ 512)],
       [t.partAt da off { r with rel := r.rel + 64, size := 8 } (x / 2 ^ 512)]])).flatten) false)

/-! ## Strong loads and stores (R331) -/

/-- LDA. R178, R331. -/
def execLda (h : Head) (da : DNum) (off : BitVec 24) (scope : Scope) (width : BitVec 2) (data : VNum) (q : Bool) (s : State) :
    Host.Outcome State Fault Refusal :=
  s.loadScalar (.lda h da off scope width data q) da off width false data q .acquire

/-- STL. R177, R179, R331: the store waits for its release. -/
def execStl (h : Head) (da : DNum) (off : BitVec 24) (scope : Scope) (width : BitVec 2) (data : VNum) (s : State) :
    Host.Outcome State Fault Refusal :=
  let i := Instr.stl h da off scope width data
  let n := widthBytes width
  let l := (s.placeAt da off n .release ⟨0, 0, n⟩).1
  let bits := l.bits scope.toNat
  let bad := s.storeTraps i da off width data .release
  s.issueWith i (bad ++ (if s.cur.dp da then [] else s.deniedTraps i bits))
    (fun t u => if bad.isEmpty then clearDenied bits t u else u) (fun t =>
    t.holdUntil false (!t.acquiring && t.released scope.toNat bits) (fun u =>
      (u.clearTsm bits).storeScalar da off width data .release))

/-! ## Fences and prefetches (R336, R337) -/

/-- FENCE. R177, R336. -/
def execFence (h : Head) (scope : Scope) (s : State) : Host.Outcome State Fault Refusal :=
  let i := Instr.fence h scope
  let bits := s.fenceBits scope.toNat
  s.issueWith i (s.deniedTraps i bits) (clearDenied bits) (fun t =>
    t.holdUntil false (t.released scope.toNat bits) (fun u => u.clearTsm bits))

/-- DRAIN. R180, R336: the context's later accesses come after its earlier ones. -/
def execDrain (h : Head) (s : State) : Host.Outcome State Fault Refusal :=
  let i := Instr.drain h
  s.issueWith i (s.deniedTraps i allSlices) (clearDenied allSlices) (fun t =>
    t.holdUntil false t.quiet (fun u => u.withCur { u.cur with epoch := u.cur.epoch + 1 }))

/-- A tile's TLB takes a translation of its own die, the newest first, or does not (R165). -/
def State.cacheOwn (s : State) (tile part off : Nat) : State :=
  match s.walkBoth part (dieOf tile) off with
  | none => s
  | some e =>
    if Config.freeBit s.fresh then
      let r := s.tileRec tile
      { s.setTile tile { r with tlb := (e :: r.tlb.filter (fun x => x != e)).take Config.tileTlbEntries } with fresh := s.fresh + 1 }
    else { s with fresh := s.fresh + 1 }

/-- PREF. R165, R337: a space-0 address of the own die may fill the tile's TLB; nothing else happens. -/
def execPref (h : Head) (da : DNum) (off : BitVec 24) (s : State) : Host.Outcome State Fault Refusal :=
  let i := Instr.pref h da off
  s.issueOp i (s.poisonIf i (s.cur.dp da)) (fun t =>
    let x := t.placeAt da off 1 .load ⟨0, 0, 1⟩
    if x.2.isEmpty ∧ x.1.space = 0 ∧ x.1.die = dieOf t.cur.tile then t.cacheOwn t.cur.tile t.cur.part x.1.off else t)

end Sys2Proof.Machine
end

