-- ==== Sys2Proof/Machine/Engine.lean ====
section
/-!
DEFINITION. The E class at issue (06_tile R134 to R136, 08_ordering R184, 14_isa_matrix_memory_engines R338 to R349): the
capture and the checks of commands, and batches.
-/
namespace Sys2Proof.Machine
open Sys2Proof

/-! ## Shared operations -/

/-- A command joins the open batch at I, with its start cycle (R134, R184, R338). In handler mode it enters its queue at once if that has
room (R136). -/
def State.accept (s : State) (eq : QNum) (start : BitVec 12) (cmd : Cmd) : State :=
  let c := s.cur
  let k : Command :=
    { num := c.cmdSeq + 1
      eq := eq
      start := if c.handling then 0 else c.clk + start.toNat
      batch := c.openB.num
      bundle := c.bundle
      handler := c.handling
      cmd := cmd
      closed := false
      owed := 0
      begun := false
      asked := false
      pend := false
      got := []
      flag := none }
  (s.withCur { c with
    cmdSeq := c.cmdSeq + 1
    waiting := c.waiting ++ [k]
    openB := { c.openB with left := c.openB.left + 1, total := c.openB.total + 1 } }).admitHandler

/-- A command that owes an entry of a result queue takes its place at I (R132, R338). -/
def State.acceptQueued (s : State) (eq : QNum) (start : BitVec 12) (q : QNum) (parts : Nat) (f : Nat → Cmd) : State :=
  let r := s.nextReq
  { s.openEntry q r parts 2 (BitVec.allOnes 128) true with nextReq := r + 1 }.accept eq start (f r)

/-- The faults of a pointer of a command over n bytes at an offset (R151, R338): it lies in one of some spaces. -/
def State.cmdTraps (s : State) (i : Instr) (eq : QNum) (d : DNum) (imm : Int) (n align : Nat) (k : Kind) (spaces : List Nat) :
    List Trap :=
  if s.cur.dp d then s.poisonIf i true
  else
    let x := s.cur.d d
    let r := s.resolve x imm n align k (d == 15)
    s.locTraps i eq.toNat r ++ trapIf (r.1.control || !spaces.contains (spaceOf x)) (s.addrTrap i r.1.addr .access)

/-- The faults of a scalar operand of a command: poison, or a value outside its range (R338). -/
def State.rangeTraps (s : State) (i : Instr) (r : SRegNo) (lo hi : Nat) : List Trap :=
  if s.cur.sp r then s.poisonIf i true
  else trapIf (decide ((s.cur.s r).toNat < lo) || decide (hi < (s.cur.s r).toNat)) (s.synTrap i .access)

/-- An ACCESS fault of a pointer when a condition holds. -/
def State.ptrTrap (s : State) (i : Instr) (d : DNum) (bad : Bool) : List Trap :=
  trapIf (bad && !s.cur.dp d) (s.addrTrap i (s.cur.d d) .access)

/-- The greatest length of a command (R340, R343). -/
def maxLen : Nat := 2 ^ 26

/-- The bytes of ESZ (R341). -/
def elemBytes (esz : BitVec 2) : Nat :=
  match esz.toNat with
  | 0 => 1
  | 1 => 2
  | 2 => 4
  | _ => 64

/-- The indices that a command uses (R341). -/
def Ctx.indices (c : Ctx) (idx : VNum) (n : Nat) : List Nat := (List.range n).map (fun l => ((c.v idx).lane l).toNat)

/-- The faults of the scattered side of GTH or SCT (R341): those of its base whatever the count, those of the lanes that it uses. -/
def State.indexTraps (s : State) (i : Instr) (eq : QNum) (base : DNum) (idx : VNum) (count : SRegNo) (esz : BitVec 2) (k : Kind) :
    List Trap :=
  let n := if s.cur.sp count then 0 else min 128 (s.cur.s count).toNat
  let w := elemBytes esz
  s.rangeTraps i count 0 128 ++ s.poisonIf i ((List.range n).any (fun l => (s.cur.v idx).poison.getLsbD l)) ++
    s.cmdTraps i eq base 0 0 w k [0, 1, 2, 3] ++
    (if s.cur.dp base then []
     else ((s.cur.indices idx n).map (fun x => s.cmdTraps i eq base (Int.ofNat (x * w)) w w k [0, 1, 2, 3])).flatten)

/-- Whether two pointers name one target (R343, R344): the same space, and there the same PEER, GIDX, TRANK, or CRANK and TRANK. -/
def sameTarget (a b : DWord) : Bool :=
  let m (x : DWord) : Nat := match spaceOf x with
    | 5 => x.toNat / 2 ^ 52
    | 4 => x.toNat / 2 ^ 53 * 2 + x.toNat / 2 ^ 47 % 2
    | 1 => x.toNat / 2 ^ 45 % 8
    | _ => x.toNat / 2 ^ 53 * 8 + x.toNat / 2 ^ 45 % 8
  spaceOf a == spaceOf b && m a == m b

/-! ## Local commands (R340 to R342) -/

/-- CPY. R340. -/
def execCpy (h : Head) (eq : QNum) (start : BitVec 12) (dst src : DNum) (len : SRegNo) (s : State) :
    Host.Outcome State Fault Refusal :=
  let i := Instr.cpy h eq start dst src len
  let n := (s.cur.s len).toNat
  s.issueOp i (s.rangeTraps i len 0 maxLen ++ s.cmdTraps i eq src 0 n 1 .source [0, 1, 2, 3] ++
      s.cmdTraps i eq dst 0 n 1 .dest [0, 1, 2, 3, 4]) (fun t =>
    t.accept eq start (.cpy (t.cur.d dst) (t.cur.d src) n))

/-- GTH. R341: pk = d0 names the result queue of the engine queue's number. -/
def execGth (h : Head) (eq : QNum) (start : BitVec 12) (dst base : DNum) (idx : VNum) (count : SRegNo) (esz : BitVec 2) (s : State) :
    Host.Outcome State Fault Refusal :=
  let i := Instr.gth h eq start dst base idx count esz
  let n := (s.cur.s count).toNat
  let w := elemBytes esz
  let toQueue := dst == 0
  s.issueOp i (s.indexTraps i eq base idx count esz .source ++
      (if toQueue then trapIf (esz == 3) (s.synTrap i .access) ++ s.queueTraps i eq
       else s.cmdTraps i eq dst 0 (n * w) w .dest [0, 1, 2, 3])) (fun t =>
    let ix := t.cur.indices idx n
    if toQueue then t.acceptQueued eq start eq 1 (fun r => .gth 0 (t.cur.d base) true ix w r)
    else t.accept eq start (.gth (t.cur.d dst) (t.cur.d base) false ix w 0))

/-- SCT. R341: pk = d0 raises ACCESS. -/
def execSct (h : Head) (eq : QNum) (start : BitVec 12) (dst base : DNum) (idx : VNum) (count : SRegNo) (esz : BitVec 2) (s : State) :
    Host.Outcome State Fault Refusal :=
  let i := Instr.sct h eq start dst base idx count esz
  let n := (s.cur.s count).toNat
  let w := elemBytes esz
  s.issueOp i (s.indexTraps i eq base idx count esz .dest ++
      (if dst = 0 then [s.synTrap i .access] else s.cmdTraps i eq dst 0 (n * w) w .source [0, 1, 2, 3])) (fun t =>
    t.accept eq start (.sct (t.cur.d dst) (t.cur.d base) (t.cur.indices idx n) w))

/-- WLD. R342. -/
def execWld (h : Head) (eq : QNum) (start : BitVec 12) (src : DNum) (line count : SRegNo) (s : State) :
    Host.Outcome State Fault Refusal :=
  let i := Instr.wld h eq start src line count
  let l := (s.cur.s line).toNat
  let n := (s.cur.s count).toNat
  s.issueOp i (s.rangeTraps i line 0 2048 ++ s.rangeTraps i count 0 2048 ++
      trapIf (decide (2048 < l + n)) (s.synTrap i .access) ++
      s.cmdTraps i eq src 0 (128 * n) 64 .source [0, 1, 2]) (fun t =>
    t.accept eq start (.wld (t.cur.d src) l n))

/-! ## Remote writes and reads (R343 to R345) -/

/-- RWR. R343. -/
def execRwr (h : Head) (eq : QNum) (start : BitVec 12) (dst src : DNum) (len : SRegNo) (flag : DNum) (lossy : Bool) (mask : DNum)
    (s : State) : Host.Outcome State Fault Refusal :=
  let i := Instr.rwr h eq start dst src len flag lossy mask
  let c := s.cur
  let n := (c.s len).toNat
  let x := c.d dst
  let sp := spaceOf x
  s.issueOp i (s.rangeTraps i len 1 maxLen ++ s.cmdTraps i eq src 0 n 1 .source [0, 1, 2, 3] ++
      s.cmdTraps i eq dst 0 n 1 .dest (if lossy then [5] else [1, 2, 5]) ++
      s.ptrTrap i dst (sp == 1 && x.toNat / 2 ^ 45 % 8 == rankOf c.tile) ++
      s.cmdTraps i eq flag 0 4 4 .dest [1, 2, 5] ++ s.ptrTrap i flag (!c.dp dst && !sameTarget (c.d flag) x) ++
      (if lossy then
        s.cmdTraps i eq mask 0 ((n / 64 + 7) / 8) 1 .dest [5] ++ s.ptrTrap i mask (!c.dp dst && !sameTarget (c.d mask) x) ++
        s.ptrTrap i dst (n % 64 != 0 || x.toNat % 64 != 0) ++ s.ptrTrap i mask ((c.d mask).toNat % 64 != 0)
       else [])) (fun t =>
    t.accept eq start (.rwr x (c.d src) n (c.d flag) lossy (if lossy then c.d mask else 0)))

/-- RWG. R344. -/
def execRwg (h : Head) (eq : QNum) (start : BitVec 12) (dst src : DNum) (len : SRegNo) (flag : DNum) (lossy : Bool) (mask : DNum)
    (s : State) : Host.Outcome State Fault Refusal :=
  let i := Instr.rwg h eq start dst src len flag lossy mask
  let c := s.cur
  let n := (c.s len).toNat
  s.issueOp i (s.rangeTraps i len 1 maxLen ++ s.cmdTraps i eq src 0 n 1 .source [0, 1, 2, 3] ++
      s.cmdTraps i eq dst 0 n 1 .dest [4] ++ s.cmdTraps i eq flag 0 4 4 .dest [4] ++
      s.ptrTrap i flag (!c.dp dst && !sameTarget (c.d flag) (c.d dst)) ++ trapIf lossy (s.synTrap i .access) ++
      (if lossy then s.poisonIf i (c.dp mask) else [])) (fun t =>
    t.accept eq start (.rwg (c.d dst) (c.d src) n (c.d flag)))

/-- RRD. R345. -/
def execRrd (h : Head) (eq : QNum) (start : BitVec 12) (src : DNum) (rq : QNum) (len : SRegNo) (s : State) :
    Host.Outcome State Fault Refusal :=
  let i := Instr.rrd h eq start src rq len
  let n := (s.cur.s len).toNat
  let x := s.cur.d src
  s.issueOp i (s.rangeTraps i len 1 512 ++ s.cmdTraps i eq src 0 n 1 .source [0, 1, 2, 3, 5] ++ s.queueTraps i rq) (fun t =>
    t.acceptQueued eq start rq (if spaceOf x = 5 then (n + 63) / 64 else 1) (fun r => .rrd x n rq r))

/-! ## Collectives (R346) -/

/-- The rank of the issuer among the members of a group, in ascending task index. -/
def State.rankIn (s : State) (g : Nat) : Option Nat :=
  (s.members s.cur g).bind (fun ms =>
    if ms.any (fun d => d.uid == s.cur.uid) then
      some ((ms.filter (fun d => decide (d.sys.taskid.toNat < s.cur.sys.taskid.toNat))).length)
    else none)

/-- The faults that every form of COLL shares (R346). -/
def State.collTraps (s : State) (i : Instr) (eq : QNum) (src : DNum) (len grp : SRegNo) (top : Nat) : List Trap :=
  s.rangeTraps i len 0 (maxLen / 256) ++ s.cmdTraps i eq src 0 (s.cur.s len).toNat 1 .source [0, 1, 2, 3] ++
    s.rangeTraps i grp 0 top

/-- The faults of a pointer of COLL.MOD or COLL.LOSSY: PEER 0 names no module and is exempt from the FABRIC check (R346). -/
def State.collPtr (s : State) (i : Instr) (eq : QNum) (d : DNum) (imm : Int) (n align : Nat) : List Trap :=
  (s.cmdTraps i eq d imm n align .dest [5]).filter (fun t => t.cause != .fabric) ++
    s.ptrTrap i d ((s.cur.d d).toNat / 2 ^ 52 % 256 != 0)

/-- COLL.GRP. R346. -/
def execCollGrp (h : Head) (eq : QNum) (start : BitVec 12) (dst src : DNum) (len : SRegNo) (flag : DNum) (grp : SRegNo) (s : State) :
    Host.Outcome State Fault Refusal :=
  let i := Instr.collGrp h eq start dst src len flag grp
  let c := s.cur
  let n := (c.s len).toNat
  let g := (c.s grp).toNat
  let rank := s.rankIn g
  let gidx (d : DNum) : Nat := (c.d d).toNat / 2 ^ 47 % 2 * 128 + (c.d d).toNat / 2 ^ 53 % 128
  s.issueOp i (s.collTraps i eq src len grp 255 ++ trapIf (!c.sp grp && rank.isNone) (s.synTrap i .access) ++
      s.cmdTraps i eq dst (Int.ofNat (rank.getD 0 * n)) n 1 .dest [4] ++ s.cmdTraps i eq flag 0 4 4 .dest [4] ++
      s.ptrTrap i dst (!c.sp grp && gidx dst != g) ++ s.ptrTrap i flag (!c.sp grp && gidx flag != g)) (fun t =>
    t.accept eq start (.coll (c.d dst) (c.d src) n (c.d flag) 0 g))

/-- COLL.MOD. R346. -/
def execCollMod (h : Head) (eq : QNum) (start : BitVec 12) (dst src : DNum) (len : SRegNo) (flag : DNum) (grp : SRegNo) (s : State) :
    Host.Outcome State Fault Refusal :=
  let i := Instr.collMod h eq start dst src len flag grp
  let c := s.cur
  let n := (c.s len).toNat
  s.issueOp i (s.collTraps i eq src len grp 0 ++ s.collPtr i eq dst (Int.ofNat (s.ownModule * n)) n 1 ++
      s.collPtr i eq flag 0 4 4) (fun t =>
    t.accept eq start (.coll (c.d dst) (c.d src) n (c.d flag) 1 0))

/-- COLL.LOSSY. R346: the flag's address is 64-byte aligned, and the mask area follows it. -/
def execCollLossy (h : Head) (eq : QNum) (start : BitVec 12) (dst src : DNum) (len : SRegNo) (flag : DNum) (grp : SRegNo) (s : State) :
    Host.Outcome State Fault Refusal :=
  let i := Instr.collLossy h eq start dst src len flag grp
  let c := s.cur
  let n := (c.s len).toNat
  s.issueOp i (s.collTraps i eq src len grp 0 ++ trapIf (!c.sp len && n % 64 != 0) (s.synTrap i .access) ++
      s.collPtr i eq dst (Int.ofNat (s.ownModule * n)) n 1 ++ s.ptrTrap i dst ((c.d dst).toNat % 64 != 0) ++
      s.collPtr i eq flag 0 4 64) (fun t =>
    t.accept eq start (.coll (c.d dst) (c.d src) n (c.d flag) 2 0))

/-! ## Joins and batches (R347 to R349) -/

/-- QFENCE. R183, R347. -/
def execQfence (h : Head) (start : BitVec 12) (qmask : BitVec 4) (s : State) : Host.Outcome State Fault Refusal :=
  s.issueOp (.qfence h start qmask) [] (fun t => t.accept 0 start (.qfence qmask))

/-- ECLOSE. R184, R348. -/
def execEclose (h : Head) (s : State) : Host.Outcome State Fault Refusal :=
  s.issueOp (.eclose h) [] (fun t => t.holdUntil false t.cur.mayClose (fun u => u.withCur u.cur.closeBatch))

/-- EWAIT. R184, R348: it closes the open batch, and waits until at most n closed batches are incomplete. -/
def execEwait (h : Head) (n : BitVec 8) (s : State) : Host.Outcome State Fault Refusal :=
  let i := Instr.ewait h n
  s.issueWith i (s.failureTraps i false) dropFailure (fun t =>
    if t.issue.passed then (if t.cur.mayClose then t.withCur t.cur.closeBatch else t)
    else if t.cur.mayClose then
      let u := t.withCur t.cur.closeBatch
      if u.cur.closedB.length ≤ n.toNat then u else u.stall false id
    else t.stall false id)

/-- ESTAT. R349. -/
def execEstat (h : Head) (eq : QNum) (rd : SRegNo) (s : State) : Host.Outcome State Fault Refusal :=
  s.issueOp (.estat h eq rd) [] (fun t =>
    let c := t.cur
    t.withCur (c.pushS rd (BitVec.ofNat 32 ((c.eqs[eq.toNat]'eq.isLt).length % 32 + (c.waiting.filter (fun k => !k.handler)).length % 64 * 2 ^ 5 +
      min 255 c.closedB.length * 2 ^ 11 + min 255 c.openB.total * 2 ^ 19)) false 2))

end Sys2Proof.Machine
end

