-- ==== Sys2Proof/Machine/Mesh.lean ====
section
/-!
DEFINITION. Routes and slots of the module mesh (00_scope R3, 07_memory_translation R159, R369).
-/
namespace Sys2Proof.Machine
open Sys2Proof

/-- The column and the row of a cluster (R3). -/
def meshX (c : Nat) : Nat := c / 16 % 4 * 4 + c % 4
def meshY (c : Nat) : Nat := c / 16 / 4 * 4 + c / 4 % 4

/-- The cycles of a step between columns x and x + 1 (R3, R159). -/
def stepX (x : Nat) : Nat := if x = 3 ∨ x = 7 ∨ x = 11 then 8 else 2

/-- The cycles of a step between rows y and y + 1. -/
def stepY (y : Nat) : Nat := if y = 3 then 24 else 2

/-- The places from a to b, one apart. -/
def between (a b : Nat) : List Nat :=
  if a ≤ b then (List.range (b - a)).map (fun i => a + i) else (List.range (a - b)).map (fun i => a - 1 - i)

/-- Links with the cycle of each, counted from the first: a link's number holds its direction, place and line. -/
def timed (t : Nat) : List (Nat × Nat) → List (Nat × Nat)
  | [] => []
  | (k, d) :: l => (k, t) :: timed (t + d) l

/-- The links of the route from a cluster to another (R159): along the row, then along the column, with the cycle in which the
request reaches each. -/
def routeLinks (a b : Nat) : List (Nat × Nat) :=
  let xa := meshX a
  let xb := meshX b
  let ya := meshY a
  let yb := meshY b
  timed 0 ((between xa xb).map (fun x => ((if xa ≤ xb then 0 else 1) * 1024 + x * 32 + ya, stepX x)) ++
    (between ya yb).map (fun y => ((if ya ≤ yb then 2 else 3) * 1024 + xb * 32 + y, stepY y)))

/-- The cycles of a route (R159). -/
def routeCycles (a b : Nat) : Nat :=
  ((between (meshX a) (meshX b)).map stepX).foldl (· + ·) 0 + ((between (meshY a) (meshY b)).map stepY).foldl (· + ·) 0

/-- The slots of a pair in the revolution (R159, R369): none inside one cluster. -/
def Partition.slotsOf (p : Partition) (a b : Nat) : List Nat :=
  (if a / 16 = b / 16 then [16 * (a % 16) + b % 16] else []) ++
    (p.slots.filter (fun x => x.1 == a && x.2.1 == b)).map (fun x => x.2.2)

/-- The first mesh cycle at or after m that has one of a list of slots (R369). -/
def nextSlot (m : Nat) (slots : List Nat) : Option Nat :=
  match slots.map (fun s => m + (s + 256 - m % 256) % 256) with
  | [] => none
  | x :: l => some (l.foldl min x)

/-- The link cycles that a slot of a pair takes (R369). -/
def slotLinks (a b s : Nat) : List (Nat × Nat) := (routeLinks a b).map (fun x => (x.1, (s + x.2) % 256))

/-- The link cycles of the default slots of the same-die pairs of some clusters (R369). -/
def defaultLinks (clusters : List Nat) : List (Nat × Nat) :=
  (clusters.map (fun a => (clusters.map (fun b =>
    if a = b ∨ a / 16 ≠ b / 16 then [] else slotLinks a b (16 * (a % 16) + b % 16))).flatten)).flatten

/-- The link cycles that the default table and every partition's own pairs take. -/
def State.takenLinks (s : State) : List (Nat × Nat) :=
  defaultLinks (List.range Config.clustersPerModule) ++
    (s.parts.toList.map (fun p => (p.slots.map (fun x => slotLinks x.1 x.2.1 x.2.2)).flatten)).flatten

/-! ## Shares of the links (R84) -/

/-- The links of the mesh, as routeLinks numbers them. -/
def meshLinks : List Nat :=
  ([0, 1].map (fun d => ((List.range 15).map (fun x => (List.range 8).map (fun y => d * 1024 + x * 32 + y))).flatten)).flatten ++
  ([2, 3].map (fun d => ((List.range 16).map (fun x => (List.range 7).map (fun y => d * 1024 + x * 32 + y))).flatten)).flatten

/-- Whether a route between two of some clusters crosses a link (R159). -/
def routesCross (cs : List Nat) (link : Nat) : Bool :=
  let x := link / 32 % 32
  let y := link % 32
  match link / 1024 with
  | 0 => cs.any (fun a => meshY a == y && decide (meshX a ≤ x)) && cs.any (fun b => decide (x < meshX b))
  | 1 => cs.any (fun a => meshY a == y && decide (x < meshX a)) && cs.any (fun b => decide (meshX b ≤ x))
  | 2 => cs.any (fun a => decide (meshY a ≤ y)) && cs.any (fun b => meshX b == x && decide (y < meshY b))
  | _ => cs.any (fun a => decide (y < meshY a)) && cs.any (fun b => meshX b == x && decide (meshY b ≤ y))

/-- Whether the partition was given a slot of a link at its boot. -/
def Partition.given (p : Partition) (x : Nat × Nat) : Bool :=
  ((p.linkShare.find? (fun y => y.1 == x.1)).map (fun y => y.2.getLsbD x.2)).getD false

/-- The slots of a link that a partition holds when it boots (R84): all of a link that no other partition's routes cross; else the
default slots of its own pairs, and of the slots that are neither another's default nor held by a partition that is up those that
Benale gives it (log entry 52). -/
def State.linkSlots (s : State) (p : Partition) (link : Nat) : BitVec 256 :=
  let others := s.parts.toList.filter (fun q => q.pnum != p.pnum && q.wings != 0 && routesCross (q.clusters 0xFF) link)
  let names := (s.parts.toList.filter (fun q => q.pnum == p.pnum || others.any (fun r => r.pnum == q.pnum))).map (·.pnum)
  if others.isEmpty then BitVec.allOnes 256
  else BitVec.ofNat 256 (laneMaskOf (fun t =>
    (defaultLinks (p.clusters 0xFF)).contains (link, t) ||
      (!others.any (fun q => (defaultLinks (q.clusters 0xFF)).contains (link, t) || (q.up && q.given (link, t))) &&
        names.getD (Config.slotDivision link t % names.length) 0 == p.pnum)) 256)

/-- The shares of a partition on every link that its routes cross, as Benale divides them at its boot (R84). -/
def State.divideLinks (s : State) (p : Partition) : List (Nat × BitVec 256) :=
  (meshLinks.filter (routesCross (p.clusters 0xFF))).map (fun k => (k, s.linkSlots p k))

/-- Whether a slot of a link is in a partition's share: it was given it, or it is a default slot of its own pairs (R84). -/
def Partition.heldLink (p : Partition) (x : Nat × Nat) : Bool := p.given x || (defaultLinks (p.clusters 0xFF)).contains x

/-- Whether every router on the way forwards a packet of a pair in a slot (R84). -/
def Partition.forwards (p : Partition) (a b slot : Nat) : Bool :=
  (a / 16 == b / 16 && slot == 16 * (a % 16) + b % 16) || (slotLinks a b slot).all p.heldLink

/-- The links of the routes of some pairs, once for each time that a pair crosses one. -/
def pairLinks (pairs : List (Nat × Nat)) : List Nat := (pairs.map (fun x => (routeLinks x.1 x.2).map (·.1))).flatten

/-- Whether the pairs of a SLOT section need no more slots on any link than the partition holds there beside the slots that the default
table and its other pairs take (R67, R84). -/
def Partition.fits (p : Partition) (pairs : List (Nat × Nat)) (taken : List (Nat × Nat)) : Bool :=
  let need := pairLinks pairs
  need.all (fun k => decide (need.count k ≤
    ((List.range 256).filter (fun t => p.heldLink (k, t) && !taken.contains (k, t))).length))

/-- A free place for one more slot of a pair within a share, the first from a start on; fuel bounds the search. -/
def placeSlot (held : Nat × Nat → Bool) (taken : List (Nat × Nat)) (a b start : Nat) : Nat → Option Nat
  | 0 => none
  | f + 1 =>
    let s := start % 256
    if (slotLinks a b s).all (fun x => held x && !taken.contains x) then some s else placeSlot held taken a b (start + 1) f

/-- Slots for the pairs of a SLOT section (R67, R369), a pair once for each slot that it wants; start gives the place where the search
for the k-th begins. Where the counts of R67 fit and no cycle is free on every link of a route, the manual does not say which slot is taken: the
pair shares the first that the partition holds all along, or that of its start (DESIGN CHOICE, log entry 52). -/
def placePairs (held : Nat × Nat → Bool) (start : Nat → Nat) :
    List (Nat × Nat) → List (Nat × Nat) → Nat → List (Nat × Nat × Nat)
  | [], _, _ => []
  | (a, b) :: l, taken, k =>
    let s := ((placeSlot held taken a b (start k) 256).or (placeSlot held [] a b (start k) 256)).getD (start k % 256)
    (a, b, s) :: placePairs held start l (slotLinks a b s ++ taken) (k + 1)

end Sys2Proof.Machine
end

