-- ==== Sys2Proof/Machine/Csr.lean ====
section
/-!
DEFINITION. The control and status registers of a control core, its levels, its exceptions and its interrupts: those of RV64GC with the
hypervisor extension (00_scope R1), which this manual does not describe (PRESUMED, log entry 3). Local interrupts 16 and 17 are those of
03_host_images_translation R61 and R79.
-/
namespace Sys2Proof.Machine
open Sys2Proof

/-- A register of the CSR file as it is stored, by its number. -/
def Core.csr (c : Core) (n : Nat) : DWord := Sparse.get 0 c.csrs n

/-- A register of the CSR file replaced. -/
def Core.setCsr (c : Core) (n : Nat) (v : DWord) : Core := { c with csrs := Sparse.set 0 c.csrs n v }

/-- A bit set or cleared. -/
def putBit (x : DWord) (k : Nat) (v : Bool) : DWord :=
  if v then x ||| BitVec.ofNat 64 (2 ^ k) else x &&& ~~~BitVec.ofNat 64 (2 ^ k)

/-- Fields of x under a mask replaced by those of v. -/
def blendBits (x v mask : DWord) : DWord := (x &&& ~~~mask) ||| (v &&& mask)

/-- A word with these bits. -/
def bitsAt (l : List Nat) : DWord := l.foldl (fun x k => x ||| BitVec.ofNat 64 (2 ^ k)) 0

/-! ## Numbers and fields -/

def csrMstatus : Nat := 0x300
def csrVsstatus : Nat := 0x200
def csrHstatus : Nat := 0x600
def csrMedeleg : Nat := 0x302
def csrMideleg : Nat := 0x303
def csrHedeleg : Nat := 0x602
def csrHideleg : Nat := 0x603
def csrMie : Nat := 0x304
def csrMip : Nat := 0x344
def csrHvip : Nat := 0x645
def csrFcsr : Nat := 0x003

/-- What sstatus and vsstatus show of a status: SIE, SPIE, SPP, FS, SUM and MXR. -/
def sstatusMask : DWord := bitsAt [1, 5, 8, 13, 14, 18, 19]

/-- The writable fields of mstatus. -/
def mstatusMask : DWord := sstatusMask ||| bitsAt [3, 7, 11, 12, 17, 20, 21, 22, 38, 39]

/-- Exceptions that M level may pass on, and those that HS level may (RISC-V's tables). -/
def medelegMask : DWord := bitsAt [0, 1, 2, 3, 4, 5, 6, 7, 8, 9, 10, 12, 13, 15, 20, 21, 22, 23]
def hedelegMask : DWord := bitsAt [0, 1, 2, 3, 4, 5, 6, 7, 8, 12, 13, 15]

/-- Interrupts of HS level that M level may pass on, the virtual ones, which it always does, and those that HS level may pass on. The
local ones are 16 and 17 (R61, R79). -/
def supervisorInts : DWord := bitsAt [1, 5, 9, 16, 17]
def virtualInts : DWord := bitsAt [2, 6, 10, 12]
def guestInts : DWord := bitsAt [2, 6, 10, 16, 17]
def machineInts : DWord := bitsAt [3, 7, 11]

/-- The delegations in force. -/
def Core.mideleg (c : Core) : DWord := c.csr csrMideleg ||| virtualInts

/-- FS of the status is on: the floating-point registers may be used. -/
def Core.fpOn (c : Core) : Bool :=
  (c.csr csrMstatus).extractLsb' 13 2 != 0 && (!c.virt || (c.csr csrVsstatus).extractLsb' 13 2 != 0)

/-- FS becomes dirty. -/
def Core.fpDirty (c : Core) : Core :=
  let d := bitsAt [13, 14]
  let t := c.setCsr csrMstatus (c.csr csrMstatus ||| d)
  if c.virt then t.setCsr csrVsstatus (t.csr csrVsstatus ||| d) else t

/-- The level at which loads and stores are made: that of MPP while MPRV is set at M level. -/
def Core.dataPriv (c : Core) : Nat :=
  if c.priv = 3 ∧ (c.csr csrMstatus).getLsbD 17 then ((c.csr csrMstatus).extractLsb' 11 2).toNat else c.priv

/-! ## Interrupts (R61, R79) -/

/-- The interrupts that are pending at a core: 16 while its event queue is not empty (R79), 17 while codes of HOSTATTN wait for its partition
and it is the core of the lowest-numbered wing (R61), and those that software sets. -/
def State.pending (s : State) (w : Nat) : DWord :=
  let c := s.coreN w
  let attn := s.parts.toList.any (fun p => p.wings != 0 && p.home == w && !p.attn.isEmpty)
  c.csr csrMip ||| c.csr csrHvip ||| (if c.queue.isEmpty then 0 else bitsAt [16]) ||| (if attn then bitsAt [17] else 0)

/-- Where a trap goes: M level, HS level, or VS level. -/
inductive TrapLevel where
  | machine | hyper | guest
  deriving DecidableEq, Repr

/-- The order in which pending interrupts are taken; that of the local ones is not given. -/
def intOrder : List Nat := [11, 3, 7, 9, 1, 5, 12, 10, 2, 6, 17, 16]

/-- The first of the interrupts of a word. -/
def firstInt (x : DWord) : Option Nat := intOrder.find? (fun k => x.getLsbD k)

/-- The interrupt that a core takes before its next instruction: its level and its number. -/
def State.interruptDue (s : State) (w : Nat) : Option (TrapLevel × Nat) :=
  let c := s.coreN w
  let on := s.pending w &&& c.csr csrMie
  let m := on &&& ~~~c.mideleg
  let h := on &&& c.mideleg &&& ~~~(c.csr csrHideleg)
  let g := on &&& c.mideleg &&& c.csr csrHideleg
  let mOn := decide (c.priv < 3) || (c.csr csrMstatus).getLsbD 3
  let hOn := decide (c.priv < 3) && (c.virt || c.priv == 0 || (c.csr csrMstatus).getLsbD 1)
  let gOn := c.virt && (c.priv == 0 || (c.csr csrVsstatus).getLsbD 1)
  match (if mOn then firstInt m else none), (if hOn then firstInt h else none), (if gOn then firstInt g else none) with
  | some k, _, _ => some (.machine, k)
  | none, some k, _ => some (.hyper, k)
  | none, none, some k => some (.guest, if k < 16 then k - 1 else k)
  | none, none, none => none

/-! ## Exceptions -/

/-- Where a vector sends a trap. -/
def vectorTo (tvec : DWord) (interrupt : Bool) (cause : Nat) : DWord :=
  let base := tvec &&& ~~~3
  if interrupt ∧ tvec.extractLsb' 0 2 = 1 then base + BitVec.ofNat 64 (4 * cause) else base

/-- A status whose SIE, SPIE and SPP take a trap from a level. -/
def trapStatus (x : DWord) (priv : Nat) : DWord := putBit (putBit (putBit x 5 (x.getLsbD 1)) 1 false) 8 (priv != 0)

/-- A guest page fault. -/
def isGuestFault (cause : Nat) : Bool := [20, 21, 23].contains cause

/-- A trap is taken at a level: the pc, the cause, the level and the interrupt enables are saved, and the handler runs. gva says that tval
is an address of a guest. -/
def Core.enter (c : Core) (lv : TrapLevel) (interrupt : Bool) (cause : Nat) (tval : DWord) (gva : Bool) : Core :=
  let code : DWord := BitVec.ofNat 64 (cause + if interrupt then 2 ^ 63 else 0)
  let guest : DWord := if isGuestFault cause ∧ !interrupt then tval >>> 2 else 0
  match lv with
  | .machine =>
    let x := c.csr csrMstatus
    let y := putBit (putBit (putBit (putBit x 7 (x.getLsbD 3)) 3 false) 39 c.virt) 38 gva
    let t := c.setCsr csrMstatus (blendBits y (BitVec.ofNat 64 (c.priv * 2 ^ 11)) (bitsAt [11, 12]))
    { (((((t.setCsr 0x341 c.pc).setCsr 0x342 code).setCsr 0x343 tval).setCsr 0x34B guest).setCsr 0x34A 0) with
      priv := 3, virt := false, pc := vectorTo (c.csr 0x305) interrupt cause }
  | .hyper =>
    let h := putBit (putBit (c.csr csrHstatus) 7 c.virt) 6 gva
    let t := (c.setCsr csrMstatus (trapStatus (c.csr csrMstatus) c.priv)).setCsr csrHstatus (if c.virt then putBit h 8 (c.priv != 0) else h)
    { (((((t.setCsr 0x141 c.pc).setCsr 0x142 code).setCsr 0x143 tval).setCsr 0x643 guest).setCsr 0x64A 0) with
      priv := 1, virt := false, pc := vectorTo (c.csr 0x105) interrupt cause }
  | .guest =>
    let t := c.setCsr csrVsstatus (trapStatus (c.csr csrVsstatus) c.priv)
    { (((t.setCsr 0x241 c.pc).setCsr 0x242 code).setCsr 0x243 tval) with
      priv := 1, virt := true, pc := vectorTo (c.csr 0x205) interrupt cause }

/-- The level at which an exception is taken. -/
def Core.trapLevel (c : Core) (cause : Nat) : TrapLevel :=
  if c.priv = 3 ∨ !(c.csr csrMedeleg).getLsbD cause then .machine
  else if c.virt ∧ (c.csr csrHedeleg).getLsbD cause then .guest
  else .hyper

/-- Whether tval of an exception is an address. -/
def isAddressFault (cause : Nat) : Bool := [0, 1, 4, 5, 6, 7, 12, 13, 15, 20, 21, 23].contains cause

/-- An exception of a core. -/
def Core.except (c : Core) (cause : Nat) (tval : DWord) : Core :=
  c.enter (c.trapLevel cause) false cause tval (c.virt && isAddressFault cause)

/-- A page fault: the cause, or that of a guest page fault under VS translation. -/
def Core.pageFault (c : Core) (cause guest : Nat) : Nat := if c.virt then guest else cause

/-- A core as Benale starts it for a partition: it runs at VS level under Benale's second stage, which keeps guest page faults for itself and
passes on what can be passed on (R83; log entry 3). -/
def Core.forGuest (c : Core) : Core :=
  let t := (((c.setCsr csrMedeleg medelegMask).setCsr csrMideleg supervisorInts).setCsr csrHedeleg hedelegMask).setCsr csrHideleg guestInts
  { t with online := true, priv := 1, virt := true }

/-! ## The register file -/

/-- The registers that exist and hold nothing: reads give zero, writes do nothing. -/
def csrZero : List Nat :=
  [0x180, 0x280, 0x680, 0xF11, 0xF12, 0xF13, 0xF15, 0x320, 0x607, 0xE12] ++ (List.range 29).map (0x323 + ·) ++
    (List.range 8).map (fun i => 0x3A0 + 2 * i) ++ (List.range 64).map (0x3B0 + ·) ++ (List.range 29).map (0xB03 + ·) ++
    (List.range 29).map (0xC03 + ·)

/-- The registers that hold a value, each with the bits that a write changes. -/
def csrMasks : List (Nat × DWord) :=
  let all := BitVec.allOnes 64
  let even := ~~~(1 : DWord)
  let vec := ~~~(2 : DWord)
  [(0x001, 0x1F), (0x002, 7), (0x003, 0xFF), (0x100, sstatusMask), (0x104, supervisorInts), (0x105, vec), (0x106, 0xFFFF_FFFF), (0x10A, 1),
    (0x140, all), (0x141, even), (0x142, all), (0x143, all), (0x144, bitsAt [1]), (0x200, sstatusMask), (0x204, bitsAt [1, 5, 9, 16, 17]),
    (0x205, vec), (0x240, all), (0x241, even), (0x242, all), (0x243, all), (0x244, bitsAt [1]), (0x300, mstatusMask), (0x301, 0),
    (0x302, medelegMask), (0x303, supervisorInts), (0x304, supervisorInts ||| virtualInts ||| machineInts), (0x305, vec),
    (0x306, 0xFFFF_FFFF), (0x30A, 1), (0x340, all), (0x341, even), (0x342, all), (0x343, all), (0x344, bitsAt [1, 2, 5, 9]), (0x34A, all),
    (0x34B, all), (0x600, bitsAt [6, 7, 8, 9, 20, 21, 22]), (0x602, hedelegMask), (0x603, guestInts), (0x604, virtualInts), (0x605, all),
    (0x606, 0xFFFF_FFFF), (0x60A, 1), (0x643, all), (0x644, bitsAt [2]), (0x645, bitsAt [2, 6, 10]), (0x64A, all), (0xB00, all), (0xB02, all),
    (0xC00, 0), (0xC01, 0), (0xC02, 0), (0xF14, 0)]

/-- A register exists. -/
def csrKnown (n : Nat) : Bool := csrZero.contains n || csrMasks.any (fun x => x.1 == n)

/-- Under virtualization the numbers of the supervisor's registers name those of VS level. -/
def Core.csrNumber (c : Core) (n : Nat) : Nat :=
  if c.virt ∧ [0x100, 0x104, 0x105, 0x140, 0x141, 0x142, 0x143, 0x144, 0x180].contains n then n + 0x100 else n

/-- Whether an instruction may reach a register. -/
inductive CsrReach where
  | allowed | illegal | virtual
  deriving DecidableEq, Repr

/-- The access of a counter at a level below M is enabled by every level above. -/
def Core.counterReach (c : Core) (k : Nat) : CsrReach :=
  if c.priv < 3 ∧ !(c.csr 0x306).getLsbD k then .illegal
  else if c.virt ∧ !(c.csr 0x606).getLsbD k then .virtual
  else if c.priv = 0 ∧ !(c.csr 0x106).getLsbD k then (if c.virt then .virtual else .illegal)
  else .allowed

/-- Whether an instruction at the core's level may reach a register. -/
def Core.reach (c : Core) (n : Nat) (write : Bool) : CsrReach :=
  let level := n / 256 % 4
  if !csrKnown n ∨ (write ∧ n / 1024 = 3) then .illegal
  else if n < 4 then (if c.fpOn then .allowed else .illegal)
  else if 0xC00 ≤ n ∧ n < 0xC20 then c.counterReach (n % 32)
  else if level = 3 then (if c.priv = 3 then .allowed else .illegal)
  else if level = 2 then
    (if c.virt then .virtual
    else if c.priv = 0 ∨ (n = 0x680 ∧ c.priv = 1 ∧ (c.csr csrMstatus).getLsbD 20) then .illegal
    else .allowed)
  else if c.priv = 0 then (if c.virt then .virtual else .illegal)
  else if n = 0x180 ∧ c.priv = 1 ∧ (if c.virt then (c.csr csrHstatus).getLsbD 20 else (c.csr csrMstatus).getLsbD 20) then
    (if c.virt then .virtual else .illegal)
  else .allowed

/-- A status as software reads it: 64-bit levels, and SD. -/
def shownStatus (x : DWord) : DWord := putBit (x ||| bitsAt [33]) 63 (x.extractLsb' 13 2 == 3)

/-- Interrupt bits as VS level sees them: the virtual ones one place lower, the local ones as they are. -/
def guestView (x : DWord) : DWord := ((x &&& bitsAt [2, 6, 10]) >>> 1) ||| (x &&& bitsAt [16, 17])

/-- Interrupt bits of VS level in their own places. -/
def guestPlace (x : DWord) : DWord := ((x &&& bitsAt [1, 5, 9]) <<< 1) ||| (x &&& bitsAt [16, 17])

/-- The cycles of a core: two for each cycle of the module (R1). -/
def State.coreCycles (s : State) : DWord := BitVec.ofNat 64 (2 * s.cycle)

/-- What a read of a register gives, by its own number. -/
def State.csrRead (s : State) (w n : Nat) : DWord :=
  let c := s.coreN w
  match n with
  | 0x001 => c.csr csrFcsr &&& 0x1F
  | 0x002 => (c.csr csrFcsr >>> 5) &&& 7
  | 0x100 => shownStatus (c.csr csrMstatus &&& sstatusMask)
  | 0x104 => c.csr csrMie &&& c.mideleg &&& supervisorInts
  | 0x144 => s.pending w &&& c.mideleg &&& supervisorInts
  | 0x200 => shownStatus (c.csr csrVsstatus)
  | 0x204 => guestView (c.csr csrMie &&& c.csr csrHideleg)
  | 0x244 => guestView (s.pending w &&& c.csr csrHideleg)
  | 0x300 => shownStatus (c.csr csrMstatus) ||| bitsAt [35]
  | 0x301 => bitsAt [0, 2, 3, 5, 7, 8, 12, 18, 20, 63]
  | 0x303 => c.mideleg
  | 0x344 => s.pending w
  | 0x600 => c.csr csrHstatus ||| bitsAt [33]
  | 0x604 => c.csr csrMie &&& virtualInts
  | 0x644 => s.pending w &&& virtualInts
  | 0xB00 => s.coreCycles + c.csr 0xB00
  | 0xC00 => s.coreCycles + c.csr 0xB00
  | 0xC01 => s.coreCycles + (if c.virt then c.csr 0x605 else 0)
  | 0xC02 => c.csr 0xB02
  | 0xF14 => BitVec.ofNat 64 w
  | k => if csrZero.contains k then 0 else c.csr k

/-- mstatus after a write: MPP keeps a legal level. -/
def newMstatus (old v : DWord) : DWord :=
  let x := blendBits old v mstatusMask
  if v.extractLsb' 11 2 = 2 then blendBits x old (bitsAt [11, 12]) else x

/-- A write of a register by its own number; fields that are not writable stay. -/
def State.csrWrite (s : State) (w n : Nat) (v : DWord) : State :=
  let c := s.coreN w
  let mask := ((csrMasks.find? (fun x => x.1 == n)).map (·.2)).getD 0
  let store (k : Nat) (x m : DWord) : State := s.mapCore w (fun d => d.setCsr k (blendBits (c.csr k) x m))
  match n with
  | 0x001 => s.mapCore w (fun d => (d.setCsr csrFcsr (blendBits (c.csr csrFcsr) v 0x1F)).fpDirty)
  | 0x002 => s.mapCore w (fun d => (d.setCsr csrFcsr (blendBits (c.csr csrFcsr) (v <<< 5) 0xE0)).fpDirty)
  | 0x003 => s.mapCore w (fun d => (d.setCsr csrFcsr (v &&& 0xFF)).fpDirty)
  | 0x100 => store csrMstatus v sstatusMask
  | 0x104 => store csrMie v (c.mideleg &&& supervisorInts)
  | 0x144 => store csrMip v (c.mideleg &&& mask)
  | 0x204 => store csrMie (guestPlace v) (c.csr csrHideleg)
  | 0x244 => store csrHvip (v <<< 1) (c.csr csrHideleg &&& bitsAt [2])
  | 0x300 => s.mapCore w (fun d => d.setCsr csrMstatus (newMstatus (c.csr csrMstatus) v))
  | 0x344 => (store csrMip v (mask &&& ~~~virtualInts)).mapCore w (fun d => d.setCsr csrHvip (blendBits (c.csr csrHvip) v (bitsAt [2])))
  | 0x604 => store csrMie v mask
  | 0x644 => store csrHvip v mask
  | 0xB00 => store 0xB00 (v - s.coreCycles) mask
  | _ => store n v mask

end Sys2Proof.Machine
end

