-- ==== Sys2Proof/Machine/Prefix.lean ====
section
/-!
DEFINITION. The P class: REP and EXT (11_encoding_syntax R243 to R245). What they do to the other syllables of their
bundle is in Bundle.lean, which issues bundles.
-/
namespace Sys2Proof.Machine
open Sys2Proof

/-- The repeat at issue: 0 unless the REP state in force says otherwise (R243, R244). -/
def Ctx.repeatAt (c : Ctx) : Nat := match c.rep with | some r => r.j | none => 0

/-- REP: the next repeat, or none after the last. R243. -/
def execRep (h : Head) (cnt : BitVec 6) (str : Bool) (step : BitVec 28) (s : State) : Host.Outcome State Fault Refusal :=
  let i := Instr.rep h cnt str step
  s.issueOp i [] (fun t =>
    let j := t.cur.repeatAt + 1
    t.withCur { t.cur with rep := if j ≤ cnt.toNat then some { word := t.issue.word.getD (encode i), j := j } else none })

/-- EXT: the immediate of the syllable at position 1. R245. -/
def execExt (h : Head) (value : BitVec 32) (s : State) : Host.Outcome State Fault Refusal :=
  s.issueOp (.ext h value) [] (fun t => { t with issue := { t.issue with ext := some value } })

end Sys2Proof.Machine
end

