-- ==== Sys2Proof/Machine/Compose.lean ====
section
/-!
DEFINITION. The composition of a bundle (06_tile R120, R121) and what its prefix does to its syllables
(11_encoding_syntax R243 to R245).
-/
namespace Sys2Proof.Machine
open Sys2Proof

/-! ## Step fields (R243) -/

/-- A field that REP may step: its lowest bit and width. -/
abbrev StepField := Nat × Nat

/-- The step fields f0 to f3 of an S syllable with an opcode. -/
def stepsS (w opc : Nat) : List (Option StepField) :=
  if opc ≤ 0x14 then [some (39, 5), some (34, 5), some (29, 5)]
  else if opc ≤ 0x26 then [some (39, 5), some (34, 5)]
  else if opc ≤ 0x28 then [some (39, 5)]
  else if opc ≤ 0x2D then [some (39, 5), some (34, 5)]
  else if opc = 0x2E then [some (39, 5), some (34, 5), some (29, 5)]
  else if opc = 0x30 then [some (41, 3), some (36, 5), some (31, 5)]
  else if opc = 0x31 then [some (41, 3), some (36, 5)]
  else if opc ≤ 0x39 then [some (40, 4), some (36, 4), some (32, 4)]
  else if opc = 0x3A then [some (40, 4), some (36, 4)]
  else if opc = 0x3B then [some (40, 4), some (36, 4), some (31, 5)]
  else if opc = 0x3C then (if w.testBit 27 then [none, some (36, 4)] else [some (40, 4), some (36, 4)])
  else if opc ≤ 0x42 then [some (41, 3), some (38, 3), some (35, 3)]
  else if opc ≤ 0x46 then [some (41, 3), some (38, 3)]
  else if opc = 0x47 then [some (41, 3)]
  else [some (39, 5), some (36, 3)]

/-- VD, VA, VB and VC. -/
def vecFields (n : Nat) : List (Option StepField) := [some (26, 6), some (20, 6), some (14, 6), some (8, 6)].take n

/-- The step fields of a V syllable: how many of VD, VA, VB and VC its opcode uses. -/
def stepsV (opc : Nat) : List (Option StepField) :=
  if opc ∈ [0x03, 0x04, 0x05, 0x1A, 0x20, 0x21, 0x24, 0x25] then vecFields 4
  else if opc ∈ [0x00, 0x01, 0x02, 0x06, 0x14, 0x15, 0x18, 0x19, 0x22, 0x40, 0x41, 0x42, 0x43, 0x44, 0x45, 0x46, 0x47,
      0x49, 0x4A, 0x4B, 0x4C, 0x4D, 0x61, 0x62, 0x70, 0x73] then vecFields 3
  else if opc ∈ [0x4F, 0x60, 0x66] then vecFields 1
  else vecFields 2

/-- The step fields of an M syllable. -/
def stepsM (opc : Nat) : List (Option StepField) :=
  match opc with
  | 0 => [some (26, 6)]
  | 2 => [none, none, none, some (6, 11)]
  | 3 => [some (26, 6), some (21, 5)]
  | 4 => [none, some (21, 5)]
  | 5 | 6 => [none, some (21, 5), some (17, 4)]
  | 7 => [some (26, 6)]
  | _ => []

/-- The step fields of an L syllable. -/
def stepsL (w opc : Nat) : List (Option StepField) :=
  let da : Option StepField := some (40, 4)
  match opc with
  | 0x04 | 0x05 => [some (3, 6), da]
  | 0x0A => if fld w 2 4 = 0xB then [none, da, some (6, 5)] else [some (11, 5), da, some (6, 5)]
  | 0x0B => [some (11, 5), da, some (6, 5)]
  | 0x0C | 0x0D => [some (11, 5), da, some (6, 5), some (1, 5)]
  | 0x10 | 0x11 => [some (8, 5), da]
  | 0x18 | 0x19 => []
  | 0x1A => [none, da]
  | _ => [some (2, 6), da]

/-- The step fields of an E syllable. -/
def stepsE (opc : Nat) : List (Option StepField) :=
  match opc with
  | 0 => [some (26, 4), some (22, 4)]
  | 1 | 2 => [some (26, 4), some (22, 4), none, some (16, 6)]
  | 3 => [none, some (26, 4)]
  | 4 | 5 | 7 => [some (26, 4), some (22, 4), some (13, 4)]
  | 6 => [none, some (26, 4)]
  | _ => []

/-- The step fields of an X syllable: D, A and B. -/
def stepsX (opc : Nat) : List (Option StepField) :=
  match opc with
  | 1 | 2 => vecFields 3
  | 3 | 5 | 6 => vecFields 2
  | 4 | 8 | 0xB => [none, some (20, 6)]
  | _ => vecFields 1

/-- The field that step f of a syllable marks; none where its format has none or its opcode does not use it. -/
def stepField (w : DWord) (f : Nat) : Option StepField :=
  let n := w.toNat
  let opc := fld n 48 8
  let l := match fld n 60 3 with
    | 0 => stepsS n opc
    | 2 => stepsV opc
    | 3 => stepsM opc
    | 4 => stepsL n opc
    | 5 => stepsE opc
    | 6 => stepsX opc
    | _ => []
  (l.getD f none)

/-- The V opcodes that are series-aware (R218). -/
def seriesOpc (opc : Nat) : Bool :=
  decide (opc ≤ 0x06) || (decide (0x08 ≤ opc) && decide (opc ≤ 0x12)) || (decide (0x14 ≤ opc) && decide (opc ≤ 0x1B)) ||
    opc == 0x22 || opc == 0x23 || (decide (0x70 ≤ opc) && decide (opc ≤ 0x73))

/-- Whether step f of a syllable marks a vector field of a series-aware V syllable (R243): VCMP names a predicate in VD. -/
def stepIsSeries (w : DWord) (f : Nat) : Bool :=
  let opc := fld w.toNat 48 8
  fld w.toNat 60 3 == 2 && seriesOpc opc && !(opc == 0x18 && f == 0)

/-- A field of a word replaced, modulo its width. -/
def setField (w : DWord) (p : StepField) (x : Nat) : DWord :=
  let m : DWord := BitVec.ofNat 64 ((2 ^ p.2 - 1) * 2 ^ p.1)
  (w &&& ~~~m) ||| BitVec.ofNat 64 (x % 2 ^ p.2 * 2 ^ p.1)

/-- A syllable at repeat j: mask marks its step fields, t is the stride, k the jet order (R243). -/
def stepWord (mask j t k : Nat) (w : DWord) : DWord :=
  (List.range 4).foldl (fun x f =>
    if mask.testBit f then match stepField w f with
      | some p => setField x p (fld w.toNat p.1 p.2 + j * t * (if stepIsSeries w f then k + 1 else 1))
      | none => x
    else x) w

/-- The syllables of a bundle whose first is a REP, at repeat j under JO = k (R243). -/
def stepFrom (step t j k : Nat) : Nat → List DWord → List DWord
  | _, [] => []
  | p, w :: l => stepWord (step / 2 ^ (4 * (p - 1)) % 16) j t k w :: stepFrom step t j k (p + 1) l

/-- The syllables of the bundle that a context issues next under JO = k (R243). -/
def stepped (c : Ctx) (k : Nat) (ws : List DWord) : List DWord :=
  match ws with
  | [] => []
  | w :: l =>
    match decodeLoose w with
    | some (.rep _ _ str step) => w :: stepFrom step.toNat (if str then 2 else 1) c.repeatAt k 1 l
    | _ => ws

/-! ## Composition -/

/-- A fault of composition or decoding: the position and the cause. -/
abbrev Flaw := Nat × Cause

/-- The limit of each class (R120). -/
def classLimit (cls : Nat) : Nat := if cls = 0 ∨ cls = 2 then 2 else 1

/-- The class and opcode of a syllable. -/
def clsOf (w : DWord) : Nat := fld w.toNat 60 3
def opcOf (w : DWord) : Nat := fld w.toNat 48 8

/-- The flaws of one syllable in its bundle (R121, R234, R243, R245): seen are the classes, used the lane groups of the V
syllables before it; underRep says that REP heads the bundle. -/
def syllableFlaws (lgdef : BitVec 8) (underRep : Bool) (pos : Nat) (seen : List Nat) (used : BitVec 8) (w : DWord) :
    List Flaw :=
  let cls := clsOf w
  match decodeLoose w with
  | none => [(pos, .illegalSyllable)]
  | some i =>
    let m := (shapeOf i).mask.eval lgdef
    (if encode i = w then [] else [(pos, .reservedField)]) ++
    (if pos ≠ 0 ∧ fld w.toNat 57 3 ≠ 0 then [(pos, .reservedField)] else []) ++
    (if classLimit cls ≤ (seen.filter (· == cls)).length ∨ (cls = 7 ∧ pos ≠ 0) then [(pos, .slotOverflow)] else []) ++
    (if underRep ∧ pos ≠ 0 ∧ (cls = 1 ∨ cls = 7) then [(pos, .illegalSyllable)] else []) ++
    (if cls = 2 ∧ m &&& used ≠ 0 then [(pos, .slotOverflow)] else [])

/-- The lane groups of the V syllables up to a syllable. -/
def usedBy (lgdef : BitVec 8) (used : BitVec 8) (w : DWord) : BitVec 8 :=
  if clsOf w = 2 then match decodeLoose w with
    | some i => used ||| (shapeOf i).mask.eval lgdef
    | none => used
  else used

/-- The flaws of the syllables from a position on. -/
def flawsFrom (lgdef : BitVec 8) (underRep : Bool) : Nat → List Nat → BitVec 8 → List DWord → List Flaw
  | _, _, _, [] => []
  | pos, seen, used, w :: l =>
    syllableFlaws lgdef underRep pos seen used w ++
      flawsFrom lgdef underRep (pos + 1) (clsOf w :: seen) (usedBy lgdef used w) l

/-- The targets of EXT (R245): ADDI, ANDI, ORI, XORI, LI, CMPI and ADDDI. -/
def extTarget (w : DWord) : Bool := clsOf w == 0 && [0x20, 0x21, 0x22, 0x23, 0x27, 0x31, 0x3A].contains (opcOf w)

/-- The IMM field of a target of EXT. -/
def extImm (w : DWord) : Nat :=
  if opcOf w = 0x31 then fld w.toNat 8 24 else if opcOf w = 0x3A then fld w.toNat 12 24 else fld w.toNat 10 24

/-- The flaws of a prefix and of what it applies to (R243, R245). -/
def prefixFlaws (ws : List DWord) : List Flaw :=
  match ws with
  | [] => []
  | w :: l =>
    match decodeLoose w with
    | some (.ext _ _) => (match l with
        | [] => []
        | x :: _ => if (decodeLoose x).isNone then [] else if !extTarget x then [(1, .illegalSyllable)]
            else if extImm x ≠ 0 then [(1, .reservedField)] else [])
    | some (.rep _ _ _ step) =>
      if (List.range 28).any (fun k => step.getLsbD k && (match l[k / 4]? with
          | some x => (stepField x (k % 4)).isNone
          | none => true)) then [(0, .reservedField)] else []
    | _ => []

/-- Every flaw of a bundle (R121). -/
def bundleFlaws (lgdef : BitVec 8) (ws : List DWord) : List Flaw :=
  let underRep := match ws with
    | w :: _ => (match decodeLoose w with | some (.rep ..) => true | _ => false)
    | [] => false
  (match ws.getLast? with
    | some w => if w.getLsbD 63 then [] else [(ws.length - 1, Cause.slotOverflow)]
    | none => []) ++
  flawsFrom lgdef underRep 0 [] 0 ws ++ prefixFlaws ws

/-- A syllable whose stepped field may name no register: a POP, with a destination that its kind cannot hold (R351), and those whose form
leaves a field of their format unused or holds a format code there (R234): an unscaled VCVT or UNPK, VQNT, and all rows of MCLR, MSPILL or
MFILL. -/
def stepsNoRegister : Instr → Bool
  | .popW .. | .popF .. | .vqnt .. => true
  | .vcvt _ _ _ _ _ _ scaled .. => !scaled
  | .unpk _ _ _ _ _ _ scaled _ => !scaled
  | .mclr _ _ all | .mspill _ _ _ all | .mfill _ _ _ all => all
  | _ => false

/-- The flaws that a repeat brings (R243): a stepped field that its syllable cannot hold names a register that no context has, or is a
reserved field that is set (R234). -/
def stepFlaws (raw now : List DWord) : List Flaw :=
  ((List.range now.length).filter (fun p =>
    let w := now.getD p 0
    decide (raw.getD p 0 ≠ w) && (match decodeLoose w with
      | some i => decide (encode i ≠ w) || (staticFaults i).contains .reservedField
      | none => true))).map (fun p => (p,
        if (decodeLoose (now.getD p 0)).any stepsNoRegister then .reservedField else .illegalSyllable))

/-- The EXT immediate of a bundle. -/
def extOf (ws : List DWord) : Option Word :=
  match ws with
  | w :: _ => (match decodeLoose w with | some (.ext _ v) => some v | _ => none)
  | [] => none

end Sys2Proof.Machine
end

