-- ==== Sys2Proof/Machine/Switch.lean ====
section
/-!
DEFINITION. Stopping and restarting a context on its tile (05_dispatcher R107, R112 to R115), and which context of a
tile issues.
-/
namespace Sys2Proof.Machine
open Sys2Proof

/-- Whether the bundle at the program counter is waiting at issue. -/
def Ctx.stalledNow (c : Ctx) : Bool := c.wait.isSome && c.delay.isNone

/-- The first cycle in which the context issues nothing (R112): this one while a bundle waits, else the one after the
bundle that has issued. -/
def Ctx.stopCycle (c : Ctx) : Nat := if c.stalledNow || c.earliest ≤ c.clk then c.clk else c.clk + 1

/-- The delay that the next bundle still has to serve at the stop cycle (R112): of one that waits, what is left of a floor. -/
def State.owedDelay (s : State) : Nat :=
  let c := s.cur
  match c.stalledNow, c.wait, s.fetch c.pc with
  | true, some w, .ok ws => s.floorLeft w.jo w.lgdef (instrsOf (stepped c w.jo ws)) c.clk
  | true, _, _ => 0
  | false, _, _ => (c.earliest - c.stopCycle) + (s.runTo (max c.clk c.earliest)).serve stepped

/-- A context switch or a hard pre-emption disarms the injection of QCFG (R311). -/
def State.disarm (s : State) (tile : Nat) : State :=
  let r := s.tileRec tile
  if r.qcfg.getLsbD 23 then s.setTile tile { r with qcfg := r.qcfg &&& ~~~(0x80_0000 : DWord) } else s

/-- TCLK of the context in issue stops (R107, R112 to R114): its accesses perform, the results readable by then have
landed, and the others are its pending-write set. A wait keeps only its arrival. -/
def State.pause (s : State) : State :=
  let d := s.owedDelay
  let s1 := ((s.advance s.cur.stopCycle).stop.disarm s.cur.tile).noteNext d
  let c := s1.cur
  s1.withCur { c with earliest := c.clk, wait := keptWait c.clk (c.wait.bind (·.arrived)) }

/-- TCLK of a context restarts at its value in module cycle m. -/
def Ctx.restart (c : Ctx) (m : Nat) : Ctx := { c with run := .issuing, modBase := (m : Int) - (c.rate * c.clk : Nat), latches := [] }

/-- The cycles of a switch to another resident context (R107). -/
def switchCycles : Nat := 96

/-- The cycles that the context of a number has held its tile's issue since another state are charged to its device (R92); a task that has
ended has held the cycle in which it ended. -/
def State.chargeSince (t : State) (c : Ctx) : State :=
  match t.ctxOf c.uid with
  | some d =>
    let n := d.module - c.module + (if d.run = .ended then c.rate else 0)
    t.mapPart c.part (fun p => if n = 0 then p else p.charge c.device n)
  | none => t

/-- A watch that a context keeps while it does not issue (R107). -/
def Ctx.keepWatch (c : Ctx) (w : Option Nat) : Option Wait :=
  match w with
  | some id => some { (c.wait.getD (Wait.start c.clk 0 0)) with watch := some id }
  | none => c.wait

/-- The resident contexts of a tile. -/
def State.onTile (s : State) (tile : Nat) : List Ctx := s.ctxs.filter (fun c => c.run.resident && c.tile == tile)

/-- The context that issues on a tile. -/
def State.issuerOf (s : State) (tile : Nat) : Option Ctx :=
  s.ctxs.find? (fun c => c.run == .issuing && c.tile == tile)

/-- Of two ready contexts the one that has waited longer since it last issued; ties go to the lower slot (R107). -/
def olderOf (a b : Ctx) : Ctx :=
  if b.lastIssue < a.lastIssue ∨ (b.lastIssue = a.lastIssue ∧ b.slot < a.slot) then b else a

/-- The incoming context of a tile, which is another than the one that leaves (R107). -/
def State.incoming (s : State) (tile : Nat) (leaving : Option Nat) : Option Ctx :=
  match (s.onTile tile).filter (fun c => c.run == .ready && leaving != some c.uid) with
  | [] => none
  | c :: l => some (l.foldl olderOf c)

/-- The tile switches to its incoming context, which is charged for the switch (R92, R107). -/
def State.switchIn (s : State) (tile : Nat) (leaving : Option Nat) : State :=
  match s.incoming tile leaving with
  | none => s
  | some c =>
    let t := (s.focus c.uid).disarm tile
    let m := t.cycle + switchCycles
    ({ t with cur := t.cur.restart m, cycle := m }).charge switchCycles

/-- The instructions of the next bundle of a context. -/
def State.bundleAt (s : State) (c : Ctx) : List Instr :=
  match (s.withCur c).fetch c.pc with
  | .ok ws => instrsOf (stepped c (joOf c.sys.jo) ws)
  | .error _ => []

/-- A context in a POP.W finds an entry, or none will come (R107). -/
def State.popReady (s : State) (c : Ctx) : Bool :=
  (s.bundleAt c).any (fun i => match i with
    | .popW _ _ rq _ => match (c.rq[rq.toNat]'rq.isLt).head? with | some e => e.owed == 0 | none => true
    | _ => false)

/-- The group of a BAR in the next bundle of a context. -/
def State.barGroup (s : State) (c : Ctx) : Option Nat :=
  (s.bundleAt c).findSome? (fun i => match i with | .bar _ g => some g.toNat | _ => none)

/-- The completion of a generation of a group of a context's swarm: its module cycle, once it has come (R274). -/
def State.genDone (s : State) (c : Ctx) (g n : Nat) : Option Nat :=
  (s.launchOf c).bind (fun l => (l.barDone.find? (fun x => x.1 == g && decide (n ≤ x.2.1))).map (fun x => x.2.2))

/-- The condition of a wait in which a context stands has been seen to hold, or its bundle would trap (R107). -/
def State.waitOver (s : State) (c : Ctx) : Bool :=
  (match c.wait with | some w => w.met.isSome || w.denied || w.leaving | none => false) || s.popReady c ||
    (match s.barGroup c, c.arrivedAt with | some g, some n => (s.genDone c g n).isSome | _, _ => false)

/-- Whether the context in issue stands in a wait of R107 whose condition has not been seen to hold. -/
def State.waitsNow (s : State) : Bool :=
  s.cur.stalledNow && s.cur.wait.any (·.yielding) && !s.waitOver s.cur

/-- Whether the context in issue has waited long enough to yield its tile, and another context is ready (R107). -/
def State.yieldDue (s : State) : Bool :=
  s.waitsNow && s.cur.wait.any (fun w => decide (w.since + 256 ≤ s.cur.clk)) && (s.incoming s.cur.tile (some s.cur.uid)).isSome

/-- The context in issue leaves its tile: waiting, with its watch, while the condition of its wait has not been seen to hold, else ready
(R107). -/
def State.leaveTile (s : State) : State :=
  let t := s.pause
  if s.waitsNow then
    t.withCur { t.cur with run := .waiting, waitedFrom := (s.cur.modBase + (s.cur.rate * s.cur.since : Nat)).toNat,
                           wait := t.cur.keepWatch (s.cur.wait.bind (·.watch)) }
  else t.withCur { t.cur with run := .ready }

/-- The context in issue is switched out while it waits, and the incoming context is switched in (R107). -/
def State.yieldTile (s : State) : State := (s.leaveTile.chargeSince s.cur).switchIn s.cur.tile (some s.cur.uid)

/-- A stop point of R112 has been reached after a hard pre-emption request, which waits for ERET in handler mode (R142). -/
def State.stopDue (s : State) : Bool :=
  match s.cur.hard with
  | none => false
  | some m =>
    let c := s.cur
    !c.handling &&
      (if c.stalledNow then c.wait.any (·.stopping)
       else c.boundary || decide (m + 4096 ≤ c.module))

/-- The context in issue stops for a hard pre-emption, and its save begins (R112 to R115). -/
def State.hardStop (s : State) : State :=
  let t := s.pause
  (t.withCur { t.cur with run := .saving, hard := none, boundary := false }).chargeSince s.cur

end Sys2Proof.Machine
end

