-- ==== Sys2Proof/Machine/Image.lean ====
section
/-!
DEFINITION. The layout of a saved context (05_dispatcher R116), as it stands in a save area, and in a dump (01_module_boot_health R25).
-/
namespace Sys2Proof.Machine
open Sys2Proof

/-- A field of an in-memory structure: byte offset, length in bytes, and value. -/
abbrev Field := Nat × Nat × Nat

/-- Fields written from an address on. -/
def writeFields (m : Memory) (base : Nat) (l : List Field) : Memory :=
  l.foldl (fun x f => Memory.writeNat x (base + f.1) f.2.1 f.2.2) m

/-- A list with the place of each element. -/
def placed {α : Type} (l : List α) : List (Nat × α) := (List.range l.length).zip l

/-- The remaining repeats of the REP in force (R116). -/
def Ctx.repeatsLeft (c : Ctx) : Nat :=
  match c.rep with
  | some r => (match decodeLoose r.word with | some (.rep _ cnt _ _) => cnt.toNat + 1 - r.j | _ => 0)
  | none => 0

/-- An entry of the pending-write set or of a queue (R116): kind, register or status, lane groups, remaining cycles, poison and
value. -/
def entryBytes (kind reg groups remaining : Nat) (poison : LaneMask) (value : Nat) : Nat :=
  kind + reg * 2 ^ 8 + groups * 2 ^ 16 + remaining * 2 ^ 32 + poison.toNat * 2 ^ 64 + value * 2 ^ 512

/-- The bits of a register, those of poisoned elements zero (R166). -/
def shownBits (bits : VBits) (poison : LaneMask) : VBits := bits &&& ~~~expandMask poison

/-- A vector entry: the register as it lands, with lane groups outside the mask zero. -/
def Ctx.vectorEntry (c : Ctx) (w : Landing) (v : VNum) (lgm : BitVec 8) (left : Nat) : Nat :=
  let r := (c.landOne w).v v
  entryBytes 3 v.toNat lgm.toNat left (r.poison &&& groupLanes lgm) (shownBits r.bits r.poison &&& expandMask (groupLanes lgm)).toNat

/-- The entry of a result in flight (R113, R116). -/
def Ctx.pendingEntry (c : Ctx) (f : Flight) : Option Nat :=
  let left := f.land - c.clk
  match f.what with
  | .scalar r value poison => some (entryBytes 1 r.toNat 0xFF left (if poison then 1 else 0) (if poison then 0 else value.toNat))
  | .pred p mask value => some (entryBytes 2 p.toNat 0xFF left 0 ((c.p p &&& ~~~mask) ||| (value &&& mask)).toNat)
  | .vector v lgm .. => some (c.vectorEntry f.what v lgm left)
  | .scale v lgm .. => some (c.vectorEntry f.what v lgm left)
  | _ => none

/-- The entries of a result queue that are held. -/
def Ctx.heldIn (c : Ctx) (k : QNum) : List QEntry := (c.rq[k.toNat]'k.isLt).filter (fun e => e.owed == 0)

/-- The code of REGS (R64). -/
def regsCode (n : Nat) : Nat := if n = 16 then 0 else if n = 32 then 1 else 2

/-- The number of QFENCE joins that are pending. -/
def Ctx.joins (c : Ctx) : Nat :=
  let is (k : Command) : Bool := match k.cmd with | .qfence _ => true | _ => false
  (distinct (((c.waiting ++ c.eqs.toList.flatten).filter is).map (·.num))).length

/-- The address of the saved copy of an allocation (R116): its offset in the save area of the context's partition on its die (log entry
19); in a dump of a context that no save has taken, a free value (log entry 8). -/
def Ctx.copyAddress (c : Ctx) (free atag : Nat) : Nat :=
  match c.saveSlot.bind (fun x => x.copies.find? (fun y => y.1 == atag)) with
  | some y => y.2
  | none => (Config.freeWord (free + atag)).toNat

/-- What a command holds, for its form in a saved context, which the manual does not give. -/
def Command.words (k : Command) : List DWord :=
  let n (x : Nat) : DWord := BitVec.ofNat 64 x
  n k.start :: k.eq.setWidth 64 :: n k.batch :: (match k.cmd with
    | .cpy dst src len => [0, dst, src, n len]
    | .gth packed base q idx esz r => [1, packed, base, if q then 1 else 0, n esz, n r] ++ idx.map n
    | .sct packed base idx esz => [2, packed, base, n esz] ++ idx.map n
    | .wld src line count => [3, src, n line, n count]
    | .rwr dst src len flag lossy mask => [4, dst, src, n len, flag, if lossy then 1 else 0, mask]
    | .rwg dst src len flag => [5, dst, src, n len, flag]
    | .rrd src len rq r => [6, src, n len, rq.setWidth 64, n r]
    | .coll dst src len flag cop group => [7, dst, src, n len, flag, cop.setWidth 64, n group]
    | .qfence m => [8, m.setWidth 64])

/-- Commands in the order of their start cycles. -/
def insertStart (k : Command) : List Command → List Command
  | [] => [k]
  | j :: l => if k.start ≤ j.start then k :: j :: l else j :: insertStart k l

/-- The waiting commands of a context, in start order (R116). -/
def Ctx.inStartOrder (c : Ctx) : List Command := c.timed.foldr insertStart []

/-- The header (R116); issuing is the ISSUING bit of a dump, free the first of its free values. -/
def Ctx.headerFields (c : Ctx) (issuing : Bool) (free : Nat) : List Field :=
  let b (x : Bool) (n : Nat) : Nat := if x then n else 0
  let entries := c.flight.filterMap c.pendingEntry
  [(0x000, 8, c.pc.toNat), (0x008, 8, c.clk), (0x010, 8, (match c.rep with | some r => r.word | none => (0 : DWord)).toNat), (0x018, 1, c.repeatsLeft),
    (0x01A, 1, c.loops.length), (0x01B, 1, entries.length), (0x01C, 1, c.timed.length),
    (0x01D, 1, b c.array 1 + b c.checked 2 + b c.det 4 + b issuing 8),
    (0x0B0, 4, c.delay.getD 0), (0x900, 4, c.handle), (0x904, 4, c.sys.taskid.toNat), (0x908, 1, c.device),
    (0x909, 1, regsCode c.regs), (0x90A, 2, c.entry), (0x90C, 8, c.image.toNat),
    (0x1E0, 4, c.openB.total), (0x1E4, 4, c.closedB.length), (0x1E8, 4, c.joins)] ++
  (placed c.loops).map (fun x => (0x020 + 24 * x.1, 24, x.2.count + x.2.start.toNat * 2 ^ 64 + x.2.stop.toNat * 2 ^ 128)) ++
  (placed c.sregs.toList).map (fun x => (0x0C0 + 4 * x.1, 4, if x.2.poison then 0 else x.2.value.toNat)) ++
  [(0x140, 16, laneMaskOf (fun n => (c.sregs.toList.getD n SReg.zero).poison) 32)] ++
  (placed c.preds.toList).map (fun x => (0x150 + 16 * x.1, 16, x.2.toNat)) ++
  (List.range 4).map (fun k => (0x1D0 + k, 1, (c.heldIn (BitVec.ofNat 2 k)).length)) ++
  (List.range 4).map (fun k => (0x1D4 + 2 * k, 2, ((c.rq.toList.getD k []).length) - (c.heldIn (BitVec.ofNat 2 k)).length)) ++
  (placed ([0x00, 0x01, 0x02, 0x03, 0x05, 0x06, 0x07, 0x08, 0x09, 0x0A, 0x0B, 0x0C, 0x0D, 0x0E, 0x0F])).map
    (fun x => (0x200 + 8 * x.1, 8, (c.sys.read x.2).toNat)) ++
  (placed c.vregs.toList).map (fun x => (0x300 + 16 * x.1, 16, x.2.poison.toNat)) ++
  c.allocs.map (fun a => (0x700 + 16 * a.atag, 16, c.copyAddress free a.atag + a.size * 2 ^ 64 + a.swz * 2 ^ 96))

/-- The whole layout of a context (R116). The form of a waiting command in its 32 bytes is a free function of what it holds (log entry
8). -/
def Ctx.imageFields (c : Ctx) (issuing : Bool) (free : Nat) : List Field :=
  c.headerFields issuing free ++
  ((placed c.vregs.toList).take c.regs).map (fun x => (0x1000 + 512 * x.1, 512, (shownBits x.2.bits x.2.poison).toNat)) ++
  c.quires.map (fun x => (0x9000 + 72 * x.1, 72, x.2.image.toNat)) ++
  c.accs.map (fun x => (0x12000 + 72 * x.1, 72, x.2.image.toNat)) ++
  c.weights.map (fun x => (0x24000 + 128 * x.1, 128, x.2.toNat)) ++
  (placed (c.flight.filterMap c.pendingEntry)).map (fun x => (0x64000 + 576 * x.1, 576, x.2)) ++
  ((List.range 4).map (fun k => (placed (c.heldIn (BitVec.ofNat 2 k))).map (fun x =>
    (0x6AC00 + (k * 4 + x.1) * 576, 576, entryBytes 4 x.2.status.toNat 0xFF 0 x.2.poison (shownBits x.2.value x.2.poison).toNat)))).flatten ++
  (placed c.inStartOrder).map (fun x => (0x6D000 + 32 * x.1, 32, (Config.savedCommand x.2.words).toNat))

end Sys2Proof.Machine
end

