-- ==== Sys2Proof/Machine/Boot.lean ====
section
/-!
DEFINITION. Firefly (01_module_boot_health R14 to R26): starts of the module and their failures, the attestation log, health
monitors, fatal errors and dumps; and HOSTATTN (03_host_images_translation R61).
-/
namespace Sys2Proof.Machine
open Sys2Proof

/-! ## Shared operations -/

/-- Firefly's registers replaced. -/
def State.mapFirefly (s : State) (f : Firefly → Firefly) : State := { s with firefly := f s.firefly }

/-- A start is in progress: stage 5 is not reached, and the module is not in minimal mode (R16). -/
def Firefly.starting (f : Firefly) : Bool := f.power == .on && decide (f.stage.toNat < 5)

/-- A start fails and is counted (R16, R18, R19). -/
def Firefly.fail (f : Firefly) (reason : Byte) : Firefly :=
  { f with reason := reason, fails := if f.fails.toNat < 3 then f.fails + 1 else 3 }

/-- A start that is in progress fails for a reason; afterwards the module stands still until it is started anew. -/
def Firefly.failStart (f : Firefly) (reason : Byte) : Firefly :=
  if f.starting then { f.fail reason with power := .stopped } else f

/-- The reason code of a failed check (R20). -/
def reasonOf : BootFailure → Byte
  | .firmwareSignature => 1
  | .benaleSignature => 2
  | .imageDigest => 3
  | .hbmTraining => 4
  | .lpddrTraining => 5
  | .ucieTraining => 6
  | .supply => 7
  | .benaleTimeout => 8
  | .thermalTrip => 9
  | .fatal .. => 10
  | .timeLimit _ => 11

/-- The stage in which a check fails (R15); a thermal trip or a fatal error may fall in any of the first four (free is the one
it fell in). -/
def stageOf (free : Nat) : BootFailure → BitVec 4
  | .firmwareSignature => 0
  | .supply => 1
  | .hbmTraining | .lpddrTraining | .ucieTraining => 2
  | .benaleSignature | .imageDigest => 3
  | .benaleTimeout => 4
  | .timeLimit k => k.setWidth 4
  | .thermalTrip | .fatal .. => BitVec.ofNat 4 (free % 4)

/-- A record of the attestation log (R17). -/
def attestation (seq kind part result : Nat) (digest : BitVec 512) : BitVec 768 :=
  BitVec.ofNat 768 (seq + kind * 2 ^ 64 + part * 2 ^ 96 + result * 2 ^ 128 + digest.toNat * 2 ^ 256)

/-- An image check appended to the attestation log (R17). -/
def Firefly.record (f : Firefly) (kind part result : Nat) (digest : BitVec 512) : Firefly :=
  { f with log := f.log ++ [attestation f.log.length kind part result digest] }

/-- The kind of a record without a partition. -/
def noPart : Nat := 0xFFFF_FFFF

/-- SCRUBPROG after a reset: a scrub under way begins again with the same TOTAL (R21, R89). -/
def resetScrub (x : BitVec 3 × BitVec 24 × BitVec 24) : BitVec 3 × BitVec 24 × BitVec 24 :=
  if x.1 = 0 ∨ x.1 = 5 then (0, 0, 0) else (1, x.2.1, 0)

/-- The module after a reset, before its start runs (R8, R19, R89): the kept fields, memory and what the domain's cabling
gives stay. -/
def State.newStart (s : State) : State :=
  let f := s.firefly
  { State.reset with
    mem := s.mem, nextReq := s.nextReq, nextUid := s.nextUid, fresh := s.fresh, window := s.window,
    ownModule := s.ownModule, present := s.present, sched := s.sched,
    firefly := { Firefly.reset with
      reason := f.reason, fails := f.fails, dumpValid := f.dumpValid, lastDown := f.lastDown,
      scrub := f.scrub.map resetScrub, moving := f.moving, timeUs := f.timeUs + s.cycle / Config.cyclesPerUs } }

/-- The mesh cycle count starts from 0 (R369); Firefly's time goes on (R26). -/
def State.restartClock (s : State) : State :=
  { s with cycle := 0, firefly := { s.firefly with timeUs := s.firefly.timeUs + s.cycle / Config.cyclesPerUs } }

/-- The bytes of a range of memory set to what nothing has written. -/
def clearRange (m : Memory) (lo hi : Nat) : Memory := m.filter (fun c => decide (c.1 < lo) || decide (hi ≤ c.1))

/-- Every scratchpad scrubbed (R15 stage 2, R88). -/
def clearScratch (m : Memory) : Memory :=
  clearRange m ((Region.scratch 0).addr 0) ((Region.scratch Config.clustersPerModule).addr 0)

/-! ## Sensors and fatal errors (R23, R25) -/

/-- A sensor that has taken no value (R23). -/
def Sensor.none : Sensor := { valid := false, alarm := false, value := 0 }

/-- The sensor of a word of a die's window. -/
def Firefly.sensor (f : Firefly) (die i : Nat) : Sensor := Sparse.get Sensor.none f.sensors (die * 112 + i)

/-- A sensor replaced. -/
def Firefly.setSensor (f : Firefly) (die i : Nat) (x : Sensor) : Firefly :=
  { f with sensors := Sparse.set Sensor.none f.sensors (die * 112 + i) x }

/-- A fatal error halts the module (R25): a dump follows unless one stands already; done and undone are what LASTDOWN says. A watchdog
during a dump begins the dump anew with its own cause. A module whose supplies are cut, or that is off, takes no fatal error. -/
def State.fatal (s : State) (cause die : BitVec 32) (done undone : BitVec 6) : State :=
  let dump (f : Firefly) : Firefly := { f with power := .dumping, lastDown := done, dumpCause := cause, dumpDie := die }
  match s.firefly.power with
  | .on | .stopped => s.mapFirefly (fun f =>
      let g := f.failStart 10
      if f.dumpValid then { g with power := .stopped, lastDown := undone } else dump g)
  | .dumping => if cause = 4 then s.mapFirefly dump else s
  | .off | .cut => s

/-! ## Configuration of the partitions (R81, R82) -/

/-- The GiB of a tier that a configuration gives on a die. -/
def hbmOn (c : PartConfig) (d : Nat) : Nat := c.hbm.getD d 0
def lpdOn (c : PartConfig) (d : Nat) : Nat := c.lpd.getD d 0

/-- A record within the ranges of R82, with a wing, and 2 GiB of HBM4 on every die of a wing (R81). -/
def recordOk (c : PartConfig) : Bool :=
  decide (c.pnum < 8) && decide (c.port < 8) && decide (c.nvport < 4) && c.wings != 0 && decide (100 ≤ c.period) &&
    decide (c.period ≤ 100000) && decide (c.hostwin ≤ 1024) &&
    (List.range 32).all (fun w => !c.wings.getLsbD w || decide (2 ≤ hbmOn c (w / 4)))

/-- Two partitions share nothing (R81). -/
def recordsApart (a b : PartConfig) : Bool :=
  a.pnum != b.pnum && a.port != b.port && a.wings &&& b.wings == 0 && (a.nvport != b.nvport || a.nsid != b.nsid)

/-- Whether Benale accepts a configuration (R81). -/
def configOk : List PartConfig → Bool
  | [] => true
  | c :: l => recordOk c && l.all (recordsApart c) && configOk l

/-- The shares of every die fit what the module has (R81). -/
def sharesOk (l : List PartConfig) : Bool :=
  (List.range 8).all (fun d =>
    decide ((l.map (fun c => hbmOn c d)).foldl (· + ·) 0 ≤ 48) &&
    decide ((l.map (fun c => lpdOn c d)).foldl (· + ·) 0 ≤ if d = 0 then 59 else 64))

/-- A configured partition, which boots once its image is accepted. -/
def recordFrom (c : PartConfig) : Partition :=
  { Partition.down c.pnum with
    state := 1, port := c.port, nvport := c.nvport, wings := c.wings, hbm := c.hbm, lpd := c.lpd, nsid := c.nsid,
    period := c.period, hostwin := c.hostwin, ownerKey := c.ownerKey }

/-- The partitions of a configuration; none under one that Benale refuses (R81). -/
def State.configure (s : State) (l : List PartConfig) : State :=
  if configOk l && sharesOk l then l.foldl (fun t c => t.mapPart c.pnum (fun _ => recordFrom c)) s else s

/-! ## Booting a partition (R15 stage 4, R16) -/

/-- The place of a page-table root: a page of HBM4 that software has chosen (log entry 15). -/
def freeRoot (k : Nat) : Nat := (Config.freeWord k).toNat % (Config.hbmBytes / 2 ^ 12) * 2 ^ 12

/-- The roots of the two stages of a partition on a die, where no earlier run of it has set them (log entry 15). -/
def DieRec.rooted (d : DieRec) (part k : Nat) : DieRec :=
  let with_ (l : List (Nat × Nat)) (r : Nat) : List (Nat × Nat) := if l.any (fun x => x.1 == part) then l else (part, r) :: l
  { d with roots := with_ d.roots (freeRoot k), stage2 := with_ d.stage2 (freeRoot (k + 1)) }

/-- The first free key slot of a die's engine bound, unless one is bound so already (R88; log entry 29). -/
def DieRec.bind (d : DieRec) (k : KeySlot) : DieRec :=
  if d.keys.contains k then d
  else match d.keys.toList.findIdx? (· == .free) with
    | some i => { d with keys := d.keys.setIfInBounds i k }
    | none => d

/-- A key slot of the wing's die bound to a wing of a partition, for the protected contexts that it runs (R88). -/
def State.bindWing (s : State) (part w : Nat) : State := s.mapDie (w / 4) (fun d => d.bind (.wing part w))

/-- A pair of ports between which nothing has passed (R36, R38, R48). -/
def Pair.fresh (peer : Nat) : Pair :=
  { peer := peer, sendS := 0, expectS := 0, kept := [], resend := none, accepted := 0, nak := false, nextTag := 0, highest := none,
    cache := [], credit := 768, control := [], left := none, since := none, stale := [], heard := false, silent := 0 }

/-- The pairs of a port with every other module of the domain. -/
def State.freshPairs (s : State) : List Pair :=
  ((List.range 256).filter (fun b => s.present.getLsbD b && b != s.ownModule)).map Pair.fresh

/-- A port replaced. -/
def State.mapPort (s : State) (n : Nat) (f : Port → Port) : State :=
  if h : n < 8 then { s with ports := s.ports.set n (f (s.ports[n]'h)) h } else s

/-- A partition boots: its record, its link shares (R84) and its bit of PARTOK, its cores, which run under Benale's second stage
(R83; log entry 3), its port, and on the dies where it holds memory its roots and its key slots. -/
def State.bootPartition (s : State) (n : Nat) : State :=
  let s1 := s.mapPart n (fun p =>
    { p with state := 2, bootAt := s.cycle, refills := 0, tiled := p.wings, linkShare := s.divideLinks p })
  let s2 := s1.mapFirefly (fun f => { f with partOk := f.partOk ||| BitVec.ofNat 8 (2 ^ n) })
  let s3 := (s2.partN n).wingList.foldl (fun t w =>
    (t.mapCore w Core.forGuest).bindWing n w) s2
  let s4 := s3.mapPort (s3.partN n).port (fun p =>
    { p with nextXfer := 0, pairs := if p.pairs.isEmpty then s.freshPairs else p.pairs })
  let dies := (List.range 8).filter (fun d => (s.partN n).holds d)
  let s5 := dies.foldl (fun t d => t.mapDie d (fun r => (r.rooted n (s4.fresh + 2 * d)).bind (.partition n))) s4
  { s5 with fresh := s5.fresh + 16 }

/-! ## Starts (R15 to R20) -/

/-- The units of a tile in which nothing is defective, with its map (R139). -/
def TileUnits.whole : TileUnits := { bad := ⟨0, 0, false⟩, lgMap := List.range 8, aluMap := [0, 1] }

/-- The working units of a kind, of n that are built. -/
def workingUnits (bad : Nat → Bool) (n : Nat) : List Nat := (List.range n).filter (fun k => !bad k)

/-- The slot-to-engine map of a tile (R139): slots take the working units in turn; a slot of a tile with too few shares its unit with
another slot, in the other cycle of the step. Which unit stands behind which slot is not given (DESIGN CHOICE, log entry 27). -/
def bindUnits (b : Defects) : TileUnits :=
  let lgs := workingUnits (fun k => b.lgs.getLsbD k) 9
  let alus := workingUnits (fun k => b.alus.getLsbD k) 3
  { bad := b, lgMap := (List.range 8).map (fun k => lgs.getD (k % lgs.length) 9),
    aluMap := (List.range 2).map (fun k => alus.getD (k % alus.length) 3) }

/-- Whether a tile is fused off: too few working units, or a defect elsewhere (R139). -/
def fusedOff (b : Defects) : Bool :=
  let lgs := (workingUnits (fun k => b.lgs.getLsbD k) 9).length
  let alus := (workingUnits (fun k => b.alus.getLsbD k) 3).length
  b.other || decide (lgs < 4) || decide (alus < 1)

/-- Whether a tile that is not fused off is degraded (R139). -/
def madeDegraded (b : Defects) : Bool :=
  let lgs := (workingUnits (fun k => b.lgs.getLsbD k) 9).length
  let alus := (workingUnits (fun k => b.alus.getLsbD k) 3).length
  !fusedOff b && (decide (lgs < 8) || decide (alus < 2))

/-- The tiles of a list that a test of their defects picks. -/
def tilesWith (f : Defects → Bool) (l : List (Nat × Defects)) : BitVec 1024 :=
  l.foldl (fun m x => if f x.2 then m ||| BitVec.ofNat 1024 (2 ^ x.1) else m) 0

/-- The maps of every tile with a defect written, and the tiles judged (R139). -/
def State.judgeTiles (s : State) (l : List (Nat × Defects)) : State :=
  { s with units := l.foldl (fun m x => Sparse.set TileUnits.whole m x.1 (bindUnits x.2)) [],
           degraded := tilesWith madeDegraded l, fused := tilesWith fusedOff l }

/-- A rail set to a free voltage within its window, in mV (R12). -/
def railMv (lo hi k : Nat) : BitVec 16 := BitVec.ofNat 16 (lo + (Config.freeWord k).toNat % (hi + 1 - lo))

/-- The rails set within their windows, from free values on (R12). -/
def Firefly.setRails (f : Firefly) (k : Nat) : Firefly :=
  { f with coreMv := Vector.ofFn (fun (d : Fin 8) => railMv 500 620 (k + d.val))
           sramMv := Vector.ofFn (fun (d : Fin 8) => railMv 720 800 (k + 8 + d.val))
           ioMv := Vector.ofFn (fun (d : Fin 2) => railMv 700 800 (k + 16 + d.val)) }

/-- The process monitors of every die take their first value (R15 stage 1, R23), sixteen for each die. -/
def Firefly.takeProcess (f : Firefly) (counts : Vector (BitVec 16) 128) : Firefly :=
  counts.toList.zipIdx.foldl (fun g x => g.setSensor (x.2 / 16) (96 + x.2 % 16)
    { g.sensor (x.2 / 16) (96 + x.2 % 16) with valid := true, value := x.1 }) f

/-- The released frames of the wings that are moving, written to zero (R88). -/
def eraseFrames (m : Memory) (moving : List (Nat × Nat × List (Nat × Nat))) : Memory :=
  (moving.map (fun x => x.2.2)).flatten.foldl (fun a f => clearRange a f.1 (f.1 + f.2)) m

/-- A scrub that Termite has run to its end (R21): a wing that no scrub has counted shows phase 0 still. -/
def endScrub (x : BitVec 3 × BitVec 24 × BitVec 24) : BitVec 3 × BitVec 24 × BitVec 24 := if x.1 = 0 then x else (5, x.2.1, x.2.1)

/-- Stages 0 to 3, up to the first that fails (R15): the log, the supplies, the process monitors and the rebinding maps, and the scrub
of stage 2 with what is left of a scrub under way (R89). An image whose check a stage does not complete is not recorded. -/
def State.runStages (s : State) (failing : Option BootFailure) (fw benale : BitVec 512) (defects : List (Nat × Defects))
    (process : Vector (BitVec 16) 128) (parts : List PartConfig) : State :=
  let at_ := match failing with | some f => (stageOf (Config.freeWord s.fresh).toNat f).toNat | none => 4
  let s0 := { s with fresh := s.fresh + 256 }
  let s1 := if 1 ≤ at_ ∨ failing = some .firmwareSignature then s0.mapFirefly (fun f =>
      f.record 0 noPart (if failing = some .firmwareSignature then 1 else 0) fw) else s0
  let s2 := if 2 ≤ at_ then (s1.judgeTiles defects).mapFirefly (fun f => (f.setRails (s.fresh + 1)).takeProcess process) else s1
  let s3 := if 3 ≤ at_ then
      { s2.restartClock with mem := eraseFrames (clearScratch s2.mem) s2.firefly.moving }.mapFirefly (fun f =>
        { f with scrubDone := BitVec.allOnes 32, moving := [], scrub := f.scrub.map endScrub })
    else s2
  let s4 := if 4 ≤ at_ ∨ failing = some .benaleSignature ∨ failing = some .imageDigest then
      s3.mapFirefly (fun f => f.record 1 noPart (match failing with
        | some .benaleSignature => 1
        | some .imageDigest => 2
        | _ => 0) benale)
    else s3
  let s5 := if 4 ≤ at_ then (s4.configure parts).mapCore 0 (fun c => { c with online := true }) else s4
  s5.mapFirefly (fun f => { f with stage := BitVec.ofNat 4 at_ })

/-- MODULE_START. R15, R16, R18, R20: a module that a reset or power-on has made ready runs stages 0 to 3 and enters stage 4, or
fails in one of them, or runs in minimal mode. In minimal mode no image is checked (log entry 16). -/
def execModuleStart (failing : Option BootFailure) (fwDigest benaleDigest : BitVec 512) (defects : List (Nat × Defects))
    (process : Vector (BitVec 16) 128) (parts : List PartConfig) (s : State) : Host.Outcome State Fault Refusal :=
  let f := s.firefly
  if f.power = .dumping ∨ (f.power = .on ∧ (f.stage ≠ 0 ∨ !f.log.isEmpty)) then .next s
  else
    let s0 := (if f.power = .on then s else s.newStart).mapFirefly (fun x => { x with power := .on })
    if f.fails = 3 then
      .next (s0.restartClock.mapFirefly (fun x => { x with stage := 6, minimal := true })
        |>.mapCore 0 (fun c => { c with online := true }))
    else
      let t := s0.runStages failing fwDigest benaleDigest defects process parts
      match failing with
      | none => .next t
      | some .thermalTrip => .next (t.mapFirefly (fun x => { x.failStart 9 with power := .cut, lastDown := 4 }))
      | some (.fatal cause die) => .next (t.fatal cause die 2 3)
      | some k => .next (t.mapFirefly (fun x => x.failStart (reasonOf k)))

/-- STAGE_TIME_LIMIT. R15, R16, R20: stage 4 ends with Benale's boot-complete timeout. -/
def execStageTimeLimit (s : State) : Host.Outcome State Fault Refusal :=
  .next (s.mapFirefly (fun f => f.failStart (if f.stage = 4 then 8 else 11)))

/-- IMAGE_CHECK_REQUEST. R15 stage 4, R16, R17: a check is recorded, and a partition whose image is accepted boots. -/
def execImageCheckRequest (part : BitVec 3) (digest : BitVec 512) (verdict : BitVec 2) (s : State) :
    Host.Outcome State Fault Refusal :=
  let n := part.toNat
  let p := s.partN n
  if s.firefly.power ≠ .on ∨ s.firefly.stage.toNat < 4 ∨ s.firefly.minimal ∨ p.state ≠ 1 ∨ verdict = 3 then .next s
  else
    let t := s.mapFirefly (fun f => f.record 2 n verdict.toNat digest)
    if verdict = 0 then .next (t.bootPartition n) else .next (t.mapPart n (fun q => { q with state := 0 }))

/-- ATTESTATION_LOG_REQUEST. R17: the log with the caller's nonce, signed. -/
def execAttestationLogRequest (nonce : BitVec 256) (s : State) : Host.Outcome State Fault Refusal :=
  .next (if s.firefly.power = .on then s.mapFirefly (fun f =>
    let bytes := (f.log.map (fun r => bytesOfNat 96 r.toNat)).flatten ++ bytesOfNat 32 nonce.toNat
    { f with signedLog := bytes ++ Config.identitySign bytes }) else s)

/-- BOOT_COMPLETE. R15 stage 5, R18: the count of failed starts is cleared, and with it REASON (R19). -/
def execBootComplete (s : State) : Host.Outcome State Fault Refusal :=
  .next (s.mapFirefly (fun f =>
    if f.power = .on ∧ f.stage = 4 then { f with stage := 5, fails := 0, reason := 0 } else f))

/-- The full-start request (R18): it is heard in minimal mode only. LASTDOWN then reads 1: the request counts as a reset by the host,
which the manual does not say (DESIGN CHOICE, log entry 27). -/
def State.fullStart (s : State) (value : BitVec 32) : State :=
  if value.getLsbD 0 ∧ s.firefly.minimal ∧ s.firefly.power = .on then
    s.newStart.mapFirefly (fun f => { f with fails := 0, reason := 0, lastDown := 1 })
  else s

/-- START. R18. -/
def execStart (value : BitVec 32) (s : State) : Host.Outcome State Fault Refusal := .next (s.fullStart value)

/-- Codes that wait for the partition OS (R61). -/
def attnEntries : Nat := 64

/-! ## The management window (R14) -/

/-- A write of BOOTSTAT: DUMPVALID is W1C, every other field RO (R19, R25). -/
def Firefly.writeBootstat (f : Firefly) (value : Nat) : Firefly := if value.testBit 14 then { f with dumpValid := false } else f

/-- DUMPVALID_RELEASE. R19, R25. -/
def execDumpvalidRelease (value : BitVec 32) (s : State) : Host.Outcome State Fault Refusal :=
  .next (s.mapFirefly (fun f => f.writeBootstat value.toNat))

/-- BOOTSTAT (R19). -/
def Firefly.bootstat (f : Firefly) : Word :=
  f.reason ++ f.fails ++ f.stage ++ BitVec.ofBool f.minimal ++ BitVec.ofBool f.dumpValid ++ f.lastDown ++ f.partOk

/-- SCRUBPROG of a wing (R21). -/
def Firefly.scrubProg (f : Firefly) (w : Nat) : DWord :=
  let x := f.scrub.toList.getD w (0, 0, 0)
  BitVec.ofNat 5 w ++ x.1 ++ x.2.1 ++ (0 : BitVec 8) ++ x.2.2

/-- A sensor word (R23). -/
def Firefly.sensorWord (f : Firefly) (die i : Nat) : Nat :=
  let x := f.sensor die i
  let kind := if i < 64 then 0 else if i < 96 then 1 else 2
  let idx := if i < 64 then i else if i < 96 then i - 64 else i - 96
  kind * 2 ^ 30 + idx * 2 ^ 24 + (if x.valid then 2 ^ 23 else 0) + (if x.alarm then 2 ^ 22 else 0) + x.value.toNat

/-- The wings of a partition (R82). -/
def State.wingsOf (s : State) (part : Nat) : BitVec 32 := match s.parts.toList[part]? with | some p => p.wings | none => 0

/-- Whether a partition owns a wing of a die (R82). -/
def State.ownsOnDie (s : State) (part die : Nat) : Bool :=
  (s.wingsOf part).extractLsb' (4 * die) 4 != 0

/-- The partition behind a PCIe function: that of fabric port p is function p mod 4 on the host link of package p div 4 (R58). -/
def State.behind (s : State) (package : BitVec 1) (fn : BitVec 2) : Option Partition :=
  s.parts.toList.find? (fun p => p.wings != 0 && p.port == 4 * package.toNat + fn.toNat)

/-- What the host asks of a function: its configuration space, BAR0, or the host window behind BAR2 (R58, R59). -/
inductive HostRequest where
  | config | bar0 | bar2
  deriving DecidableEq, Repr

/-- Whether a function answers a request (R18, R58): that of a partition that is not up answers configuration reads and BAR0 only, and
in minimal mode only function 0 of package 0 exists. -/
def State.answers (s : State) (package : BitVec 1) (fn : BitVec 2) (q : HostRequest) : Bool :=
  if s.firefly.minimal then package == 0 && fn == 0 && q != .bar2
  else match s.behind package fn with
    | none => false
    | some p => q != .bar2 || p.up

/-- Where the MSI-X table and the pending-bit array lie in BAR0: the manual gives the range that holds both (R59), the model this
place in it (DESIGN CHOICE, log entry 51). -/
def msixTable : Nat := 0x100
def msixArray : Nat := 0x800

/-- An MSI-X entry's mask bit. -/
def msixMasked (e : BitVec 128) : Bool := e.getLsbD 96

/-- MSI-X message v of a partition (R59, R61): sent with the data of its entry, or pending while the entry is masked. Bit 0 of message
0 reports a code that HOSTATTN has dropped, once. -/
def Partition.message (p : Partition) (v : Nat) : Partition :=
  let e := p.msix.toList.getD v 0
  if msixMasked e then { p with msixPending := p.msixPending ||| BitVec.ofNat 32 (2 ^ v) }
  else
    let data : Word := e.extractLsb' 64 32
    let word : Word := if v = 0 then data ||| (if p.attnDrop then 1 else 0) else data
    { p with msixSent := p.msixSent ++ [(e.extractLsb' 0 64, word)]
             msixPending := p.msixPending &&& ~~~BitVec.ofNat 32 (2 ^ v)
             attnDrop := if v = 0 then false else p.attnDrop }

/-- Half of an MSI-X entry written by the host; a pending message whose entry is no longer masked is sent. -/
def Partition.writeMsix (p : Partition) (o : Nat) (value : DWord) : Partition :=
  let v := o / 16
  let e := p.msix.toList.getD v 0
  let e2 : BitVec 128 := if o % 16 = 0 then e.extractLsb' 64 64 ++ value else value ++ e.extractLsb' 0 64
  let q := { p with msix := p.msix.setIfInBounds v e2 }
  if p.msixPending.getLsbD v then q.message v else q

/-- What a read of the management window gives: Benale sees all of it, a partition OS the scrubs of its own wings and the sensors
of its dies, the host BOOTSTAT and the MSI-X table of its function (R8, R14, R59); any other read gives zero. The reload of a droop
monitor is DROOP_READ's. -/
def State.windowRead (s : State) (agent : MgmtAgent) (offset : BitVec 16) : DWord :=
  let o := offset.toNat
  match agent with
  | .host package fn =>
    if !s.answers package fn .bar0 then 0
    else if o = 0 then s.firefly.bootstat.setWidth 64
    else match s.behind package fn with
      | none => 0
      | some p =>
        if msixTable ≤ o ∧ o < msixTable + 512 ∧ o % 8 = 0 then
          (p.msix.toList.getD ((o - msixTable) / 16) 0).extractLsb' (o % 16 * 8) 64
        else if o = msixArray then p.msixPending.setWidth 64
        else 0
  | _ =>
    let sees (wing die : Nat) : Bool := match agent with
      | .partitionOs n => if 0x1000 ≤ o then s.ownsOnDie n.toNat die else (s.wingsOf n.toNat).getLsbD wing
      | _ => true
    if o = 0 then (if agent = .benale then s.firefly.bootstat.setWidth 64 else 0)
    else if 0x100 ≤ o ∧ o < 0x200 ∧ o % 8 = 0 ∧ sees ((o - 0x100) / 8) 0 then s.firefly.scrubProg ((o - 0x100) / 8)
    else if o = 0x200 then (if agent = .benale then s.firefly.scrubDone.setWidth 64 else 0)
    else if 0x1000 ≤ o ∧ o < 0x2000 ∧ o % 4 = 0 ∧ o % 0x200 < 4 * 112 ∧ sees 0 ((o - 0x1000) / 0x200) then
      BitVec.ofNat 64 (s.firefly.sensorWord ((o - 0x1000) / 0x200) (o % 0x200 / 4))
    else 0

/-- A write of HOSTATTN (R61): CODE is queued for the partition OS, or dropped while the queue is full. -/
def State.hostattn (s : State) (part : Nat) (value : Word) : State :=
  if value.getLsbD 0 ∧ (s.partN part).state ≠ 0 then s.mapPart part (fun p =>
    if p.attn.length < attnEntries then { p with attn := p.attn ++ [value.extractLsb' 16 16] } else { p with attnDrop := true })
  else s

/-- HOSTATTN. R61: CODE is queued for the partition OS, or dropped while the queue is full. -/
def execHostattn (part : BitVec 3) (value : BitVec 32) (s : State) : Host.Outcome State Fault Refusal :=
  .next (s.hostattn part.toNat value)

/-- HOSTATTN_CODE_READ. R61: the oldest code leaves the queue. -/
def execHostattnCodeRead (part : BitVec 3) (s : State) : Host.Outcome State Fault Refusal :=
  .next (s.mapPart part.toNat (fun p => match p.attn with
    | [] => p
    | c :: l => { p with attn := l, attnRead := c }))

/-- A write of BAR0 by the host through a function (R14, R59): the full-start request, HOSTATTN of the function's partition and its
MSI-X table. -/
def State.bar0Write (s : State) (package : BitVec 1) (fn : BitVec 2) (o : Nat) (value : DWord) : State :=
  if !s.answers package fn .bar0 then s
  else if o = 8 then s.fullStart (value.setWidth 32)
  else match s.behind package fn with
    | none => s
    | some p =>
      if o = 0x10 then s.hostattn p.pnum (value.setWidth 32)
      else if msixTable ≤ o ∧ o < msixTable + 512 ∧ o % 8 = 0 then s.mapPart p.pnum (fun q => q.writeMsix (o - msixTable) value)
      else s

/-- REGISTER_WRITE. R8, R14, R19, R23, R59, R61: Benale writes the W1C bits of the window, the host what BAR0 gives it; every other
write does nothing. -/
def execRegisterWrite (agent : MgmtAgent) (offset : BitVec 16) (value : BitVec 64) (s : State) :
    Host.Outcome State Fault Refusal :=
  let o := offset.toNat
  match agent with
  | .benale =>
    if o = 0 then .next (s.mapFirefly (fun f => f.writeBootstat value.toNat))
    else if 0x1000 ≤ o ∧ o < 0x2000 ∧ o % 4 = 0 ∧ o % 0x200 < 4 * 112 ∧ value.getLsbD 22 then
      let d := (o - 0x1000) / 0x200
      let i := o % 0x200 / 4
      .next (s.mapFirefly (fun f => f.setSensor d i { f.sensor d i with alarm := false }))
    else .next s
  | .host package fn => .next (s.bar0Write package fn o value)
  | .partitionOs _ => .next s

/-! ## Partition records (R82) -/

/-- The record of a partition, its bytes 0 to 63 (R82). -/
def Partition.recordWord (p : Partition) : BitVec 512 :=
  let bytes (l : List Nat) (lo : Nat) : Nat := ((List.range 8).map (fun d => l.getD d 0 % 256 * 2 ^ (8 * (lo + d)))).foldl (· + ·) 0
  BitVec.ofNat 512 (p.pnum % 256 + p.state % 256 * 2 ^ 8 + p.port % 256 * 2 ^ 16 + p.nvport % 256 * 2 ^ 24 + p.wings.toNat * 2 ^ 32 +
    bytes p.hbm 8 + bytes p.lpd 16 + p.nsid.toNat * 2 ^ 192 + p.period % 2 ^ 32 * 2 ^ 224 + p.hostwin % 2 ^ 32 * 2 ^ 256 +
    p.ownerKey.toNat * 2 ^ 288 + p.devices.length % 256 * 2 ^ 304)

/-- What an agent reads as the record of a partition (R82): Benale holds all of them, a partition OS reads its own. -/
def State.recordRead (s : State) (agent : MgmtAgent) (n : BitVec 3) : BitVec 512 :=
  match agent with
  | .benale => (s.partN n.toNat).recordWord
  | .partitionOs k => if k = n then (s.partN n.toNat).recordWord else 0
  | .host .. => 0

/-! ## Fatal errors and dumps (R25, R26) -/

/-- No die in particular. -/
def wholeModule : BitVec 32 := 0xFFFF_FFFF

/-- FATAL_ERROR. R25, R26. -/
def execFatalError (cause die : BitVec 32) (s : State) : Host.Outcome State Fault Refusal := .next (s.fatal cause die 2 3)

/-- BENALE_PANIC. R26. -/
def execBenalePanic (s : State) : Host.Outcome State Fault Refusal := .next (s.fatal 5 wholeModule 2 3)

/-- FIREFLY_WATCHDOG. R25: LASTDOWN says 5 whether or not a dump is written. -/
def execFireflyWatchdog (s : State) : Host.Outcome State Fault Refusal := .next (s.fatal 4 wholeModule 5 5)

/-- The first byte of the dump region (R25). -/
def dumpBase : Nat := (Region.lpddr 0).addr (60 * 2 ^ 30)

/-- The length of a whole dump. -/
def dumpLength : Nat := 0xA500_0000

/-- The words of an area of a dump. -/
def areaFields (off len : Nat) (word : Nat → DWord) : List Field :=
  (List.range (len / 8)).map (fun i => (off + 8 * i, 8, (word i).toNat))

/-- Every tile halts where it stands (R25), and the accesses that have been issued perform (R114). -/
def State.haltAll (s : State) : State :=
  (s.ctxs.filter (fun c => c.run == .issuing)).foldl (fun t c =>
    let u := (t.focus c.uid).pause
    u.passCluster (clusterOf c.tile) (max s.cycle u.cur.lastBank)) s

/-- A control core's registers, as a dump holds them. -/
def Core.dumpWords (c : Core) : List DWord :=
  c.xregs.toList ++ c.fregs.toList ++ [c.pc, BitVec.ofNat 64 c.priv, (if c.virt then 1 else 0)] ++
    (c.csrs.map (fun x => [BitVec.ofNat 64 x.1, x.2])).flatten

/-- What the tables area of a dump holds: the allocation tables, the slots of each partition and the memory-side TLBs. -/
def State.dumpTables (s : State) : List (List Nat) :=
  (s.ctxs.map (fun c => c.allocs.map (fun a => [c.tile, c.slot, a.atag, a.base, a.size, a.swz]))).flatten ++
  (s.parts.toList.map (fun p => p.slots.map (fun x => [p.pnum, x.1, x.2.1, x.2.2]))).flatten ++
  (s.dies.toList.map (fun d => d.tlb.map (fun e => [e.1, e.2.lo, e.2.size, e.2.tier, e.2.frame]))).flatten

/-- The fields of a dump but for its digest (R25, R26). tile and cluster say which are reachable. The sensor windows stand in die
order, 0x200 bytes apart as in the management window; the manual gives the order and not the distance (DESIGN CHOICE, log entry 51).
The layout of the core states, the records and the tables is not given: their words are functions of what they hold. -/
def State.dumpFields (s : State) (complete : Nat) (tile cluster : Nat → Bool) : List Field :=
  let f := s.firefly
  [(0, 8, 0x0050_4D55_4438_4A46), (8, 4, 1), (12, 4, f.dumpCause.toNat), (16, 4, f.dumpDie.toNat),
    (24, 8, f.timeUs + s.cycle / Config.cyclesPerUs), (32, 8, complete), (40, 128, laneMaskOf tile 1024),
    (168, 16, laneMaskOf cluster 128)] ++
  (placed f.log).map (fun x => (0x1000 + 96 * x.1, 96, x.2.toNat)) ++
  ((List.range 8).map (fun d => (List.range 112).map (fun i => (0x10_0000 + 0x200 * d + 4 * i, 4, f.sensorWord d i)))).flatten ++
  ((placed s.cores.toList).map (fun x => areaFields (0x11_0000 + 0x1_0000 * x.1) 0x1_0000 (Config.dumpCore x.2.dumpWords))).flatten ++
  areaFields 0x40_0000 0x40_0000 (Config.dumpRecords (s.cores.toList.map (fun c => c.queue ++ c.kept))) ++
  ((s.ctxs.filter (fun c => c.run.resident && tile c.tile)).map (fun c =>
    (c.imageFields (c.run == .issuing) (s.fresh + 2 ^ 23 + 64 * (4 * c.tile + c.slot))).map (fun x => (0x100_0000 + 0x20_0000 * c.tile + 0x8_0000 * c.slot + x.1, x.2)))).flatten ++
  (s.mem.filterMap (fun c =>
    let k := c.1 / 2 ^ 60
    let o := c.1 % 2 ^ 60
    if 128 ≤ k ∧ k < 256 ∧ cluster (k - 128) then some (0x8100_0000 + 0x40_0000 * (k - 128) + o, 1, c.2.toNat) else none)) ++
  areaFields 0xA100_0000 0x400_0000 (Config.dumpTables s.dumpTables)

/-- Memory with a dump of the first complete bytes (R25, R26). Which tiles and clusters are reachable is a free choice (log entry
8). -/
def State.dumped (s : State) (complete : Nat) : Memory :=
  let t := s.haltAll
  let fs := t.dumpFields complete (fun k => Config.freeBit (t.fresh + k)) (fun k => Config.freeBit (t.fresh + 1024 + k))
  let m := writeFields (clearRange t.mem dumpBase (dumpBase + 2 ^ 32)) dumpBase fs
  let digest := Config.shake256 (Memory.readBytes m (dumpBase + 0x1000) (complete - 0x1000))
  let full := Memory.writeNat m (dumpBase + 192) 64 digest.toNat
  full.filter (fun c => decide (c.1 < dumpBase + complete)) ++ t.mem.filter (fun c => decide (dumpBase + complete ≤ c.1))

/-- A dump under way ends with its first complete bytes written. -/
def State.endDump (s : State) (complete : Nat) : State :=
  { s with mem := s.dumped complete, fresh := s.fresh + 2 ^ 24 }.mapFirefly (fun f => { f with dumpValid := true })

/-- DUMP_DONE. R26: the whole dump is written and the module is reset. -/
def execDumpDone (s : State) : Host.Outcome State Fault Refusal :=
  .next (if s.firefly.power = .dumping then (s.endDump dumpLength).newStart else s)

/-- The bytes of a dump's header that hold its fields (R26). -/
def dumpHeader : Nat := 256

/-- What a dump that is cut short has written (R25): its header, which says how many bytes, and a free number of others (log entries 8,
27). -/
def State.cutDump (s : State) : State :=
  if s.firefly.power = .dumping then
    s.endDump (dumpHeader + (Config.freeWord (s.fresh + 2 ^ 24 - 1)).toNat % (dumpLength + 1 - dumpHeader))
  else s

/-- The end of a run, when one is under way (R19). -/
def State.endRun (s : State) (how : BitVec 6) : State :=
  if s.firefly.power = .on then s.mapFirefly (fun f => { f with lastDown := how }) else s.cutDump

/-- MODULE_RESET. R19, R21, R25, R89: the host or Benale resets the module. -/
def execModuleReset (s : State) : Host.Outcome State Fault Refusal :=
  .next (if s.firefly.power = .off then s else (s.endRun 1).newStart)

/-- POWER_OFF. R19. The manual does not say what becomes of HBM4, LPDDR-6 and the scratchpads without power: the model keeps every byte, a
standing dump included (DESIGN CHOICE, log entry 27). -/
def execPowerOff (s : State) : Host.Outcome State Fault Refusal :=
  .next ((s.endRun 0).newStart.mapFirefly (fun f => { f with power := .off, timeUs := 0 }))

/-! ## Health monitors (R23, R24) -/

/-- A thermal value, in 1/16 °C. -/
def degrees (v : BitVec 16) : Int := v.toInt

/-- The launch hold of a die: set at 95 °C, ended when every sensor reads below 90 °C (R24). -/
def Firefly.holdAfter (f : Firefly) (die : Nat) (value : BitVec 16) : BitVec 8 :=
  if 1520 ≤ degrees value then f.hold ||| BitVec.ofNat 8 (2 ^ die)
  else if (List.range 64).all (fun i => decide (degrees (f.sensor die i).value < 1440)) then f.hold &&& ~~~BitVec.ofNat 8 (2 ^ die)
  else f.hold

/-- A thermal sensor takes a value (R23, R24). -/
def Firefly.heat (f : Firefly) (die i : Nat) (value : BitVec 16) : Firefly :=
  let x := f.sensor die i
  let g := f.setSensor die i { valid := true, alarm := x.alarm || decide (1520 ≤ degrees value), value := value }
  { g with hold := g.holdAfter die value }

/-- A thermal trip (R24): every compute-die core supply is cut at once, and no dump is written; one under way ends where it stands. -/
def State.thermalTrip (s : State) : State := s.cutDump.mapFirefly (fun f => { f.failStart 9 with power := .cut, lastDown := 4 })

/-- The compute dies have their supplies. -/
def Firefly.supplied (f : Firefly) : Bool := f.power != .off && f.power != .cut

/-- The home of a die's partition for records not about a launch: that of every partition with a wing on the die. -/
def State.partsOn (s : State) (die : Nat) : List Partition :=
  s.parts.toList.filter (fun p => (List.range 4).any (fun w => p.wings.getLsbD (4 * die + w)))

/-- A droop monitor reads a voltage (R23, R24): the lowest stays, below 520 mV it alarms and is reported, below 500 mV it is
fatal. -/
def State.droop (s : State) (die j : Nat) (mv : BitVec 16) : State :=
  let x := s.firefly.sensor die (64 + j)
  let low := if x.valid ∧ x.value.toNat ≤ mv.toNat then x.value else mv
  let s1 := s.mapFirefly (fun f => f.setSensor die (64 + j)
    { valid := true, alarm := x.alarm || decide (mv.toNat < 520), value := low })
  let s2 := if mv.toNat < 520 ∧ s.firefly.power = .on then (s1.partsOn die).foldl (fun t p => t.postHome p 9 die 0 j low.toNat) s1 else s1
  if mv.toNat < 500 then s2.fatal 2 (BitVec.ofNat 32 die) 2 3 else s2

/-- DROOP_READ. R23: a read reloads the present voltage. -/
def execDroopRead (die : BitVec 3) (j : BitVec 5) (present : BitVec 16) (s : State) : Host.Outcome State Fault Refusal :=
  .next (s.mapFirefly (fun f =>
    f.setSensor die.toNat (64 + j.toNat) { f.sensor die.toNat (64 + j.toNat) with valid := true, value := present }))

/-- SENSOR_SAMPLE. R23, R24. -/
def execSensorSample (die : BitVec 3) (kind : BitVec 2) (idx : BitVec 6) (value : BitVec 16) (s : State) :
    Host.Outcome State Fault Refusal :=
  let i := idx.toNat
  if !s.firefly.supplied then .next s
  else if kind = 0 then
    let t := s.mapFirefly (fun f => f.heat die.toNat i value)
    .next (if 1680 ≤ degrees value then t.thermalTrip else t)
  else if kind = 1 ∧ i < 32 then .next (s.droop die.toNat i value)
  else if kind = 2 ∧ i < 16 then
    .next (s.mapFirefly (fun f => f.setSensor die.toNat (96 + i) { f.sensor die.toNat (96 + i) with valid := true, value := value }))
  else .next s

/-- DROOP_ALARM. R24: a voltage below 0.52 V, and not below 0.50 V. -/
def execDroopAlarm (die : BitVec 3) (j : BitVec 5) (mv : BitVec 16) (s : State) : Host.Outcome State Fault Refusal :=
  .next (if s.firefly.supplied ∧ mv.toNat < 520 ∧ 500 ≤ mv.toNat then s.droop die.toNat j.toNat mv else s)

/-- DROOP_FATAL. R24: a voltage below 0.50 V. -/
def execDroopFatal (die : BitVec 3) (j : BitVec 5) (mv : BitVec 16) (s : State) : Host.Outcome State Fault Refusal :=
  .next (if s.firefly.supplied ∧ mv.toNat < 500 then s.droop die.toNat j.toNat mv else s)

end Sys2Proof.Machine
end

