-- ==== Sys2Proof/Machine/Partitions.lean ====
section
/-!
DEFINITION. Partitions, wings and virtual devices (04_partitions_qos R85 to R93): resets, moves of a wing, Termite, VDCFG and
refills.
-/
namespace Sys2Proof.Machine
open Sys2Proof

/-! ## Shared operations -/

/-- The SCRUBPROG of a wing: PHASE, TOTAL and DONE (R21). -/
abbrev Scrub := BitVec 3 × BitVec 24 × BitVec 24

/-- SCRUBPROG of a wing. -/
def Firefly.scrubOf (f : Firefly) (w : Nat) : Scrub := if h : w < 32 then f.scrub[w] else (0, 0, 0)

/-- SCRUBPROG of a wing replaced. -/
def Firefly.setScrub (f : Firefly) (w : Nat) (x : Scrub) : Firefly :=
  if h : w < 32 then { f with scrub := f.scrub.set w x h } else f

/-- The units of a scrub before phase 3 (R21): 32 tiles and 4 scratchpads. -/
def tileUnits : Nat := 32 * 7
def wingUnits : Nat := tileUnits + 4 * 64

/-- A scrub of a wing starts from the first unit (R21, R22, R89). -/
def Firefly.startScrub (f : Firefly) (w total : Nat) : Firefly :=
  { f.setScrub w (1, BitVec.ofNat 24 total, 0) with scrubDone := f.scrubDone &&& ~~~BitVec.ofNat 32 (2 ^ w) }

/-- Control flits a port owes a peer, by kind (R32, R36, R40, R46, R48, R55). -/
def ctlNak : Nat := 0
def ctlAck : Nat := 1
def ctlCredit : Nat := 2
def ctlReset : Nat := 3
def ctlDiscard : Nat := 4
def ctlDown : Nat := 5

/-- A pair after a reset of the own port: the tags start afresh, and the peer is told before any other flit (R48). -/
def Pair.restart (p : Pair) : Pair :=
  { p with nextTag := 0, highest := none, cache := [], control := (ctlReset, 0) :: p.control }

/-- The type of a flit, its source and its target (R37). -/
def headType (h : DWord) : Nat := h.toNat / 2 ^ 60
def headSrc (h : DWord) : Nat := h.toNat / 2 ^ 52 % 256
def headDst (h : DWord) : Nat := h.toNat / 2 ^ 44 % 256

/-- The type of a reply flit (R37). -/
def tyReply : Nat := 4

/-- Who is told of a reliable flit that a reset has discarded (R46): its source, and of a reply its target as well, for the reply may be
that of a watch, which the target has to send again (DEDUCED, log entry 55). -/
def discardNotices (h : DWord) : List (Nat × DWord) :=
  (headSrc h, h) :: (if headType h = tyReply then [(headDst h, h)] else [])

/-- The relay credit that the discarded reliable blocks of a source hold goes back to it (R36, R85). -/
def Pair.refund (p : Pair) (gone : List Waiting) : Pair :=
  match (gone.filter (fun w => w.relayOf == some p.peer)).length with
  | 0 => p
  | n => { p with control := p.control ++ [(ctlCredit, n)] }

/-- A port that is reset with its partition (R46, R48, R54, R85): its relayed flits are discarded, with the credit that they hold given
back, and its grants end. -/
def Port.restart (p : Port) : Port :=
  { Port.reset with
    pairs := p.pairs.map (fun x => (x.refund (p.relays.filter (fun w => !w.lossy))).restart), wire := p.wire, down := p.down, pendingDown := p.pendingDown,
    discarded := p.discarded ++ ((p.relays.filter (fun w => !w.lossy)).map (fun w => discardNotices w.head)).flatten }

/-- What the memory side of a die holds for a partition is gone; stores in its hold queue are not replayed (R85). -/
def DieRec.forget (d : DieRec) (part : Nat) : DieRec :=
  { d with roots := d.roots.filter (fun r => r.1 != part), tlb := d.tlb.filter (fun e => e.1 != part),
           migs := d.migs.filter (fun m => m.part != part), moves := d.moves.filter (fun m => m.1 != part),
           pins := d.pins.filter (fun m => m.1 != part) }

/-- Every context of a partition is gone, with its accesses (R85 steps 2 and 3). -/
def State.dropContexts (s : State) (n : Nat) : State :=
  { s with
    cur := if s.cur.part = n then { Ctx.empty with uid := s.cur.uid, tile := s.cur.tile } else s.cur
    others := s.others.filter (fun c => c.part != n)
    requests := s.requests.filter (fun r => r.part != n) }

/-- A partition's record between its reset and its boot: what Benale configured stays. -/
def Partition.resetting (p : Partition) : Partition :=
  { Partition.down p.pnum with
    state := 3, port := p.port, nvport := p.nvport, wings := p.wings, hbm := p.hbm, lpd := p.lpd, nsid := p.nsid,
    period := p.period, hostwin := p.hostwin, ownerKey := p.ownerKey, debug := p.debug }

/-! ## Resetting a partition (R85, R89) -/

/-- PARTITION_RESET. R54, R85, R89: everything of the partition stops at once, and every wing of it and every wing on its way from
it is scrubbed from the first unit, also when a scrub of an earlier reset is under way (R21). -/
def execPartitionReset (part : BitVec 3) (s : State) : Host.Outcome State Fault Refusal :=
  let n := part.toNat
  let p := s.partN n
  if p.state = 0 then .next s
  else
    let s1 := (s.dropContexts n).mapPart n Partition.resetting
    let s2 := p.wingList.foldl (fun t w =>
      (t.mapCore w (fun _ => Core.reset)).mapFirefly (fun f => f.startScrub w wingUnits)) s1
    let s3 := (s.firefly.moving.filter (fun m => m.2.1 == n)).foldl (fun t m =>
      t.mapFirefly (fun f => f.startScrub m.1 (f.scrubOf m.1).2.1.toNat)) s2
    let s4 := (List.range 8).foldl (fun t d => t.mapDie d (fun r => r.forget n)) s3
    .next (s4.mapPort p.port Port.restart)

/-- PARTITION_REBOOT. R85 step 6: once every wing is scrubbed, the partition boots from stage 4: it waits for its image check. -/
def execPartitionReboot (part : BitVec 3) (s : State) : Host.Outcome State Fault Refusal :=
  let n := part.toNat
  let p := s.partN n
  .next (if p.state = 3 ∧ p.wingList.all (fun w => s.firefly.scrubDone.getLsbD w) then
    s.mapPart n (fun q => { q with state := 1 })
  else s)

/-! ## Moving a wing (R86 to R88) -/

/-- The partition that holds a wing. -/
def State.holderOf (s : State) (w : Nat) : Option Partition := s.parts.toList.find? (fun p => p.wings.getLsbD w)

/-- A frame by its physical address (log entry 15): its region is one of a die's tiers. -/
def frameDie (f : Nat × Nat) : Nat := f.1 / 2 ^ 60 % 16
def frameTier (f : Nat × Nat) : Nat := f.1 / 2 ^ 60 / 16
def frameOff (f : Nat × Nat) : Nat := f.1 % 2 ^ 60

/-- A released frame lies in the shares of a partition (R87). -/
def State.owns (s : State) (p : Partition) (f : Nat × Nat) : Bool :=
  decide (frameDie f < 8) && decide (frameTier f < 2) && s.inShare p.pnum (frameDie f) (frameTier f) (frameOff f) f.2

/-- Units of released memory (R21). -/
def frameUnits (fs : List (Nat × Nat)) : Nat := (fs.map (fun f => (f.2 + 0xFFFF) / 0x1_0000)).foldl (· + ·) 0

/-- Firefly's check of a RELEASE (R86 step 2, R87). -/
def State.releaseCode (s : State) (p : Partition) (w : Nat) (frames : List (Nat × Nat)) : WingCode :=
  if (s.coreN w).online then .coreOnline
  else if s.ctxs.any (fun c => c.run.resident && wingOf c.tile == w) then .tasksResident
  else if s.ctxs.any (fun c => c.run.resident && clusterOf c.tile / 4 == w && !c.allocs.isEmpty) then .allocLive
  else if p.wingList.length ≤ 1 then .lastWing
  else if frames.all (s.owns p) then .ok
  else .frameForeign

/-- The pending gangs of a partition that no longer fit it are removed, with a REJECTED record (R102). -/
def State.dropGangs (s : State) (n : Nat) : State :=
  ((s.partN n).hive.filter (fun l => l.gang && !l.placed)).foldl (fun t l =>
    let p := t.partN n
    match p.imageOf l.image with
    | none => t
    | some i => match t.lres p i l.tasks l.die [] with
      | none => t
      | some (k, req, lim) =>
        (t.post l.core (eventRecord l.handle 3 k l.device n req lim)).mapPart n (fun q =>
          { q with hive := q.hive.filter (fun x => x.handle != l.handle) })) s

/-- RELEASE. R86 step 2, R87, R102: the wing leaves its partition and its scrub starts, or a code says why not. A partition that is not up
keeps its STATE, and for a wing that no partition holds, for which the manual names no code, nothing is answered and nothing changes (DESIGN
CHOICE, log entry 29). -/
def execRelease (wing : BitVec 5) (frames : List (Nat × Nat)) (s : State) : Host.Outcome State Fault Refusal :=
  let w := wing.toNat
  match s.holderOf w with
  | none => .next s
  | some p =>
    let k := s.releaseCode p w frames
    let t := s.mapFirefly (fun f => { f with moveCode := k })
    if k ≠ .ok then .next t
    else
      let gone := ~~~BitVec.ofNat 32 (2 ^ w)
      let t1 := t.mapPart p.pnum (fun q =>
        { q with wings := q.wings &&& gone, tiled := q.tiled &&& gone, state := if q.up then 4 else q.state })
      let t2 := t1.mapFirefly (fun f =>
        { f.startScrub w (wingUnits + frameUnits frames) with moving := f.moving ++ [(w, p.pnum, frames)] })
      .next (t2.dropGangs p.pnum)

/-- ASSIGN. R86 step 5, R87. A wing that no partition has held since the start counts as released, for no partition holds it: the manual does
not say so (DESIGN CHOICE, log entry 29). -/
def execAssign (wing : BitVec 5) (part : BitVec 3) (s : State) : Host.Outcome State Fault Refusal :=
  let w := wing.toNat
  let p := s.partN part.toNat
  let k : WingCode :=
    if !s.firefly.scrubDone.getLsbD w then .scrubPending
    else if p.state = 0 ∨ p.hbm.getD (w / 4) 0 < 2 ∨ (s.holderOf w).isSome then .badTarget
    else .ok
  let t := s.mapFirefly (fun f => { f with moveCode := k })
  .next (if k = .ok then t.mapPart part.toNat (fun q => { q with wings := q.wings ||| BitVec.ofNat 32 (2 ^ w) }) else t)

/-- CORE_ONLINE. R83, R86 step 6: the control core of a wing that a partition holds comes online under Benale's second stage. The dispatcher
adds the wing's tiles, and a key slot is bound to the wing. -/
def execCoreOnline (wing : BitVec 5) (s : State) : Host.Outcome State Fault Refusal :=
  let w := wing.toNat
  .next (match s.holderOf w with
    | none => s
    | some p =>
      let t := s.mapCore w (fun c => if c.online then c else c.forGuest)
      (t.mapPart p.pnum (fun q => { q with tiled := q.tiled ||| BitVec.ofNat 32 (2 ^ w) })).bindWing p.pnum w)

/-- CORE_OFFLINE. R86 step 1. -/
def execCoreOffline (wing : BitVec 5) (s : State) : Host.Outcome State Fault Refusal :=
  .next (s.mapCore wing.toNat (fun c => { c with online := false }))

/-- PHASE after DONE units of TOTAL (R21, R88). -/
def phaseAfter (done total : Nat) : BitVec 3 :=
  if done < tileUnits then 1 else if done < wingUnits then 2 else if done < total then 3 else 4

/-- The k-th 64 KiB unit of a list of frames: the frame, and the offset in it. -/
def frameUnit : List (Nat × Nat) → Nat → Option ((Nat × Nat) × Nat)
  | [], _ => none
  | f :: l, k => let n := (f.2 + 0xFFFF) / 0x1_0000; if k < n then some (f, k * 0x1_0000) else frameUnit l (k - n)

/-- The tile whose seventh unit this is loses what its tile still holds (R88). -/
def State.scrubTile (s : State) (tile : Nat) : State :=
  let e (c : Ctx) : Ctx := if c.tile = tile ∧ !c.run.resident ∧ c.run ≠ .saved then { Ctx.empty with uid := c.uid, tile := tile } else c
  { s with cur := e s.cur, others := s.others.map e }.setTile tile TileRec.reset

/-- The item of the unit numbered k from 0 is erased (R88). -/
def State.eraseUnit (s : State) (w k : Nat) (frames : List (Nat × Nat)) : State :=
  if k < tileUnits then (if k % 7 = 6 then s.scrubTile (32 * w + k / 7) else s)
  else if k < wingUnits then
    let u := k - tileUnits
    let lo := (Region.scratch (4 * w + u / 64)).addr (u % 64 * 0x1_0000)
    { s with mem := clearRange s.mem lo (lo + 0x1_0000) }
  else match frameUnit frames (k - wingUnits) with
    | none => s
    | some (f, o) => { s with mem := clearRange s.mem (f.1 + o) (f.1 + o + min 0x1_0000 (f.2 - o)) }

/-- TERMITE_UNIT. R21, R88: a unit of phases 1 to 3 ends. -/
def execTermiteUnit (wing : BitVec 5) (s : State) : Host.Outcome State Fault Refusal :=
  let w := wing.toNat
  let x := s.firefly.scrubOf w
  let done := x.2.2.toNat
  if x.1 = 1 ∨ x.1 = 2 ∨ x.1 = 3 then
    let frames := ((s.firefly.moving.find? (fun m => m.1 == w)).map (fun m => m.2.2)).getD []
    .next ((s.eraseUnit w done frames).mapFirefly (fun f =>
      f.setScrub w (phaseAfter (done + 1) x.2.1.toNat, x.2.1, BitVec.ofNat 24 (done + 1))))
  else .next s

/-- The key slots of a die that are bound to a wing zeroised (R88). -/
def DieRec.zeroise (d : DieRec) (w : Nat) : DieRec :=
  { d with keys := d.keys.map (fun k => match k with | .wing p v => if v = w then .free else .wing p v | x => x) }

/-- TERMITE_KEY_SLOTS. R86 step 4, R88: phase 4 ends, the wing's scrub is done, and the partition that released it is up again. -/
def execTermiteKeySlots (wing : BitVec 5) (s : State) : Host.Outcome State Fault Refusal :=
  let w := wing.toNat
  let x := s.firefly.scrubOf w
  if x.1 ≠ 4 then .next s
  else
    let s1 := { s with dies := s.dies.map (fun (d : DieRec) => d.zeroise w) }
    let s2 := s1.mapFirefly (fun f =>
      { f.setScrub w (5, x.2.1, x.2.2) with
        scrubDone := f.scrubDone ||| BitVec.ofNat 32 (2 ^ w), moving := f.moving.filter (fun m => m.1 != w) })
    match s.firefly.moving.find? (fun m => m.1 == w) with
    | none => .next s2
    | some m => .next (s2.mapPart m.2.1 (fun p =>
        { p with state := if p.state = 4 ∧ !s2.firefly.moving.any (fun y => y.2.1 == m.2.1) then 2 else p.state }))

/-! ## Virtual devices (R90 to R92) -/

/-- The weight that a device has, or will have at the next refill. -/
def Device.weightNext (d : Device) : Nat := match d.pending with | some x => x.1 | none => d.weight

/-- Every enabled device would have weight 0, and one would be enabled (R91). -/
def allZero (ws : List Nat) : Bool := !ws.isEmpty && ws.all (· == 0)

/-- A result code of VDCFG, without more (R91). -/
def State.vdcfgCode (s : State) (n code : Nat) : State := s.mapPart n (fun p => { p with lastCode := code })

/-- A device is enabled, or changes from the next refill on (R90, R91). -/
def Partition.enable (p : Partition) (vd weight quantum priomax : Nat) : Partition :=
  let soft := decide (quantum < 52)
  if (p.dev vd).isSome then
    { p with devices := mapDev vd (fun d => { d with pending := some (weight, quantum, priomax, soft) }) p.devices }
  else
    { p with devices := insertDev { vd := vd, weight := weight, quantum := quantum, priomax := priomax, soft := soft, balance := 0,
                                    debts := [], pending := none } p.devices }

/-- A device is removed, with every debt owed to it (R91). -/
def Partition.disable (p : Partition) (vd : Nat) : Partition :=
  { p with devices := (p.devices.filter (fun d => d.vd != vd)).map (fun d =>
      { d with debts := d.debts.filter (fun x => x.lender != vd) }) }

/-- VDCFG. R90, R91: a field outside its range is found first. A device that is disabled has no quantum: a QUANTUM below 52 then makes no
record and answers ACCEPTED, which the table leaves open (DESIGN CHOICE, log entry 29). -/
def execVdcfg (part : BitVec 3) (vd weight quantum priomax enable : Nat) (s : State) : Host.Outcome State Fault Refusal :=
  let n := part.toNat
  let p := s.partN n
  let rest := (p.devices.filter (fun d => d.vd != vd)).map (·.weightNext)
  if p.state = 0 then .next s
  else if 63 < vd ∨ 65535 < weight ∨ 65535 < quantum ∨ 7 < priomax ∨ 1 < enable then .next (s.vdcfgCode n 3)
  else if enable = 1 ∧ quantum = 0 then .next (s.vdcfgCode n 1)
  else if enable = 0 ∧ p.hasLaunch vd then .next (s.vdcfgCode n 5)
  else if allZero (if enable = 1 then weight :: rest else rest) then .next (s.vdcfgCode n 4)
  else if enable = 0 then .next ((s.mapPart n (fun q => q.disable vd)).vdcfgCode n 0)
  else
    let t := s.mapPart n (fun q => q.enable vd weight quantum priomax)
    if quantum < 52 then .next ((t.postHome p 4 0 vd quantum 52).vdcfgCode n 2) else .next (t.vdcfgCode n 0)

/-- A device with the values that waited for the refill (R90). -/
def Device.settle (d : Device) : Device :=
  match d.pending with
  | none => d
  | some (w, q, m, soft) => { d with weight := w, quantum := q, priomax := m, soft := soft, pending := none }

/-- What a borrower owes. -/
def debtOf (l : List Debt) : Nat := (l.map (·.amount)).foldl (· + ·) 0

/-- Debts repaid, oldest first, from an amount: the debts left, and each lender's part (R92). -/
def repay : List Debt → Nat → List Debt × List (Nat × Nat)
  | [], _ => ([], [])
  | d :: l, left =>
    let a := min d.amount left
    let r := repay l (left - a)
    (if a = d.amount then r.1 else { d with amount := d.amount - a } :: r.1, (d.lender, a) :: r.2)

/-- What each lender is repaid. -/
def repaidTo (vd : Nat) (l : List (Nat × Nat)) : Nat := ((l.filter (fun x => x.1 == vd)).map (·.2)).foldl (· + ·) 0

/-- A refill of T tokens (R92). -/
def refillDevices (tokens : Nat) (ds : List Device) : List Device :=
  let w := (ds.map (·.weight)).foldl (· + ·) 0
  let share (d : Device) : Nat := if w = 0 then 0 else tokens * d.weight / w
  let pay (d : Device) : Nat := if d.weight = 0 then 0 else min (debtOf d.debts) (share d / 2 * Config.cyclesPerUs)
  let paid := (ds.map (fun d => (repay d.debts (pay d)).2)).flatten
  ds.map (fun d =>
    let cap : Int := Int.ofNat (share d * Config.cyclesPerUs)
    { d with debts := if d.weight = 0 then [] else (repay d.debts (pay d)).1
             balance := min d.balance cap + cap - Int.ofNat (pay d) + Int.ofNat (repaidTo d.vd paid) })

/-- REFILL. R90, R92, R93: the next refill falls, at its time, and idle devices lend. -/
def execRefill (part : BitVec 3) (s : State) : Host.Outcome State Fault Refusal :=
  let n := part.toNat
  let p := s.partN n
  if p.state ≠ 2 ∧ p.state ≠ 4 then .next s
  else
    let at_ := p.bootAt + (p.refills + 1) * p.period * Config.cyclesPerUs
    let tokens := (s.tilesOf p 0xFF).length * p.period
    .next ({ s with cycle := max s.cycle at_ }.mapPart n (fun q =>
      { q with refills := q.refills + 1, devices := refillDevices tokens (q.devices.map Device.settle) }.lend))

end Sys2Proof.Machine
end

