-- ==== Sys2Proof/Machine/XSlot.lean ====
section
/-!
DEFINITION. The X class but for the predicate pair (13_isa_vector_quire_jet R306 to R310, 14_isa_matrix_memory_engines
R351 to R353): packing, moves between lane groups, the shadow check, result queues, system registers and feature words.
-/
namespace Sys2Proof.Machine
open Sys2Proof

/-! ## Packing (R306, R307) -/

/-- A pattern of one format rounded into another, times 2^sc (R206, R215). -/
def recode (src dst : Fmt) (x : Nat) (sc : Int) : Rounded :=
  roundScaled (decodePat x (fmtWidth src) (fmtEs src)) sc (fmtWidth dst) (fmtEs dst)

/-- PACK. R306. -/
def execPack (h : Head) (fmt : Fmt) (vd va vb : VNum) (src : BitVec 4) (s : State) : Host.Outcome State Fault Refusal :=
  let i := Instr.pack h fmt vd va vb src
  let w := fmtWidth src
  s.issueOp i [] (fun t => t.laneOp i h vd 1 2 true 0 (fun _ ws =>
    let els (a : Nat) : List Rounded := (List.range (fmtElems src)).map (fun j => recode src fmt (elemOf (wordOf ws a) w j) 0)
    let rs := els 0 ++ els 1
    { words := [BitVec.ofNat 32 (laneOf (fmtWidth fmt) (rs.map (·.pat)))], jf := rs.foldl (fun a r => a ||| r.jf 0) 0 }))

/-- UNPK. R307: its flags, PSN included, are those of index 0 in every register that it writes (R281). -/
def execUnpk (h : Head) (fmt : Fmt) (vd va vs : VNum) (sel : BitVec 2) (scaled : Bool) (src : BitVec 4) (s : State) :
    Host.Outcome State Fault Refusal :=
  let i := Instr.unpk h fmt vd va vs sel scaled src
  let pt := fmtElems fmt
  s.issueOp i (trapIf (s.badT6 i h src) (s.synTrap i .format)) (fun t =>
    let poison := t.activeLanes i h &&& poisonOf (t.sources i)
    let r := t.laneOp i h vd (unpkSpan fmt src) 2 false 0 (fun _ ws =>
    let sc := if scaled then scaleByte (wordOf ws 1) sel else 0
    let rs := (List.range (unpkSpan fmt src * pt)).map (fun k =>
      recode src fmt (if k < fmtElems src then elemOf (wordOf ws 0) (fmtWidth src) k else 0) sc)
    { words := (List.range (unpkSpan fmt src)).map (fun r =>
        BitVec.ofNat 32 (laneOf (fmtWidth fmt) ((rs.drop (r * pt)).take pt |>.map (·.pat))))
      jf := rs.foldl (fun a r => a ||| r.jf 0) 0 })
    r.withCur (r.cur.pushJF (if poison = 0 then 0 else psnFlags 0) 2))

/-! ## Moves (R308, R309) -/

/-- The lane of another lane group that XLG brings to lane l (R308). -/
def xlgFrom (bcast : Bool) (rot : BitVec 3) (l : Nat) : Nat :=
  16 * (if bcast then rot.toNat else (l / 16 + rot.toNat) % 8) + l % 16

/-- XLG. R308: lanes of other lane groups, with their poison. -/
def execXlg (h : Head) (lgm : Lgm) (vd va : VNum) (bcast : Bool) (rot : BitVec 3) (s : State) :
    Host.Outcome State Fault Refusal :=
  let i := Instr.xlg h lgm vd va bcast rot
  s.issueOp i [] (fun t =>
    let a := t.cur.v va
    let groups := maskOf lgm t.issue.lgdef
    let active := t.cur.active h groups
    t.withCur (t.cur.pushV vd groups active (buildLanes active (fun l => laneWord a.bits (xlgFrom bcast rot l)))
      (buildMask active (fun l => a.poison.getLsbD (xlgFrom bcast rot l))) 4))

/-- MOVV. R309. -/
def execMovv (h : Head) (lgm : Lgm) (vd va : VNum) (s : State) : Host.Outcome State Fault Refusal :=
  let i := Instr.movv h lgm vd va
  s.issueOp i [] (fun t => t.withCur (t.cur.pushRegs vd (t.groups i) (t.activeLanes i h) [t.cur.v va] 2))

/-- MOVS. R309: the guard is tested at the lane. -/
def execMovs (h : Head) (sd : SRegNo) (va : VNum) (lane : BitVec 7) (s : State) : Host.Outcome State Fault Refusal :=
  s.issueOp (.movs h sd va lane) [] (fun t =>
    let a := t.cur.v va
    t.withCur (t.cur.pushS sd (laneWord a.bits lane.toNat) (a.poison.getLsbD lane.toNat) 2))

/-! ## The shadow check (R138, R310) -/

/-- The lane groups in which a register differs from its shadow, over the active lanes; the value bits of a poisoned element are
zero (R166). -/
def differing (a b : VReg) (active : LaneMask) : Nat :=
  (List.range 8).foldl (fun n g =>
    if (lanesIn (active &&& groupLanes (BitVec.ofNat 8 (2 ^ g)))).any (fun l =>
      a.lane l != b.lane l || a.poison.getLsbD l != b.poison.getLsbD l) then n + 2 ^ g else n) 0

/-- CHK. R310: a difference raises SHADOW_MISMATCH before the next bundle. -/
def execChk (h : Head) (lgm : Lgm) (va : VNum) (s : State) : Host.Outcome State Fault Refusal :=
  let i := Instr.chk h lgm va
  s.issueOp i [] (fun t =>
    let n := differing (t.cur.v va) (t.cur.v (va + 32)) (t.activeLanes i h)
    if n = 0 then t
    else t.withCur { t.cur with
      late := t.cur.late ++ [t.infoTrap i .shadowMismatch (BitVec.ofNat 64 (n * 2 ^ 8 + va.toNat))] })

/-! ## Result queues (R132, R133, R351) -/

/-- The faults of a POP: QUEUE_EMPTY under .W when nothing is outstanding or 2^20 cycles have passed (R133), and an entry
of another kind (R351). -/
def State.popTraps (s : State) (i : Instr) (k : QNum) (kind : Nat) (waits : Bool) : List Trap :=
  match s.cur.poppable k with
  | some e => trapIf (e.kind != kind) (s.synTrap i .access)
  | none => trapIf (waits && ((s.cur.rq[k.toNat]'k.isLt).isEmpty || decide (s.cur.since + 2 ^ 20 ≤ s.cur.clk)))
      (s.infoTrap i .queueEmpty (BitVec.ofNat 64 k.toNat))

/-- The entry that is popped goes to its destination, and its status to ESTAT (R351). -/
def Ctx.popEntry (c : Ctx) (h : Head) (d : VNum) (k : QNum) (kind : Nat) (e : QEntry) : Ctx :=
  let c1 := { c with rq := c.rq.set k.toNat ((c.rq[k.toNat]'k.isLt).drop 1) k.isLt }
  let c2 :=
    if kind = 0 then c1.pushS (scalarOf d) (e.value.setWidth 32) (e.poison.getLsbD 0) 1
    else if kind = 1 then c1.pushD (BitVec.ofNat 4 (d.toNat / 2)) (if e.poison.getLsbD 0 then 0 else e.value.setWidth 64) (e.poison.getLsbD 0) 1
    else c1.pushV d 0xFF (e.lanes &&& c.guardLanes h) e.value e.poison 1
  c2.push 2 (.popped k e.status)

/-- POP.W. R133, R351. -/
def execPopW (h : Head) (d : VNum) (rq : QNum) (kind : BitVec 2) (s : State) : Host.Outcome State Fault Refusal :=
  let i := Instr.popW h d rq kind
  s.issueOp i (s.popTraps i rq kind.toNat true) (fun t =>
    match t.cur.poppable rq with
    | some e => t.withCur (t.cur.popEntry h d rq kind.toNat e)
    | none => t.stall true id)

/-- POP.F. R133, R351. -/
def execPopF (h : Head) (d : VNum) (rq : QNum) (kind : BitVec 2) (pn : PNum) (s : State) : Host.Outcome State Fault Refusal :=
  let i := Instr.popF h d rq kind pn
  s.issueOp i (s.popTraps i rq kind.toNat false) (fun t =>
    match t.cur.poppable rq with
    | some e => t.withCur ((t.cur.popEntry h d rq kind.toNat e).pushP pn (BitVec.allOnes 128) (BitVec.allOnes 128) 1)
    | none => t.withCur (t.cur.pushP pn (BitVec.allOnes 128) 0 1))

/-! ## System registers and feature words (R352, R353) -/

/-- The value of a system register in force (R144). -/
def State.sysValue (s : State) (idx : Nat) : DWord :=
  match idx with
  | 0x04 => match s.cur.parked with | some p => BitVec.ofNat 64 p.c | none => BitVec.ofNat 64 s.cur.clk
  | 0x10 => (s.tileRec s.cur.tile).qcfg
  | 0x11 => (s.tileRec s.cur.tile).fabtest.setWidth 64
  | _ => s.cur.sys.read idx

/-- GETC. R352. -/
def execGetc (h : Head) (sd : SRegNo) (idx : BitVec 8) (s : State) : Host.Outcome State Fault Refusal :=
  s.issueOp (.getc h sd idx) [] (fun t =>
    let x := t.sysValue idx.toNat
    t.withCur (if sd.getLsbD 0 then t.cur.pushS sd (x.setWidth 32) false 2
      else t.cur.pushD (BitVec.ofNat 4 (sd.toNat / 2)) x false 2))

/-- The bits of a register that a SETC of the task writes: those of R144, and TPC in handler mode only. -/
def Ctx.setMask (c : Ctx) (idx : Nat) (odd : Bool) : DWord :=
  let m := (sysWritable idx).getD 0
  (if idx = 0 ∧ !c.handling then 0 else m) &&& (if odd then 0xFFFF_FFFF else BitVec.allOnes 64)

/-- SETC. R127, R144, R352. -/
def execSetc (h : Head) (sa : SRegNo) (idx : BitVec 8) (s : State) : Host.Outcome State Fault Refusal :=
  s.issueOp (.setc h sa idx) [] (fun t =>
    let c := t.cur
    let odd := sa.getLsbD 0
    let x : DWord := if odd then (c.s sa).setWidth 64 else c.d (BitVec.ofNat 4 (sa.toNat / 2))
    let m := c.setMask idx.toNat odd
    t.withCur (if m = 0 then c else c.push 2 (.sysreg idx.toNat m x)))

/-- The number of ones of n bits. -/
def onesIn (n : Nat) (f : Nat → Bool) : Nat := ((List.range n).filter f).length

/-- The modules that a port's domain has (R29, R56, R76): those with fibres in the domain, but for the peers that have left it. -/
def State.domainSize (s : State) (port : Nat) : Nat :=
  let gone : List Nat := match s.ports.toList[port]? with
    | some p => (p.pairs.filter (fun x => x.left.isSome)).map (·.peer)
    | none => []
  onesIn 256 (fun m => s.present.getLsbD m && !gone.contains m)

/-- The feature words of R76; any other index reads 0. Words 2 and 15 count a wing that has moved from the time its core comes online
(R86 step 6). -/
def State.feature (s : State) (n : Nat) : Nat :=
  let p := s.partOf s.cur
  match n with
  | 0 => Config.archLevel
  | 1 => Config.tilesPerModule - onesIn 1024 (fun t => s.fused.getLsbD t)
  | 2 => onesIn 1024 (fun t => p.tiled.getLsbD (wingOf t) && !s.fused.getLsbD t) +
      (s.degraded.getLsbD s.cur.tile).toNat * 2 ^ 31
  | 3 => 8 + 16 * 2 ^ 8
  | 4 => 0xFF
  | 5 => 3
  | 6 => 0x7F
  | 7 => s.ownModule % 2 ^ 8 + s.domainSize p.port * 2 ^ 8 + p.port % 8 * 2 ^ 17
  | 8 => 1050
  | 9 => 4096
  | 10 => 2048
  | 11 => 4 + 4 * 2 ^ 4
  | 12 => 256
  | 13 => 65536
  | 14 => 16
  | 15 => p.pnum % 8 + onesIn 32 (fun w => p.tiled.getLsbD w) * 2 ^ 8 + s.cur.device % 64 * 2 ^ 16
  | k => if 16 ≤ k ∧ k ≤ 47 then
      (List.range 32).foldl (fun a b => if s.degraded.getLsbD (32 * (k - 16) + b) then a + 2 ^ b else a) 0
    else 0

/-- FEAT. R76, R353. -/
def execFeat (h : Head) (sd : SRegNo) (n : BitVec 12) (s : State) : Host.Outcome State Fault Refusal :=
  s.issueOp (.feat h sd n) [] (fun t => t.withCur (t.cur.pushS sd (BitVec.ofNat 32 (t.feature n.toNat)) false 2))

end Sys2Proof.Machine
end

