-- ==== Sys2Proof/Machine/Grenzor.lean ====
section
/-!
DEFINITION. Grenzor (03_host_images_translation R62 to R75): the checks of a kernel image, the choice of its code, and loading and
unloading.
-/
namespace Sys2Proof.Machine
open Sys2Proof

/-! ## Reading an image -/

/-- An image of len bytes from a physical address on. -/
structure Kimg where
  mem  : Memory
  base : Nat
  len  : Nat
  deriving DecidableEq, Repr

/-- n bytes at an offset, as a number. -/
def Kimg.u (k : Kimg) (o n : Nat) : Nat := Memory.readNat k.mem (k.base + o) n

/-- A section: its place in the table, KIND, SFLAGS, OFFSET and SLEN (R62). -/
structure Section where
  idx   : Nat
  kind  : Nat
  flags : Nat
  off   : Nat
  len   : Nat
  deriving DecidableEq, Repr

/-- The KIND codes, as numbers (R62). -/
def kindHead : Nat := 0x4441_4548
def kindFeat : Nat := 0x5441_4546
def kindLin : Nat := 0x204E_494C
def kindNat : Nat := 0x2054_414E
def kindSlot : Nat := 0x544F_4C53
def kindData : Nat := 0x4154_4144
def kindSig : Nat := 0x2047_4953

/-- The sections of an image (R62). -/
def Kimg.sections (k : Kimg) : List Section :=
  (List.range (k.u 12 4)).map (fun i =>
    let o := 64 + 24 * i
    { idx := i, kind := k.u o 4, flags := k.u (o + 4) 1, off := k.u (o + 8) 8, len := k.u (o + 16) 8 })

/-- The section of a kind. -/
def Kimg.sect (k : Kimg) (kind : Nat) : Option Section := k.sections.find? (fun s => s.kind == kind)

/-- A refusal: the code of R75 and the index of the failing section or entry. -/
abbrev LoadError := Nat × Nat

/-- The first refusal of a list of conditions. -/
def firstBad : List (Bool × Nat × Nat) → Option LoadError
  | [] => none
  | (b, e) :: l => if b then some e else firstBad l

/-! ## The checks, in the order of R75 -/

/-- The file header (R62, R63). The manual names no code for its faults but that of MAJOR, and does not say that LENGTH is held against the
length of the request: each of these is BAD_HEADER, with index 0 (DESIGN CHOICE, log entry 53). -/
def Kimg.headerError (k : Kimg) : Option LoadError :=
  firstBad [(k.len < 64 || k.u 0 4 != 0x474D_494B || k.u 4 2 != 1 || k.u 12 4 < 1 || 32 < k.u 12 4 || k.u 16 8 != k.len ||
    k.u 24 40 != 0 || k.len < 64 + 24 * k.u 12 4, 0x10, 0)]

/-- What the section table says of one section (R62, R63). -/
def Kimg.badSection (k : Kimg) (s : Section) : Bool :=
  let all := k.sections
  let once := [kindHead, kindFeat, kindLin, kindNat, kindSlot, kindSig].contains s.kind
  decide (1 < s.flags) || k.u (64 + 24 * s.idx + 5) 3 != 0 || s.off % 64 != 0 || decide (s.off < 64 + 24 * all.length) ||
    decide (k.len < s.off + s.len) ||
    all.any (fun x => x.idx != s.idx && decide (x.off < s.off + s.len) && decide (s.off < x.off + x.len)) ||
    (once && all.any (fun x => x.kind == s.kind && decide (x.idx < s.idx))) ||
    (!once && s.kind != kindData && s.flags % 2 == 0) ||
    (s.kind == kindSig && (s.idx + 1 != all.length || s.off + s.len != k.len))

/-- The section table (R62, R63). Its faults are BAD_SECTION, also those for which the manual names no code; a missing section has index 0
(DESIGN CHOICE, log entry 53). -/
def Kimg.tableError (k : Kimg) : Option LoadError :=
  let all := k.sections
  firstBad (all.map (fun s => (k.badSection s, 0x11, s.idx)) ++
    [((k.sect kindHead).isNone || (k.sect kindFeat).isNone || ((k.sect kindLin).isNone && (k.sect kindNat).isNone), 0x11, 0)])

/-- SIG (R69): the signature covers the bytes before it. -/
def Kimg.sigError (k : Kimg) (demand : Bool) : Option LoadError :=
  match k.sect kindSig with
  | none => if demand then some (0x12, 0) else none
  | some s =>
    let n := k.u s.off 2
    let bad := decide (s.len < 8 + n) || decide (1462 < n) || k.u (s.off + 4) 4 != 0 ||
      !Config.falconValid (BitVec.ofNat 16 (k.u (s.off + 2) 2)) (Config.shake256 (Memory.readBytes k.mem k.base s.off))
        (Memory.readBytes k.mem (k.base + s.off + 8) n)
    if bad then some (0x12, s.idx) else none

/-- The offset of HEAD. -/
def Kimg.head (k : Kimg) : Nat := ((k.sect kindHead).map (·.off)).getD 0

/-- Fields of HEAD (R64). -/
def Kimg.entryCount (k : Kimg) : Nat := k.u k.head 2
def Kimg.scratch (k : Kimg) : Nat := k.u (k.head + 4) 4
def Kimg.stack (k : Kimg) : Nat := k.u (k.head + 8) 4
def Kimg.groups (k : Kimg) : Nat := k.u (k.head + 12) 2
def Kimg.reserve (k : Kimg) : Nat := k.u (k.head + 14) 2
def Kimg.allocs (k : Kimg) : Nat := k.u (k.head + 16) 4
def Kimg.linOff (k : Kimg) (i : Nat) : Nat := k.u (k.head + 64 + 32 * i + 24) 4

/-- What LINOFF says when the image has no LIN (R64). -/
def noLin : Nat := 0xFFFF_FFFF

/-- NAME of an entry, its bytes as a number (R64). -/
def Kimg.name (k : Kimg) (i : Nat) : BitVec 192 := BitVec.ofNat 192 (k.u (k.head + 64 + 32 * i) 24)

/-- NAME is ASCII, and zero from its first zero byte on (R64). -/
def nameOk (n : BitVec 192) : Bool :=
  let b (j : Nat) : Byte := n.extractLsb' (8 * j) 8
  (List.range 24).all (fun j => decide ((b j).toNat < 128) && (j == 0 || b (j - 1) != 0 || b j == 0))

/-- HEAD (R64). -/
def Kimg.headError (k : Kimg) : Option LoadError :=
  let h := k.head
  let idx : Nat := ((k.sect kindHead).map (·.idx)).getD 0
  let len : Nat := ((k.sect kindHead).map (·.len)).getD 0
  let e := k.entryCount
  let lin := (k.sect kindLin).isSome
  let bad := decide (len < 64) || decide (e < 1) || decide (64 < e) || decide (len < 64 + 32 * e) || decide (2 < k.u (h + 2) 1) ||
    decide (3 < k.u (h + 3) 1) || k.scratch % 64 != 0 || decide (k.scratch < k.stack) ||
    decide (Config.scratchpadBytes < k.scratch) || k.stack % 512 != 0 || decide (k.stack < 512) || decide (256 < k.groups) ||
    decide (4095 < k.reserve) || decide (k.allocs < 1) || decide (32 < k.allocs) || k.u (h + 20) 44 != 0 ||
    (k.allocs == 1 && k.scratch != k.stack) || (decide (1 < k.allocs) && decide ((k.scratch - k.stack) / (k.allocs - 1) < 64)) ||
    (List.range e).any (fun i => k.u (h + 64 + 32 * i + 28) 4 != 0 || !nameOk (k.name i) ||
      (if lin then k.linOff i != noLin && k.linOff i % 8 != 0 else k.linOff i != noLin))
  if bad then some (0x10, idx) else none

/-- A feature word for the partition that loads (R65, R76). A load has no calling tile and no device: bit 31 of word 2 and the device
of word 15 are 0, which the manual does not say (DESIGN CHOICE, log entry 53). -/
def State.partFeature (s : State) (part n : Nat) : Nat :=
  let x := (s.withCur { Ctx.empty with part := part }).feature n
  if n = 2 then x % 2 ^ 31 else x

/-- FEAT (R65). -/
def Kimg.featError (k : Kimg) (s : State) (part : Nat) : Option LoadError :=
  match k.sect kindFeat with
  | none => none
  | some f =>
    let c := k.u f.off 4
    let at_ (i : Nat) : Nat := f.off + 8 + 8 * i
    if 512 < c ∨ k.u (f.off + 4) 4 ≠ 0 ∨ f.len < 8 + 8 * c then some (0x11, f.idx)
    else
      let entry (i : Nat) : List (Bool × Nat × Nat) :=
        let test := k.u (at_ i + 2) 1
        let want := k.u (at_ i + 4) 4
        let word := s.partFeature part (k.u (at_ i) 2)
        [(decide (test ≠ 1 ∧ test ≠ 2) || k.u (at_ i + 3) 1 != 0, 0x11, f.idx),
          ((test == 1 && word &&& want != want) || (test == 2 && decide (word < want)), 0x13, i)]
      firstBad (((List.range c).map entry).flatten)

/-- A block of NAT: LEVEL, start in the image, and length (R66). -/
structure Block where
  idx   : Nat
  level : Nat
  off   : Nat
  len   : Nat
  deriving DecidableEq, Repr

/-- The blocks of NAT. -/
def Kimg.blocks (k : Kimg) : List Block :=
  match k.sect kindNat with
  | none => []
  | some n => (List.range (k.u n.off 2)).map (fun i =>
      let o := n.off + 8 + 32 * i
      { idx := i, level := k.u o 2, off := n.off + k.u (o + 8) 8, len := k.u (o + 16) 8 })

/-- NAT (R66). A count out of range, a reserved byte or a section too short for its blocks is BAD_NAT here, as the like of FEAT and SLOT
is BAD_SECTION and that of LIN BAD_LIN; a section longer than its contents is accepted (DESIGN CHOICE, log entry 53). -/
def Kimg.natError (k : Kimg) : Option LoadError :=
  match k.sect kindNat with
  | none => none
  | some n =>
    let b := k.u n.off 2
    if b < 1 ∨ 16 < b ∨ k.u (n.off + 2) 6 ≠ 0 ∨ n.len < 8 + 32 * b then some (0x18, n.idx)
    else
      let bad (x : Block) : Bool :=
        let o := n.off + 8 + 32 * x.idx
        decide (x.level < 1) || k.u (o + 2) 6 != 0 || k.u (o + 24) 8 != 0 || (x.off - n.off) % 64 != 0 ||
          decide (n.off + n.len < x.off + x.len) || decide (x.len < 8 * k.entryCount) ||
          (List.range k.entryCount).any (fun i => decide (x.len ≤ k.u (x.off + 8 * i) 8))
      firstBad ((k.blocks.map (fun x =>
        [(k.blocks.any (fun y => y.level == x.level && decide (y.idx < x.idx)), 0x17, x.idx), (bad x, 0x18, x.idx)])).flatten)

/-- The syllables of LIN. -/
def Kimg.syllables (k : Kimg) : List DWord :=
  match k.sect kindLin with
  | none => []
  | some l => (List.range (k.u l.off 8)).map (fun i => BitVec.ofNat 64 (k.u (l.off + 8 + 8 * i) 8))

/-- The start-cycle offset of an engine command (R240). -/
def startField : Instr → BitVec 12
  | .cpy _ _ start .. | .gth _ _ start .. | .sct _ _ start .. | .wld _ _ start .. | .rwr _ _ start .. | .rwg _ _ start ..
  | .rrd _ _ start .. | .collGrp _ _ start .. | .collMod _ _ start .. | .collLossy _ _ start .. => start
  | .qfence _ start _ => start
  | _ => 0

/-- A prefix, under which L is 0 (R70). -/
def isPrefix : Instr → Bool
  | .rep .. | .ext .. => true
  | _ => false

/-- A syllable with a hold bit set, also one of a field that its form does not read. -/
def holdsAny (i : Instr) : Bool :=
  (shapeOf i).srcs.any (·.held) || (match i with | .vcvt _ _ _ _ _ _ _ _ _ hb _ _ => hb | _ => false)

/-- A DLF syllable that Grenzor refuses (R70, R250): a scheduling field is set, L is wrong, or REP steps a later position. -/
def badLinear (w : DWord) : Bool :=
  match decodeLoose w with
  | none => true
  | some i =>
    let h := headIn i
    h.stall != 0 || h.old || holdsAny i || startField i != 0 || h.last == isPrefix i || encode i != w ||
      (match i with | .rep _ _ _ step => step.toNat / 2 ^ 4 != 0 | _ => false)

/-- LIN (R64, R66, R70). The 16 bits of the result name a failing syllable by its index modulo 2^16 (DESIGN CHOICE, log entry 53). -/
def Kimg.linError (k : Kimg) : Option LoadError :=
  match k.sect kindLin with
  | none => none
  | some l =>
    let n := k.u l.off 8
    if l.len < 8 + 8 * n then some (0x14, l.idx)
    else firstBad ((placed k.syllables).map (fun x => (badLinear x.2, 0x14, x.1 % 2 ^ 16)) ++
      [((k.syllables.getLast?.any (fun w => !w.getLsbD 63)), 0x14, (n - 1) % 2 ^ 16)] ++
      (List.range k.entryCount).map (fun i => (k.linOff i == noLin || decide (8 * n ≤ k.linOff i), 0x14, i)))

/-- The pairs of SLOT, by cluster rank, each once for each slot it wants (R67). -/
def Kimg.pairs (k : Kimg) (clusters : List Nat) : List (Nat × Nat) :=
  match k.sect kindSlot with
  | none => []
  | some f => ((List.range (k.u f.off 4)).map (fun i =>
      let o := f.off + 8 + 4 * i
      List.replicate (k.u (o + 2) 1) (clusters.getD (k.u o 1) 0, clusters.getD (k.u (o + 1) 1) 0))).flatten

/-- The slots of the pairs of an image (R67, R84, R369): free cycles of the slots that the partition holds, the search for each
beginning where Grenzor chooses from the bytes of the image and the shares. -/
def State.slotPlaces (s : State) (part : Nat) (k : Kimg) : List (Nat × Nat × Nat) :=
  let p := s.partN part
  let bytes := Memory.readBytes k.mem k.base k.len
  placePairs p.heldLink (Config.slotStart bytes p.linkShare) (k.pairs (p.clusters 0xFF)) s.takenLinks 0

/-- SLOT (R67, R84): pairs that name a cluster beyond the partition's, or that need more slots on a link than the partition holds there. A
section that is too short for its pairs or whose reserved bytes are set is BAD_SECTION; an entry with no slots or more than 16, or whose last
byte is set, SLOT_UNFIT (DESIGN CHOICE, log entry 53). -/
def Kimg.slotError (k : Kimg) (s : State) (part : Nat) : Option LoadError :=
  let p := s.partN part
  let clusters := p.clusters 0xFF
  match k.sect kindSlot with
  | none => none
  | some f =>
    let c := k.u f.off 4
    if k.u (f.off + 4) 4 ≠ 0 ∨ f.len < 8 + 4 * c then some (0x11, f.idx)
    else firstBad ((List.range c).map (fun i =>
      let o := f.off + 8 + 4 * i
      (decide (clusters.length ≤ k.u o 1) || decide (clusters.length ≤ k.u (o + 1) 1) || decide (k.u (o + 2) 1 < 1) ||
        decide (16 < k.u (o + 2) 1) || k.u (o + 3) 1 != 0, 0x16, i)) ++
      [(!p.fits (k.pairs clusters) s.takenLinks, 0x16, 0)])

/-- The sizes in bytes of the allocations of a task (R105). -/
def allocSizes (scratch stack allocs : Nat) : List Nat :=
  let each := if allocs ≤ 1 then 0 else (scratch - stack) / (allocs - 1) / 64 * 64
  stack :: (List.range (allocs - 1)).map (fun i =>
    if i + 2 = allocs then scratch - stack - each * (allocs - 2) else each)

/-- DATA sections (R68). -/
def Kimg.dataError (k : Kimg) : Option LoadError :=
  let sizes := allocSizes k.scratch k.stack k.allocs
  firstBad ((k.sections.filter (fun s => s.kind == kindData)).map (fun s =>
    let kind := k.u s.off 1
    let atag := k.u (s.off + 1) 1
    (decide (s.len < 16) || (kind != 1 && kind != 2) || k.u (s.off + 2) 6 != 0 || (kind == 1 && atag != 0) ||
      (kind == 2 && (decide (k.allocs ≤ atag) || decide (sizes.getD atag 0 < k.u (s.off + 8) 8 + (s.len - 16)))), 0x11, s.idx)))

/-! ## Choosing the code (R73) -/

/-- The block of the highest level that the device runs. -/
def Kimg.chosen (k : Kimg) : Option Block :=
  (k.blocks.filter (fun b => decide (b.level ≤ Config.archLevel))).foldl (fun a b => match a with
    | none => some b
    | some x => if x.level < b.level then some b else a) none

/-- Whether nothing in the image runs on the device (R73 step 4). -/
def Kimg.levelError (k : Kimg) : Option LoadError :=
  if k.chosen.isNone ∧ (k.sect kindLin).isNone then some (0x15, 0) else none

/-- Every check, in the order of R75. -/
def State.imageError (s : State) (part : Nat) (k : Kimg) (demand : Bool) : Option LoadError :=
  k.headerError <|> k.tableError <|> k.sigError demand <|> k.headError <|> k.featError s part <|> k.natError <|> k.linError <|>
    k.slotError s part <|> k.dataError <|> k.levelError

/-! ## Loading (R72, R75) -/

/-- A load result (R75). -/
def loadWord (code idx block : Nat) (handle : DWord) : BitVec 128 :=
  BitVec.ofNat 128 (code + idx % 2 ^ 16 * 2 ^ 8 + block * 2 ^ 24 + Config.grenzorVersion.toNat * 2 ^ 32 + handle.toNat * 2 ^ 64)

/-- The result of a request to Grenzor. -/
def State.loadAnswer (s : State) (part : Nat) (r : BitVec 128) : State := s.mapPart part (fun p => { p with loadResult := r })

/-- The code that runs: its bytes and the entry offsets (R66, R73). LIN is translated (R72): the bytes of the native code are those that
Grenzor makes of the syllables on a device with these degraded tiles, and the entries name the syllables of LIN (log entry 13). -/
def Kimg.code (k : Kimg) (degraded : BitVec 1024) : List Byte × List Nat :=
  match k.chosen with
  | some b => (Memory.readBytes k.mem (k.base + b.off) b.len, (List.range k.entryCount).map (fun i => k.u (b.off + 8 * i) 8))
  | none =>
    let l := k.syllables
    ((List.range (8 * l.length + Config.nativeSize l degraded)).map (Config.nativeByte l degraded),
      (List.range k.entryCount).map k.linOff)

/-- The scratchpad images of DATA (R68). -/
def Kimg.images (k : Kimg) : List (Nat × Nat × List Byte) :=
  (k.sections.filter (fun s => s.kind == kindData && k.u s.off 1 == 2)).map (fun s =>
    (k.u (s.off + 1) 1, k.u (s.off + 8) 8, Memory.readBytes k.mem (k.base + s.off + 16) (s.len - 16)))

/-- The die that holds the code of a partition's images: that of its first wing (log entry 4). -/
def Partition.codeDie (p : Partition) : Nat := p.home / 4

/-- The record of a loaded image (log entry 4). -/
def Kimg.record (k : Kimg) (degraded : BitVec 1024) (part die handle : Nat) : ImageRec :=
  let base := die * 2 ^ 57 + (Config.codeRange part handle).toNat * 2 ^ 32
  { handle := BitVec.ofNat 64 handle
    regs := 16 * 2 ^ k.u (k.head + 2) 1
    det := k.u (k.head + 3) 1 % 2 == 1
    checked := k.u (k.head + 3) 1 / 2 % 2 == 1
    scratch := k.scratch
    stack := k.stack
    groups := k.groups
    reserve := k.reserve
    allocs := k.allocs
    entries := (k.code degraded).2.map (fun o => BitVec.ofNat 64 (base + o))
    dlf := k.chosen.isNone
    base := BitVec.ofNat 64 base
    size := (k.code degraded).1.length
    lin := if k.chosen.isNone then k.syllables else []
    names := (List.range k.entryCount).map k.name
    data := k.images }

/-- Where n bytes of code lie in a partition's share of a die's HBM4 (R83): which pages of the share is a free value (log entry 4). -/
def State.codeFrame (s : State) (part die n : Nat) : Nat :=
  let p := s.partN part
  let lo := s.shareBase part die 0 + p.reservedBytes die 0
  let room := p.share die 0 - p.reservedBytes die 0 - n
  lo + (Config.freeWord s.fresh).toNat % (room / 2 ^ 12 + 1) * 2 ^ 12

/-- The code of an image placed in memory and mapped for reading, in the shares of its partition (R83). -/
def State.placeCode (s : State) (part : Nat) (i : ImageRec) (bytes : List Byte) : State :=
  let die := i.base.toNat / 2 ^ 57 % 8
  let size := (i.size + 0xFFF) / 0x1000 * 0x1000
  let e : TlbEntry :=
    { lo := i.base.toNat % 2 ^ 57, size := size, tier := 0, frame := s.codeFrame part die size, rd := true, wr := false, atm := false }
  let t := { s with mem := Memory.writeBytes s.mem (e.phys die e.lo) bytes, fresh := s.fresh + 1 }
  t.mapDie die (fun d => { d with tlb := (part, e) :: d.tlb })

/-- GRENZOR_LOAD. R62 to R75: the image is refused with the first failing check, or loaded with its slots and its code. A request of a
partition that is down or resetting, or for bytes beyond its host window, has no result and changes nothing (DESIGN CHOICE, log entry 53). -/
def execGrenzorLoad (part : BitVec 3) (off len : Nat) (demandSig : Bool) (s : State) : Host.Outcome State Fault Refusal :=
  let n := part.toNat
  let p := s.partN n
  let k : Kimg := { mem := s.mem, base := (Region.host n).addr off, len := len }
  if p.state = 0 ∨ p.state = 3 ∨ p.hostwin * 2 ^ 28 < off + len then .next s
  else match s.imageError n k demandSig with
    | some e => .next (s.loadAnswer n (loadWord e.1 e.2 0 0))
    | none =>
      let i := k.record s.degraded n p.codeDie p.nextImage
      let s1 := s.placeCode n i (k.code s.degraded).1
      let s2 := s1.mapPart n (fun q =>
        { q with images := q.images ++ [i], nextImage := q.nextImage + 1, slots := q.slots ++ s.slotPlaces n k })
      let block := match k.chosen with | some b => b.idx | none => 0xFF
      .next (s2.loadAnswer n (loadWord (if k.chosen.isSome then 0 else 1) 0 block i.handle))

/-- UNLOAD. R75. The manual does not say what becomes of the mesh slots of the image: they stay in the partition's slot table. A request of a
partition that is down or resetting changes nothing (DESIGN CHOICE, log entry 53). -/
def execUnload (part : BitVec 3) (handle : BitVec 64) (s : State) : Host.Outcome State Fault Refusal :=
  let n := part.toNat
  let p := s.partN n
  if p.state = 0 ∨ p.state = 3 then .next s
  else match p.imageOf handle with
    | none => .next (s.loadAnswer n (loadWord 0x1A 0 0 handle))
    | some i =>
      if p.hive.any (fun l => l.image == handle && l.live) then .next (s.loadAnswer n (loadWord 0x19 0 0 handle))
      else
        let die := i.base.toNat / 2 ^ 57 % 8
        let lo := i.base.toNat % 2 ^ 57
        let t := s.mapDie die (fun d => { d with tlb := d.tlb.filter (fun e => e.1 != n || e.2.lo != lo) })
        .next ((t.mapPart n (fun q => { q with images := q.images.filter (fun x => x.handle != handle) })).loadAnswer n
          (loadWord 2 0 0 handle))

end Sys2Proof.Machine
end

