-- ==== Sys2Proof/Machine/Place.lean ====
section
/-!
DEFINITION. Where the dispatcher places a context (05_dispatcher R101 to R106, R117, R118): register blocks, allocations, the start of a
task, a whole gang, and the return of what was saved.
-/
namespace Sys2Proof.Machine
open Sys2Proof

/-! ## What a tile and a cluster have free -/

/-- Units of 16 physical vector registers that a context takes; a checked context takes twice its REGS (R106). -/
def unitsOf (regs : Nat) (checked : Bool) : Nat := (if checked then 2 * regs else regs) / 16

/-- The units of a context. -/
def Ctx.units (c : Ctx) : Nat := unitsOf c.regs c.checked

/-- The first free register block of a size among the 64 registers of a tile, aligned to its size (R106). -/
def freeBlock (cs : List Ctx) (u : Nat) : Option Nat :=
  (List.range 4).find? (fun b => b % u == 0 && decide (b + u ≤ 4) &&
    cs.all (fun c => decide (b + u ≤ c.block) || decide (c.block + c.units ≤ b)))

/-- The first free context slot of a tile. -/
def freeSlot (cs : List Ctx) : Option Nat := (List.range Config.contextsPerTile).find? (fun k => cs.all (fun c => c.slot != k))

/-- Runs of bytes of a scratchpad: base and size. -/
abbrev Runs := List (Nat × Nat)

/-- The allocations that a cluster's residents hold. -/
def State.used (s : State) (cl : Nat) : Runs :=
  ((s.ctxs.filter (fun c => c.run.resident && clusterOf c.tile == cl)).map (fun c => c.allocs.map (fun a => (a.base, a.size * 64)))).flatten

/-- Whether n bytes from a base are free: a multiple of 2,048 bytes inside the scratchpad (R105). -/
def baseFree (used : Runs) (b n : Nat) : Bool :=
  b % 2048 == 0 && decide (b + n ≤ Config.scratchpadBytes) && used.all (fun r => decide (b + n ≤ r.1) || decide (r.1 + r.2 ≤ b))

/-- The lowest base that has room. -/
def firstBase (used : Runs) (n : Nat) : Option Nat :=
  (((0 :: used.map (fun r => (r.1 + r.2 + 2047) / 2048 * 2048)).filter (fun b => baseFree used b n)).min?)

/-- Bases for allocations of given sizes, each the lowest that has room. -/
def firstFit (used : Runs) : List Nat → Option (List Nat)
  | [] => some []
  | n :: l => match firstBase used n with
    | none => none
    | some b => (firstFit ((b, n) :: used) l).map (fun r => b :: r)

/-- Whether chosen bases hold the allocations. -/
def basesFree (used : Runs) : List Nat → List Nat → Bool
  | n :: l, b :: r => baseFree used b n && basesFree ((b, n) :: used) l r
  | [], [] => true
  | _, _ => false

/-- The bases that the dispatcher chooses (R105: implementation-defined), or the lowest ones where the choice does not fit. -/
def chooseBases (used : Runs) (sizes want : List Nat) : Option (List Nat) :=
  if basesFree used sizes want then some want else firstFit used sizes

/-! ## Seats (R104) -/

/-- What a context needs of a tile; device is that of a new task. -/
structure Need where
  device : Option Nat
  units  : Nat
  array  : Bool
  det    : Bool
  gang   : Bool
  sizes  : List Nat
  deriving DecidableEq, Repr

/-- A place for a context: tile, slot, register block and allocation bases. -/
structure Seat where
  tile  : Nat
  slot  : Nat
  block : Nat
  bases : List Nat
  deriving DecidableEq, Repr

/-- A tile can take a context (R102, R104, R111): no new task of a device that is pre-empted softly there. -/
def State.admits (s : State) (n : Need) (tile : Nat) : Bool :=
  let cs := s.onTile tile
  !(n.det && (s.degraded.getLsbD tile || !cs.isEmpty)) && !cs.any (·.det) && !(n.array && cs.any (·.array)) &&
    !(n.gang && cs.any (·.gang)) && !(match n.device with | some v => cs.any (fun c => c.soft && c.device == v) | none => false)

/-- The seat of a context on a tile, beside what its cluster already holds. -/
def State.seatAt (s : State) (n : Need) (used : Runs) (tile : Nat) (want : List Nat) : Option Seat :=
  if s.admits n tile then
    match freeSlot (s.onTile tile), freeBlock (s.onTile tile) n.units, chooseBases used n.sizes want with
    | some k, some b, some bs => some ⟨tile, k, b, bs⟩
    | _, _, _ => none
  else none

/-- Tiles with no resident context first (R104). -/
def State.emptyFirst (s : State) (tiles : List Nat) : List Nat :=
  tiles.filter (fun t => (s.onTile t).isEmpty) ++ tiles.filter (fun t => !(s.onTile t).isEmpty)

/-- The seat of a context among tiles in ascending order: an empty tile if one qualifies, else the lowest (R104). -/
def State.seat (s : State) (n : Need) (tiles want : List Nat) : Option Seat :=
  (s.emptyFirst tiles).findSome? (fun t => s.seatAt n (s.used (clusterOf t)) t want)

/-- What a task of a launch needs. -/
def needOf (l : Launch) (i : ImageRec) : Need :=
  { device := some l.device, units := unitsOf i.regs i.checked, array := l.arraySet, det := i.det, gang := l.gang,
    sizes := allocSizes i.scratch i.stack i.allocs }

/-- What a saved context needs. -/
def Ctx.need (c : Ctx) : Need :=
  { device := none, units := c.units, array := c.array, det := c.det, gang := c.gang, sizes := c.allocs.map (fun a => a.size * 64) }

/-! ## Starting tasks (R101, R105) -/

/-- GRPS of a task (R101). -/
def grpsOf (l : Launch) (task : Nat) : DWord :=
  let gs := (l.groups.filter (fun g => g.2.getLsbD task)).map (·.1)
  BitVec.ofNat 64 (((gs.take 4).zipIdx.map (fun x => (0x8000 + x.1 % 256) * 2 ^ (16 * x.2))).foldl (· + ·) 0)

/-- Allocation entries from sizes and bases in bytes, all with SWZ 0 (R105, R152). -/
def allocsAt (sizes bases : List Nat) : List Alloc :=
  ((sizes.zip bases).zipIdx).map (fun x => { atag := x.2, base := x.1.2, size := x.1.1 / 64, swz := 0 })

/-- The scratchpad images of a task copied into its allocations (R68). -/
def placeImages (m : Memory) (cl : Nat) (as : List Alloc) : List (Nat × Nat × List Byte) → Memory
  | [] => m
  | (t, o, bytes) :: l =>
    placeImages (match as.find? (fun a => a.atag == t) with
      | some a => Memory.writeBytes m ((Region.scratch cl).addr (a.base + o)) bytes
      | none => m) cl as l

/-- A new context with the state of R105, on its way to its first bundle (R117). -/
def State.taskCtx (s : State) (part : Nat) (l : Launch) (i : ImageRec) (task : Nat) (x : Seat) : Ctx :=
  { Ctx.empty with
    uid := s.nextUid
    tile := x.tile
    slot := x.slot
    block := x.block
    part := part
    device := l.device
    run := .restoring
    image := l.image
    entry := l.entry
    regs := i.regs
    array := l.arraySet
    checked := i.checked
    det := i.det
    gang := l.gang
    dlf := i.dlf
    reserve := i.reserve
    allocs := allocsAt (allocSizes i.scratch i.stack i.allocs) x.bases
    pc := i.entries.getD l.entry 0
    modBase := s.cycle
    rate := if s.degraded.getLsbD x.tile then 2 else 1
    lastIssue := s.cycle
    sys := { SysRegs.zero with grps := grpsOf l task, taskid := BitVec.ofNat 64 task, swarmid := BitVec.ofNat 64 l.handle } }

/-- A task starts on a seat (R105). -/
def State.startTask (s : State) (part : Nat) (l : Launch) (i : ImageRec) (task : Nat) (x : Seat) : State :=
  let c := (s.taskCtx part l i task x).begin false false l.args l.tasks l.param
  let t := { s with
    others := s.others ++ [c]
    nextUid := s.nextUid + 1
    mem := placeImages s.mem (clusterOf x.tile) c.allocs i.data }
  t.mapPart part (fun p => { p with hive := mapLaunch l.handle (fun y => { y with next := task + 1 }) p.hive })

/-- The tiles on which new tasks may start: those of dies that are under no launch hold (R24). -/
def State.startTiles (s : State) (p : Partition) (die : Nat) : List Nat :=
  (s.tilesOf p die).filter (fun t => !s.firefly.hold.getLsbD (dieOf t))

/-- The next task of a launch that is no gang starts on a die, where one has room and its reservation can be filled (R99, R103). -/
def State.tryStart (s : State) (p : Partition) (l : Launch) (die : Nat) (want : List Nat) : Option State :=
  match p.imageOf l.image with
  | none => none
  | some i =>
    if l.next < l.tasks ∧ i.reserve ≤ s.hiveFree p ∧ (l.die = 0xFF ∨ l.die = die) then
      (s.seat (needOf l i) (s.startTiles p die) want).map (fun x => s.startTask p.pnum l i l.next x)
    else none

/-! ## Gangs (R102, R104) -/

/-- The map of a group: the tiles of its members (R101). -/
def State.groupTiles (s : State) (part handle : Nat) (tasks : BitVec 1024) : BitVec 1024 :=
  BitVec.ofNat 1024 (laneMaskOf (fun t => s.ctxs.any (fun c => c.run != .ended && c.part == part && c.handle == handle &&
    c.tile == t && tasks.getLsbD (c.sys.taskid.toNat % 1024))) 1024)

/-- The group table entries of a swarm written for where its members are (R101, R118). -/
def State.writeGroups (s : State) (part : Nat) (l : Launch) : State :=
  let es := l.groups.map (fun g => (l.handle, g.1, s.groupTiles part l.handle g.2))
  s.mapPart part (fun p => { p with groupTable := p.groupTable.filter (fun e => e.1 != l.handle) ++ es })

/-- The seats of one cluster for up to k tasks of a gang, on distinct tiles, in the order of R104. -/
def State.clusterSeats (s : State) (n : Need) (want : Nat → List Nat) : List Nat → Nat → Runs → Nat → List Seat
  | [], _, _, _ => []
  | t :: l, k, used, task =>
    if k = 0 then []
    else match s.seatAt n used t (want task) with
      | none => s.clusterSeats n want l k used task
      | some x => x :: s.clusterSeats n want l (k - 1) (x.bases.zip n.sizes ++ used) (task + 1)

/-- The seats of a gang's tasks from one on: clusters in ascending rank, up to k tasks in each (R104). -/
def State.gangSeats (s : State) (n : Need) (tiles : List Nat) (k : Nat) (want : Nat → List Nat) : List Nat → Nat → Nat → List Seat
  | [], _, _ => []
  | c :: l, left, task =>
    let xs := s.clusterSeats n want (s.emptyFirst (tiles.filter (fun t => clusterOf t == c))) (min k left) (s.used c) task
    xs ++ s.gangSeats n tiles k want l (left - xs.length) (task + xs.length)

/-- The tasks of a gang that one cluster holds at most (R97). -/
def perCluster (i : ImageRec) : Nat := max 1 (min 8 (Config.scratchpadBytes / max 1 i.scratch))

/-- The seats that a gang finds, as many as its tasks where it fits (R102, R104). -/
def State.gangRoom (s : State) (p : Partition) (l : Launch) (i : ImageRec) (bases : List Nat) : List Seat :=
  let n := needOf l i
  let want (task : Nat) : List Nat := (bases.drop (task * n.sizes.length)).take n.sizes.length
  s.gangSeats n (s.startTiles p l.die) (perCluster i) want (p.clusters l.die) l.tasks 0

/-- The seats of a whole gang, or none (R102): a seat for every task, group entries for its groups, and the reservations of all tasks. -/
def State.gangPlan (s : State) (p : Partition) (l : Launch) (i : ImageRec) (bases : List Nat) : Option (List Seat) :=
  let xs := s.gangRoom p l i bases
  if xs.length = l.tasks ∧ i.groups + p.groupTable.length ≤ Config.groupEntries ∧ l.tasks * i.reserve ≤ s.hiveFree p then some xs
  else none

/-- A gang is placed whole (R102). -/
def State.placeGang (s : State) (p : Partition) (l : Launch) (i : ImageRec) (xs : List Seat) : State :=
  let t := xs.zipIdx.foldl (fun u x => u.startTask p.pnum l i x.2 x.1) s
  (t.writeGroups p.pnum l).mapPart p.pnum (fun q => { q with hive := mapLaunch l.handle (fun y => { y with placed := true }) q.hive })

/-- A gang that fits is placed. -/
def State.tryGang (s : State) (p : Partition) (l : Launch) (bases : List Nat) : Option State :=
  match p.imageOf l.image with
  | none => none
  | some i => (s.gangPlan p l i bases).map (fun xs => s.placeGang p l i xs)

/-! ## Saved contexts (R115 to R118) -/

/-- The bytes of an allocation as they lie in the scratchpad, by offset from its BASE. -/
def savedCopy (m : Memory) (cl : Nat) (a : Alloc) : Sparse Byte :=
  let lo := (Region.scratch cl).addr a.base
  (m.filter (fun c => decide (lo ≤ c.1) && decide (c.1 < lo + a.size * 64))).map (fun c => (c.1 - lo, c.2))

/-- A saved copy put back at a base. -/
def putCopy (m : Memory) (cl base size : Nat) (copy : Sparse Byte) : Memory :=
  let lo := (Region.scratch cl).addr base
  copy.foldl (fun x c => Memory.write x (lo + c.1) c.2) (clearRange m lo (lo + size))

/-- The allocation entries of a saved context at new bases, SWZ as saved (R118). -/
def rebase : List Alloc → List Nat → List Alloc
  | a :: l, b :: r => { a with base := b } :: rebase l r
  | l, _ => l

/-- What the contexts of a partition hold of the save area of a die. -/
def State.saveSlots (s : State) (part die : Nat) : List SaveSlot :=
  (s.ctxs.filter (fun d => d.part == part)).filterMap (fun d => d.saveSlot.bind (fun x => if x.die = die then some x else none))

/-- The lowest place for n bytes of copies in a save area, beside those that it holds: they begin after the slots (R117; log entry 19). -/
def copyGap (used : Runs) (n : Nat) : Option Nat :=
  ((2 ^ 30 :: used.map (fun r => r.1 + r.2)).filter (fun b => decide (b + n ≤ saveBytes) &&
    used.all (fun r => decide (b + n ≤ r.1) || decide (r.1 + r.2 ≤ b)))).min?

/-- Places for the copies of allocations. -/
def copyPlaces (used : Runs) : List Alloc → Option (List (Nat × Nat))
  | [] => some []
  | a :: l => match copyGap used (a.size * 64) with
    | none => none
    | some b => (copyPlaces ((b, a.size * 64) :: used) l).map (fun r => (a.atag, b) :: r)

/-- The bytes of a context's allocation by its number. -/
def Ctx.allocBytes (c : Ctx) (atag : Nat) : Nat := ((c.alloc atag).map (fun a => a.size * 64)).getD 0

/-- The room that the save area of the context's die and partition has for it (R117): one of 2,048 slots, and places for its copies. -/
def State.savePlan (s : State) (c : Ctx) : Option SaveSlot :=
  let die := dieOf c.tile
  let used : Runs := ((s.ctxs.filter (fun d => d.part == c.part && d.saveSlot.any (fun x => x.die == die))).map (fun d =>
    (((d.saveSlot.map (·.copies)).getD []).map (fun y => (y.2, d.allocBytes y.1))))).flatten
  match (List.range 2048).find? (fun k => (s.saveSlots c.part die).all (fun x => x.index != k)), copyPlaces used c.allocs with
  | some k, some l => some { die := die, index := k, copies := l }
  | _, _ => none

/-- The first byte of the save area of a partition on a die (R81, R117; log entry 15). -/
def State.saveBase (s : State) (part die : Nat) : Nat := tierAddr die 0 (s.shareBase part die 0)

/-- The length of a slot (R116). -/
def slotBytes : Nat := 2 ^ 19

/-- The save area holds a saved context: its layout in its slot, and the copies of its allocations (R116, R117). -/
def State.syncSave (s : State) (uid : Nat) : State :=
  match s.ctxOf uid with
  | none => s
  | some c => match c.run, c.saveSlot with
    | .saved, some x =>
      let base := s.saveBase c.part x.die
      let at_ := base + slotBytes * x.index
      let m := writeFields (clearRange s.mem at_ (at_ + slotBytes)) at_ (c.imageFields false 0)
      { s with mem := x.copies.foldl (fun m y =>
          ((((c.copies.find? (fun z => z.1 == y.1)).map (·.2)).getD []).foldl (fun m b => Memory.write m (base + y.2 + b.1) b.2)
            (clearRange m (base + y.2) (base + y.2 + c.allocBytes y.1)))) m }
    | _, _ => s

/-- A saved context goes back to a seat (R118). -/
def State.resume (s : State) (c : Ctx) (x : Seat) : State :=
  let as := rebase c.allocs x.bases
  let m := as.foldl (fun m a => putCopy m (clusterOf x.tile) a.base (a.size * 64)
    (((c.copies.find? (fun y => y.1 == a.atag)).map (·.2)).getD [])) s.mem
  { s.mapCtx c.uid (fun d => { d with
      run := .restoring
      tile := x.tile
      slot := x.slot
      block := x.block
      rate := if s.degraded.getLsbD x.tile then 2 else 1
      allocs := as }) with mem := m }

/-- The tiles on which a saved context may resume: its own, then those of its rank on its die, or on any die when the partition
has left that die (R118). -/
def State.resumeTiles (s : State) (p : Partition) (tile : Nat) : List Nat :=
  let all := s.tilesOf p 0xFF
  let near := all.filter (fun t => rankOf t == rankOf tile && dieOf t == dieOf tile && t != tile)
  let far := if (p.clusters (dieOf tile)).isEmpty then all.filter (fun t => rankOf t == rankOf tile) else []
  (all.filter (· == tile)) ++ s.emptyFirst near ++ s.emptyFirst far

/-- A saved context that is of no gang resumes on a die. -/
def State.tryResume (s : State) (p : Partition) (die : Nat) (c : Ctx) : Option State :=
  ((s.resumeTiles p c.tile).filter (fun t => dieOf t == die)).findSome? (fun t =>
    (s.seatAt c.need (s.used (clusterOf t)) t []).map (fun x => s.resume c x))

/-- Seats for the members that one cluster held, each at its rank in another. -/
def State.memberSeats (s : State) (cl : Nat) : List Ctx → Runs → Option (List (Ctx × Seat))
  | [], _ => some []
  | c :: l, used => match s.seatAt c.need used (8 * cl + rankOf c.tile) [] with
    | none => none
    | some x => (s.memberSeats cl l (x.bases.zip c.need.sizes ++ used)).map (fun r => (c, x) :: r)

/-- The clusters on which the members of an old cluster may resume (R118). -/
def Partition.resumeClusters (p : Partition) (old : Nat) : List Nat :=
  let all := p.clusters 0xFF
  let near := all.filter (fun c => c / 16 == old / 16 && c != old)
  (all.filter (· == old)) ++ near ++ (if (p.clusters (old / 16)).isEmpty then all else [])

/-- A map of old clusters to distinct new ones with seats for every member (R118). -/
def State.gangMap (s : State) (p : Partition) (ms : List Ctx) : List Nat → List Nat → Option (List (Ctx × Seat))
  | [], _ => some []
  | o :: l, taken =>
    (p.resumeClusters o).findSome? (fun c =>
      if taken.contains c then none
      else
        let here := ms.filter (fun m => clusterOf m.tile == o)
        if here.all (fun m => (s.tilesOf p 0xFF).contains (8 * c + rankOf m.tile)) then
          match s.memberSeats c here (s.used c) with
          | none => none
          | some xs => (State.gangMap s p ms l (c :: taken)).map (fun r => xs ++ r)
        else none)

/-- A saved gang resumes whole (R118). -/
def State.tryGangBack (s : State) (p : Partition) (l : Launch) : Option State :=
  let ms := s.ctxs.filter (fun c => c.part == p.pnum && c.handle == l.handle && c.run != .ended)
  if ms.isEmpty || ms.any (fun c => c.run != .saved) then none
  else (s.gangMap p ms (distinct (ms.map (fun c => clusterOf c.tile))) []).map (fun xs =>
    (xs.foldl (fun t x => t.resume x.1 x.2) s).writeGroups p.pnum l)

end Sys2Proof.Machine
end

