-- ==== Sys2Proof/Machine/Dispatcher.lean ====
section
/-!
DEFINITION. The dispatcher (05_dispatcher R100 to R118, R79): choosing the next task, pre-emption, saves and restores, and the
completion of swarms.
-/
namespace Sys2Proof.Machine
open Sys2Proof

/-! ## Choosing the next task (R103) -/

/-- Every prerequisite has posted its completion (R100). -/
def Partition.prereqsDone (p : Partition) (l : Launch) : Bool :=
  l.prereqs.all (fun h => h == 0 || !p.hive.any (fun x => x.handle == h))

/-- No new task of a launch starts: its core has a record that waits for room (R79). -/
def State.withheld (s : State) (l : Launch) : Bool := !(s.coreN l.core).kept.isEmpty

/-- A context put in the order of pre-emption: by the module cycle of the request (log entry 30). -/
def insertStopped (c : Ctx) : List Ctx → List Ctx
  | [] => [c]
  | d :: l => if c.askedAt ≤ d.askedAt then c :: d :: l else d :: insertStopped c l

/-- The saved contexts of a launch, in order of pre-emption. -/
def State.savedOf (s : State) (part : Nat) (l : Launch) : List Ctx :=
  (s.ctxs.filter (fun c => c.run == .saved && c.part == part && c.handle == l.handle)).foldr insertStopped []

/-- What the selection finds at a launch: a choice, or that later launches of its priority are held back, or nothing. -/
inductive Pick where
  | chosen (s : State)
  | held
  | none
  deriving DecidableEq, Repr

/-- A choice where there is one. -/
def Pick.of : Option State → Pick
  | some s => .chosen s
  | Option.none => .none

/-- What the selection of a die does at a launch (R103). A ready gang that is not yet placed holds back later launches on every die,
also where it names another. -/
def State.pick (s : State) (p : Partition) (die : Nat) (bases : List Nat) (l : Launch) : Pick :=
  let ready := p.prereqsDone l
  if l.gang && !l.placed then
    if !ready then .none
    else if s.withheld l then .held
    else if l.die ≠ 0xFF ∧ l.die ≠ die then .held
    else match s.tryGang p l bases with
      | some t => .chosen t
      | Option.none => .held
  else
    match (if l.gang then s.tryGangBack p l else (s.savedOf p.pnum l).findSome? (s.tryResume p die)) with
    | some t => .chosen t
    | Option.none => if ready && !l.gang && !s.withheld l then Pick.of (s.tryStart p l die bases) else .none

/-- The launches of one priority, in order of acceptance. -/
def State.pickFrom (s : State) (p : Partition) (die : Nat) (bases : List Nat) : List Launch → Option State
  | [] => none
  | l :: r => match s.pick p die bases l with
    | .chosen t => some t
    | .held => none
    | .none => s.pickFrom p die bases r

/-- The launches of a device, from the highest priority down (R103). -/
def State.pickDevice (s : State) (p : Partition) (die : Nat) (bases : List Nat) (vd : Nat) : Option State :=
  [7, 6, 5, 4, 3, 2, 1, 0].findSome? (fun prio =>
    s.pickFrom p die bases (p.hive.filter (fun l => l.device == vd && l.prio == prio && (l.die == 0xFF || l.die == die || l.next != 0 || l.gang))))

/-- The selection for a die among the launches of a partition (R93, R103). -/
def State.selectFor (s : State) (p : Partition) (die : Nat) (bases : List Nat) : Option State :=
  p.selection.findSome? (fun d =>
    if d.balance ≤ 0 ∧ !p.hasLender then none else s.pickDevice p die bases d.vd)

/-- The idle devices of a partition lend (R93). -/
def State.lend (s : State) (n : Nat) : State := s.mapPart n Partition.lend

/-- DISPATCH_SELECT. R93, R103: idle devices lend, and the dispatcher of the die selects, partitions in ascending number (log entry
18). -/
def execDispatchSelect (die : BitVec 3) (bases : List Nat) (s : State) : Host.Outcome State Fault Refusal :=
  let t := (List.range 8).foldl State.lend s
  .next ((t.parts.toList.findSome? (fun p => if p.up then t.selectFor p die.toNat bases else none)).getD t)

/-! ## Pre-emption (R111, R112, R117) -/

/-- The context of a tile and slot changed. -/
def State.mapAt (s : State) (tile slot : Nat) (f : Ctx → Ctx) : State :=
  match s.ctxAt tile slot with
  | some c => s.mapCtx c.uid f
  | none => s

/-- A context that does not issue and is to be saved stops where it stands: its wait tests again after the resume (R112). -/
def Ctx.startSave (c : Ctx) : Ctx :=
  { c with run := .saving, hard := none, boundary := false, wait := keptWait c.clk (c.wait.bind (·.arrived)) }

/-- A hard pre-emption request in module cycle m (R111, R112, R142, R269). -/
def Ctx.askHard (c : Ctx) (m : Nat) : Ctx :=
  match c.run with
  | .issuing | .restoring => if c.hard.isSome then c else { c with hard := some m, askedAt := m }
  | .ready | .waiting | .halted =>
    if c.handling then (if c.hard.isSome then c else { c with hard := some m, askedAt := m }) else { c.startSave with askedAt := m }
  | _ => c

/-- The device of a context. -/
def State.deviceOf (s : State) (c : Ctx) : Option Device := (s.partN c.part).dev c.device

/-- The contexts that are saved with a context: the whole of a gang (R102, R111). -/
def State.together (s : State) (c : Ctx) : List Ctx :=
  if c.gang then s.ctxs.filter (fun d => d.run.resident && c.mate d) else [c]

/-- What the save of a context that was not issuing records of its next bundle (R112). -/
def State.noteStopped (s : State) (uid : Nat) : State :=
  let t := s.lookAt uid
  if t.cur.uid = uid ∧ t.cur.run = .saving ∧ t.cur.delay.isNone then (t.noteNext (t.serve stepped)).lookAt s.cur.uid else s

/-- A hard pre-emption of contexts, where the save area has room for each of them (R117). -/
def State.hardAll (s : State) (cs : List Ctx) : State :=
  let t := cs.foldl (fun (u : Option State) c => u.bind (fun v =>
    match v.ctxOf c.uid with
    | some d => if d.saveSlot.isSome then some (v.mapCtx c.uid (fun e => e.askHard s.cycle))
      else (v.savePlan d).map (fun x => v.mapCtx c.uid (fun e => { e.askHard s.cycle with saveSlot := some x }))
    | none => some v)) (some s)
  (t.map (fun v => cs.foldl (fun u c => u.noteStopped c.uid) v)).getD s

/-- A context is pre-empted, soft or hard as its device says, and with it every member of its gang (R91, R111). -/
def State.preempt (s : State) (c : Ctx) : State :=
  match s.deviceOf c with
  | some d =>
    if d.soft then (s.together c).foldl (fun t x => t.mapCtx x.uid (fun e => { e with soft := true })) s else s.hardAll (s.together c)
  | none => s.hardAll (s.together c)

/-- QUANTUM in cycles. -/
def Device.quantumCycles (d : Device) : Nat := d.quantum * Config.cyclesPerUs

/-- QUANTUM_EXPIRY. R111: the context has run for its quantum, and its device has no balance and no lender. -/
def execQuantumExpiry (tile : BitVec 10) (slot : BitVec 2) (s : State) : Host.Outcome State Fault Refusal :=
  match s.ctxAt tile.toNat slot.toNat with
  | none => .next s
  | some c =>
    let t := s.lend c.part
    match t.deviceOf c with
    | none => .next t
    | some d =>
      .next (if c.run = .issuing ∧ c.began + d.quantumCycles ≤ c.module ∧ d.balance ≤ 0 ∧ !(t.partN c.part).hasLender then t.preempt c
        else t)

/-- Since when a context has stalled in a wait (R107, R111). -/
def Ctx.stalledFrom (c : Ctx) : Option Nat :=
  match c.run, c.wait with
  | .waiting, _ => some c.waitedFrom
  | .issuing, some w => if w.yielding && c.delay.isNone then some (c.modBase + (c.rate * w.since : Nat)).toNat else none
  | _, _ => none

/-- Some tile can take the next task of a launch, or tiles the whole gang, whatever the reservation and the group table have left. -/
def State.hasPlace (s : State) (p : Partition) (l : Launch) : Bool :=
  match p.imageOf l.image with
  | none => false
  | some i =>
    if l.gang then decide ((s.gangRoom p l i []).length = l.tasks)
    else (List.range 8).any (fun d => (l.die == 0xFF || l.die == d) && (s.seat (needOf l i) (s.startTiles p d) []).isSome)

/-- A task of a device is pending, and no tile can take it (R111). -/
def State.crowded (s : State) (p : Partition) (vd : Nat) : Bool :=
  p.hive.any (fun l => l.device == vd && decide (l.next < l.tasks) && p.prereqsDone l && !s.hasPlace p l)

/-- WAIT_QUANTUM_EXPIRY. R111. -/
def execWaitQuantumExpiry (tile : BitVec 10) (slot : BitVec 2) (s : State) : Host.Outcome State Fault Refusal :=
  match s.ctxAt tile.toNat slot.toNat with
  | none => .next s
  | some c => match s.deviceOf c, c.stalledFrom with
    | some d, some m => .next (if m + d.quantumCycles ≤ s.cycle ∧ s.crowded (s.partN c.part) c.device then s.preempt c else s)
    | _, _ => .next s

/-- PREEMPT_REQUEST. R86 step 1, R111: the tasks on given wings, with every member of a gang that runs there. -/
def execPreemptRequest (part : BitVec 3) (wings : BitVec 32) (s : State) : Host.Outcome State Fault Refusal :=
  let cs := s.ctxs.filter (fun c => c.run.resident && c.part == part.toNat && wings.getLsbD (wingOf c.tile))
  .next (cs.foldl State.preempt s)

/-! ## Saves and restores (R115 to R118, R187, R362) -/

/-- Every command of a context that has started has performed, or waits only for the fabric; QFENCE reads nothing. -/
def Ctx.drained (c : Ctx) : Bool :=
  c.accesses.all (·.done) &&
    c.eqs.toList.all (fun q => q.all (fun k => (k.closed && k.flag.isNone) || (match k.cmd with | .qfence _ => true | _ => false)))

/-- An access over the mesh that has not yet performed at a task's tile. -/
def Request.headsFor (r : Request) (c : Ctx) : Bool :=
  (r.addr.toNat / 2 ^ 60 == 2 || r.addr.toNat / 2 ^ 60 == 4) && r.part == c.part && r.tile == c.tile && r.slot == c.slot &&
    (r.stage == .queued || r.stage == .moving) && !r.ask.isWait

/-- A request of a context that its save waits for: an access that has not performed or a write that is not acknowledged (R187), and what
an engine command still does within the module. -/
def Request.holdsSave (r : Request) (uid : Nat) : Bool :=
  r.uid == uid && ((r.isAccess && (r.slice.isSome || r.stage == .queued || r.stage == .moving)) ||
    (r.engine.isSome && r.addr.toNat / 2 ^ 60 != 5))

/-- A save can end (R187, R362): every access of the context has performed and its writes are acknowledged, accesses of its swarm to its
allocations have performed, and every member of its gang has stopped and needs none of them any more (log entry 19). -/
def State.mayFinishSave (s : State) (c : Ctx) : Bool :=
  !s.requests.any (fun r => r.holdsSave c.uid || r.headsFor c) &&
    (s.together c).all (fun d => d.run == .saving && d.drained && !s.requests.any (fun r => r.engine.isSome && r.holdsSave d.uid))

/-- A context is saved: its allocations are copied and freed, and its slot and registers with them (R116, R117). -/
def State.saved (s : State) (c : Ctx) : State :=
  (s.mapCtx c.uid (fun d => { d with
    run := .saved
    copies := d.allocs.map (fun a => (a.atag, savedCopy s.mem (clusterOf d.tile) a)) })).syncSave c.uid

/-- The longest save (R117): 52 µs. -/
def saveBound : Nat := 52 * Config.cyclesPerUs

/-- SAVE_COMPLETE. R117: the time of a save is charged to the outgoing device (R92); how long it took is a free value within the bound. -/
def execSaveComplete (tile : BitVec 10) (slot : BitVec 2) (s0 : State) : Host.Outcome State Fault Refusal :=
  let s := s0.passCluster (clusterOf tile.toNat) s0.cycle
  match s.ctxAt tile.toNat slot.toNat with
  | none => .next s
  | some c =>
    if c.run = .saving ∧ s.mayFinishSave c then
      let n := (Config.freeWord s.fresh).toNat % (saveBound + 1)
      .next (({ s.saved c with fresh := s.fresh + 1 }).mapPart c.part (fun p => p.charge c.device n))
    else .next s

/-- The issuing context of a tile gives way to one that the dispatcher resumes (R107); one that a hard pre-emption has asked for is saved
(R112). -/
def State.giveWay (s : State) : State :=
  if s.cur.hard.isSome && !s.cur.handling then s.hardStop else s.leaveTile.chargeSince s.cur

/-- RESTORE_COMPLETE. R107, R117, R118: the tile switches when the dispatcher resumes a context on it; a starting task issues when the
tile is free. -/
def execRestoreComplete (tile : BitVec 10) (slot : BitVec 2) (s : State) : Host.Outcome State Fault Refusal :=
  match s.ctxAt tile.toNat slot.toNat with
  | none => .next s
  | some c =>
    if c.run ≠ .restoring then .next s
    else
      let back := !c.copies.isEmpty
      let t := s.mapCtx c.uid (fun d => { d with run := .ready, began := s.cycle, copies := [], latches := [], saveSlot := none })
      match s.issuerOf tile.toNat with
      | none => .next (t.mapCtx c.uid (fun d => d.restart s.cycle))
      | some i =>
        .next (if back then ((t.focus i.uid).giveWay).switchIn tile.toNat (some i.uid) else t)

/-! ## Completion (R79, R109, R110) -/

/-- The record of a launch that has completed waits for room in its core's queue (R79, R109). -/
def State.recordKept (s : State) (part : Nat) (l : Launch) : Bool :=
  (s.coreN l.core).kept.any (fun r => r.toNat % 2 ^ 32 == l.handle && r.toNat / 2 ^ 56 % 8 == part &&
    (r.toNat / 2 ^ 32 % 256 == 1 || r.toNat / 2 ^ 32 % 256 == 2))

/-- The task that a space-1 or space-2 CFLAG names at completion: of the spawning task's swarm, at the tile rank in the named
cluster, resident or saved (R95); a task that is of no gang names only itself (R152). A space-1 CRANK other than 0x7F names that cluster, the
spawner's own or not (DESIGN CHOICE, log entry 20). -/
def State.flagTask (s : State) (part : Nat) (l : Launch) : Option Ctx :=
  let n := l.cflag.toNat
  match l.byTask with
  | none => none
  | some (swarm, cluster, uid) =>
    let cl := if n / 2 ^ 60 = 1 ∧ n / 2 ^ 53 % 128 = 0x7F then cluster else n / 2 ^ 53 % 128
    let at_ := s.ctxs.filter (fun c => c.run != .ended && c.part == part && c.handle == swarm && c.tile == 8 * cl + n / 2 ^ 45 % 8)
    at_.find? (fun c => c.gang || c.uid == uid)

/-- A saved copy with 4 bytes incremented. -/
def bumpCopy (m : Sparse Byte) (swz o : Nat) : Sparse Byte :=
  let at_ (i : Nat) : Nat := swizzle swz (o + i)
  let x := (natOfBytes ((List.range 4).map (fun i => Sparse.get unwritten m (at_ i))) + 1) % 2 ^ 32
  (List.range 4).foldl (fun m i => Sparse.set unwritten m (at_ i) (BitVec.ofNat 8 (x / 256 ^ i))) m

/-- A 4-byte flag of memory incremented by 1 as a strong atomic, at physical addresses. -/
def bumpAddrs (m : Memory) (as : List Nat) : Memory :=
  writeAddrs m [] as ((natOfBytes (as.map (fun a => Memory.read m a)) + 1) % 2 ^ 32)

/-- CFLAG incremented in an allocation of a task, resident or saved (R95). -/
def State.bumpAlloc (s : State) (c : Ctx) (atag o : Nat) : State :=
  match c.alloc atag with
  | none => s
  | some a =>
    if a.size * 64 < o + 4 then s
    else if c.run = .saved then
      (s.mapCtx c.uid (fun d => { d with copies := d.copies.map (fun x => if x.1 = atag then (x.1, bumpCopy x.2 a.swz o) else x) })).syncSave c.uid
    else { s with mem := bumpAddrs s.mem (a.addrs (clusterOf c.tile) o 4) }

/-- The agent that increments CFLAG at a peer: the dispatcher, for a launch. -/
def flagAgent (handle : Nat) : Nat := 2 ^ 40 + handle

/-- The add of 1 that CFLAG takes. -/
def flagAtom (off : Nat) : Atom := .word 0 off 4 .add 1

/-- A space-0 CFLAG lives at a peer, and its increment there has not been answered (R171). -/
def State.flagAway (s : State) (part : Nat) (l : Launch) : Bool :=
  let n := l.cflag.toNat
  n != 0 && n / 2 ^ 60 == 0 && (match s.spot part (n / 2 ^ 57 % 8) (n % 2 ^ 57) 4 true true with
    | .far .. => (s.partN part).farAnswer (farKey (flagAgent l.handle) (n / 2 ^ 57 % 8) (n % 2 ^ 57) true) == .away
    | _ => false)

/-- The increment is made at the peer, once; on a page that migrates from there in the order of its writes (R169). -/
def State.sendFlag (s : State) (part : Nat) (l : Launch) : State :=
  let n := l.cflag.toNat
  if s.settling part (n / 2 ^ 57 % 8) (n % 2 ^ 57) then s
  else s.goFar (flagAgent l.handle) part (n / 2 ^ 57 % 8) (n % 2 ^ 57) true (fun o => .atomic (flagAtom o))

/-- CFLAG incremented (R95, R109). A word that the partition may not write atomically stays as it is, and so does one of a task whose pointer has
the CTL bit set or that lies outside the task's allocations: the manual gives no outcome (DESIGN CHOICE, log entry 20). -/
def State.bumpFlag (s : State) (part : Nat) (l : Launch) : State :=
  let n := l.cflag.toNat
  if n = 0 then s
  else if n / 2 ^ 60 = 0 then
    let die := n / 2 ^ 57 % 8
    let off := n % 2 ^ 57
    let t := s.keepRun part die off 4
    match s.spot part die off 4 true true with
    | .here as => (t.atom0 part die off as (flagAtom off)).1
    | _ => t.useFar (flagAgent l.handle) part
  else match s.flagTask part l with
    | some c => if n / 2 ^ 44 % 2 = 1 then s else s.bumpAlloc c (n / 2 ^ 48 % 32) (n % 2 ^ 44)
    | none => s

/-- The completion record of a launch (R110). -/
def Launch.doneRecord (l : Launch) (part : Nat) : BitVec 128 :=
  match l.fault with
  | some f => eventRecord l.handle 2 f.2.2 l.device part l.faulted f.2.1
  | none => eventRecord l.handle 1 0 l.device part l.tasks 0

/-- A launch leaves the Hive, with the group entries of its gang (R98, R101). -/
def State.freeLaunch (s : State) (part handle : Nat) : State :=
  s.mapPart part (fun p => { p with hive := p.hive.filter (fun x => x.handle != handle),
                                    groupTable := p.groupTable.filter (fun e => e.1 != handle) })

/-- Steps 3 and 4 of R109: the record is posted and the entry freed; an entry whose record waits for room stays. -/
def State.postDone (s : State) (part : Nat) (l : Launch) : State :=
  if l.noEvent && l.fault.isNone then s.freeLaunch part l.handle
  else
    let t := s.post l.core (l.doneRecord part)
    if t.recordKept part l then t else t.freeLaunch part l.handle

/-- SWARM_COMPLETE. R109: every task has ended, and every store of the swarm is visible at .M. -/
def execSwarmComplete (part : BitVec 3) (handle : BitVec 32) (s : State) : Host.Outcome State Fault Refusal :=
  let n := part.toNat
  match (s.partN n).hive.find? (fun l => l.handle == handle.toNat) with
  | none => .next s
  | some l =>
    if l.live || s.recordKept n l || s.requests.any (fun r => r.part == n && r.swarm == l.handle && r.slice.isSome) then .next s
    else if s.flagAway n l then .next (s.sendFlag n l)
    else .next ((s.bumpFlag n l).postDone n l)

/-- EVENT_POST. R79: the oldest record kept for a core enters its queue once there is room, which completes its launch (R98). -/
def execEventPost (wing : BitVec 5) (s : State) : Host.Outcome State Fault Refusal :=
  let w := wing.toNat
  let c := s.coreN w
  match c.kept with
  | [] => .next s
  | r :: l =>
    if c.queue.length < Config.coreQueueRecords then
      let t := s.mapCore w (fun x => { x with queue := x.queue ++ [r], kept := l })
      let k := r.toNat / 2 ^ 32 % 256
      .next (if k = 1 ∨ k = 2 then t.freeLaunch (r.toNat / 2 ^ 56 % 8) (r.toNat % 2 ^ 32) else t)
    else .next s

end Sys2Proof.Machine
end

