-- ==== Sys2Proof/Machine/Waiting.lean ====
section
/-!
DEFINITION. WAITGE and WAITEQ (12_isa_scalar_control R275, R276).
-/
namespace Sys2Proof.Machine
open Sys2Proof

/-- The test of a wait on a word (R275). -/
def waitTest (ge : Bool) (w rs : Word) : Bool := if ge then decide ((w - rs).toNat < 2 ^ 31) else w == rs

/-- The faults of a wait (R275): those of its operands and address, and the denial of its watch. -/
def State.waitTraps (s : State) (i : Instr) (da : DNum) (off : BitVec 24) (rs : SRegNo) : List Trap :=
  let x := s.placeAt da off 4 .wait ⟨0, 0, 4⟩
  let denied := match s.cur.wait with | some w => w.denied | none => false
  s.poisonIf i (s.cur.dp da || s.cur.sp rs) ++
    (if s.cur.dp da then [] else s.reachTraps i da off 4 .wait false [⟨0, 0, 4⟩] ++
      (if denied then s.locTraps i 0 (x.1, [if x.1.space = 5 then .fabric else .pageDenied]) else []))

/-- A wait whose condition holds: on the own cluster the next bundle issues four cycles later (R276). -/
def State.leaveWait (s : State) (l : Loc) : State :=
  if l.fixed then { s with issue := { s.issue with gap := max s.issue.gap 4 } } else s

/-- The bundle waits for a word: it tests the word in the bank cycles of the own cluster from I + 4 on, as it stands at the start of each
(seen holds what stands at the start of the next one), or sends one watch to the word's slice (R276). -/
def State.waitWord (s : State) (i : Instr) (da : DNum) (off : BitVec 24) (rs : SRegNo) (ge : Bool) :
    Host.Outcome State Fault Refusal :=
  let l := (s.placeAt da off 4 .wait ⟨0, 0, 4⟩).1
  s.issueOp i (s.waitTraps i da off rs) (fun t =>
    let met := match t.cur.wait with | some w => w.met.isSome | none => false
    if t.issue.passed || met then t.leaveWait l
    else if t.acquiring then t.stall true id
    else if l.fixed then
      (if t.cur.since + 4 ≤ t.cur.clk ∧ (t.cur.wait.bind (·.seen)).any (fun x => waitTest ge x (t.cur.s rs)) then t.leaveWait l
       else t.stall true (fun w => { w with seen := some (BitVec.ofNat 32 (t.siteRead [] l.site l.off 4)) }))
    else match t.cur.wait.bind (·.watch) with
      | some _ => t.stall true id
      | none => (t.sendTo l (.wait ge (t.cur.s rs)) .discard none false true).stall true (fun w => { w with watch := some t.nextReq }))

/-- WAITGE. R275, R276. -/
def execWaitge (h : Head) (da : DNum) (off : BitVec 24) (scope : Scope) (rs : SRegNo) (s : State) :
    Host.Outcome State Fault Refusal := s.waitWord (.waitge h da off scope rs) da off rs true

/-- WAITEQ. R275, R276. -/
def execWaiteq (h : Head) (da : DNum) (off : BitVec 24) (scope : Scope) (rs : SRegNo) (s : State) :
    Host.Outcome State Fault Refusal := s.waitWord (.waiteq h da off scope rs) da off rs false

end Sys2Proof.Machine
end

