-- ==== Sys2Proof/Machine/Slices.lean ====
section
/-!
DEFINITION. The far end of an access (07_memory_translation R155 to R171): translation at the owning die, its hold queues, accesses to a
page that lives at a peer, the service of requests at their slices, and what a reply does at the tile.
-/
namespace Sys2Proof.Machine
open Sys2Proof

/-- Bytes that lie in one 4 KiB of a migration's target frame in this module are written there. -/
def State.writeTarget (s : State) (die : Nat) (m : Migration) (off : Nat) (bytes : List Byte) : State :=
  match s.stageTwo m.part die (pteTier m.target) (pteFrame m.target + off) with
  | some a => { s with mem := Memory.writeBytes s.mem a bytes }
  | none => s

/-- A migration of a die changed, by its number. -/
def State.mapMig (s : State) (die num : Nat) (f : Migration → Migration) : State :=
  s.mapDie die (fun d => { d with migs := d.migs.map (fun m => if m.num = num then f m else m) })

/-- An access of a die's own to a peer, for a migration (R169). -/
def State.copyRequest (s : State) (die : Nat) (m : Migration) (off : Nat) (addr : DWord) (ask : Ask) : State :=
  s.ownRequest m.part die m.num addr ask .discard (globalPointer die (m.va + off))

/-- Bytes of a migration go to its target frame at a peer. -/
def State.sendTarget (s : State) (die : Nat) (m : Migration) (off size value : Nat) : State :=
  let f := pteFrame m.target
  let o := f % 2 ^ 40 + off
  s.copyRequest die m off (peerPointer (f / 2 ^ 40) o) (.store [⟨o, size, value⟩])

/-- An access of a migration to a peer has ended: bytes that it brings go to the target; one that the peer denies ends the migration
(log entry 24). -/
def State.takeCopy (s : State) (r : Request) : State :=
  let p := r.home.getD r.addr
  let die := p.toNat / 2 ^ 57 % 8
  match (s.dieRec die).migs.find? (fun m => m.num == r.swarm) with
  | none => s
  | some m =>
    if r.denied then s.abandon die m
    else
      let off := p.toNat % 2 ^ 57 - m.va
      match r.ask with
      | .load ps =>
        let n := (ps.map (·.size)).foldl max 0
        if pteTier m.target = 2 then s.sendTarget die m off n (dataAt r.data 0)
        else (s.writeTarget die m off (bytesOfNat n (dataAt r.data 0))).mapMig die m.num (fun x => { x with owed := x.owed - 1 })
      | _ => s.mapMig die m.num (fun x => { x with owed := x.owed - 1 })

/-- The offset of a migrating page of a die that a window offset of a peer is, while the page lives there. -/
def State.farOffset (s : State) (part die peer o : Nat) : Option Nat :=
  ((s.dieRec die).migs.find? (fun m =>
    let e : DWord := BitVec.ofNat 64 (Memory.readNat s.mem m.leafAt 8)
    m.part == part && pteTier e == 2 && pteFrame e / 2 ^ 40 == peer && decide (pteFrame e % 2 ^ 40 ≤ o) &&
      decide (o < pteFrame e % 2 ^ 40 + m.size))).map (fun m =>
        m.va + (o - (BitVec.ofNat 64 (Memory.readNat s.mem m.leafAt 8) : DWord).toNat / 2 ^ 12 % 2 ^ 28 * 2 ^ 12))

/-- What an atomic on a page that migrates from a peer leaves joins the hold queue once its reply is here (R169 step 3): REPLAYED brings
the word's current value. What a quire add has left is read back at the peer, and no other write to the page goes out meanwhile. -/
def State.holdAtomic (s : State) (r : Request) : State :=
  match r.ask, r.home with
  | .atomic a, some p =>
    let die := p.toNat / 2 ^ 57 % 8
    match s.farOffset r.part die (r.addr.toNat / 2 ^ 52 % 256) a.off with
    | none => s
    | some off => match a with
      | .word lane _ size op x =>
        let old := dataAt r.data lane
        s.hold r.part die off (bytesOfNat size (if r.status = 1#8 then old else op.eval (8 * size) old x.toNat))
      | .quire .. =>
        let peer := r.addr.toNat / 2 ^ 52 % 256
        [(0, 64), (64, 8)].foldl (fun t x => t.ownRequest r.part die 0 (peerPointer peer (a.off + x.1)) (.load [⟨0, a.off + x.1, x.2⟩]) .code
          (globalPointer die (off + x.1))) s
  | _, _ => s

/-! ## Pages that live at a peer (R171) -/

/-- The pages of a request at its die are kept in the memory-side TLB (R162). -/
def State.keepAsk (s : State) (part die off : Nat) (ask : Ask) : State :=
  (if ask.isWait then [(off, 4)] else ask.runs).foldl (fun t x => t.keepRun part die x.1 x.2) s

/-- Pieces of loads that lie next to each other, in runs of at most 64 bytes; the run being built comes first. -/
def runsOf : List Piece → List Piece → List (List Piece)
  | cur, [] => if cur.isEmpty then [] else [cur]
  | cur, p :: l =>
    match cur.getLast?, cur.head? with
    | some q, some h => if q.off + q.size = p.off ∧ p.off + p.size ≤ h.off + 64 then runsOf (cur ++ [p]) l else cur :: runsOf [p] l
    | _, _ => runsOf [p] l

/-- A request goes on to a peer, with offsets in the peer's window. -/
def Request.forward (r : Request) (id peer off : Nat) (ask : Ask) : Request :=
  { r with id := id, addr := peerPointer peer off, ask := ask, stage := .queued, home := some r.addr }

/-- The queue entry of a request awaits more parts. -/
def State.awaitMore (s : State) (r : Request) (n : Nat) : State :=
  match r.sink with
  | .queue k req _ _ _ => s.mapCtx r.uid (fun c => c.fillQueue k req (fun e => { e with owed := e.owed + n }))
  | _ => s

/-- Requests that a die forwards, numbered afresh. -/
def renumber (n : Nat) (rs : List Request) : List Request := rs.zipIdx.map (fun x => { x.1 with id := n + x.2 })

/-- A request is answered in part here, and its other parts go on to peers (R171). -/
def State.split (s : State) (r : Request) (here : Option Request) (far : List Request) : State :=
  let fs := renumber s.nextReq far
  let t := { s.awaitMore r (far.length + (if here.isSome then 1 else 0) - 1) with nextReq := s.nextReq + far.length }
  t.replace r.id (here.toList ++ fs)

/-- The parts of a store cut at 4 KiB, so that each lies in one page. -/
def cutParts (ps : List Part) : List Part :=
  (ps.map (fun p =>
    let k := 4096 - p.off % 4096
    if p.size ≤ k then [p]
    else [{ p with size := k, value := p.value % 2 ^ (8 * k) }, ⟨p.off + k, p.size - k, p.value / 2 ^ (8 * k)⟩])).flatten

/-- The writes of a store that this die performs; those that it forwards only join a hold queue (R169). -/
def State.writeParts (s : State) (part die : Nat) : List (Part × Spot) → State
  | [] => s
  | (p, .here as) :: l => (s.write0 part die p.off as p.value).writeParts part die l
  | (p, .far ..) :: l => (s.hold part die p.off (bytesOfNat p.size p.value)).writeParts part die l
  | _ :: l => s.writeParts part die l

/-- A spot at a peer. -/
def Spot.isFar : Spot → Bool
  | .far .. => true
  | _ => false

/-- The service of a space-0 request by its owning die (R162, R166 to R171). -/
def State.serveGlobal (s : State) (r : Request) : State :=
  let die := r.addr.toNat / 2 ^ 57 % 8
  let off := r.addr.toNat % 2 ^ 57
  match r.ask with
  | .load pieces =>
    let xs := pieces.map (fun p => (p, s.spot r.part die p.off p.size false false))
    let near := xs.filter (fun x => !x.2.isFar)
    let data := near.filterMap (fun x => match x.2 with | .here as => some (x.1.lane, s.read0 as) | _ => none)
    let here := r.answer s.cycle data (near.any (fun x => x.2 == .denied))
    let far := xs.filterMap (fun x => match x.2 with | .far peer o => some (peer, { x.1 with off := o }) | _ => none)
    let asks := (distinct (far.map (·.1))).map (fun peer =>
      (runsOf [] ((far.filter (fun f => f.1 == peer)).map (·.2))).map (fun ps =>
        r.forward 0 peer ((ps.head?.map (·.off)).getD 0) (.load ps)))
    if far.isEmpty then s.replace r.id [here]
    else s.split r (if near.isEmpty then none else some { here with ask := .load (near.map (·.1)) }) asks.flatten
  | .store parts =>
    let xs := (cutParts parts).map (fun p => (p, s.spot r.part die p.off p.size true false))
    let near := xs.filter (fun x => !x.2.isFar)
    let t := s.writeParts r.part die xs
    let far := xs.filterMap (fun x => match x.2 with
      | .far peer o => some (r.forward 0 peer o (.store [{ x.1 with off := o }]))
      | _ => none)
    t.split r (if near.isEmpty && !far.isEmpty then none else some (r.answer s.cycle [] (near.any (fun x => x.2 == .denied)))) far
  | .atomic a =>
    match s.spot r.part die a.off a.size true true with
    | .here as => let x := s.atom0 r.part die a.off as a; x.1.replace r.id [r.answer s.cycle [(a.lane, x.2)] false]
    | .far peer o => s.replace r.id [r.forward r.id peer o (.atomic (a.moved o))]
    | .denied => match a with
      | .word .. => s.replace r.id [r.answer s.cycle [] true]
      | .quire _ o image =>
        if s.parted r.part die a then
          let x := s.mergeVia (mergeAgent r.id) r.part die o image
          (match x.2 with
            | .got _ => x.1.replace r.id [r.answer s.cycle [(a.lane, 0)] false]
            | .away => x.1
            | .denied => x.1.replace r.id [r.answer s.cycle [] true])
        else s.replace r.id [r.answer s.cycle [] true]
  | .wait ge value =>
    match s.spot r.part die off 4 false false with
    | .here as =>
      if waitTest ge (BitVec.ofNat 32 (s.read0 as)) value then s.replace r.id [r.answer s.cycle [] false]
      else s.replace r.id [{ r with stage := .moving }]
    | .far peer o => s.replace r.id [r.forward r.id peer o r.ask]
    | .denied => s.replace r.id [r.answer s.cycle [] true]

/-! ## Accesses over the mesh (R152, R155, R159, R160) -/

/-- Where a request performs: a die, a cluster, or a peer. -/
def Request.place (r : Request) : Nat :=
  match r.home with
  | some p => p.toNat / 2 ^ 57 % 8
  | none => match r.addr.toNat / 2 ^ 60 with
    | 0 => r.addr.toNat / 2 ^ 57 % 8
    | 5 => 256 + r.addr.toNat / 2 ^ 52 % 256
    | _ => 8 + clusterOf r.tile

/-- Two lists of runs of bytes meet. -/
def runsMeet (xs ys : List (Nat × Nat)) : Bool :=
  xs.any (fun a => ys.any (fun b => decide (a.1 < b.1 + b.2) && decide (b.1 < a.1 + a.2)))

/-- Two requests reach the same bytes. -/
def Request.meets (r q : Request) : Bool := q.target == r.target && runsMeet q.ask.runs r.ask.runs

/-- An ask that reads the word that it writes. -/
def Ask.reads : Ask → Bool
  | .atomic _ => true
  | _ => false

/-- A request has to wait for an older one of its context: the reads of its own bundle that meet it, and of the atomics those of earlier
syllables, since what a later one writes an earlier store leaves (R172); an acquire, or what came
before a release, fence or DRAIN (R173, R178); another strong access where both are strong (R174); and an access that performs at the
same slice, at a peer one that meets it (R173, R174). -/
def Request.waitsFor (r q : Request) : Bool :=
  q.uid == r.uid && q.isAccess && (q.stage == .queued || q.stage == .moving) &&
    (if q.bundle = r.bundle then !r.ask.writes.isEmpty && (q.ask.writes.isEmpty || (q.ask.reads && decide (q.id < r.id))) && r.meets q
     else decide (q.bundle < r.bundle) && (q.acquire || decide (q.epoch < r.epoch) || (q.strong && r.strong) ||
       (if r.place < 256 then q.place == r.place else r.meets q)))

/-- An access of the own cluster that a request has to wait for, likewise. -/
def Request.waitsForOwn (r : Request) (a : Access) : Bool :=
  let sites := match a.act with | .reduce x => [x.data, x.valid] | _ => [a.site]
  let same := sites.contains r.meshSite && (r.addr.toNat / 2 ^ 60 == 2 || r.addr.toNat / 2 ^ 60 == 4)
  let reads := match a.act with | .store _ => false | _ => true
  !a.done && a.act.turn == 0 &&
    (if a.bundle = r.bundle then same && !r.ask.writes.isEmpty && (reads || (decide (a.seq < r.at_) && runsMeet a.act.runs r.ask.runs))
     else decide (a.bundle < r.bundle) && (a.acquire || (a.strong && r.strong) || (same && runsMeet a.act.runs r.ask.runs)))

/-- A request may perform now, as far as its context's order goes (R172 to R174, R178). -/
def State.mayServe (s : State) (r : Request) : Bool :=
  !(r.isAccess || (r.uid != 0 && r.ask.isWait)) || (!s.requests.any r.waitsFor &&
    (match s.ctxOf r.uid with | some c => !c.accesses.any r.waitsForOwn | none => true))

/-- A request has joined the accesses of the tile that it names. -/
def Ctx.hasArrival (c : Ctx) (id : Nat) : Bool :=
  c.accesses.any (fun a => match a.act with | .arrival k _ => k == id | _ => false)

/-- A mesh access reaches the tile that it names, and joins the accesses there in the module's cycle (R155, R157); a watch is tested. One
that finds the task gone is dropped and denied (log entry 21). -/
def State.serveMesh (s : State) (r : Request) : State :=
  let site := Site.alloc r.tile r.slot (r.addr.toNat / 2 ^ 48 % 32)
  match s.meshTask r with
  | none => s.replace r.id [r.answer s.cycle [] true]
  | some c =>
    match r.ask with
    | .wait ge value =>
      if waitTest ge (BitVec.ofNat 32 (s.siteRead [] site (r.addr.toNat % 2 ^ 44) 4)) value then s.replace r.id [r.answer s.cycle [] false]
      else s.replace r.id [{ r with stage := .moving }]
    | ask =>
      if c.hasArrival r.id then s.passCluster (clusterOf r.tile) s.cycle
      else s.mapCtx c.uid (fun d => d.stampAccess (max r.readyAt s.cycle) site (.arrival r.id ask))

/-! ## Replies at the tile (R132, R166, R167, R276) -/

/-- The lanes of what a request asked for. -/
def Ask.lanes : Ask → List Nat
  | .load ps => ps.map (·.lane)
  | .atomic a => [a.lane]
  | _ => []

/-- The lanes that a reply leaves without a value. -/
def Request.missing (r : Request) : LaneMask :=
  BitVec.ofNat 128 (laneMaskOf (fun l => r.ask.lanes.contains l && !r.data.any (fun d => d.1 == l)) 128)

/-- The tagged address that names an access. -/
def Request.name (r : Request) : DWord := r.home.getD r.addr

/-- The request is one part of a fabric access: its denial has the status DENIED (R50). -/
def Request.overFabric (r : Request) : Bool := r.addr.toNat / 2 ^ 60 == 5 && r.home.isNone

/-- A place in a result queue no longer awaits the reply of an LDA once all its parts have come (R178). -/
def Ctx.ldaDone (c : Ctx) (k : QNum) (req : Nat) : Ctx :=
  if (c.rq[k.toNat]'k.isLt).any (fun e => e.request == req && e.owed != 0) then c
  else { c with ldaOwed := c.ldaOwed.filter (· != req) }

/-- The reply of a watch (R276, R370): only that of the newest watch counts. A context that has left its tile is ready again. -/
def Ctx.watchReply (c : Ctx) (r : Request) : Ctx :=
  match c.wait with
  | none => c
  | some w =>
    if w.watch ≠ some r.id then c
    else if c.run = .waiting then { c with run := .ready, wait := some { w with watch := none, denied := r.denied } }
    else { c with wait := some { w with met := if r.denied then none else some c.clk, denied := r.denied } }

/-- The reply of a load or atomic goes into its place in a result queue, poisoned where it brings no value (R132, R166). -/
def Ctx.queueReply (c : Ctx) (r : Request) (k : QNum) (req : Nat) (signed : Bool) (bits : Nat) : Ctx :=
  let m := r.missing
  let d := c.fillQueue k req (fun e => e.fill 0 signed bits r.data m r.status)
  let e := d.ldaDone k req
  if m ≠ 0 ∧ !c.handling then { e with sys := { e.sys with tinfo := r.name } } else e

/-- A denied write waits for a release that covers its slice (R167). -/
def Ctx.noteDenied (c : Ctx) (r : Request) : Ctx :=
  match r.slice with
  | some b => if r.denied && !(r.overFabric && !r.ask.lanes.isEmpty && r.sink != .discard) then { c with denied := c.denied ++ [(r.name, b)] } else c
  | none => c

/-- What the reply or acknowledgement of a request does to its context. -/
def Ctx.receive (c : Ctx) (r : Request) : Ctx :=
  match r.ask with
  | .wait .. => c.watchReply r
  | _ => match r.sink with
    | .code => { c with fetching := none
                        code := c.code ++ [(r.name.toNat, if r.missing = 0 then some (BitVec.ofNat 64 (dataAt r.data 0)) else none)] }
    | .queue k req signed bits _ => (c.queueReply r k req signed bits).noteDenied r
    | _ => c.noteDenied r

/-- A context that a reply has made ready. -/
def State.wakePop (s : State) (uid : Nat) : State :=
  match s.ctxOf uid with
  | some c => if c.run = .waiting ∧ s.popReady c then s.mapCtx uid (fun d => { d with run := .ready }) else s
  | none => s

/-- The module clock reaches a cycle. -/
def State.reach (s : State) (cycle : Nat) : State := { s with cycle := max s.cycle cycle }

end Sys2Proof.Machine
end

