-- ==== Sys2Proof/Machine/Arrivals.lean ====
section
/-!
DEFINITION. What happens to a context between its bundles (05_dispatcher R107, R112, 06_tile R133 to R135, 07_memory_translation R155 to
R167, 12_isa_scalar_control R269 to R276): stops, waits, and the accesses that it has sent out.
-/
namespace Sys2Proof.Machine
open Sys2Proof

/-! ## Stops (R107, R112) -/

/-- The model looks at the issuing context of a tile and slot. -/
def State.atIssuer (s : State) (tile slot : Nat) : Option State :=
  match s.ctxAt tile slot with
  | some c => if c.run = .issuing then some (s.focus c.uid) else none
  | none => none

/-- HARD_STOP. R112 to R116: the context is at a stop point, and its save begins. -/
def execHardStop (tile : BitVec 10) (slot : BitVec 2) (s : State) : Host.Outcome State Fault Refusal :=
  match s.atIssuer tile.toNat slot.toNat with
  | some t => .next (if t.stopDue then t.hardStop else s)
  | none => .next s

/-- PREEMPT_4096_EXPIRY. R112: 4,096 cycles after the request the context stops at its next bundle boundary. -/
def execPreempt4096Expiry (tile : BitVec 10) (slot : BitVec 2) (s : State) : Host.Outcome State Fault Refusal :=
  match s.atIssuer tile.toNat slot.toNat with
  | some t =>
    .next (match t.cur.hard with
      | some m => if m + 4096 ≤ t.cur.module ∧ !t.cur.handling ∧ !t.cur.stalledNow then t.hardStop else s
      | none => s)
  | none => .next s

/-- WAIT_YIELD. R107. -/
def execWaitYield (tile : BitVec 10) (s : State) : Host.Outcome State Fault Refusal :=
  match s.issuerOf tile.toNat with
  | some c => let t := s.focus c.uid; .next (if t.yieldDue then t.yieldTile else s)
  | none => .next s

/-- DEBUG_RESUME. R269: the context goes on at its next bundle, at once when no other issues on its tile. -/
def execDebugResume (tile : BitVec 10) (slot : BitVec 2) (s : State) : Host.Outcome State Fault Refusal :=
  match s.ctxAt tile.toNat slot.toNat with
  | none => .next s
  | some c =>
    if c.run ≠ .halted then .next s
    else match s.issuerOf tile.toNat with
      | some _ => .next (s.mapCtx c.uid (fun d => { d with run := .ready }))
      | none => .next (s.mapCtx c.uid (fun d => d.restart s.cycle))

/-! ## Waits (R107, R133, R273 to R276) -/

/-- The first POP.W of the next bundle whose queue has no entry to pop. -/
def State.emptyPop (s : State) : Option (Instr × Trap) :=
  match s.fetch s.cur.pc with
  | .error _ => none
  | .ok ws => (ws.zipIdx).findSome? (fun x => match decodeLoose x.1 with
      | some (.popW h d rq kind) =>
        if (s.cur.poppable rq).isNone then
          some (.popW h d rq kind, { cause := .queueEmpty, info := BitVec.ofNat 64 rq.toNat, addr := false, pos := x.2, cls := 6 })
        else none
      | _ => none)

/-- POP_W_TIMEOUT. R133: 2^20 cycles of TCLK after its earliest issue cycle a stalled POP.W raises QUEUE_EMPTY before its bundle. -/
def execPopWTimeout (tile : BitVec 10) (slot : BitVec 2) (s : State) : Host.Outcome State Fault Refusal :=
  match s.atIssuer tile.toNat slot.toNat with
  | none => .next s
  | some t =>
    if !t.cur.stalledNow then .next s
    else
      let u := t.advance (max t.cur.clk (t.cur.since + 2 ^ 20))
      match u.emptyPop with
      | some x => .next ({ u.takeTrap 0 x.2 with issue := Issue.none }.chargeSince t.cur)
      | none => .next s

/-- Whether the word of a wait of the next bundle, in the own cluster or the weight buffer, satisfies its test (R276). -/
def State.ownWaitHolds (s : State) : Bool :=
  (s.bundleAt s.cur).any (fun i =>
    let test (da : DNum) (off : BitVec 24) (rs : SRegNo) (ge : Bool) : Bool :=
      let l := (s.placeAt da off 4 .wait ⟨0, 0, 4⟩).1
      l.fixed && waitTest ge (BitVec.ofNat 32 (s.siteRead [] l.site l.off 4)) (s.cur.s rs)
    match i with
    | .waitge _ da off _ rs => test da off rs true
    | .waiteq _ da off _ rs => test da off rs false
    | _ => false)

/-- A watch at its slice is tested once more. -/
def State.testWatch (s : State) (r : Request) : State :=
  if r.stage ≠ .moving ∨ !s.mayServe r then s
  else match r.addr.toNat / 2 ^ 60 with
    | 0 => s.serveGlobal r
    | 2 => if r.readyAt ≤ s.cycle then s.serveMesh r else s
    | _ => s

/-- The condition of a wait in the own cluster holds: the bundle may proceed, or the context that left its tile is ready (R107, R276). -/
def Ctx.conditionMet (c : Ctx) : Ctx :=
  if c.run = .waiting then { c with run := .ready }
  else match c.wait with
    | some w => if w.since + 4 ≤ c.clk then { c with wait := some { w with met := some c.clk } } else c
    | none => c

/-- The wait of the next bundle of a context is one in the release of a SPAWN or a BAR, and it is over; or a SPAWN has what it has asked a
peer for (R272, R273). -/
def State.releaseOver (s : State) : Bool :=
  (s.bundleAt s.cur).any (fun i => match i with
    | .spawn _ _ da => s.owing.all (fun b => !moduleSlices.contains b) && !s.spawnAway (s.resolve (s.cur.d da) 0 64 64 .load false).1
    | .bar _ g => s.cur.arrivedAt.isNone && s.owing.all (fun b => !(s.fenceBits ((s.groupScope g.toNat).getD 4)).contains b)
    | _ => false)

/-- What the next bundle of a context that has left its tile still has to send: the watch of a wait on a word outside the cluster (R107),
or a SPAWN's question to a peer. -/
def State.sendWaits (s : State) : State :=
  (s.bundleAt s.cur).foldl (fun t i =>
    let watch (da : DNum) (off : BitVec 24) (rs : SRegNo) (ge : Bool) : State :=
      let l := (t.placeAt da off 4 .wait ⟨0, 0, 4⟩).1
      if l.fixed ∨ t.acquiring then t
      else
        let u := t.sendTo l (.wait ge (t.cur.s rs)) .discard none false true
        u.withCur { u.cur with wait := u.cur.keepWatch (some t.nextReq) }
    match i with
    | .waitge _ da off _ rs => watch da off rs true
    | .waiteq _ da off _ rs => watch da off rs false
    | .spawn _ _ da => if t.owing.all (fun b => !moduleSlices.contains b) then t.askSpawn (t.resolve (t.cur.d da) 0 64 64 .load false).1 else t
    | _ => t) s

/-- WAIT_CONDITION_MET. R107, R276: the test of a waiting bundle holds at the start of a bank cycle of its word's slice, or what a context
that has left its tile waits for is there. -/
def execWaitConditionMet (tile : BitVec 10) (slot : BitVec 2) (s : State) : Host.Outcome State Fault Refusal :=
  match s.ctxAt tile.toNat slot.toNat with
  | none => .next s
  | some c => match c.wait.bind (·.watch) with
    | some id => match s.requests.find? (fun r => r.id == id) with
      | some r => .next (s.testWatch r)
      | none => .next s
    | none =>
      .next (if (c.run = .waiting ∨ (c.run = .issuing ∧ c.stalledNow)) ∧ (s.lookAt c.uid).ownWaitHolds then s.mapCtx c.uid Ctx.conditionMet
        else if c.run = .waiting then
          (if (s.lookAt c.uid).releaseOver then s.mapCtx c.uid Ctx.conditionMet else ((s.lookAt c.uid).sendWaits).lookAt s.cur.uid)
        else s)

/-- BAR_LEAVE. R107, R273, R274: B(X) cycles after the generation is complete the member leaves; one that left its tile is ready as
soon as it is complete. -/
def execBarLeave (tile : BitVec 10) (slot : BitVec 2) (s : State) : Host.Outcome State Fault Refusal :=
  match s.ctxAt tile.toNat slot.toNat with
  | none => .next s
  | some c => match s.barGroup c, c.arrivedAt with
    | some g, some n => match s.genDone c g n with
      | none => .next s
      | some m =>
        if c.run = .waiting then .next (s.mapCtx c.uid (fun d => { d with run := .ready }))
        else
          let b := m + barrierDelay (((s.withCur c).groupScope g).getD 4)
          .next (if c.run = .issuing ∧ b ≤ c.module then
              s.mapCtx c.uid (fun d => { d with wait := d.wait.map (fun w => { w with leaving := true }) })
            else s)
    | _, _ => .next s

/-! ## Requests on their way (R159, R162, R369) -/

/-- The space of a request. -/
def Request.space (r : Request) : Nat := r.addr.toNat / 2 ^ 60

/-- MEMSIDE_ACCESS. R162 to R171: the owning die serves a space-0 access. -/
def execMemsideAccess (id : Nat) (s : State) : Host.Outcome State Fault Refusal :=
  match s.requestOf id with
  | none => .next s
  | some r =>
    let die := r.addr.toNat / 2 ^ 57 % 8
    let off := r.addr.toNat % 2 ^ 57
    if r.space = 0 ∧ (r.stage = .queued ∨ (r.ask.isWait ∧ r.stage = .moving)) ∧ s.mayServe r ∧
        !(!r.ask.writes.isEmpty && r.ask.runs.any (fun x => s.settling r.part die x.1 || s.settling r.part die (x.1 + x.2 - 1))) &&
        !s.merging (mergeAgent r.id) r.part die r.ask.runs then
      let t := ((s.reach r.readyAt).keepAsk r.part die off r.ask).keepTile r.source r.part die off
      .next (t.serveGlobal r)
    else .next s

/-- The clusters between which a request crosses the mesh next, and its next stage (R159). -/
def Request.hop (r : Request) : Option (Nat × Nat × Stage) :=
  let a := clusterOf r.source
  let b := clusterOf r.tile
  match r.stage with
  | .queued => some (a, b, .moving)
  | .served => some (b, a, .replying)
  | _ => none

/-- A packet outside its partition's slots is discarded, and counted in the partition's event records (R84). -/
def State.meshDiscard (s : State) (id part : Nat) : State :=
  let p := s.partN part
  let t := s.replace id []
  if (s.coreN p.home).kept.isEmpty then
    (t.postHome p 8 0 0 (p.discards + 1) 0).mapPart part (fun q => { q with discards := 0 })
  else t.mapPart part (fun q => { q with discards := q.discards + 1 })

/-- MESH_SLOT. R159, R369: the request or reply leaves in its pair's next slot and crosses its route; inside one cluster it needs no
slot (log entry 14). -/
def execMeshSlot (id : Nat) (s : State) : Host.Outcome State Fault Refusal :=
  match s.requestOf id with
  | none => .next s
  | some r =>
    if r.space = 2 ∨ r.space = 4 then
      match r.hop with
      | none => .next s
      | some (a, b, stage) =>
        match (if a = b then some r.readyAt else nextSlot r.readyAt ((s.partN r.part).slotsOf a b)) with
        | none => .next (s.meshDiscard id r.part)
        | some m =>
          if a = b ∨ (s.partN r.part).forwards a b (m % 256) then
            .next ((s.reach m).replace id [{ r with stage := stage, readyAt := m + routeCycles a b }])
          else .next (s.meshDiscard id r.part)
    else .next s

/-- REMOTE_ACCESS_ARRIVAL. R155, R157, R159, R160. -/
def execRemoteAccessArrival (id : Nat) (s : State) : Host.Outcome State Fault Refusal :=
  match s.requestOf id with
  | none => .next s
  | some r =>
    .next (if (r.space = 2 ∨ r.space = 4) ∧ r.stage = .moving ∧ s.mayServe r then (s.reach r.readyAt).serveMesh r else s)

/-! ## Replies and acknowledgements -/

/-- The answer of a request has reached its tile. -/
def Request.home? (r : Request) : Bool :=
  match r.space with
  | 2 | 4 => r.stage == .replying
  | _ => r.stage == .served

/-- What the reply of an engine's access does: bytes for a command that awaits them, or a part that is done, with its denial (R171, R339). -/
def Ctx.engineReply (c : Ctx) (r : Request) (eq num : Nat) : Ctx :=
  match r.sink, r.ask with
  | .discard, .load ps =>
    let n := r.name.toNat
    let bytes := (ps.map (fun p => if r.data.any (fun d => d.1 == p.lane) then bytesOfNat p.size (dataAt r.data p.lane) else [])).flatten
    (c.mapCommand num (fun k => { k with got := k.got ++ bytes.zipIdx.map (fun x => (n + x.2, x.1)) })).partDone num
  | .queue k req signed bits _, .load _ => (c.queueReply r k req signed bits).partDone num
  | _, _ => (if r.denied then (c.fail true r.name 0 (BitVec.ofNat 2 eq) 0).mapCommand num (fun k => { k with flag := none }) else c).partDone num

/-- The bytes that a load of one run brings. -/
def spanLen (a : Ask) : Nat := (a.runs.map (·.2)).foldl (· + ·) 0

/-- An answer is taken at its tile, or by the die whose migration sent it. -/
def State.takeAnswer (s : State) (r : Request) : State :=
  let t := (s.reach r.readyAt).replace r.id []
  if r.uid = 0 then
    match r.sink with
    | .record => t.takeFar r
    | .code => t.hold r.part (r.name.toNat / 2 ^ 57 % 8) (r.name.toNat % 2 ^ 57) (bytesOfNat (spanLen r.ask) (dataAt r.data 0))
    | _ => t.takeCopy r
  else ((t.mapCtx r.uid (fun c => match r.engine with
    | some (eq, num) => c.engineReply r eq num
    | none => c.receive r)).wakePop r.uid).syncSave r.uid

/-- A request that a reply answers: a load, an atomic that returns a value, or a watch. -/
def Request.replies (r : Request) : Bool :=
  match r.ask, r.sink with
  | .load _, _ => true
  | .wait .., _ => true
  | _, .discard => false
  | _, _ => true

/-! ## Engine commands reach their start cycles (R134 to R136) -/

/-- ENGINE_COMMAND_START. R134, R135: TCLK passes the start cycle of the oldest waiting command before the next bundle issues, and the
command starts. -/
def execEngineCommandStart (tile : BitVec 10) (slot : BitVec 2) (s : State) : Host.Outcome State Fault Refusal :=
  match s.atIssuer tile.toNat slot.toNat with
  | none => .next s
  | some t =>
    if t.cur.handling then .next t.admitHandler
    else match firstTimed t.cur.waiting with
      | none => .next s
      | some k => .next (if k.start < max t.cur.clk t.cur.earliest then (t.advance (max t.cur.clk (k.start + 1))).chargeSince t.cur else s)

end Sys2Proof.Machine
end

