-- ==== Sys2Proof/Machine/Atomic.lean ====
section
/-!
DEFINITION. Atomics (07_memory_translation R158, 14_isa_matrix_memory_engines R332 to R335).
-/
namespace Sys2Proof.Machine
open Sys2Proof

/-! ## Shared operations -/

/-- The faults of an atomic on size bytes (R151, R325, R332): operands are the scalars that it reads besides its address;
local says that the operation cannot travel over the fabric. -/
def State.atomicTraps (s : State) (i : Instr) (da : DNum) (off : BitVec 24) (size : Nat) (poisoned travels : Bool) (rd : SRegNo)
    (q : Bool) : List Trap :=
  let l := (s.placeAt da off size .atomic ⟨0, 0, size⟩).1
  s.poisonIf i (s.cur.dp da || poisoned) ++
    (if s.cur.dp da then [] else s.reachTraps i da off size .atomic false [⟨0, 0, size⟩] ++
      trapIf (!q && rd != 0 && !l.fixed) (s.addrTrap i l.addr .access) ++
      trapIf (l.space == 5 && !travels) (s.addrTrap i l.addr .access)) ++
    (if q then s.queueTraps i (rd.setWidth 2) else [])

/-- Where the old value of an atomic goes at I + 10 (R325, R332). -/
def oldSink (rd : SRegNo) (size land : Nat) : Sink :=
  if rd = 0 then .discard else if size = 8 then .pair rd land else .scalar rd (8 * size) false land

/-- An atomic on one word (R332 to R334). -/
def State.atomicWord (s : State) (i : Instr) (da : DNum) (off : BitVec 24) (size : Nat) (op : AmoOp) (operand : DWord)
    (poisoned travels : Bool) (rd : SRegNo) (q : Bool) : Host.Outcome State Fault Refusal :=
  s.issueAccess i (s.atomicTraps i da off size poisoned travels rd q) (fun t =>
    let l := (t.placeAt da off size .atomic ⟨0, 0, size⟩).1
    t.atomicTo l [.word 0 l.off size op operand] (oldSink rd size (t.cur.clk + 10)) (queueOf q rd)
      (if size = 8 then 1 else 0))

/-- An atomic on a 32-bit word with a scalar operand (R332). -/
def State.amo32 (s : State) (i : Instr) (da : DNum) (off : BitVec 24) (op : AmoOp) (rd rs : SRegNo) (q travels : Bool) :
    Host.Outcome State Fault Refusal :=
  s.atomicWord i da off 4 op ((s.cur.s rs).setWidth 64) (s.cur.sp rs) travels rd q

/-- The pair of an even scalar. -/
def pairOf (r : SRegNo) : DNum := BitVec.ofNat 4 (r.toNat / 2)

/-! ## AMO (R332) -/

/-- AMO.ADD. R158, R332. -/
def execAmoAdd (h : Head) (da : DNum) (off : BitVec 24) (rd rs : SRegNo) (q : Bool) (s : State) :
    Host.Outcome State Fault Refusal := s.amo32 (.amoAdd h da off rd rs q) da off .add rd rs q true

/-- AMO.AND. R158, R332. -/
def execAmoAnd (h : Head) (da : DNum) (off : BitVec 24) (rd rs : SRegNo) (q : Bool) (s : State) :
    Host.Outcome State Fault Refusal := s.amo32 (.amoAnd h da off rd rs q) da off .and rd rs q true

/-- AMO.OR. R158, R332. -/
def execAmoOr (h : Head) (da : DNum) (off : BitVec 24) (rd rs : SRegNo) (q : Bool) (s : State) :
    Host.Outcome State Fault Refusal := s.amo32 (.amoOr h da off rd rs q) da off .or rd rs q true

/-- AMO.XOR. R158, R332. -/
def execAmoXor (h : Head) (da : DNum) (off : BitVec 24) (rd rs : SRegNo) (q : Bool) (s : State) :
    Host.Outcome State Fault Refusal := s.amo32 (.amoXor h da off rd rs q) da off .xor rd rs q true

/-- AMO.MIN. R158, R332. -/
def execAmoMin (h : Head) (da : DNum) (off : BitVec 24) (rd rs : SRegNo) (q : Bool) (s : State) :
    Host.Outcome State Fault Refusal := s.amo32 (.amoMin h da off rd rs q) da off .min rd rs q true

/-- AMO.MAX. R158, R332. -/
def execAmoMax (h : Head) (da : DNum) (off : BitVec 24) (rd rs : SRegNo) (q : Bool) (s : State) :
    Host.Outcome State Fault Refusal := s.amo32 (.amoMax h da off rd rs q) da off .max rd rs q true

/-- AMO.MAXU. R158, R332. -/
def execAmoMaxu (h : Head) (da : DNum) (off : BitVec 24) (rd rs : SRegNo) (q : Bool) (s : State) :
    Host.Outcome State Fault Refusal := s.amo32 (.amoMaxu h da off rd rs q) da off .maxu rd rs q true

/-- AMO.MINU. R158, R332. It cannot travel over the fabric. -/
def execAmoMinu (h : Head) (da : DNum) (off : BitVec 24) (rd rs : SRegNo) (q : Bool) (s : State) :
    Host.Outcome State Fault Refusal := s.amo32 (.amoMinu h da off rd rs q) da off .minu rd rs q false

/-- AMO.XCHG. R158, R332: W = 1 exchanges a double-word. -/
def execAmoXchg (h : Head) (da : DNum) (off : BitVec 24) (rd rs : SRegNo) (q wide : Bool) (s : State) :
    Host.Outcome State Fault Refusal :=
  let i := Instr.amoXchg h da off rd rs q wide
  if wide then s.atomicWord i da off 8 .xchg (s.cur.d (pairOf rs)) (s.cur.dp (pairOf rs)) true rd q
  else s.amo32 i da off .xchg rd rs q true

/-- AMO.QADD. R158, R332: the image of each active lane of the LGDEF groups, as it stands at issue. -/
def execAmoQadd (h : Head) (da : DNum) (off : BitVec 24) (q : QNum) (s : State) : Host.Outcome State Fault Refusal :=
  let i := Instr.amoQadd h da off q
  let m := s.activeLanes i h
  let rs := laneReach m 72 72
  s.issueAccess i (s.poisonIf i (m != 0 && s.cur.dp da) ++
      (if s.cur.dp da then [] else s.reachTraps i da off 8 .atomic false rs)) (fun t =>
    t.atomicTo (t.baseLoc da off .atomic)
      (rs.map (fun r => .quire r.lane ((t.placeAt da off 8 .atomic r).1.off) (t.cur.quire q r.lane).image)) .discard none 0)

/-! ## AMO.PADD and AMOCAS (R333, R334) -/

/-- AMO.PADD. R158, R333: a T32 word, or a T16 half-word. -/
def execAmoPadd (h : Head) (da : DNum) (off : BitVec 24) (rd rs : SRegNo) (fmt : Fmt) (q : Bool) (s : State) :
    Host.Outcome State Fault Refusal :=
  s.atomicWord (.amoPadd h da off rd rs fmt q) da off (fmtWidth fmt / 8) (.padd fmt) ((s.cur.s rs).setWidth 64) (s.cur.sp rs) true rd q

/-- AMOCAS. R158, R334. -/
def execAmocas (h : Head) (da : DNum) (off : BitVec 24) (rd rc rn : SRegNo) (q : Bool) (s : State) :
    Host.Outcome State Fault Refusal :=
  s.atomicWord (.amocas h da off rd rc rn q) da off 4 (.cas ((s.cur.s rc).setWidth 64)) ((s.cur.s rn).setWidth 64)
    (s.cur.sp rc || s.cur.sp rn) true rd q

/-- AMOCAS.d. R158, R334: double-words in pairs. -/
def execAmocasD (h : Head) (da : DNum) (off : BitVec 24) (rd rc rn : SRegNo) (q : Bool) (s : State) :
    Host.Outcome State Fault Refusal :=
  s.atomicWord (.amocasD h da off rd rc rn q) da off 8 (.cas (s.cur.d (pairOf rc))) (s.cur.d (pairOf rn))
    (s.cur.dp (pairOf rc) || s.cur.dp (pairOf rn)) true rd q

end Sys2Proof.Machine
end

