-- ==== Sys2Proof/Machine/ControlCore.lean ====
section
/-!
DEFINITION. The control cores (03_host_images_translation R77 to R80): DLAUNCH and DEVQ, the exceptions that they raise,
and the memory of a core. What RISC-V gives and this manual does not state is log entry 3.
-/
namespace Sys2Proof.Machine
open Sys2Proof

/-- The control core that moves. -/
def State.core (s : State) : Core := s.coreN s.hart

/-- A register of a core; x0 reads as zero. -/
def Core.x (c : Core) (r : BitVec 5) : DWord := if r = 0 then 0 else c.xregs[r.toNat]'r.isLt

/-- A write of a register of a core; x0 discards it. -/
def Core.setX (c : Core) (r : BitVec 5) (v : DWord) : Core := if r = 0 then c else { c with xregs := c.xregs.set r.toNat v r.isLt }

/-- The core after an instruction of n bytes: the count of instructions rises. -/
def Core.past (c : Core) (n : Nat) : Core := { c.setCsr 0xB02 (c.csr 0xB02 + 1) with pc := c.pc + BitVec.ofNat 64 n }

/-- The core after an instruction of 4 bytes. -/
def Core.step4 (c : Core) : Core := c.past 4

/-- The partition of a wing; a core of a wing that no partition holds runs for partition 0 (log entry 3). -/
def State.partOfWing (s : State) (w : Nat) : Nat :=
  ((List.range 8).find? (fun k => (s.partN k).wings.getLsbD w)).getD 0

/-- Where n bytes at a virtual address of the core lie; none when the access is denied. M-level addresses are not
translated (log entry 3). -/
def State.coreAddr (s : State) (a : DWord) (write : Bool) : Option Nat :=
  let die := a.toNat / 2 ^ 57 % 8
  let off := a.toNat % 2 ^ 57
  if s.core.dataPriv = 3 then some (tierAddr die 0 off)
  else if a.toNat / 2 ^ 60 ≠ 0 then none
  else match s.translate (s.partOfWing s.hart) die off with
    | some e => if e.allows write false ∧ e.tier ≠ 2 then some (e.phys die off) else none
    | none => none

/-- The die and the offset of a core's address. -/
def coreDie (a : DWord) : Nat := a.toNat / 2 ^ 57 % 8
def coreOff (a : DWord) : Nat := a.toNat % 2 ^ 57

/-- The page of an address of the core lives at a peer, and the access is allowed (R171). -/
def State.coreFar (s : State) (a : DWord) (write : Bool) : Bool :=
  s.core.dataPriv != 3 && a.toNat / 2 ^ 60 == 0 && (match s.translate (s.partOfWing s.hart) (coreDie a) (coreOff a) with
    | some e => e.allows write false && e.tier == 2
    | none => false)

/-- n bytes at an address of the core. -/
def State.coreRead (s : State) (a : DWord) (n : Nat) : Reading :=
  match s.coreAddr a false with
  | some p => .got (Memory.readNat s.mem p n)
  | none => if s.coreFar a false then (s.partN (s.partOfWing s.hart)).farAnswer (farKey s.hart (coreDie a) (coreOff a) false) else .denied

/-- The translation of an access of the core is kept (R162); those of M level have none. -/
def State.coreKeep (s : State) (a : DWord) (n : Nat) : State :=
  if s.core.dataPriv = 3 then s else s.keepRun (s.partOfWing s.hart) (coreDie a) (coreOff a) n

/-- What is left of a write of the core joins the hold queue of a page that migrates (R169). -/
def State.coreHold (s : State) (a : DWord) (bytes : List Byte) : State :=
  if s.core.dataPriv = 3 then s else s.hold (s.partOfWing s.hart) (coreDie a) (coreOff a) bytes

/-- The core awaits an access at a peer, at the same instruction. -/
def State.coreGoes (s : State) (a : DWord) (write : Bool) (ask : Nat → Ask) : State :=
  s.goFar s.hart (s.partOfWing s.hart) (coreDie a) (coreOff a) write ask

/-- What the accesses of an instruction of the core have brought has been used. -/
def State.coreUsed (s : State) : State := s.useFar s.hart (s.partOfWing s.hart)

/-- The core that moves raises an exception. -/
def State.coreExcept (s : State) (cause : Nat) (tval : DWord) : State := s.mapCore s.hart (fun c => c.except cause tval)

/-- A write of n bytes of the core at a place in the module: it ends the reservations on them. -/
def State.coreWrite (s : State) (a : DWord) (p n x : Nat) : State :=
  ((({ s with mem := Memory.writeNat s.mem p n x }).unreserve ((List.range n).map (p + ·))).coreHold a (bytesOfNat n x)).coreKeep a n

/-- DLAUNCH. R77, R78, R97. -/
def execDlaunch (rd rs1 : BitVec 5) (s : State) : Host.Outcome State Fault Refusal :=
  let c := s.core
  let a := c.x rs1
  if c.priv = 0 then .next (s.coreExcept 2 ((encodeRv (.dlaunch rd rs1)).setWidth 64))
  else if a.toNat % 64 ≠ 0 then .next (s.coreExcept 4 a)
  else match s.coreRead a 64 with
    | .denied => .next (s.coreUsed.coreExcept (c.pageFault 13 21) a)
    | .away => .next (s.coreGoes a false (fun o => .load [⟨0, o, 64⟩]))
    | .got x =>
      let rec_ : BitVec 512 := BitVec.ofNat 512 x
      if !(s.descsAway s.hart (s.partOfWing s.hart) rec_).isEmpty then .next (s.askDescs s.hart (s.partOfWing s.hart) rec_)
      else
      let r := (s.coreKeep a 64).submit (s.partOfWing s.hart) s.hart none rec_
      let v : DWord := BitVec.ofNat 64 (r.2.status * 2 ^ 48 + r.2.field * 2 ^ 32 + r.2.handle)
      .next (r.1.mapCore s.hart (fun x => (x.setX rd v).step4))

/-- The number that DEVQ answers after a pop that leaves n records (R79). -/
def devqWord (n : Nat) : DWord := BitVec.ofNat 64 (min n 0xFFFF * 2 ^ 16 + 1)

/-- DEVQ. R77, R79. -/
def execDevq (rd rs1 : BitVec 5) (s : State) : Host.Outcome State Fault Refusal :=
  let c := s.core
  let a := c.x rs1
  if c.priv = 0 then .next (s.coreExcept 2 ((encodeRv (.devq rd rs1)).setWidth 64))
  else if a.toNat % 16 ≠ 0 then .next (s.coreExcept 6 a)
  else match c.queue with
    | [] => .next (s.mapCore s.hart (fun x => (x.setX rd 0).step4))
    | r :: l =>
      let done (t : State) : State := t.mapCore s.hart (fun x => ({ x with queue := l }.setX rd (devqWord l.length)).step4)
      match s.coreAddr a true with
      | some p => .next (done (s.coreWrite a p 16 r.toNat))
      | none =>
        let bad := s.coreUsed.coreExcept (c.pageFault 15 23) a
        if s.coreFar a true then
          match (s.partN (s.partOfWing s.hart)).farAnswer (farKey s.hart (coreDie a) (coreOff a) true) with
          | .got _ => .next (done (s.coreHold a (bytesOfNat 16 r.toNat)).coreUsed)
          | .away => .next (s.coreGoes a true (fun o => .store [⟨o, 16, r.toNat⟩]))
          | .denied => .next bad
        else .next bad

end Sys2Proof.Machine
end

