-- ==== Sys2Proof/Machine/Flits.lean ====
section
/-!
DEFINITION. Flits and what a port sends (02_optical_fabric R30 to R41, R46): headers, checks, request payloads, the queues of a port, and
the flits of a window.
-/
namespace Sys2Proof.Machine
open Sys2Proof

/-! ## Flits (R37, R38) -/

/-- The CRC register after one byte (R38): CRC-32C, reflected. -/
def crcByte (c : Word) (b : Byte) : Word :=
  (List.range 8).foldl (fun x _ => if x.getLsbD 0 then (x >>> 1) ^^^ 0x82F63B78 else x >>> 1) (c ^^^ b.setWidth 32)

/-- CRC-32C of bytes from a seed (R38). -/
def crc32c (seed : Word) (bytes : List Byte) : Word := (bytes.foldl crcByte seed) ^^^ 0xFFFF_FFFF

/-- The seeds of control and lossy flits (R38). -/
def controlSeed : Word := 0xFFFF_FFFE
def lossySeed : Word := 0xFFFF_FFFF

/-- The seed of a sequenced flit. -/
def seqSeed (s : Nat) : Word := BitVec.ofNat 32 (s % 2 ^ 31)

/-- Flit types (R37). -/
def tyIdle : Nat := 0
def tyRequest : Nat := 1
def tyData : Nat := 2
def tyLossy : Nat := 3
def tyControl : Nat := 5
def tyKernel : Nat := 6

/-- A header (R37). -/
def flitHead (type src dst : Nat) (hop1 : Bool) (xfer block : Nat) : DWord :=
  BitVec.ofNat 64 (type % 16 * 2 ^ 60 + src % 256 * 2 ^ 52 + dst % 256 * 2 ^ 44 + (if hop1 then 2 ^ 43 else 0) +
    xfer % 4096 * 2 ^ 28 + block % 2 ^ 20 * 2 ^ 8)

/-- The other fields of a header. -/
def headHop1 (h : DWord) : Bool := h.getLsbD 43
def headXfer (h : DWord) : Nat := h.toNat / 2 ^ 28 % 4096
def headBlock (h : DWord) : Nat := h.toNat / 2 ^ 8 % 2 ^ 20

/-- No reserved field of a header is set. -/
def headClean (h : DWord) : Bool := h.toNat / 2 ^ 40 % 8 == 0 && h.toNat % 2 ^ 8 == 0

/-- The CRC of a header and payload under a seed. -/
def flitCrc (head : DWord) (payload : BitVec 512) (seed : Word) : Word :=
  crc32c seed (bytesOfNat 72 (payload ++ head).toNat)

/-- A flit of 76 bytes (R37). -/
def flitOf (head : DWord) (payload : BitVec 512) (seed : Word) : BitVec 608 := flitCrc head payload seed ++ payload ++ head

/-- The header, the payload and the CRC of a flit. -/
def flitHeader (f : BitVec 608) : DWord := f.extractLsb' 0 64
def flitPayload (f : BitVec 608) : BitVec 512 := f.extractLsb' 64 512
def flitSum (f : BitVec 608) : Word := f.extractLsb' 576 32

/-- The flit checks under a seed. -/
def flitChecks (f : BitVec 608) (seed : Word) : Bool := flitSum f == flitCrc (flitHeader f) (flitPayload f) seed

/-! ## Request payloads (R41) -/

/-- The FLAG of a store write, which names none (R371). -/
def noFlag : Nat := 2 ^ 64 - 1

/-- A request (R41). -/
structure Req where
  target  : Nat
  flag    : Nat
  mask    : Nat
  length  : Nat
  op      : Nat
  aop     : Nat
  tag     : Nat
  close   : Nat
  opa     : Nat
  opb     : Nat
  srctile : Nat
  qseq    : Nat
  mbit    : Nat
  deriving DecidableEq, Repr

/-- The payload of a request. -/
def Req.pack (r : Req) : BitVec 512 :=
  BitVec.ofNat 512 (r.target % 2 ^ 64 + r.flag % 2 ^ 64 * 2 ^ 64 + r.mask % 2 ^ 64 * 2 ^ 128 + r.length % 2 ^ 32 * 2 ^ 192 +
    r.op % 2 ^ 8 * 2 ^ 224 + r.aop % 2 ^ 8 * 2 ^ 232 + r.tag % 2 ^ 16 * 2 ^ 240 + r.close % 2 ^ 64 * 2 ^ 256 + r.opa % 2 ^ 64 * 2 ^ 320 +
    r.opb % 2 ^ 64 * 2 ^ 384 + r.srctile % 2 ^ 16 * 2 ^ 448 + r.qseq % 2 ^ 8 * 2 ^ 464 + r.mbit % 2 ^ 8 * 2 ^ 472)

/-- The request of a payload. -/
def Req.of (p : BitVec 512) : Req :=
  { target := recField p 0 8, flag := recField p 8 8, mask := recField p 16 8, length := recField p 24 4, op := recField p 28 1,
    aop := recField p 29 1, tag := recField p 30 2, close := recField p 32 8, opa := recField p 40 8, opb := recField p 48 8,
    srctile := recField p 56 2, qseq := recField p 58 1, mbit := recField p 59 1 }

/-- A request with every field zero. -/
def Req.zero : Req :=
  { target := 0, flag := 0, mask := 0, length := 0, op := 0, aop := 0, tag := 0, close := 0, opa := 0, opb := 0, srctile := 0, qseq := 0,
    mbit := 0 }

/-- The operations of a request (R41). -/
def opWrite : Nat := 1
def opLossy : Nat := 2
def opLoad : Nat := 3
def opAtomic : Nat := 4
def opWatch : Nat := 5

/-- AOP of an operation (R47, R158); unsigned min has no fabric code and keeps its own. -/
def AmoOp.code : AmoOp → Nat
  | .add => 1
  | .and => 2
  | .or => 3
  | .xor => 4
  | .min => 5
  | .max => 6
  | .maxu => 7
  | .xchg => 8
  | .cas _ => 9
  | .padd _ => 10
  | .minu => 12

/-! ## Ports, pairs and routes (R27, R31, R33, R36, R55) -/

/-- The partition that owns a port. -/
def State.portPart (s : State) (n : Nat) : Option Partition := s.parts.toList.find? (fun p => p.port == n && p.state != 0)

/-- A port. -/
def State.portN (s : State) (n : Nat) : Port := if h : n < 8 then s.ports[n] else s.ports[0]

/-- The pair of a peer. -/
def Port.pair (p : Port) (peer : Nat) : Pair := (p.pairs.find? (fun x => x.peer == peer)).getD (Pair.fresh peer)

/-- The pair of a peer replaced. -/
def Port.setPair (p : Port) (x : Pair) : Port :=
  { p with pairs := if p.pairs.any (fun y => y.peer == x.peer) then p.pairs.map (fun y => if y.peer = x.peer then x else y)
                    else p.pairs ++ [x] }

/-- A pair changed. -/
def Port.mapPair (p : Port) (peer : Nat) (f : Pair → Pair) : Port := p.setPair (f (p.pair peer))

/-- The meeting of two modules is up (R55). -/
def Port.meets (p : Port) (x y : Nat) : Bool := !p.down.contains (min x y * 256 + (x ^^^ y))

/-- A module number with a module behind it (R29). -/
def State.isPresent (s : State) (m : Nat) : Bool := decide (m < 256) && s.present.getLsbD m

/-- Whether the meetings of a route from own to b through channel k in a phase are up (R33). -/
def State.routeUp (s : State) (p : Port) (own b k phase : Nat) : Bool :=
  let c := own ^^^ (4 * k + phase)
  if c = own ∨ c = b ∨ !s.isPresent c then p.meets own b else p.meets own c && p.meets c b

/-- The channel of a block in a window of a phase (R33): its own, or the next one whose two meetings are up. -/
def State.channelOf (s : State) (p : Port) (own b base phase : Nat) : Nat :=
  if p.down.isEmpty then base
  else (((List.range 64).map (fun i => (base + i) % 64)).find? (fun k => s.routeUp p own b k phase)).getD base

/-- The first window at or after w of a phase. -/
def windowOf (w phase : Nat) : Nat := w + (phase + 4 - w % 4) % 4

/-! ## The queues of a port -/

/-- A flit that travels as block j of a transfer from this port to b, from a window on (R33); a lossy one has that window alone. -/
def waitingFor (own b xfer block type window : Nat) (payload : BitVec 512) (owner : Option Nat) : Waiting :=
  { chan := (block + xfer) % 64, phase := none, dst := b, lossy := type == tyLossy, first := window,
    last := if type = tyLossy then some window else none, head := flitHead type own b false xfer block, payload := payload,
    relayOf := none, owner := owner }

/-- A waiting flit that goes direct, at the meeting of the two modules (R33, R346). -/
def Waiting.direct (x : Waiting) (own : Nat) : Waiting :=
  let m := own ^^^ x.dst
  let w := windowOf x.first (m % 4)
  { x with chan := m / 4, phase := some (m % 4), first := w, last := x.last.map (fun _ => w) }

/-- Flits join a port's queue, in order. -/
def Port.queue (p : Port) (xs : List Waiting) : Port := { p with waiting := p.waiting ++ xs }

/-- The flits of a transfer or request from its beginning: the request, then its blocks (R33, R41). -/
def Outgoing.flits (o : Outgoing) (own window : Nat) : List Waiting :=
  let req := waitingFor own o.dst o.xfer 0 tyRequest window o.payload none
  let ty := if o.lossy then tyLossy else tyData
  let xs := o.blocks.zipIdx.map (fun b => waitingFor own o.dst o.xfer b.2 ty window b.1 (some o.xfer))
  if o.direct then (req :: xs).map (fun x => x.direct own) else req :: xs

/-- A reply flit (R33, R47): block 0 of the request's identifier, from this port back to the source. -/
def replyFlit (own dst xfer window : Nat) (payload : BitVec 512) : Waiting :=
  waitingFor own dst xfer 0 tyReply window payload none

/-- A status byte (R47). -/
def stDone : Byte := 0
def stReplayed : Byte := 1
def stDenied : Byte := 2

/-- A request of the port answered: data read, status and watch number. A reply to a write is kept for R46, in place of any older one of
its identifier. -/
def Port.reply (p : Port) (own window src xfer : Nat) (data : BitVec 512) (status : Byte) (number : Nat) (keep : Bool) : Port :=
  let payload := Config.replyPayload data status (BitVec.ofNat 16 number)
  { p.queue [replyFlit own src xfer (window + 1) payload] with
    replied := p.replied.filter (fun r => r.1 != src || r.2.1 != xfer) ++ (if keep then [(src, xfer, payload)] else []) }

/-! ## A window (R30 to R36, R40) -/

/-- Flits of a window per channel and direction (R32). -/
def windowFlits : Nat := 226

/-- What a meeting of a window carries so far: the room left, the pair, and the flits, the latest first. -/
structure Link where
  room : Nat
  pair : Pair
  out  : List (BitVec 608)
  deriving DecidableEq, Repr

/-- A sequenced flit is sent and kept (R38, R40). -/
def Link.seq (l : Link) (head : DWord) (payload : BitVec 512) : Link :=
  let f := flitOf head payload (seqSeed l.pair.sendS)
  { room := l.room - 1, out := f :: l.out,
    pair := { l.pair with sendS := (l.pair.sendS + 1) % 2 ^ 31, kept := l.pair.kept ++ [(l.pair.sendS, f)] } }

/-- A lossy flit is sent. -/
def Link.lossy (l : Link) (head : DWord) (payload : BitVec 512) : Link :=
  { l with room := l.room - 1, out := flitOf head payload lossySeed :: l.out }

/-- A control flit to a peer (R38). -/
def controlFlit (own peer : Nat) (x : Nat × Nat) : BitVec 608 :=
  flitOf (flitHead tyControl own peer false 0 0) (Config.controlPayload x.1 x.2) controlSeed

/-- Control flits go first (R32). -/
def Link.controls (own : Nat) : List (Nat × Nat) → Link → Link
  | [], l => { l with pair := { l.pair with control := [] } }
  | x :: r, l =>
    if l.room = 0 then { l with pair := { l.pair with control := x :: r } }
    else Link.controls own r { l with
      room := l.room - 1
      out := controlFlit own l.pair.peer x :: l.out }

/-- Kept flits are sent again while there is room (R40). What a NAK asks for has then been met: the next meeting begins again at the oldest
flit that no acknowledgement has freed by then. -/
def Link.resends (xs : List (Nat × BitVec 608)) (l : Link) : Link :=
  let now := xs.take l.room
  { room := l.room - now.length, pair := { l.pair with resend := none }, out := (now.map (·.2)).reverse ++ l.out }

/-- The kept flits that are due again at a meeting: from the number of a NAK, or all that no acknowledgement has freed since they were sent
(R40). -/
def Pair.due (p : Pair) : List (Nat × BitVec 608) :=
  match p.resend with
  | some s => p.kept.dropWhile (fun x => x.1 != s)
  | none => p.kept

/-- A waiting flit can leave on a link: there is room, a place among 512 kept flits, and credit at a relay (R34, R36, R40). -/
def Link.takes (l : Link) (x : Waiting) (hop1 : Bool) : Bool :=
  decide (0 < l.room) && (x.lossy || (decide (l.pair.kept.length < 512) && (!hop1 || decide (0 < l.pair.credit))))

/-- A waiting flit leaves. -/
def Link.send (l : Link) (x : Waiting) (hop1 : Bool) : Link :=
  let h := if hop1 then x.head ||| BitVec.ofNat 64 (2 ^ 43) else x.head
  if x.lossy then l.lossy h x.payload
  else
    let n := l.seq h x.payload
    if hop1 then { n with pair := { n.pair with credit := n.pair.credit - 1 } } else n

/-- The flits of a queue that belong to a link leave while they can, in order: those that stay, the link, and those that have left. -/
def Link.drain (mine : Waiting → Bool) : List Waiting → Link → List Waiting × Link × List Waiting
  | [], l => ([], l, [])
  | x :: r, l =>
    let hop1 := x.dst != l.pair.peer
    if mine x && l.takes x hop1 then
      let y := Link.drain mine r (l.send x hop1)
      (y.1, y.2.1, x :: y.2.2)
    else
      let y := Link.drain mine r l
      (x :: y.1, y.2)

/-- Credits go back to the sources of relayed flits that have left (R36). -/
def Port.returnCredits (p : Port) (gone : List Waiting) : Port :=
  gone.foldl (fun q x => match x.relayOf with
    | some src => if x.lossy then q else q.mapPair src (fun y => { y with control := y.control ++ [(ctlCredit, 1)] })
    | none => q) p

/-- Blocks of transfers have left the port (R43). -/
def Port.blocksLeft (p : Port) (gone : List Waiting) : Port :=
  { p with outgoing := p.outgoing.map (fun o =>
      { o with left := o.left - (gone.filter (fun x => x.owner == some o.xfer)).length }) }

/-- Request flits have left the port in window w (R49). -/
def Port.requestsLeft (p : Port) (w : Nat) (gone : List Waiting) : Port :=
  { p with outgoing := p.outgoing.map (fun o =>
      if gone.any (fun x => headType x.head == tyRequest && headXfer x.head == o.xfer) then { o with sentAt := some w } else o) }

/-- The number by which a control flit names a flit that a reset has discarded: SRC, XFER, BLOCK and TYPE (R46). -/
def discardNumber (h : DWord) : Nat := headXfer h + headBlock h * 2 ^ 12 + headType h * 2 ^ 32 + headSrc h * 2 ^ 36

/-- The flits that leave on a link, in order, each with what it was, or those that stay. -/
def Link.drainOwn (mine : Waiting → Bool) (xs : List Waiting) (l : Link) : List Waiting × Link × List (Waiting × BitVec 608) :=
  let d := Link.drain mine xs { l with out := [] }
  (d.1, d.2.1, d.2.2.zip d.2.1.out.reverse)

/-- What the port carries on its meetings. -/
def Port.sent (p : Port) (m : Nat) : Option Sent := p.wire.find? (fun y => y.meet == m)

/-- The flits of a meeting but for the idle ones. -/
def Sent.count (y : Sent) : Nat := y.first.length + y.own.length

/-- The flits that a meeting of the window in progress carries, in order (R32, R38, R40): idle flits fill what is free, and the last free
one is the acknowledgement that ends the window. -/
def Port.onWire (p : Port) (own m : Nat) : List (BitVec 608) :=
  let b := own ^^^ m
  let pr := p.pair b
  match p.sent m with
  | none => []
  | some y =>
    let l := y.first.reverse ++ y.own.map (·.2)
    if windowFlits ≤ y.count then l
    else l ++ List.replicate (windowFlits - y.count - 1) (flitOf (flitHead tyIdle own b false 0 0) 0 (seqSeed pr.sendS)) ++
      [controlFlit own b (ctlAck, pr.expectS)]

/-- A control flit goes in the next slot of the meeting in progress, or at the next meeting of the pair (R40). -/
def Port.tell (p : Port) (own peer : Nat) (x : Nat × Nat) : Port :=
  let m := own ^^^ peer
  match p.sent m with
  | some y =>
    if y.count < windowFlits then
      { p with wire := p.wire.map (fun z => if z.meet = m then { z with first := controlFlit own peer x :: z.first } else z) }
    else p.mapPair peer (fun q => { q with control := q.control ++ [x] })
  | none => p.mapPair peer (fun q => { q with control := q.control ++ [x] })

/-- What a port sends on channel k in window w (R32). -/
def State.sendMeeting (s : State) (own w : Nat) (p : Port) (k : Nat) : Port :=
  let phase := w % 4
  let b := own ^^^ (4 * k + phase)
  if b = own ∨ !s.isPresent b then p
  else
    let up := p.meets own b
    let told := p.discarded.filter (fun h => h.1 == b)
    let pr := p.pair b
    let l0 : Link := { room := windowFlits, pair := pr, out := [] }
    let l1 := Link.controls own (pr.control ++ told.map (fun h => (ctlDiscard, discardNumber h.2))) l0
    let l2 := Link.resends l1.pair.due l1
    let relay (x : Waiting) : Bool := up && x.chan == k && x.phase == some phase && decide (x.first ≤ w)
    let mine (x : Waiting) : Bool := up && decide (x.first ≤ w) && (match x.phase with
      | some f => f == phase && x.chan == k
      | none => s.channelOf p own x.dst x.chan phase == k)
    let d1 := Link.drain relay p.relays l2
    let d2 := Link.drainOwn mine p.waiting d1.2.1
    let q : Port := { p with
      relays := d1.1, waiting := d2.1, discarded := p.discarded.filter (fun h => h.1 != b),
      wire := p.wire ++ [{ meet := 4 * k + phase, first := d1.2.1.out, own := d2.2.2 }] }
    (((q.setPair d2.2.1.pair).returnCredits d1.2.2).blocksLeft (d2.2.2.map (·.1))).requestsLeft w (d2.2.2.map (·.1))

/-- Blocks whose intermediate would be this module or an absent one stay and go direct (R33). -/
def State.turnDirect (s : State) (own w : Nat) (p : Port) : Port :=
  { p with waiting := p.waiting.map (fun x =>
      match x.phase with
      | some _ => x
      | none =>
        let c := own ^^^ (4 * s.channelOf p own x.dst x.chan (w % 4) + w % 4)
        if c = own ∨ !s.isPresent c then x.direct own else x) }

/-- Lossy flits whose one window has passed are dropped (R34, R46). -/
def Port.dropLate (p : Port) (w : Nat) : Port :=
  let late (x : Waiting) : Bool := match x.last with | some l => decide (l < w) | none => false
  ({ p with waiting := p.waiting.filter (fun x => !late x), relays := p.relays.filter (fun x => !late x) }).blocksLeft (p.waiting.filter late)

/-- A meeting of a pair has ended (R40, R55): the acknowledgement that ends each window goes at the next meeting when the window had no room
for it, and a meeting without a flit that checked is counted. -/
def Pair.endWindow (full : Bool) (p : Pair) : Pair :=
  { p with accepted := 0, heard := false, silent := if p.heard then 0 else p.silent + 1,
           control := if full then p.control.filter (fun x => x.1 != ctlAck) ++ [(ctlAck, p.expectS)] else p.control }

/-- The meetings of the window before window w have ended. -/
def Port.endWindow (p : Port) (own w : Nat) : Port :=
  { p with wire := []
           pairs := p.pairs.map (fun x => match p.sent (own ^^^ x.peer) with
             | some y => if (own ^^^ x.peer) % 4 = (w + 3) % 4 then Pair.endWindow (decide (windowFlits ≤ y.count)) x else x
             | none => x) }

/-- What a port sends in window w. -/
def State.sendWindow (s : State) (own w : Nat) (p : Port) : Port :=
  let q := (p.dropLate w).endWindow own w
  (List.range 64).foldl (s.sendMeeting own w) (s.turnDirect own w q)

end Sys2Proof.Machine
end

