-- ==== Sys2Proof/Machine/Fabric.lean ====
section
/-!
DEFINITION. The fabric ports (02_optical_fabric R30 to R57): requests that leave, windows, the arrival of flits and of control flits,
peers that leave, and grants.
-/
namespace Sys2Proof.Machine
open Sys2Proof

/-! ## Requests that leave (R37, R47, R48, R370, R371) -/

/-- The fabric time at which a window begins, in ns (R30). -/
def windowStart (w : Nat) : Nat := 1250 * w

/-- A deadline of CLOSE + 6,250 ns (R43). -/
def lossyDelay : Nat := 6250

/-- The run of bytes that pieces cover: first offset and length. -/
def spanOf (ps : List (Nat × Nat)) : Nat × Nat :=
  let lo := least (ps.map (·.1))
  (lo, (ps.map (fun p => p.1 + p.2)).foldl max lo - lo)

/-- The bytes of the parts of a store, from its first byte on. -/
def packParts (ps : List Part) (lo : Nat) : Nat :=
  (ps.map (fun p => p.value % 2 ^ (8 * p.size) * 2 ^ (8 * (p.off - lo)))).foldl (· + ·) 0

/-- The operand fields of an atomic request (R41, R47, R333): AOP, OPA and OPB. -/
def Atom.fields : Atom → Nat × Nat × Nat
  | .word _ _ _ op x => match op with
    | .cas c => (op.code, c.toNat, x.toNat)
    | .padd f => (op.code, f.toNat * 2 ^ 60 + x.toNat % 2 ^ 32, 0)
    | _ => (op.code, x.toNat, 0)
  | .quire _ _ image => (11, image.toNat / 2 ^ 512, 0)

/-- The request of an access (R41, R47, R370, R371), and the data flit that follows it. -/
def Request.pack (r : Request) (close slot tag number : Nat) : Req × List (BitVec 512) :=
  let tile := r.source % 1024 + (match r.engine with | some (eq, _) => eq % 4 * 2 ^ 10 | none => slot % 4 * 2 ^ 10 + 2 ^ 12)
  let z : Req := { Req.zero with close := close, srctile := tile }
  match r.ask with
  | .load ps => let x := spanOf (ps.map (fun p => (p.off, p.size))); ({ z with op := opLoad, target := x.1, length := x.2 }, [])
  | .store ps =>
    let x := spanOf (ps.map (fun p => (p.off, p.size)))
    ({ z with op := opWrite, target := x.1, length := x.2, flag := noFlag }, [BitVec.ofNat 512 (packParts ps x.1)])
  | .atomic a =>
    let f := a.fields
    ({ z with op := opAtomic, target := a.off, length := a.size, aop := f.1, opa := f.2.1, opb := f.2.2, tag := tag },
      match a with | .quire _ _ image => [image.setWidth 512] | _ => [])
  | .wait ge value =>
    ({ z with op := opWatch, target := r.addr.toNat % 2 ^ 52, length := 4, opa := value.toNat, opb := if ge then 0 else 1,
              tag := number }, [])

/-- The peer that a space-5 pointer names. -/
def peerOf (p : DWord) : Nat := p.toNat / 2 ^ 52 % 256

/-- An atomic of the port that has not ended. -/
def Outgoing.isAtomic (o : Outgoing) : Bool := (Req.of o.payload).op == opAtomic

/-- The port may close one more request (R37, R48): the next identifier is free, and fewer than 256 atomics to the peer are out. -/
def Port.mayClose (p : Port) (dst : Nat) (atomic : Bool) : Bool :=
  decide (p.outgoing.length < 4096) && !p.outgoing.any (fun o => o.xfer == p.nextXfer) &&
    (!atomic || decide ((p.outgoing.filter (fun o => o.dst == dst && o.isAtomic)).length < 256))

/-- The port sends something under its next identifier. -/
def Port.launch (p : Port) (own window : Nat) (o : Outgoing) : Port :=
  let x := { o with xfer := p.nextXfer }
  { p.queue (x.flits own window) with outgoing := p.outgoing ++ [x], nextXfer := (p.nextXfer + 1) % 4096 }

/-- Atomics carry the next tag towards their target (R48). -/
def Port.takeTag (p : Port) (dst : Nat) (atomic : Bool) : Port :=
  if atomic then p.mapPair dst (fun x => { x with nextTag := (x.nextTag + 1) % 2 ^ 16 }) else p

/-- An access over the fabric is denied: its status is DENIED unless the owning die forwarded it (R50, R166). -/
def Request.refuse (r : Request) : Request :=
  { r with stage := .served, denied := true, data := [], status := if r.home.isSome then stDone else stDenied }

/-- A request answered as denied. -/
def State.refuseRequest (s : State) (id : Nat) : State :=
  match s.requestOf id with
  | some r => s.replace id [r.refuse]
  | none => s

/-- The peer of a port has left the domain and is not back (R56). -/
def Port.hasLeft (p : Port) (peer : Nat) : Bool := (p.pair peer).left.isSome

/-- The port closes a request of its partition and sends it in window w (R37); a watch takes the next number of its context (R370). A
request may leave before its flit has found room: CLOSE is the start of the window in which the port queues it, for its identifier fixes
its channel (DESIGN CHOICE, log entry 55). One towards a module that has left ends at once (R56; log entry 55). -/
def State.closeRequest (s : State) (n w : Nat) (r : Request) : State :=
  let p := s.portN n
  let dst := peerOf r.addr
  let atomic : Bool := match r.ask with | .atomic _ => true | _ => false
  if p.hasLeft dst then s.refuseRequest r.id
  else if p.mayClose dst atomic ∧ s.mayServe r then
    let c := s.ctxOf r.uid
    let number := match c with | some x => (x.watch + 1).toNat | none => 0
    let x := r.pack (windowStart w) r.slot (p.pair dst).nextTag number
    let o : Outgoing :=
      { xfer := 0, dst := dst, payload := x.1.pack, blocks := x.2, lossy := false, direct := false, command := none, request := some r.id,
        sentAt := none, resends := 0, left := 0 }
    let t := s.mapPort n (fun q => (q.launch s.ownModule w o).takeTag dst atomic)
    let u := if r.ask.isWait then t.mapCtx r.uid (fun y => { y with watch := y.watch + 1 }) else t
    u.replace r.id [{ r with stage := .moving }]
  else s

/-- The requests of a partition that wait at its port, in order. -/
def State.atPort (s : State) (part : Nat) : List Request :=
  s.requests.filter (fun r => r.part == part && r.space == 5 && r.stage == .queued)

/-! ## Windows (R30 to R36) -/

/-- Lossy transfers whose last block has left the port (R43): the context and number of their commands. -/
def lossyLeft (before after : List Outgoing) : List (Nat × Nat) :=
  after.filterMap (fun o => match o.command with
    | some (uid, _, num) =>
      if o.lossy && o.left == 0 && before.any (fun x => x.xfer == o.xfer && x.left != 0) then some (uid, num) else none
    | none => none)

/-- A port of a partition sends in window w. -/
def State.portWindow (s : State) (w n : Nat) : State :=
  match s.portPart n with
  | none => s
  | some p =>
    let t := (s.atPort p.pnum).foldl (fun u r => u.closeRequest n w r) s
    let before := t.portN n
    let after := t.sendWindow s.ownModule w before
    (lossyLeft before.outgoing after.outgoing).foldl (fun u x => u.mapCtx x.1 (fun c => c.partDone x.2)) (t.mapPort n (fun _ => after))

/-- WINDOW_START. R30 to R36: the next window of fabric time begins, and every port sends on its 64 meetings. -/
def execWindowStart (s : State) : Host.Outcome State Fault Refusal :=
  let w := s.window + 1
  .next ((List.range 8).foldl (fun t n => t.portWindow w n) { s with window := w })

/-! ## Flits that arrive (R34, R36, R39, R40) -/

/-- The lossy blocks that a relay holds at most (R36): 4 MiB. -/
def lossyShare : Nat := 65536

/-- The port's own flits of a meeting that may still be ahead of the window's end: those after the last that the peer has acknowledged. -/
def Sent.ahead (y : Sent) (p : Pair) : List (Waiting × BitVec 608) :=
  (y.own.reverse.takeWhile (fun z => z.1.lossy || p.kept.any (fun k => k.2 == z.2))).reverse

/-- A pair before some of its last flits, which have not left. -/
def Pair.without (p : Pair) (xs : List Waiting) : Pair :=
  let seq := xs.filter (fun x => !x.lossy)
  { p with sendS := (p.sendS + 2 ^ 31 - seq.length) % 2 ^ 31, kept := p.kept.take (p.kept.length - seq.length),
           credit := p.credit + (seq.filter (fun x => x.dst != p.peer)).length }

/-- A relayed flit leaves in the window in which it came, when that has room (R34): before the flits of the port's own transfers that are
still ahead, which follow it (R32). One of those that no longer fits waits for a later window, or is dropped with its one window when it
is lossy (R46). The flits of a window have no times in the model: it takes the order of R32 (log entry 55). -/
def Port.relayNow (p : Port) (x : Waiting) (meeting : Nat) : Option Port :=
  (p.sent meeting).bind (fun y =>
    let pr := p.pair x.dst
    let redo := y.ahead pr
    let done := (y.own.take (y.own.length - redo.length)).map (·.2)
    let first := done.reverse ++ y.first
    let l : Link := { room := windowFlits - first.length, pair := pr.without (redo.map (·.1)), out := first }
    if l.takes x false then
      let l1 := l.send x false
      let d := Link.drainOwn (fun _ => true) (redo.map (·.1)) l1
      let q : Port := { p with
        waiting := d.1.filter (fun z => !z.lossy) ++ p.waiting
        wire := p.wire.map (fun z => if z.meet = meeting then { meet := meeting, first := l1.out, own := d.2.2 } else z) }
      some ((q.setPair d.2.1.pair).returnCredits [x])
    else none)

/-- A flit on its first hop is buffered for its second (R33, R34, R36). -/
def State.relayIn (s : State) (p : Port) (head : DWord) (payload : BitVec 512) : Port :=
  let own := s.ownModule
  let b := headDst head
  let m := own ^^^ b
  let lossy := headType head == tyLossy
  let next := windowOf (s.window + 1) (m % 4)
  let x : Waiting :=
    { chan := m / 4, phase := some (m % 4), dst := b, lossy := lossy, first := s.window + 1, last := if lossy then some next else none,
      head := head &&& ~~~BitVec.ofNat 64 (2 ^ 43), payload := payload, relayOf := some (headSrc head), owner := none }
  if lossy ∧ lossyShare ≤ (p.relays.filter (·.lossy)).length then p
  else if m % 4 = s.window % 4 then
    match (if p.meets own b then p.relayNow x m else none) with
    | some q => q
    | none => if lossy then p else { p with relays := p.relays ++ [x] }
  else { p with relays := p.relays ++ [x] }

/-- A request that its source closed before it left the domain (R56): at the latest in the window in which it left. -/
def Pair.madeBefore (p : Pair) (payload : BitVec 512) : Bool :=
  p.since.any (fun w => decide ((Req.of payload).close < windowStart (w + 1)))

/-- A flit for this module joins the inbox. A request from before its source left the domain is dropped, with the data flits of its
identifier (R56; log entry 55). -/
def Port.takeIn (p : Port) (window : Nat) (head : DWord) (payload : BitVec 512) : Port :=
  let src := headSrc head
  let xfer := headXfer head
  let x := p.pair src
  let q := { p with inbox := p.inbox ++ [(window, head, payload)] }
  if headType head = tyRequest then
    if x.madeBefore payload then
      { p.setPair { x with stale := xfer :: x.stale.filter (· != xfer) } with
        inbox := p.inbox.filter (fun y => headSrc y.2.1 != src || headXfer y.2.1 != xfer || (headType y.2.1 != tyData && headType y.2.1 != tyLossy))
        held := p.held.filter (fun h => h.1 != src || h.2.1 != xfer) }
    else if x.stale.contains xfer then q.setPair { x with stale := x.stale.filter (· != xfer) } else q
  else if (headType head = tyData ∨ headType head = tyLossy) ∧ x.stale.contains xfer then p
  else q

/-- An accepted flit goes to its place: here, or on to its second hop; idle and control flits have none. What comes through a relay from a
module that has left is dropped until that module is back (R56; log entry 55). -/
def State.deliverFlit (s : State) (p : Port) (head : DWord) (payload : BitVec 512) : Port :=
  if headType head = tyIdle ∨ headType head = tyControl ∨ (headDst head = s.ownModule ∧ p.hasLeft (headSrc head)) then p
  else if headDst head = s.ownModule then p.takeIn s.window head payload
  else if headHop1 head then s.relayIn p head payload
  else p

/-- A flit of the peer has checked (R55). One that had left is back, with its tags afresh (R48, R56). -/
def Pair.hear (p : Pair) : Pair :=
  let q := { p with heard := true }
  if p.left.isSome then { q with left := none, nextTag := 0, highest := none, cache := [] } else q

/-- A sequenced flit is accepted (R38). The manual does not say which flits count among the 32 of an acknowledgement: those that advance the
sequence number do, idle and lossy flits do not (DESIGN CHOICE, log entry 55). -/
def Pair.accept (p : Pair) (idle : Bool) : Pair :=
  if idle then { p.hear with nak := false }
  else { p.hear with nak := false, expectS := (p.expectS + 1) % 2 ^ 31, accepted := (p.accepted + 1) % 32 }

/-- A sequenced flit is accepted, and every 32 are acknowledged (R40). -/
def Port.accept (p : Port) (own peer : Nat) (idle : Bool) : Port :=
  let q := p.mapPair peer (fun x => x.accept idle)
  let x := q.pair peer
  if !idle ∧ x.accepted = 0 then q.tell own peer (ctlAck, x.expectS) else q

/-- A flit that fails every check is discarded, and a NAK is owed until the expected number comes (R40). -/
def Port.refuse (p : Port) (own peer : Nat) : Port :=
  let x := p.pair peer
  if x.nak then p else (p.mapPair peer (fun y => { y with nak := true })).tell own peer (ctlNak, x.expectS)

/-- The sequenced types (R38). -/
def isSequenced (type : Nat) : Bool := [tyIdle, tyRequest, tyData, tyReply, tyKernel].contains type

/-- FLIT_RECEIVE. R31, R34, R37 to R40: a flit arrives on the meeting of the window in progress. -/
def execFlitReceive (port : BitVec 3) (peer : BitVec 8) (flit : BitVec 608) (s : State) : Host.Outcome State Fault Refusal :=
  let n := port.toNat
  let b := peer.toNat
  let m := s.ownModule ^^^ b
  if (s.portPart n).isNone ∨ b = s.ownModule ∨ m % 4 ≠ s.window % 4 then .next s
  else
    let p := s.portN n
    let h := flitHeader flit
    let ty := headType h
    if flitChecks flit (seqSeed (p.pair b).expectS) && isSequenced ty && headClean h then
      .next (s.mapPort n (fun _ => s.deliverFlit (p.accept s.ownModule b (ty == tyIdle)) h (flitPayload flit)))
    else if (flitChecks flit lossySeed && ty == tyLossy || flitChecks flit controlSeed && ty == tyControl) && headClean h then
      .next (s.mapPort n (fun _ => s.deliverFlit (p.mapPair b Pair.hear) h (flitPayload flit)))
    else .next (s.mapPort n (fun _ => p.refuse s.ownModule b))

/-- NAK. R40: the flits from seq on are to be sent again. -/
def execNak (port : BitVec 3) (peer : BitVec 8) (seq : BitVec 31) (s : State) : Host.Outcome State Fault Refusal :=
  .next (s.mapPort port.toNat (fun p => p.mapPair peer.toNat (fun x =>
    if x.kept.any (fun k => k.1 == seq.toNat) then { x with resend := some seq.toNat } else x)))

/-- ACK. R40: the flits before seq are acknowledged. -/
def execAck (port : BitVec 3) (peer : BitVec 8) (seq : BitVec 31) (s : State) : Host.Outcome State Fault Refusal :=
  .next (s.mapPort port.toNat (fun p => p.mapPair peer.toNat (fun x =>
    if seq.toNat = x.sendS ∨ x.kept.any (fun k => k.1 == seq.toNat) then
      { x with kept := x.kept.dropWhile (fun k => k.1 != seq.toNat) }
    else x)))

/-- CREDIT_RETURN. R36. -/
def execCreditReturn (port : BitVec 3) (peer : BitVec 8) (blocks : Nat) (s : State) : Host.Outcome State Fault Refusal :=
  .next (s.mapPort port.toNat (fun p => p.mapPair peer.toNat (fun x => { x with credit := min 768 (x.credit + blocks) })))

/-! ## Down meetings (R55) -/

/-- A record about a port goes to its partition's kernel (R109, R110). -/
def State.portRecord (s : State) (n kind code count info : Nat) : State :=
  match s.portPart n with
  | some p => s.postHome p kind code 0 count info
  | none => s

/-- Whether a port takes a meeting as down once the changes that it has seen take effect. -/
def Port.seesDown (p : Port) (k : Nat) : Bool :=
  match (p.pendingDown.filter (fun x => x.1 == k)).getLast? with
  | some x => x.2.1
  | none => p.down.contains k

/-- A port's own end of a meeting says that it is down, or up: no flit has checked at 3 consecutive meetings, or one has at the last (R55). A
meeting of two other modules is known from their control flits alone. -/
def Port.bearsOut (p : Port) (own a b : Nat) (down : Bool) : Bool :=
  if a = own ∨ b = own then
    let x := p.pair (if a = own then b else a)
    if down then decide (3 ≤ x.silent) && !x.heard else x.heard || x.silent == 0
  else true

/-- A change of the down-map goes to every other module, in control flits (R55). -/
def Port.tellDown (p : Port) (k : Nat) (down : Bool) : Port :=
  { p with pairs := p.pairs.map (fun x => { x with control := x.control ++ [(ctlDown, 2 * k + (if down then 1 else 0))] }) }

/-- DOWN_MAP_UPDATE. R55: a change is seen now, is exchanged and reported, and takes effect at the start of the second rotor cycle from now. A
meeting is down when neither of its ends has checked a flit at 3 consecutive meetings: of a meeting of its own the port has counted one
end, and the event tells the other. -/
def execDownMapUpdate (port : BitVec 3) (owner : BitVec 8) (meeting : BitVec 8) (down : Bool) (s : State) :
    Host.Outcome State Fault Refusal :=
  let n := port.toNat
  let a := owner.toNat
  let b := a ^^^ meeting.toNat
  let k := min a b * 256 + meeting.toNat
  let p := s.portN n
  if p.seesDown k = down ∨ !p.bearsOut s.ownModule a b down then .next s
  else
    let t := s.mapPort n (fun q => { q.tellDown k down with pendingDown := q.pendingDown ++ [(k, down, (s.window / 4 + 2) * 4)] })
    .next (t.portRecord n 6 (if down then 0 else 1) (if a = s.ownModule then b else a) meeting.toNat)

/-- The down-map after the changes that are due. -/
def applyDown (w : Nat) (down : List Nat) : List (Nat × Bool × Nat) → List Nat
  | [] => down
  | x :: l =>
    applyDown w (if w < x.2.2 then down
      else if x.2.1 then (if down.contains x.1 then down else down ++ [x.1]) else down.filter (· != x.1)) l

/-- DOWN_MAP_EFFECT. R55. -/
def execDownMapEffect (port : BitVec 3) (s : State) : Host.Outcome State Fault Refusal :=
  .next (s.mapPort port.toNat (fun p =>
    { p with down := applyDown s.window p.down p.pendingDown, pendingDown := p.pendingDown.filter (fun x => decide (s.window < x.2.2)) }))

/-! ## Requests that end without their reply (R49, R54, R56) -/

/-- One verdict of a context has come (R43). -/
def Ctx.verdictIn (c : Ctx) : Ctx := { c with verdicts := c.verdicts - 1 }

/-- A request or transfer of a port leaves its list, with what of it waits for a window. -/
def State.dropOutgoing (s : State) (n xfer : Nat) : State :=
  s.mapPort n (fun p => { p with
    outgoing := p.outgoing.filter (fun o => o.xfer != xfer)
    waiting := p.waiting.filter (fun x => x.owner != some xfer && !(headType x.head == tyRequest && headXfer x.head == xfer)) })

/-- A transfer or request towards a peer that has left ends (R56): kind 2 of ESTAT.FKIND. -/
def State.endOutgoing (s : State) (n : Nat) (o : Outgoing) : State :=
  let t := s.dropOutgoing n o.xfer
  match o.command, o.request with
  | some (uid, eq, num), _ =>
    t.mapCtx uid (fun c =>
      if o.lossy then (if o.left = 0 then c else c.partDone num).verdictIn
      else (c.fail false 0 (BitVec.ofNat 8 o.dst) (BitVec.ofNat 2 eq) 2).partDone num)
  | none, some id => t.refuseRequest id
  | none, none => t

/-- RESEND_TIMEOUT. R49: 15,000 ns without a reply; the request is sent again, up to 3 times, and then ends. -/
def execResendTimeout (port : BitVec 3) (xfer : BitVec 12) (s : State) : Host.Outcome State Fault Refusal :=
  let n := port.toNat
  match (s.portN n).outgoing.find? (fun o => o.xfer == xfer.toNat) with
  | none => .next s
  | some o =>
    let op := (Req.of o.payload).op
    if (op = opLoad ∨ op = opAtomic) ∧ o.sentAt.any (fun w => decide (w + 12 ≤ s.window)) then
      if o.resends < 3 then
        .next (s.mapPort n (fun p =>
          { p.queue (o.flits s.ownModule (s.window + 1)) with
            outgoing := p.outgoing.map (fun x => if x.xfer = o.xfer then { x with resends := x.resends + 1, sentAt := none } else x) }))
      else .next (s.endOutgoing n o)
    else .next s

/-- Both sides of a pair start afresh when one of the two ports was reset (R48, R54). -/
def Pair.renew (p : Pair) : Pair := { p with nextTag := 0, highest := none, cache := [] }

/-- The agent that reaches the partition's memory for a request of an importer, where its page lives at a peer: one for the data of the request,
and the next one for its flag (R171). -/
def exportAgent (n : Nat) (key : Nat × Nat) : Nat := 2 ^ 41 + ((n * 256 + key.1) * 4096 + key.2) * 2

/-- An agent is one for the requests of a peer. -/
def isExportAgent (n peer who : Nat) : Bool := decide (2 ^ 41 ≤ who) && (who - 2 ^ 41) / 8192 == n * 256 + peer

/-- An agent merges an image for a request of a peer. -/
def isExportMerge (n peer who : Nat) : Bool := decide (firstMerge ≤ who) && who % 2 == 1 && isExportAgent n peer ((who - firstMerge) / 2)

/-- What the exporter has under way at other modules for a peer's requests is dropped, but for the parts of an image that has been merged. -/
def State.forgetFar (s : State) (n peer : Nat) : State :=
  let keep (r : Request) : List Request :=
    let who := r.swarm / 2
    if r.uid ≠ 0 ∨ r.sink ≠ .record then [r]
    else if isExportAgent n peer who then []
    else if isExportMerge n peer who then (if r.ask.writes.isEmpty then [] else [{ r with sink := .discard, swarm := 0 }])
    else [r]
  let mine (who : Nat) : Bool := isExportAgent n peer who || isExportMerge n peer who
  { s with
    requests := s.requests.flatMap keep
    parts := s.parts.map (fun p => { p with far := p.far.filter (fun x => !mine (x.1 / 2 ^ 65)) }) }

/-- A port forgets what hangs on a peer's port: transfers that it was receiving, watches, and the order of flags (R45). -/
def Port.forgetPeer (p : Port) (peer : Nat) : Port :=
  { p.mapPair peer Pair.renew with
    incoming := p.incoming.filter (fun x => x.src != peer)
    held := p.held.filter (fun x => x.1 != peer)
    watches := p.watches.filter (fun x => x.src != peer)
    qseqNext := p.qseqNext.filter (fun x => x.1 % 256 != peer)
    qseqSeen := p.qseqSeen.filter (fun x => x.1 / 4096 != peer) }

/-- The frames of a grant that ends are free 6,250 ns later (R53). -/
def GrantRec.finish (g : GrantRec) (w : Nat) : GrantRec := { g with freeAt := some (w + 5) }

/-- A recall that awaits a peer that has left counts as acknowledged two rotor cycles later, though the peer come back (R56). -/
def GrantRec.lapseFrom (g : GrantRec) (w : Nat) : GrantRec :=
  if g.recalled ∧ g.freeAt.isNone ∧ g.lapse.isNone then { g with lapse := some (w + 8) } else g

/-- A watch lies under a grant (R370). -/
def GrantRec.covers (g : GrantRec) (h : HeldWatch) : Bool :=
  let o := (Req.of h.payload).target
  g.peer == h.src && decide (g.woff ≤ o) && decide (o + 4 ≤ g.woff + g.len)

/-- The recall of a grant is acknowledged (R53, R370): the grant ends, and every watch that is held under it is answered with DENIED. -/
def Port.endRecalled (p : Port) (own window : Nat) (y : GrantRec) : Port :=
  let q := { p with exported := p.exported.map (fun z => if z = y then z.finish window else z),
                    watches := p.watches.filter (fun h => !y.covers h) }
  (p.watches.filter (fun h => y.covers h)).foldl (fun r h => r.reply own window h.src h.xfer 0 stDenied (Req.of h.payload).tag false) q

/-- PORT_RESET_NOTICE. R48, R54: the peer's port was reset; the grants between the two end. -/
def execPortResetNotice (port : BitVec 3) (peer : BitVec 8) (s : State) : Host.Outcome State Fault Refusal :=
  .next ((s.forgetFar port.toNat peer.toNat).mapPort port.toNat (fun p =>
    { p.forgetPeer peer.toNat with
      imported := p.imported.filter (fun g => g.peer != peer.toNat)
      exported := p.exported.map (fun g => if g.peer = peer.toNat ∧ g.freeAt.isNone then g.finish s.window else g) }))

/-- The identifiers of the writes and requests of a peer that the port has seen and not ended. -/
def Port.begunBy (p : Port) (peer : Nat) : List Nat :=
  (p.incoming.filter (fun x => x.src == peer)).map (·.xfer) ++
    (p.inbox.filter (fun x => headSrc x.2.1 == peer && headType x.2.1 == tyRequest)).map (fun x => headXfer x.2.1)

/-- PEER_LEAVE. R48, R56: everything that is out towards the peer, or waits at the port for it, ends, and the port's kernel is told. -/
def execPeerLeave (port : BitVec 3) (peer : BitVec 8) (s : State) : Host.Outcome State Fault Refusal :=
  let n := port.toNat
  let b := peer.toNat
  if (s.portN n).hasLeft b then .next s
  else
    let out := (s.portN n).outgoing.filter (fun o => o.dst == b)
    let here := (s.portPart n).toList.flatMap (fun p => (s.atPort p.pnum).filter (fun r => peerOf r.addr == b))
    let t := here.foldl (fun u r => u.refuseRequest r.id) (out.foldl (fun u o => u.endOutgoing n o) s)
    let u := (t.forgetFar n b).mapPort n (fun p =>
      { (p.forgetPeer b).mapPair b (fun x => { x with left := some s.window, since := some s.window, stale := p.begunBy b }) with
        inbox := p.inbox.filter (fun x => headSrc x.2.1 != b)
        exported := p.exported.map (fun g => if g.peer = b then g.lapseFrom s.window else g) })
    .next (u.portRecord n 6 2 b (s.ownModule ^^^ b))

/-- RECALL_AUTO_ACK. R56: two rotor cycles after the peer has left, every recall that awaited it counts as acknowledged, also when the peer is
back by then. -/
def execRecallAutoAck (port : BitVec 3) (peer : BitVec 8) (s : State) : Host.Outcome State Fault Refusal :=
  .next (s.mapPort port.toNat (fun p =>
    (p.exported.filter (fun g => g.peer == peer.toNat && g.freeAt.isNone && g.lapse.any (fun w => decide (w ≤ s.window)))).foldl
      (fun q g => q.endRecalled s.ownModule s.window g) p))

/-- DISCARD_NOTICE. R46: a relay's reset has discarded a reliable flit of this port, or the reply to a watch of it. The notice of a reply names
no target: every kept reply with its identifier is sent again (DESIGN CHOICE, log entry 55). -/
def execDiscardNotice (port : BitVec 3) (src : BitVec 8) (xfer : BitVec 12) (block : BitVec 20) (type : BitVec 4) (s : State) :
    Host.Outcome State Fault Refusal :=
  let n := port.toNat
  let own := s.ownModule
  let w := s.window + 1
  let p := s.portN n
  let ty := type.toNat
  let out := p.outgoing.find? (fun o => o.xfer == xfer.toNat)
  if src.toNat ≠ own then
    match out with
    | some o => .next (if ty = tyReply ∧ o.dst = src.toNat ∧ (Req.of o.payload).op = opWatch then s.mapPort n (fun q => q.queue (o.flits own w)) else s)
    | none => .next s
  else if ty = tyKernel then
    .next (s.mapPort n (fun q => q.queue ((q.kernel.filter (fun k => k.1 == xfer.toNat)).map (fun k =>
      waitingFor own k.2.1 k.1 0 tyKernel w k.2.2 none))))
  else if ty = tyReply then
    .next (s.mapPort n (fun q => q.queue ((q.replied.filter (fun r => r.2.1 == xfer.toNat)).map (fun r => replyFlit own r.1 r.2.1 w r.2.2))))
  else match out with
    | some o =>
      .next (s.mapPort n (fun q => q.queue ((o.flits own w).filter (fun x =>
        headType x.head == ty && (ty == tyRequest || headBlock x.head == block.toNat) && !x.lossy))))
    | none => .next s

/-! ## Grants (R51 to R53) -/

/-- The fields of a grant record (R52). -/
structure GrantMsg where
  gid    : Nat
  kind   : Nat
  rights : Nat
  woff   : Nat
  len    : Nat
  fbase  : Nat
  clean  : Bool
  deriving DecidableEq, Repr

/-- The record of a payload. -/
def GrantMsg.of (p : BitVec 512) : GrantMsg :=
  { gid := recField p 0 4, kind := recField p 4 1, rights := recField p 5 1, woff := recField p 8 8, len := recField p 16 8,
    fbase := recField p 24 8, clean := recField p 6 2 == 0 && recField p 32 32 == 0 }

/-- A record that a receiving port takes (R52): no reserved field set, aligned ranges, and zeros in a recall or acknowledgement. -/
def GrantMsg.sound (g : GrantMsg) : Bool :=
  g.clean && decide (g.rights < 16) && g.woff % 4096 == 0 && g.len % 4096 == 0 && g.fbase % 4096 == 0 &&
    decide (1 ≤ g.kind) && decide (g.kind ≤ 3) && (g.kind == 1 || (g.rights == 0 && g.woff == 0 && g.len == 0 && g.fbase == 0))

/-- The payload with FBASE replaced by zero (R51). -/
def hideBase (p : BitVec 512) : BitVec 512 := BitVec.ofNat 512 (p.toNat - recField p 24 8 * 2 ^ 192)

/-- The number of a port's next kernel message, modulo 4,096. -/
def Port.kernelNumber (p : Port) : Nat :=
  match p.kernel.getLast? with
  | some k => (k.1 + 1) % 4096
  | none => 0

/-- A kernel message is sent, and kept for R46. The manual gives a kernel message no identifier: it travels as block 0 of a number of its own,
in XFER, by which a discard notice names it (DESIGN CHOICE, log entry 55). -/
def Port.sendKernel (p : Port) (own dst window : Nat) (payload : BitVec 512) : Port :=
  let k := p.kernelNumber
  { p.queue [waitingFor own dst k 0 tyKernel window payload none] with
    kernel := p.kernel.drop (p.kernel.length - 4095) ++ [(k, dst, payload)] }

/-- GRANT_HANDOFF. R51 to R53: the partition's kernel hands its port a record: a grant, a recall, or the acknowledgement of a recall. -/
def execGrantHandoff (port : BitVec 3) (importer : BitVec 8) (record : BitVec 512) (s : State) : Host.Outcome State Fault Refusal :=
  let n := port.toNat
  let b := importer.toNat
  let g := GrantMsg.of record
  let own := s.ownModule
  let w := s.window + 1
  if (s.portPart n).isNone then .next s
  else match g.kind with
    | 1 =>
      if 4096 ≤ ((s.portN n).exported.filter (fun x => x.freeAt.isNone)).length then .next (s.portRecord n 7 1 g.gid b)
      else
        .next (s.mapPort n (fun p => { p.sendKernel own b w (hideBase record) with
          exported := p.exported ++ [{ gid := g.gid, rights := BitVec.ofNat 8 g.rights, woff := g.woff, len := g.len,
                                       fbase := BitVec.ofNat 64 g.fbase, peer := b, recalled := false, lapse := none, freeAt := none }] }))
    | 2 =>
      .next (s.mapPort n (fun p => { p.sendKernel own b w record with
        exported := p.exported.map (fun x => if x.gid = g.gid ∧ x.peer = b then
          (let y := { x with recalled := true }; if p.hasLeft b then y.lapseFrom s.window else y) else x) }))
    | 3 =>
      .next (s.mapPort n (fun p => { p.sendKernel own b w record with
        imported := p.imported.filter (fun x => x.gid != g.gid || x.peer != b) }))
    | _ => .next s

/-- The oldest flit of an inbox that meets a condition, and the others. -/
def takeFlit (f : Nat × DWord × BitVec 512 → Bool) : List (Nat × DWord × BitVec 512) →
    Option ((Nat × DWord × BitVec 512) × List (Nat × DWord × BitVec 512))
  | [] => none
  | x :: l => if f x then some (x, l) else (takeFlit f l).map (fun r => (r.1, x :: r.2))

/-- A kernel message of a kind; malformed ones count as grants. -/
def kernelKind (k : Nat) (x : Nat × DWord × BitVec 512) : Bool :=
  let g := GrantMsg.of x.2.2
  headType x.2.1 == tyKernel && (if g.sound then g.kind == k else k == 1)

/-- GRANT. R51, R52: a grant reaches the importer's port; a malformed record is discarded and reported with the module that sent it. -/
def execGrant (port : BitVec 3) (s : State) : Host.Outcome State Fault Refusal :=
  let n := port.toNat
  match takeFlit (kernelKind 1) (s.portN n).inbox with
  | none => .next s
  | some (x, rest) =>
    let g := GrantMsg.of x.2.2
    let b := headSrc x.2.1
    let t := s.mapPort n (fun p => { p with inbox := rest })
    if g.sound then
      .next (t.mapPort n (fun p => { p with imported := p.imported.filter (fun y => y.gid != g.gid || y.peer != b) ++
        [{ gid := g.gid, rights := BitVec.ofNat 8 g.rights, woff := g.woff, len := g.len, fbase := 0, peer := b, recalled := false,
           lapse := none, freeAt := none }] }))
    else .next (t.portRecord n 7 g.kind g.gid b)

/-- RECALL. R53: the importer's port learns of a recall. -/
def execRecall (port : BitVec 3) (s : State) : Host.Outcome State Fault Refusal :=
  let n := port.toNat
  match takeFlit (kernelKind 2) (s.portN n).inbox with
  | none => .next s
  | some (x, rest) =>
    let g := GrantMsg.of x.2.2
    let b := headSrc x.2.1
    .next (s.mapPort n (fun p => { p with
      inbox := rest, imported := p.imported.map (fun y => if y.gid = g.gid ∧ y.peer = b then { y with recalled := true } else y) }))

/-- RECALL_ACK. R53, R370: the grant ends, and every watch that is held under it is answered with DENIED. -/
def execRecallAck (port : BitVec 3) (s : State) : Host.Outcome State Fault Refusal :=
  let n := port.toNat
  match takeFlit (kernelKind 3) (s.portN n).inbox with
  | none => .next s
  | some (x, rest) =>
    let g := GrantMsg.of x.2.2
    let b := headSrc x.2.1
    let p := { s.portN n with inbox := rest }
    match p.exported.find? (fun y => y.gid == g.gid && y.peer == b && y.freeAt.isNone) with
    | none => .next (s.mapPort n (fun _ => p))
    | some y => .next (s.mapPort n (fun _ => p.endRecalled s.ownModule s.window y))

/-! ## Test injection (R57, R311) -/

/-- FABTEST_ARM. R57: a write of FABTEST at privileged level. -/
def execFabtestArm (tile : BitVec 10) (value : BitVec 32) (s : State) : Host.Outcome State Fault Refusal :=
  .next (s.setTile tile.toNat { s.tileRec tile.toNat with fabtest := value &&& 0x800F_FFFF })

/-- QCFG_ARM. R311: a write of QCFG at privileged level. -/
def execQcfgArm (tile : BitVec 10) (value : BitVec 64) (s : State) : Host.Outcome State Fault Refusal :=
  .next (s.setTile tile.toNat { s.tileRec tile.toNat with
    qcfg := value &&& (if value.getLsbD 22 then 0xFF_87FF else 0xFF_FFFF) })

end Sys2Proof.Machine
end

