-- ==== Sys2Proof/Machine/Exporter.lean ====
section
/-!
DEFINITION. The far side of the fabric (02_optical_fabric R42 to R50, R370, R371): writes, loads, atomics and watches that reach this module
under a grant, and the replies that come back to its own.
-/
namespace Sys2Proof.Machine
open Sys2Proof

/-! ## Grants and windows (R50 to R52) -/

/-- RIGHTS of a grant (R52), by bit. -/
def rtRead : Nat := 1
def rtWrite : Nat := 2
def rtAtomic : Nat := 4
def rtLossy : Nat := 10

/-- The live grant to a module that covers n bytes at a window offset with all of some rights: the space-0 address of the first byte. -/
def Port.window (p : Port) (src o n rights : Nat) : Option Nat :=
  (p.exported.find? (fun g => g.peer == src && g.freeAt.isNone && decide (g.woff ≤ o) && decide (o + n ≤ g.woff + g.len) &&
    g.rights.toNat &&& rights == rights)).map (fun g => g.fbase.toNat + (o - g.woff))

/-- The die and the offset of a space-0 address. -/
def dieAt (a : Nat) : Nat := a / 2 ^ 57 % 8
def offAt (a : Nat) : Nat := a % 2 ^ 57

/-- The pages of 4 KiB in which n bytes from an address lie, each with its first byte and how many there are. -/
def pagesOf (a n : Nat) : List (Nat × Nat) :=
  (List.range ((a % 4096 + n + 4095) / 4096)).map (fun i =>
    let lo := max a ((a / 4096 + i) * 4096)
    (lo, min (a + n) ((a / 4096 + i + 1) * 4096) - lo))

/-- Every page of a run of global memory allows an access (R51, R164). -/
def State.allowsRun (s : State) (part a n : Nat) (write atomic : Bool) : Bool :=
  (pagesOf a n).all (fun x => match s.translate part (dieAt x.1) (offAt x.1) with | some e => e.allows write atomic | none => false)

/-- The space-0 address of what a module reaches under its grant; none where it is denied (R50). -/
def State.reachable (s : State) (n part src o len rights : Nat) (write atomic : Bool) : Option Nat :=
  ((s.portN n).window src o len rights).bind (fun a => if s.allowsRun part a len write atomic then some a else none)

/-- Bytes of global memory read for an importer, the pages that live at a peer included (R171). -/
def State.exportRead (s : State) (who part a n : Nat) : Reading :=
  let rs := (pagesOf a n).map (fun x => (x.1 - a, s.readVia who part (dieAt x.1) (offAt x.1) x.2))
  if rs.any (fun r => r.2 == .denied) then .denied
  else if rs.any (fun r => r.2 == .away) then .away
  else .got ((rs.map (fun r => match r.2 with | .got x => x * 2 ^ (8 * r.1) | _ => 0)).foldl (· + ·) 0)

/-- What of such a read lives at a peer is asked for. -/
def State.exportAsk (s : State) (who part a n : Nat) : State :=
  (pagesOf a n).foldl (fun t x =>
    if t.readVia who part (dieAt x.1) (offAt x.1) x.2 = .away then t.askVia who part (dieAt x.1) (offAt x.1) x.2 else t) s

/-- The translations of such an access are kept (R162). -/
def State.exportKeep (s : State) (part a n : Nat) : State := s.keepRun part (dieAt a) (offAt a) n

/-- Bytes of global memory written under a grant, page by page (R169, R171). -/
def State.exportWrite (s : State) (who part a size value : Nat) : State :=
  let die := dieAt a
  (cutParts [⟨offAt a, size, value⟩]).foldl (fun t q =>
    match t.spot part die q.off q.size true false with
    | .here as => t.write0 part die q.off as q.value
    | .far peer o =>
      (t.hold part die q.off (bytesOfNat q.size q.value)).ownRequest part die (2 * who + 1) (peerPointer peer o) (.store [{ q with off := o }])
        .record (globalPointer die q.off)
    | .denied => t) (s.exportKeep part a size)

/-- An atomic on global memory under a grant, of which nothing comes back (R171). -/
def State.exportAtom (s : State) (who part a : Nat) (x : Atom) : State :=
  let t := s.exportKeep part a x.size
  match s.spot part (dieAt a) (offAt a) x.size true true with
  | .here as => (t.atom0 part (dieAt a) (offAt a) as x).1
  | .far peer o => t.ownRequest part (dieAt a) (2 * who + 1) (peerPointer peer o) (.atomic (x.moved o)) .record (globalPointer (dieAt a) (offAt a))
  | .denied => t

/-- A write that an agent has sent to a peer has not been answered. -/
def State.exportBusy (s : State) (who part : Nat) : Bool :=
  s.requests.any (fun r => r.uid == 0 && r.sink == .record && r.part == part && r.swarm == 2 * who + 1)

/-- A write that an agent has sent to a peer has been denied there. -/
def Partition.exportFailed (p : Partition) (who : Nat) : Bool := p.far.any (fun x => x.1 / 2 ^ 65 == who && x.2.isNone)

/-- An atomic under a grant, and what comes of it: its old value, or it is still to be made at the peer where the page lives (R171). -/
def State.exportAtomic (s : State) (who part a : Nat) (x : Atom) : State × Reading :=
  match s.spot part (dieAt a) (offAt a) x.size true true with
  | .here as => let y := (s.exportKeep part a x.size).atom0 part (dieAt a) (offAt a) as x; (y.1, .got y.2)
  | .far .. => match (s.partN part).farAnswer (farKey who (dieAt a) (offAt a) true) with
    | .away => (if s.exportBusy who part then s else s.exportAtom who part a x, .away)
    | y => (s, y)
  | .denied => match x with
    | .quire _ _ image => if s.parted part (dieAt a) (x.moved (offAt a)) then s.mergeVia (mergeFor who) part (dieAt a) (offAt a) image
        else (s, .denied)
    | _ => (s, .denied)

/-- A write to a run of global memory has to wait: it lies in a page that migrates from a peer and that a write is on its way to (R169), or
another agent is merging an image there (R171). -/
def State.exportWaits (s : State) (who part a n : Nat) : Bool :=
  (pagesOf a n).any (fun x => s.settling part (dieAt x.1) (offAt x.1) || s.merging (mergeFor who) part (dieAt x.1) [(offAt x.1, x.2)])

/-- Blocks of a transfer (R41). -/
def Req.blocks (r : Req) : Nat := (r.length + 63) / 64

/-- The bytes of a block: its offset and length. -/
def Req.block (r : Req) (j : Nat) : Nat × Nat := (r.target + 64 * j, min 64 (r.length - 64 * j))

/-- Bytes of the validity mask. -/
def Req.maskBytes (r : Req) : Nat := (r.mbit % 8 + r.blocks + 7) / 8

/-- Where a write goes (R50): the space-0 addresses of its data, its flag and its mask, when all that it has are allowed. -/
def State.writeSites (s : State) (n part src : Nat) (r : Req) (lossy : Bool) : Option (Nat × Nat × Nat) :=
  let site (b : Bool) (o len : Nat) : Option Nat := if b then s.reachable n part src o len rtWrite true true else some 0
  (s.reachable n part src r.target r.length (if lossy then rtLossy else rtWrite) true false).bind (fun a =>
    (site (r.flag != noFlag) r.flag 4).bind (fun f => (site lossy r.mask r.maskBytes).map (fun m => (a, f, m))))

/-! ## Writes (R42 to R45, R371) -/

/-- A request flit of an operation. One with a reserved OP is of none, and stays unanswered; reserved bytes of a payload are not read (DESIGN
CHOICE, log entry 55). -/
def requestOp (f : Req → Bool) (x : Nat × DWord × BitVec 512) : Bool := headType x.2.1 == tyRequest && f (Req.of x.2.2)

/-- The transfer that a flit belongs to. -/
def flitKey (x : Nat × DWord × BitVec 512) : Nat × Nat := (headSrc x.2.1, headXfer x.2.1)

/-- A transfer that the port receives. -/
def Port.transfer (p : Port) (src xfer : Nat) : Option Incoming := p.incoming.find? (fun i => i.src == src && i.xfer == xfer)

/-- A transfer replaced. -/
def Port.setTransfer (p : Port) (i : Incoming) : Port :=
  { p with incoming := p.incoming.map (fun x => if x.src = i.src ∧ x.xfer = i.xfer then i else x) }

/-- The key of a transfer. -/
def Incoming.key (i : Incoming) : Nat × Nat := (i.src, i.xfer)

/-- A block of a write lands as a unit, where its grant placed it when the write was accepted (R42, R43, R53). -/
def State.landBlock (s : State) (n part : Nat) (i : Incoming) (j value : Nat) : State :=
  let len := ((Req.of i.payload).block j).2
  s.exportWrite (exportAgent n i.key) part (i.data + 64 * j) len (value % 2 ^ (8 * len))

/-- The byte and the bit of a block in the validity mask of an accepted write (R43). -/
def Incoming.maskBit (i : Incoming) (j : Nat) : Nat × Nat :=
  let r := Req.of i.payload
  (i.mask + (r.mbit % 8 + j) / 8, (r.mbit % 8 + j) % 8)

/-- A bit of the validity mask is set or cleared, as a strong atomic on its byte (R43). -/
def State.landMask (s : State) (n part : Nat) (i : Incoming) (j : Nat) (v : Bool) : State :=
  let m := i.maskBit j
  s.exportAtom (exportAgent n i.key) part m.1
    (if v then .word 0 0 1 .or (BitVec.ofNat 64 (2 ^ m.2)) else .word 0 0 1 .and (BitVec.ofNat 64 (0xFF - 2 ^ m.2)))

/-- A block that has arrived for a transfer: written with its mask bit, or dropped with a denied transfer. -/
def State.takeBlock (s : State) (n part : Nat) (i : Incoming) (j value : Nat) : State :=
  if i.arrived.contains j ∨ (Req.of i.payload).blocks ≤ j then s
  else
    let s1 := if i.denied then s else s.landBlock n part i j value
    let s2 := if i.lossy && !i.denied then s1.landMask n part i j true else s1
    s2.mapPort n (fun p => p.setTransfer { i with arrived := i.arrived ++ [j] })

/-- A block lost: zeros under a cleared mask bit (R43). -/
def State.loseBlock (s : State) (n part : Nat) (i : Incoming) (j : Nat) : State :=
  if i.denied then s.mapPort n (fun p => p.setTransfer { i with arrived := i.arrived ++ [j] })
  else ((s.landBlock n part i j 0).landMask n part i j false).mapPort n (fun p => p.setTransfer { i with arrived := i.arrived ++ [j] })

/-- Steps of a transfer over a list of blocks, each on the transfer as the last has left it. -/
def State.overBlocks (n : Nat) (key : Nat × Nat) (f : State → Incoming → Nat → State) (s : State) (js : List Nat) : State :=
  js.foldl (fun t j => match (t.portN n).transfer key.1 key.2 with | some i => f t i j | none => t) s

/-- The blocks that are held for a transfer land (R42, R44). -/
def State.takeHeld (s : State) (n part : Nat) (key : Nat × Nat) : State :=
  let hs := (s.portN n).held.filter (fun h => h.1 == key.1 && h.2.1 == key.2)
  let t := s.mapPort n (fun p => { p with held := p.held.filter (fun h => !(h.1 == key.1 && h.2.1 == key.2)) })
  hs.foldl (fun u h => match (u.portN n).transfer key.1 key.2 with
    | some i => u.takeBlock n part i h.2.2.1 h.2.2.2.2.1.toNat
    | none => u) t

/-- What an accepted block still has to wait for: a write on its way to a page that migrates from a peer (R169). -/
def State.landWaits (s : State) (part : Nat) (i : Incoming) (j : Nat) : Bool :=
  !i.denied && (s.exportWaits 0 part (i.data + 64 * j) ((Req.of i.payload).block j).2 || (i.lossy && s.exportWaits 0 part (i.maskBit j).1 1))

/-- A write request opens a transfer: a lossy one is answered with its verdict, a reliable one that is denied with DENIED (R42, R43,
R50). -/
def State.openTransfer (s : State) (n : Nat) (p : Partition) (x : Nat × DWord × BitVec 512) (rest : List (Nat × DWord × BitVec 512))
    (lossy : Bool) : State :=
  let r := Req.of x.2.2
  let k := flitKey x
  let sites := s.writeSites n p.pnum k.1 r lossy
  let ok := sites.isSome
  let i : Incoming :=
    { src := k.1, xfer := k.2, payload := x.2.2, lossy := lossy, arrived := [], denied := !ok, data := (sites.map (·.1)).getD 0,
      flag := (sites.map (·.2.1)).getD 0, mask := (sites.map (·.2.2)).getD 0 }
  let t := s.mapPort n (fun q =>
    let q1 := { q with inbox := rest, incoming := q.incoming.filter (fun y => !(y.src == k.1 && y.xfer == k.2)) ++ [i] }
    if lossy || !ok then q1.reply s.ownModule s.window k.1 k.2 0 (if ok then stDone else stDenied) 0 true else q1)
  t.takeHeld n p.pnum k

/-- REMOTE_WRITE_REQUEST. R42, R50. -/
def execRemoteWriteRequest (port : BitVec 3) (s : State) : Host.Outcome State Fault Refusal :=
  let n := port.toNat
  match s.portPart n, takeFlit (requestOp (fun r => r.op == opWrite && r.flag != noFlag)) (s.portN n).inbox with
  | some p, some (x, rest) => .next (s.openTransfer n p x rest false)
  | _, _ => .next s

/-- The deadline of a lossy transfer has passed (R43): it lies before the end of the window in progress. -/
def Req.overdue (r : Req) (w : Nat) : Bool := decide (r.close + lossyDelay < windowStart (w + 1))

/-- The blocks of a transfer that have not been written. -/
def Incoming.open (i : Incoming) : List Nat := (List.range (Req.of i.payload).blocks).filter (fun j => !i.arrived.contains j)

/-- The blocks of a lossy transfer that are still open are lost. -/
def State.closeLossy (s : State) (n part : Nat) (key : Nat × Nat) : State :=
  match (s.portN n).transfer key.1 key.2 with
  | some i => s.overBlocks n key (fun t i j => if t.landWaits part i j then t else t.loseBlock n part i j) i.open
  | none => s

/-- LOSSY_WRITE_REQUEST. R43, R44, R50: one that comes after its deadline takes the held blocks, and loses the others at once. -/
def execLossyWriteRequest (port : BitVec 3) (s : State) : Host.Outcome State Fault Refusal :=
  let n := port.toNat
  match s.portPart n, takeFlit (requestOp (fun r => r.op == opLossy)) (s.portN n).inbox with
  | some p, some (x, rest) =>
    let t := s.openTransfer n p x rest true
    .next (if (Req.of x.2.2).close + lossyDelay < windowStart x.1 then t.closeLossy n p.pnum (flitKey x) else t)
  | _, _ => .next s

/-- A data flit that belongs to no store write or quire add whose request waits in the inbox (R47, R371). -/
def blockFlit (inbox : List (Nat × DWord × BitVec 512)) (x : Nat × DWord × BitVec 512) : Bool :=
  (headType x.2.1 == tyData || headType x.2.1 == tyLossy) &&
    !inbox.any (fun y => flitKey y == flitKey x && requestOp (fun r => (r.op == opWrite && r.flag == noFlag) || r.op == opAtomic) y)

/-- A block that came after the deadline of its transfer is discarded (R43). -/
def Incoming.late (i : Incoming) (w : Nat) : Bool := i.lossy && decide ((Req.of i.payload).close + lossyDelay < windowStart w)

/-- DATA_BLOCK_ARRIVAL. R42 to R44: the block lands, or is held until its request comes. -/
def execDataBlockArrival (port : BitVec 3) (s : State) : Host.Outcome State Fault Refusal :=
  let n := port.toNat
  match s.portPart n, takeFlit (blockFlit (s.portN n).inbox) (s.portN n).inbox with
  | some p, some (x, rest) =>
    let k := flitKey x
    let j := headBlock x.2.1
    let t := s.mapPort n (fun q => { q with inbox := rest })
    match (t.portN n).transfer k.1 k.2 with
    | some i => .next (if i.late x.1 then t else if s.landWaits p.pnum i j then s else t.takeBlock n p.pnum i j x.2.2.toNat)
    | none => .next (t.mapPort n (fun q => { q with held := q.held ++ [(k.1, k.2, j, headType x.2.1 == tyLossy, x.2.2, x.1)] }))
  | _, _ => .next s

/-- LOSSY_DEADLINE. R43, R46. -/
def execLossyDeadline (port : BitVec 3) (src : BitVec 8) (xfer : BitVec 12) (s : State) : Host.Outcome State Fault Refusal :=
  let n := port.toNat
  match s.portPart n, (s.portN n).transfer src.toNat xfer.toNat with
  | some p, some i =>
    .next (if i.lossy && (Req.of i.payload).overdue s.window then s.closeLossy n p.pnum (src.toNat, xfer.toNat) else s)
  | _, _ => .next s

/-- HELD_BLOCK_EXPIRY. R44: lossy blocks that no request has named in 6,250 ns are discarded. -/
def execHeldBlockExpiry (port : BitVec 3) (src : BitVec 8) (xfer : BitVec 12) (s : State) : Host.Outcome State Fault Refusal :=
  .next (s.mapPort port.toNat (fun p => { p with held := p.held.filter (fun h =>
    !(h.1 == src.toNat && h.2.1 == xfer.toNat && h.2.2.2.1 && decide (h.2.2.2.2.2 + 5 ≤ s.window))) }))

/-- The source queue of a transfer (R45): module, tile and engine queue. -/
def Incoming.source (i : Incoming) : Nat := i.src * 4096 + (Req.of i.payload).srctile % 4096

/-- The issue number whose flag is next for a source queue. -/
def Port.nextFlag (p : Port) (k : Nat) : Nat := ((p.qseqSeen.find? (fun x => x.1 == k)).map (·.2)).getD 0

/-- A write ends at its target (R42, R45): a reliable one is answered, and the next flag of its source queue may go. -/
def State.endIncoming (s : State) (n : Nat) (i : Incoming) (bad : Bool) : State :=
  s.mapPort n (fun u =>
    let u1 := { u with incoming := u.incoming.filter (fun y => y != i),
                       qseqSeen := setKey i.source (((Req.of i.payload).qseq + 1) % 64) u.qseqSeen }
    if i.lossy || i.denied then u1 else u1.reply s.ownModule s.window i.src i.xfer 0 (if bad then stDenied else stDone) 0 true)

/-- FLAG_INCREMENT. R42, R43, R45, R185: every block is visible, those that went on to a peer included, and the earlier flags of the source
queue have been incremented. A reliable write is answered once its flag has been; a denied one increments nothing and only lets the next one
go. -/
def execFlagIncrement (port : BitVec 3) (src : BitVec 8) (xfer : BitVec 12) (s : State) : Host.Outcome State Fault Refusal :=
  let n := port.toNat
  let q := s.portN n
  match s.portPart n, q.transfer src.toNat xfer.toNat with
  | some p, some i =>
    let who := exportAgent n i.key
    if !i.open.isEmpty ∨ q.nextFlag i.source ≠ (Req.of i.payload).qseq % 64 ∨ s.exportBusy who p.pnum then .next s
    else if i.denied || p.exportFailed who then .next ((s.useFar who p.pnum).endIncoming n i true)
    else if (p.farAnswer (farKey (who + 1) (dieAt i.flag) (offAt i.flag) true) == .away) && s.exportWaits (who + 1) p.pnum i.flag 4 then .next s
    else match s.exportAtomic (who + 1) p.pnum i.flag (flagAtom 0) with
      | (t, .away) => .next t
      | (t, .got _) => .next (((t.useFar who p.pnum).useFar (who + 1) p.pnum).endIncoming n i false)
      | (t, .denied) => .next (((t.useFar who p.pnum).useFar (who + 1) p.pnum).endIncoming n i true)
  | _, _ => .next s

/-- The data flit of a request, in the inbox or held because it came first (R44, R47, R371): its payload, and the inbox and the held flits
without it. -/
def Port.follower (p : Port) (key : Nat × Nat) (inbox : List (Nat × DWord × BitVec 512)) :
    Option (BitVec 512 × List (Nat × DWord × BitVec 512) × List (Nat × Nat × Nat × Bool × BitVec 512 × Nat)) :=
  match takeFlit (fun y => headType y.2.1 == tyData && flitKey y == key) inbox with
  | some (y, rest) => some (y.2.2, rest, p.held)
  | none => match p.held.find? (fun h => h.1 == key.1 && h.2.1 == key.2 && !h.2.2.2.1) with
    | some h => some (h.2.2.2.2.1, inbox, p.held.filter (fun x => x != h))
    | none => none

/-- A store write whose data flit is here (R371). -/
def Port.storeReady (p : Port) (x : Nat × DWord × BitVec 512) : Bool :=
  requestOp (fun r => r.op == opWrite && r.flag == noFlag) x && (p.follower (flitKey x) p.inbox).isSome

/-- STORE_WRITE. R50, R371: the request and its data flit are here; the bytes are written, and the source is answered once those that go on
to a peer have been written there. -/
def execStoreWrite (port : BitVec 3) (s : State) : Host.Outcome State Fault Refusal :=
  let n := port.toNat
  let q := s.portN n
  match s.portPart n, takeFlit q.storeReady q.inbox with
  | some p, some (x, rest) => match q.follower (flitKey x) rest with
    | none => .next s
    | some (data, rest2, held) =>
      let r := Req.of x.2.2
      let k := flitKey x
      let who := exportAgent n k
      let answer (t : State) (status : Byte) : State :=
        (t.useFar who p.pnum).mapPort n (fun u => ({ u with inbox := rest2, held := held }).reply s.ownModule s.window k.1 k.2 0 status 0 true)
      if s.exportBusy who p.pnum then .next s
      else if p.far.any (fun y => y.1 / 2 ^ 65 == who) then .next (answer s (if p.exportFailed who then stDenied else stDone))
      else match s.reachable n p.pnum k.1 r.target r.length rtWrite true false with
        | none => .next (answer s stDenied)
        | some a =>
          if s.exportWaits 0 p.pnum a r.length then .next s
          else
            let t := s.exportWrite who p.pnum a r.length (data.toNat % 2 ^ (8 * r.length))
            .next (if t.exportBusy who p.pnum then t else answer t stDone)
  | _, _ => .next s

/-! ## Loads, atomics and watches (R47, R48, R370) -/

/-- REMOTE_LOAD. R47, R50: what lives at a peer is asked for there first (R171). -/
def execRemoteLoad (port : BitVec 3) (s : State) : Host.Outcome State Fault Refusal :=
  let n := port.toNat
  match s.portPart n, takeFlit (requestOp (fun r => r.op == opLoad)) (s.portN n).inbox with
  | some p, some (x, rest) =>
    let r := Req.of x.2.2
    let k := flitKey x
    let who := exportAgent n k
    let answer (t : State) (data : BitVec 512) (status : Byte) : State :=
      (t.useFar who p.pnum).mapPort n (fun q => ({ q with inbox := rest }).reply s.ownModule s.window k.1 k.2 data status 0 false)
    match s.reachable n p.pnum k.1 r.target r.length rtRead false false with
    | none => .next (answer s 0 stDenied)
    | some a => match s.exportRead who p.pnum a r.length with
      | .denied => .next (answer s 0 stDenied)
      | .away => .next (s.exportAsk who p.pnum a r.length)
      | .got v => .next (answer (s.exportKeep p.pnum a r.length) (BitVec.ofNat 512 v) stDone)
  | _, _ => .next s

/-- The atomic of a request (R47, R158, R333), with the image's bytes that follow it; none for a reserved AOP. -/
def Req.atom (r : Req) (follower : BitVec 512) : Option Atom :=
  let w (op : AmoOp) (x : Nat) : Option Atom := some (.word 0 0 r.length op (BitVec.ofNat 64 x))
  match r.aop with
  | 1 => w .add r.opa
  | 2 => w .and r.opa
  | 3 => w .or r.opa
  | 4 => w .xor r.opa
  | 5 => w .min r.opa
  | 6 => w .max r.opa
  | 7 => w .maxu r.opa
  | 8 => w .xchg r.opa
  | 9 => w (.cas (BitVec.ofNat 64 r.opa)) r.opb
  | 10 => w (.padd (BitVec.ofNat 4 (r.opa / 2 ^ 60))) (r.opa % 2 ^ 32)
  | 11 => some (.quire 0 0 (BitVec.ofNat 576 (r.opa * 2 ^ 512 + follower.toNat)))
  | _ => none

/-- Tag t is newer than the highest one seen (R48). -/
def newerTag (t : Nat) (highest : Option Nat) : Bool :=
  match highest with
  | none => true
  | some h => decide (1 ≤ (t + 2 ^ 16 - h) % 2 ^ 16) && decide ((t + 2 ^ 16 - h) % 2 ^ 16 ≤ 32767)

/-- The reply cache after an atomic: the last 64 (R48). -/
def Pair.remember (p : Pair) (tag : Nat) (data : BitVec 512) : Pair :=
  let l := p.cache ++ [(tag, data, stDone)]
  { p with cache := l.drop (l.length - 64) }

/-- The highest tag that has been seen (R48), also on an atomic that is denied. -/
def Pair.see (p : Pair) (tag : Nat) : Pair := if newerTag tag p.highest then { p with highest := some tag } else p

/-- An atomic that has all its flits: a quire add has a data flit (R47). -/
def Port.atomicReady (p : Port) (x : Nat × DWord × BitVec 512) : Bool :=
  requestOp (fun r => r.op == opAtomic && (r.aop != 11 || (p.follower (flitKey x) p.inbox).isSome)) x

/-- The data flit that follows a quire add, and the inbox and the held flits without it; another atomic has none (R47). -/
def Port.operand (p : Port) (r : Req) (key : Nat × Nat) (rest : List (Nat × DWord × BitVec 512)) :
    Option (BitVec 512 × List (Nat × DWord × BitVec 512) × List (Nat × Nat × Nat × Bool × BitVec 512 × Nat)) :=
  if r.aop = 11 then p.follower key rest else some (0, rest, p.held)

/-- REMOTE_ATOMIC. R47, R48, R50: executed once, or its cached reply sent again, or REPLAYED with the word's value. One that its grant or the
translation refuses now is DENIED, though its tag be cached (DESIGN CHOICE, log entry 55). -/
def execRemoteAtomic (port : BitVec 3) (s : State) : Host.Outcome State Fault Refusal :=
  let n := port.toNat
  let q := s.portN n
  match s.portPart n, takeFlit q.atomicReady q.inbox with
  | some p, some (x, rest) =>
    let r := Req.of x.2.2
    let k := flitKey x
    match q.operand r k rest with
    | none => .next s
    | some (follower, rest2, held) =>
      let who := exportAgent n k
      let answer (t : State) (data : BitVec 512) (status : Byte) : State :=
        (t.useFar who p.pnum).mapPort n (fun u =>
          (({ u with inbox := rest2, held := held }).mapPair k.1 (fun z => z.see r.tag)).reply s.ownModule s.window k.1 k.2 data status 0 false)
      match r.atom follower, s.reachable n p.pnum k.1 r.target r.length rtAtomic true true with
      | some x, some a => match (q.pair k.1).cache.find? (fun c => c.1 == r.tag) with
        | some c => .next (answer s c.2.1 c.2.2)
        | none =>
          if newerTag r.tag (q.pair k.1).highest then
            if (p.farAnswer (farKey who (dieAt a) (offAt a) true) == .away) && s.exportWaits who p.pnum a r.length then .next s
            else match s.exportAtomic who p.pnum a x with
              | (t, .got y) =>
                let data : BitVec 512 := BitVec.ofNat 512 y
                .next (answer (t.mapPort n (fun u => u.mapPair k.1 (fun z => z.remember r.tag data))) data stDone)
              | (t, .away) => .next t
              | (t, .denied) => .next (answer t 0 stDenied)
          else match s.exportRead who p.pnum a r.length with
            | .got v => .next (answer (s.exportKeep p.pnum a r.length) (BitVec.ofNat 512 v) stReplayed)
            | .away => .next (s.exportAsk who p.pnum a r.length)
            | .denied => .next (answer s 0 stDenied)
      | _, _ => .next (answer s 0 stDenied)
  | _, _ => .next s

/-- WATCH. R50, R370: the exporter holds one watch for each source module, tile and slot; the newest replaces it. -/
def execWatch (port : BitVec 3) (s : State) : Host.Outcome State Fault Refusal :=
  let n := port.toNat
  match s.portPart n, takeFlit (requestOp (fun r => r.op == opWatch)) (s.portN n).inbox with
  | some p, some (x, rest) =>
    let r := Req.of x.2.2
    let k := flitKey x
    let t := s.mapPort n (fun q => { q with inbox := rest })
    if (s.reachable n p.pnum k.1 r.target 4 rtRead false false).isSome then
      .next (t.mapPort n (fun q => { q with
        watches := q.watches.filter (fun h => h.src != k.1 || h.srctile != r.srctile) ++ [⟨k.1, r.srctile, k.2, x.2.2⟩] }))
    else .next (t.mapPort n (fun q => q.reply s.ownModule s.window k.1 k.2 0 stDenied r.tag false))
  | _, _ => .next s

/-- WATCH_SATISFIED. R276, R370: the test holds at the word's slice; the reply carries the value and the watch number. A word that lives at a
peer is read there once more each time (R171). -/
def execWatchSatisfied (port : BitVec 3) (src : BitVec 8) (srctile : BitVec 16) (s : State) : Host.Outcome State Fault Refusal :=
  let n := port.toNat
  match s.portPart n, (s.portN n).watches.find? (fun h => h.src == src.toNat && h.srctile == srctile.toNat) with
  | some p, some h =>
    let r := Req.of h.payload
    let who := exportAgent n (h.src, h.xfer)
    let answer (data : BitVec 512) (status : Byte) : State :=
      (s.useFar who p.pnum).mapPort n (fun q => ({ q with watches := q.watches.filter (· != h) }).reply s.ownModule s.window h.src h.xfer
        data status r.tag false)
    match s.reachable n p.pnum h.src r.target 4 rtRead false false with
    | none => .next (answer 0 stDenied)
    | some a => match s.exportRead who p.pnum a 4 with
      | .denied => .next (answer 0 stDenied)
      | .away => .next (s.exportAsk who p.pnum a 4)
      | .got v =>
        .next (if waitTest (r.opb % 2 == 0) (BitVec.ofNat 32 v) (BitVec.ofNat 32 r.opa) then answer (BitVec.ofNat 512 v) stDone
          else s.useFar who p.pnum)
  | _, _ => .next s

/-! ## Replies at the source (R37, R42, R43) -/

/-- A reply flit that answers a request or transfer of a kind. -/
def Port.answers (p : Port) (f : Outgoing → Bool) (x : Nat × DWord × BitVec 512) : Bool :=
  headType x.2.1 == tyReply && p.outgoing.any (fun o => o.xfer == headXfer x.2.1 && o.dst == headSrc x.2.1 && f o)

/-- The request or transfer that a reply answers. -/
def Port.answered (p : Port) (x : Nat × DWord × BitVec 512) : Option Outgoing :=
  p.outgoing.find? (fun o => o.xfer == headXfer x.2.1 && o.dst == headSrc x.2.1)

/-- A reply has left the inbox, and what it answers has ended (R37). -/
def State.endReply (s : State) (n : Nat) (o : Outgoing) (rest : List (Nat × DWord × BitVec 512)) : State :=
  (s.mapPort n (fun p => { p with inbox := rest })).dropOutgoing n o.xfer

/-- The reply says DENIED. -/
def isDenied (payload : BitVec 512) : Bool := Config.replyStatus payload == stDenied

/-- COMPLETION_REPLY. R42, R50, R184, R371: a reliable write or a store write has ended. -/
def execCompletionReply (port : BitVec 3) (s : State) : Host.Outcome State Fault Refusal :=
  let n := port.toNat
  let p := s.portN n
  match takeFlit (p.answers (fun o => (Req.of o.payload).op == opWrite)) p.inbox with
  | none => .next s
  | some (x, rest) => match p.answered x with
    | none => .next s
    | some o =>
      let t := s.endReply n o rest
      let bad := isDenied x.2.2
      match o.command, o.request with
      | some (uid, eq, num), _ =>
        .next ((t.mapCtx uid (fun c =>
          (if bad then c.fail false 0 (BitVec.ofNat 8 o.dst) (BitVec.ofNat 2 eq) 1 else c).partDone num)).syncSave uid)
      | none, some id => match t.requestOf id with
        | some r => .next (t.replace id [if bad then r.refuse else r.answer s.cycle [] false])
        | none => .next t
      | none, none => .next t

/-- VERDICT. R43, R50, R184: the target's answer to a lossy write whose blocks have left. -/
def execVerdict (port : BitVec 3) (s : State) : Host.Outcome State Fault Refusal :=
  let n := port.toNat
  let p := s.portN n
  match takeFlit (p.answers (fun o => (Req.of o.payload).op == opLossy && o.left == 0)) p.inbox with
  | none => .next s
  | some (x, rest) => match p.answered x with
    | none => .next s
    | some o =>
      let t := s.endReply n o rest
      match o.command with
      | some (uid, eq, _) =>
        .next ((t.mapCtx uid (fun c =>
          (if isDenied x.2.2 then c.fail false 0 (BitVec.ofNat 8 o.dst) (BitVec.ofNat 2 eq) 1 else c).verdictIn)).syncSave uid)
      | none => .next t

/-! ## Replies at the tile (R47, R132, R177, R276) -/

/-- What a reply's data block brings to the lanes of a request (R47). -/
def Ask.answer (block : Nat) : Ask → List (Nat × Nat)
  | .load ps =>
    let lo := (spanOf (ps.map (fun p => (p.off, p.size)))).1
    ps.map (fun p => (p.lane, block / 2 ^ (8 * (p.off - lo)) % 2 ^ (8 * p.size)))
  | .atomic (.word lane _ size _ _) => [(lane, block % 2 ^ (8 * size))]
  | _ => []

/-- A request answered by a reply flit (R47, R50). -/
def Request.answeredBy (r : Request) (cycle : Nat) (payload : BitVec 512) : Request :=
  if isDenied payload then r.refuse
  else { r.answer cycle (r.ask.answer (Config.replyData payload).toNat) false with status := Config.replyStatus payload }

/-- An access that the owning die forwarded shows no status (R166, R171). -/
def Request.shown (r : Request) : Request := if r.home.isSome then { r with status := stDone } else r

/-- The reply flit of a fabric access, when it is in the port's inbox, answers the access (R37, R47, R370). -/
def State.pullReply (s : State) (r : Request) : State :=
  let n := (s.partN r.part).port
  let p := s.portN n
  if r.space = 5 ∧ r.stage = .moving then
    match p.outgoing.find? (fun o => o.request == some r.id) with
    | none => s
    | some o => match takeFlit (fun x => headType x.2.1 == tyReply && headXfer x.2.1 == o.xfer && headSrc x.2.1 == o.dst) p.inbox with
      | none => s
      | some (x, rest) =>
        let q := r.answeredBy s.cycle x.2.2
        let t := s.endReply n o rest
        (if q.denied then t else t.holdAtomic q).replace r.id [q.shown]
  else s

/-- The answer of a request is taken at its tile when it has come, and is a reply or an acknowledgement as the event says. -/
def State.takeReply (s : State) (id : Nat) (reply : Bool) : State :=
  match s.requestOf id with
  | none => s
  | some r =>
    if r.replies != reply then s
    else
      let t := s.pullReply r
      match t.requestOf id with
      | some q => if q.home? then t.takeAnswer q else t
      | none => t

/-- REPLY_ARRIVAL. R132, R166, R178, R276. -/
def execReplyArrival (id : Nat) (s : State) : Host.Outcome State Fault Refusal := .next (s.takeReply id true)

/-- STORE_ACK. R167, R177. -/
def execStoreAck (id : Nat) (s : State) : Host.Outcome State Fault Refusal := .next (s.takeReply id false)

end Sys2Proof.Machine
end

