-- ==== Sys2Proof/Machine/Engines.lean ====
section
/-!
DEFINITION. How engine commands perform (08_ordering R182 to R185, 14_isa_matrix_memory_engines R339 to R347): bytes read and written,
local commands, transfers that close, and completion. Its accesses in the own cluster perform at the ports of its tile, those in other
clusters and at peers are requests, and those to the module's global memory perform when it completes (log entry 23).
-/
namespace Sys2Proof.Machine
open Sys2Proof

/-! ## Bytes of a command -/

/-- n bytes from a pointer, one pointer each. -/
def pointers (p : DWord) (n : Nat) : List DWord := (List.range n).map (fun i => ptrAdd p i)

/-- The die and the offset of a space-0 pointer (R162). -/
def dieOfPtr (p : DWord) : Nat := p.toNat / 2 ^ 57 % 8
def offOfPtr (p : DWord) : Nat := p.toNat % 2 ^ 57

/-- One byte of a source of the context in view (R338, R339); none where its translation fails. got holds the bytes that have come from
the scratchpads and from pages at a peer. -/
def State.engineByte (s : State) (got : List (Nat × Byte)) (p : DWord) : Option Byte :=
  let come := (got.find? (fun x => x.1 == p.toNat)).map (·.2)
  match spaceOf p with
  | 0 => match s.spot s.cur.part (dieOfPtr p) (offOfPtr p) 1 false false with
    | .here as => (as.head?).map (fun a => Memory.read s.mem a)
    | .far .. => come
    | .denied => none
  | _ => come

/-- A piece of a source that is read by a request: at a peer (R171), or at a task of another cluster (R159). -/
structure FarPiece where
  ptr  : DWord
  addr : DWord
  seat : Nat × Nat
  off  : Nat
  size : Nat

/-- The pieces of a command's sources that requests read. -/
def State.farSources (s : State) (k : Cmd) : List FarPiece :=
  ((k.sources.map (fun x => chunksOf x.1 x.2)).flatten).filterMap (fun x =>
    match spaceOf x.1 with
    | 0 => match s.spot s.cur.part (dieOfPtr x.1) (offOfPtr x.1) x.2 false false with
      | .far peer o => some ⟨x.1, peerPointer peer o, (s.cur.tile, s.cur.slot), o, x.2⟩
      | _ => none
    | 2 =>
      let r := s.resolve x.1 0 x.2 1 .source false
      if (s.ownSite x.1).isSome ∨ !r.2.isEmpty then none
      else r.1.holders.head?.map (fun h => ⟨x.1, x.1, h, r.1.off, x.2⟩)
    | _ => none)

/-- An access of an engine command that goes to a peer or to a task of another cluster. -/
def State.engineRequest (s : State) (k : Command) (addr : DWord) (seat : Nat × Nat) (ask : Ask) (sink : Sink) (home : Option DWord) : State :=
  { s with
    requests := s.requests ++ [{ id := s.nextReq, uid := s.cur.uid, part := s.cur.part, swarm := s.cur.handle, source := s.cur.tile,
                                 tile := seat.1, slot := seat.2, addr := addr, ask := ask, sink := sink, slice := none,
                                 acquire := false, stage := .queued, readyAt := s.cycle, data := [], denied := false, status := 0,
                                 home := home, engine := some (k.eq.toNat, k.num), bundle := 0, epoch := 0, strong := false, at_ := 0,
                                 shadow := [], skip := [] }]
    nextReq := s.nextReq + 1 }

/-- The tile and slot of the context in view. -/
def State.seatHere (s : State) : Nat × Nat := (s.cur.tile, s.cur.slot)

/-- The command of the context in view changed. -/
def State.mapCommand (s : State) (num : Nat) (f : Command → Command) : State := s.withCur (s.cur.mapCommand num f)

/-- The requests for a command's bytes leave: each piece is one load. -/
def State.askFar (s : State) (k : Command) : State :=
  let far := s.farSources k.cmd
  let t := far.foldl (fun u x => u.engineRequest k x.addr x.seat (.load [⟨0, x.off, x.size⟩]) .discard (some x.ptr)) s
  t.mapCommand k.num (fun c => { c with asked := true, owed := far.length })

/-- The translations of a command's sources in global memory are kept (R162). -/
def State.keepSources (s : State) (k : Cmd) : State :=
  ((k.sources.filter (fun x => spaceOf x.1 == 0))).foldl (fun t x => t.keepRun t.cur.part (dieOfPtr x.1) (offOfPtr x.1) x.2) s

/-! ## Writing -/

/-- A write that a request makes: the pointer that names it, its address, the task that it names, and the part. -/
structure FarPut where
  ptr  : DWord
  addr : DWord
  seat : Nat × Nat
  part : Part

/-- What a command has done so far: the state, the first pointers of the accesses that have failed, in order, its writes in the own
cluster, those that requests make, and how many requests have left already. -/
structure Work where
  s     : State
  fails : List DWord
  puts  : List Put
  far   : List FarPut
  more  : Nat

/-- Nothing done, no access failed. -/
def Work.of (s : State) : Work := { s := s, fails := [], puts := [], far := [], more := 0 }

/-- A failed access. -/
def Work.fail (w : Work) (p : DWord) : Work := { w with fails := w.fails ++ [p] }

/-- Bytes of global memory written by a command, page by page (R162, R169, R171, R339). -/
def Work.writeGlobal (w : Work) (p : DWord) (bytes : List Byte) : Work :=
  let die := dieOfPtr p
  let kept := { w with s := w.s.keepRun w.s.cur.part die (offOfPtr p) bytes.length }
  (cutParts [⟨offOfPtr p, bytes.length, natOfBytes bytes⟩]).foldl (fun x q =>
    let at_ := ptrAdd p (q.off - offOfPtr p)
    match x.s.spot x.s.cur.part die q.off q.size true false with
    | .here as => { x with s := x.s.write0 x.s.cur.part die q.off as q.value }
    | .far peer o => { x with s := x.s.hold x.s.cur.part die q.off (bytesOfNat q.size q.value), far := x.far ++ [⟨at_, peerPointer peer o, x.s.seatHere, { q with off := o }⟩] }
    | .denied => x.fail at_) kept

/-- At most 128 bytes written at a pointer: in space 4 at every member (R160). Those in the own cluster go through the tile's ports, bank
word by bank word; those of another cluster and of a group over the mesh. -/
def Work.write (w : Work) (p : DWord) (bytes : List Byte) : Work :=
  match spaceOf p with
  | 0 => w.writeGlobal p bytes
  | 3 => { w with s := w.s.siteWrite [] .weight (p.toNat % 2 ^ fieldBits 3) bytes.length (natOfBytes bytes) }
  | _ =>
    let r := w.s.resolve p 0 bytes.length 1 .dest false
    if !r.2.isEmpty then w.fail p
    else if (w.s.ownSite p).isSome then
      { w with puts := w.puts ++ ((chunksOf p bytes.length).map (fun x => let o := (x.1 - p).toNat
          ⟨r.1.site, r.1.off + o, (bytes.drop o).take x.2, false, x.1⟩)) }
    else { w with far := w.far ++ r.1.holders.map (fun h => ⟨p, p, h, ⟨r.1.off, bytes.length, natOfBytes bytes⟩⟩) }

/-- The reads of a list of moves, each of some source bytes to a destination: what is to be written, and the first failing pointer of
each move that fails (R339). -/
def State.readMoves (s : State) (got : List (Nat × Byte)) (ms : List (DWord × List DWord)) : List (DWord × List Byte) × List DWord :=
  let rs := ms.map (fun m => (m.1, m.2.map (fun p => (p, s.engineByte got p))))
  (rs.filterMap (fun r => if r.2.any (fun b => b.2.isNone) then none else some (r.1, r.2.filterMap (·.2))),
   rs.filterMap (fun r => (r.2.find? (fun b => b.2.isNone)).map (·.1)))

/-- Moves performed: every read comes before every write (R340), and the writes go in order (R341). -/
def State.moves (s : State) (got : List (Nat × Byte)) (ms : List (DWord × List DWord)) : Work :=
  let r := s.readMoves got ms
  r.1.foldl (fun w x => w.write x.1 x.2) { s := s, fails := r.2, puts := [], far := [], more := 0 }

/-! ## The commands (R340 to R346) -/

/-- A run of bytes moved in pieces of at most 64 (R340). -/
def movesOf (dst src : DWord) (len : Nat) : List (DWord × List DWord) :=
  (chunksOf src len).map (fun x => (ptrAdd dst (x.1.toNat - src.toNat), pointers x.1 x.2))

/-- A run of bytes moved in blocks of 64 from its first byte on (R41). -/
def blocksOf (dst src : DWord) (len : Nat) : List (DWord × List DWord) :=
  (List.range ((len + 63) / 64)).map (fun j => (ptrAdd dst (64 * j), pointers (ptrAdd src (64 * j)) (min 64 (len - 64 * j))))

/-- The elements of GTH or SCT (R341): packed place and scattered place. -/
def elementsOf (packed base : DWord) (idx : List Nat) (esz : Nat) : List (DWord × DWord) :=
  idx.zipIdx.map (fun x => (ptrAdd packed (x.2 * esz), ptrAdd base (x.1 * esz)))

/-- The entry of a result queue that GTH or RRD fills from elements of n bytes: one lane each (R341, R345). A lane with a failed byte is
poisoned. -/
def State.fillLanes (s : State) (k : QNum) (req : Nat) (es : List (List DWord)) (got : List (Nat × Byte)) : State :=
  let rs := es.zipIdx.map (fun e => (e.2, e.1.map (fun p => s.engineByte got p)))
  let bad := buildMask (BitVec.allOnes 128) (fun l => rs.any (fun r => r.1 == l && r.2.any (·.isNone)))
  let data := (rs.filter (fun r => !r.2.any (·.isNone))).map (fun r => (r.1, natOfBytes (r.2.filterMap id)))
  s.withCur (s.cur.fillQueue k req (fun e => e.fill 0 false 32 data bad 0))

/-- A run of bytes in words of 4. -/
def wordsOf (p : DWord) (len : Nat) : List (List DWord) :=
  (List.range ((len + 3) / 4)).map (fun j => pointers (ptrAdd p (4 * j)) (min 4 (len - 4 * j)))

/-- TINFO names the most recent poisoning load, but in handler mode (R166). -/
def Ctx.poisonedBy (c : Ctx) (p : DWord) : Ctx := if c.handling then c else { c with sys := { c.sys with tinfo := p } }

/-- Whether any byte of a list of runs fails. -/
def State.anyFails (s : State) (got : List (Nat × Byte)) (es : List (List DWord)) : Option DWord :=
  (es.flatten).find? (fun p => (s.engineByte got p).isNone)

/-- What a command performs within the module, at the context in view (R340 to R346). -/
def State.performCmd (s : State) (k : Command) : Work :=
  let g := k.got
  match k.cmd with
  | .cpy dst src len => s.moves g (movesOf dst src len)
  | .gth packed base toQueue idx esz req =>
    if toQueue then
      let es := idx.map (fun x => pointers (ptrAdd base (x * esz)) esz)
      { s := s.fillLanes k.eq req es g, fails := (s.anyFails g es).toList, puts := [], far := [], more := 0 }
    else s.moves g ((elementsOf packed base idx esz).map (fun x => (x.1, pointers x.2 esz)))
  | .sct packed base idx esz => s.moves g ((elementsOf packed base idx esz).map (fun x => (x.2, pointers x.1 esz)))
  | .wld src line count =>
    s.moves g ((List.range count).map (fun n =>
      (BitVec.ofNat 64 (3 * 2 ^ 60 + 128 * (line + n)), pointers (ptrAdd src (128 * n)) 128)))
  | .rwr dst src len _ _ _ => s.moves g (blocksOf dst src len)
  | .rwg dst src len _ => s.moves g (blocksOf dst src len)
  | .rrd src len rq req =>
    let es := wordsOf src len
    let t := s.fillLanes rq req es g
    { s := if (s.anyFails g es).isSome then t.withCur (t.cur.poisonedBy src) else t, fails := [], puts := [], far := [], more := 0 }
  | .coll dst src len _ _ group =>
    match s.rankIn group with
    | some r => s.moves g (blocksOf (ptrAdd dst (r * len)) src len)
    | none => { s := s, fails := [dst], puts := [], far := [], more := 0 }
  | .qfence _ => { s := s, fails := [], puts := [], far := [], more := 0 }

/-- The flag that a command increments at tasks once everything has been written (R185, R344), and whether the issuer's own is left out
(R346). -/
def Cmd.flag : Cmd → Option (DWord × Bool)
  | .rwr _ _ _ flag _ _ => some (flag, false)
  | .rwg _ _ _ flag => some (flag, false)
  | .coll _ _ _ flag _ _ => some (flag, true)
  | _ => none

/-- The accesses of a command in the own cluster begin in the module's cycle. -/
def State.startPuts (s : State) (k : Command) (ps : List Put) : State :=
  match ps with
  | [] => s
  | p :: l => s.withCur (s.cur.stampAccess s.cycle p.site (.put k.num p l))

/-- A command has performed: its failure is recorded, its other writes leave, and with nothing more to do it is complete (R184, R339). A
command that fails increments no flag. -/
def Work.finish (w : Work) (k : Command) : State :=
  let s1 := match w.fails with
    | p :: _ => w.s.withCur (w.s.cur.fail true p 0 k.eq 0)
    | [] => w.s
  let flag := if w.fails.isEmpty then k.cmd.flag else none
  let owed := w.far.length + (if w.puts.isEmpty then 0 else 1)
  if owed = 0 ∧ flag.isNone then s1.withCur (s1.cur.finishCommand k)
  else ((w.far.foldl (fun t x => t.engineRequest k x.addr x.seat (.store [x.part]) .discard (some x.ptr)) s1).startPuts k w.puts).mapCommand k.num
      (fun c => { c with closed := true, owed := owed, flag := flag })

/-- A flag is incremented at the tasks that its pointer names (R185). -/
def State.raiseFlag (s : State) (k : Command) (p : DWord) (skip : Bool) : State :=
  let r := s.resolve p 0 4 4 .dest false
  let hs := r.1.holders.filter (fun h => !(skip && h == s.seatHere))
  let t := s.mapCommand k.num (fun c => { c with flag := none })
  if !r.2.isEmpty then t.withCur ((t.cur.fail true p 0 k.eq 0).finishCommand k)
  else if (s.ownSite p).isSome then
    (t.startPuts k [⟨r.1.site, r.1.off, [], true, p⟩]).mapCommand k.num (fun c => { c with owed := 1 })
  else if hs.isEmpty then t.withCur (t.cur.finishCommand k)
  else (hs.foldl (fun u h => u.engineRequest k p h (.atomic (.word 0 r.1.off 4 .add 1)) .discard (some p)) t).mapCommand k.num
      (fun c => { c with owed := hs.length })

/-! ## Queues (R182, R183, R347) -/

/-- The first command of an engine queue that is not yet on its way: those before it are. -/
def Ctx.candidate (c : Ctx) (eq : QNum) : Option Command := (c.eqs[eq.toNat]'eq.isLt).find? (fun k => !k.closed)

/-- Whether a command is at the head of each of its queues. -/
def Ctx.atHead (c : Ctx) (k : Command) : Bool :=
  k.queues.all (fun q => match (c.eqs[q.toNat]'q.isLt).head? with | some x => x.num == k.num | none => false)

/-- A command whose length or count is 0 performs nothing (R338). -/
def Cmd.empty : Cmd → Bool
  | .cpy _ _ len => len == 0
  | .gth _ _ toQueue idx _ _ => idx.isEmpty && !toQueue
  | .sct _ _ idx _ => idx.isEmpty
  | .wld _ _ count => count == 0
  | .rwr .. | .rwg .. | .rrd .. | .qfence _ => false
  | .coll _ _ len _ _ _ => len == 0

/-- A command that goes to the fabric: it closes transfers (R343, R346). -/
def Cmd.closes : Cmd → Bool
  | .rwr dst _ _ _ _ _ => spaceOf dst == 5
  | .coll _ _ len _ cop _ => cop != 0 && len != 0
  | _ => false

/-- A command whose queue order is that of its issue at the port or of its flags; the others begin when the queue's earlier ones have
performed (R182, R183). -/
def Cmd.pipelined : Cmd → Bool
  | .rwr .. | .rwg .. | .rrd .. => true
  | _ => false

/-- The loads of an RRD from a peer: one for each 64 bytes, lane by lane (R345). -/
def State.sendReads (s : State) (k : Command) (src : DWord) (len : Nat) (rq : QNum) (req : Nat) : State :=
  let o := src.toNat % 2 ^ 52
  let n := (len + 63) / 64
  let t := (List.range n).foldl (fun u i =>
    let m := min 64 (len - 64 * i)
    let ps := (List.range ((m + 3) / 4)).map (fun j => (⟨16 * i + j, o + 64 * i + 4 * j, min 4 (m - 4 * j)⟩ : Piece))
    u.engineRequest k src u.seatHere (.load ps) (.queue rq req false 32 0) none) s
  t.mapCommand k.num (fun c => { c with closed := true, owed := n })

/-- The command of a queue whose turn has come: that of the context in view. -/
def State.turn (s : State) (eq : QNum) : Option Command :=
  (s.cur.candidate eq).bind (fun k => if k.cmd.pipelined || s.cur.atHead k then some k else none)

/-- The command as it stands. -/
def State.commandNow (s : State) (k : Command) : Command := (s.cur.command k.num).getD k

/-- The reads of a command begin, once. -/
def State.beginReads (s : State) (k : Command) : State :=
  let t := if k.begun then s else s.readOwn k s.cycle
  let j := t.commandNow k
  if j.asked ∨ j.closed then t else (t.keepSources k.cmd).askFar k

/-- A command performs once the bytes have come that it reads in the scratchpads and at peers; while they are awaited nothing happens. A
WLD of the own cluster goes on line by line (R342). -/
def State.gathered (s : State) (k : Command) (f : State → Command → State) : State :=
  let t := s.beginReads k
  let j := t.commandNow k
  if j.closed ∨ j.pend ∨ j.owed ≠ 0 then t else f t j

/-- The command at the head of an engine queue that has written everything and has its flag still to increment. -/
def Ctx.flagDue (c : Ctx) (eq : QNum) : Option (Command × DWord × Bool) :=
  match (c.eqs[eq.toNat]'eq.isLt).head? with
  | some k => if k.closed ∧ k.owed = 0 then k.flag.map (fun f => (k, f.1, f.2)) else none
  | none => none

/-- A global destination of a command lies in a page that migrates from a peer and that a write is on its way to (R169). -/
def State.settlingDest (s : State) (p : DWord) : Bool := spaceOf p == 0 && s.settling s.cur.part (dieOfPtr p) (offOfPtr p)
def State.settlingCmd (s : State) (k : Cmd) : Bool :=
  match k with
  | .cpy dst .. => s.settlingDest dst
  | .gth packed _ toQueue .. => !toQueue && s.settlingDest packed
  | .sct _ base idx esz => idx.any (fun i => s.settlingDest (ptrAdd base (i * esz)))
  | _ => false

/-- ENGINE_COMMAND_COMPLETE. R182 to R184, R339 to R347: the command whose turn has come in an engine queue performs, and completes when
nothing of it is on its way to a peer. -/
def execEngineCommandComplete (tile : BitVec 10) (slot eq : BitVec 2) (s : State) : Host.Outcome State Fault Refusal :=
  match s.ctxAt tile.toNat slot.toNat with
  | none => .next s
  | some c =>
    let t := s.focus c.uid
    match t.cur.flagDue eq with
    | some (k, p, skip) => .next (t.raiseFlag k p skip)
    | none => match t.turn eq with
      | none => .next s
      | some k =>
        if k.cmd.closes ∨ t.settlingCmd k.cmd then .next s
        else if k.cmd.empty then .next (t.withCur (t.cur.finishCommand k))
        else match k.cmd with
          | .rrd src len rq req =>
            .next (if spaceOf src = 5 then t.sendReads k src len rq req else t.gathered k (fun u j => (u.performCmd j).finish j))
          | _ => .next (t.gathered k (fun u j => (u.performCmd j).finish j))

/-! ## Transfers (R41, R343, R346) -/

/-- The 64-byte blocks of a source, or the first pointer that fails (R339). -/
def State.sourceBlocks (s : State) (got : List (Nat × Byte)) (src : DWord) (len : Nat) : Except DWord (List (BitVec 512)) :=
  let r := s.readMoves got (blocksOf 0 src len)
  match r.2 with
  | p :: _ => .error p
  | [] => .ok (r.1.map (fun x => BitVec.ofNat 512 (natOfBytes x.2)))

/-- The next n identifiers of a port are free (R37). -/
def Port.roomFor (p : Port) (n : Nat) : Bool :=
  decide (p.outgoing.length + n ≤ 4096) && !p.outgoing.any (fun o => decide ((o.xfer + 4096 - p.nextXfer) % 4096 < n))

/-- The key of an engine queue towards a target module (R41, R45). -/
def qseqKey (tile eq dst : Nat) : Nat := (tile * 4 + eq) * 256 + dst

/-- A transfer that an engine command closes: its target, offsets, bytes and class. -/
structure Shipment where
  dst    : Nat
  target : Nat
  flag   : Nat
  mask   : Nat
  mbit   : Nat
  len    : Nat
  blocks : List (BitVec 512)
  lossy  : Bool
  direct : Bool

/-- A block that FABTEST drops leaves the queue of the port (R57). -/
def Port.dropBlock (p : Port) (xfer block : Nat) : Port :=
  { p with
    waiting := p.waiting.filter (fun x => !(x.owner == some xfer && headBlock x.head == block))
    outgoing := p.outgoing.map (fun o => if o.xfer = xfer then { o with left := o.left - 1 } else o) }

/-- The block that FABTEST drops from a transfer (R57): armed, lossy, and long enough. -/
def TileRec.dropOf (t : TileRec) (x : Shipment) : Option Nat :=
  let b := t.fabtest.toNat % 2 ^ 20
  if t.fabtest.getLsbD 31 ∧ x.lossy ∧ b < x.blocks.length then some b else none

/-- A transfer is closed, stamped and handed to the port (R37, R41, R343): its first window is the next one, and the time within the window
in progress is free. One towards a module that has left ends at once (R56; log entry 55). -/
def State.ship (s : State) (n : Nat) (k : Command) (x : Shipment) : State :=
  let c := s.cur
  let p := s.portN n
  let key := qseqKey c.tile k.eq.toNat x.dst
  let seq := ((p.qseqNext.find? (fun y => y.1 == key)).map (·.2)).getD 0
  let req : Req :=
    { Req.zero with target := x.target, flag := x.flag, mask := x.mask, length := x.len, op := if x.lossy then opLossy else opWrite,
                    close := windowStart s.window + (Config.freeWord s.fresh).toNat % 1250, srctile := c.tile + k.eq.toNat * 2 ^ 10,
                    qseq := seq % 64, mbit := x.mbit }
  let o : Outgoing :=
    { xfer := 0, dst := x.dst, payload := req.pack, blocks := x.blocks, lossy := x.lossy, direct := x.direct,
      command := some (c.uid, k.eq.toNat, k.num), request := none, sentAt := none, resends := 0, left := x.blocks.length }
  let s1 := { s with fresh := s.fresh + 1 }
  if p.hasLeft x.dst then s.withCur ((if x.lossy then c else c.fail false 0 (BitVec.ofNat 8 x.dst) k.eq 2).partDone k.num)
  else
  let s2 := s1.mapPort n (fun q => { q.launch s.ownModule (s.window + 1) o with qseqNext := setKey key ((seq + 1) % 64) q.qseqNext })
  let s3 := if x.lossy then s2.withCur { s2.cur with verdicts := s2.cur.verdicts + 1 } else s2
  let t := s.tileRec c.tile
  match t.dropOf x with
  | none => s3
  | some b =>
    let s4 := (s3.setTile c.tile { t with fabtest := t.fabtest &&& 0x7FFF_FFFF }).mapPort n (fun q => q.dropBlock p.nextXfer b)
    if x.blocks.length = 1 then s4.withCur (s4.cur.partDone k.num) else s4

/-- A command's transfers are on their way, beside some writes that are already (R184). -/
def State.shipAll (s : State) (n : Nat) (k : Command) (xs : List Shipment) (more : Nat) : State :=
  let t := s.mapCommand k.num (fun c => { c with closed := true, owed := xs.length + more })
  if xs.isEmpty ∧ more = 0 then t.withCur (t.cur.finishCommand k) else xs.foldl (fun u x => u.ship n k x) t

/-- The space-0 address of a window offset under a grant of the module's own (R346). -/
def Port.ownWindow (p : Port) (o n : Nat) : Option Nat :=
  (p.exported.find? (fun g => g.freeAt.isNone && decide (g.woff ≤ o) && decide (o + n ≤ g.woff + g.len))).map (fun g =>
    g.fbase.toNat + (o - g.woff))

/-- A bit of a mask of the module's own, through a grant of its own, set as a strong atomic on its byte (R43, R346); at a peer by a request
(R171). -/
def Work.setOwnBit (w : Work) (n : Nat) (k : Command) (m bit : Nat) : Work :=
  let bad := peerPointer 0 m
  match (w.s.portN n).ownWindow m 1 with
  | none => w.fail bad
  | some a =>
    let x : Atom := .word 0 (offAt a) 1 .or (BitVec.ofNat 64 (2 ^ bit))
    match w.s.spot w.s.cur.part (dieAt a) (offAt a) 1 true true with
    | .here as => { w with s := ((w.s.keepRun w.s.cur.part (dieAt a) (offAt a) 1).atom0 w.s.cur.part (dieAt a) (offAt a) as x).1 }
    | .far peer o =>
      { w with s := (w.s.engineRequest k (peerPointer peer o) w.s.seatHere (.atomic (x.moved o)) .discard (some (BitVec.ofNat 64 a))), more := w.more + 1 }
    | .denied => w.fail bad

/-- The local slot of COLL.MOD or COLL.LOSSY at window offset o: its bytes, and its mask bits from bit b of the byte at offset m on (R346). A
failure names the module's own window. -/
def State.ownSlot (s : State) (n : Nat) (k : Command) (o len : Nat) (blocks : List (BitVec 512)) (mask : Option (Nat × Nat)) : Work :=
  let bad := peerPointer 0 o
  match (s.portN n).ownWindow o len with
  | none => (Work.of s).fail bad
  | some a =>
    let bytes := ((blocks.map (fun b => bytesOfNat 64 b.toNat)).flatten).take len
    let w := (chunksOf (BitVec.ofNat 64 a) len).foldl (fun w x => w.write x.1 ((bytes.drop (x.1.toNat - a)).take x.2)) (Work.of s)
    let w1 : Work := if w.fails.isEmpty then w else { w with fails := [bad] }
    match mask with
    | none => w1
    | some (m, b) => (List.range blocks.length).foldl (fun v j => v.setOwnBit n k (m + (b + j) / 8) ((b + j) % 8)) w1

/-- The transfers of a collective: one to every other module that is present, direct (R346). -/
def State.contributions (s : State) (dst flag : DWord) (len : Nat) (blocks : List (BitVec 512)) (lossy : Bool) : List Shipment :=
  let r := s.ownModule
  let bit := r * blocks.length
  let f := flag.toNat % 2 ^ 52
  ((List.range 256).filter (fun m => s.isPresent m && m != r)).map (fun m =>
    { dst := m, target := dst.toNat % 2 ^ 52 + r * len, flag := f, mask := if lossy then f + 64 + bit / 8 else 0,
      mbit := if lossy then bit % 8 else 0, len := len, blocks := blocks, lossy := lossy, direct := true })

/-- A command whose source cannot be read sends no transfer; it is denied and completes (R339). -/
def State.denyCommand (s : State) (k : Command) (p : DWord) : State :=
  s.withCur ((s.cur.fail true p 0 k.eq 0).finishCommand k)

/-- A command's transfers close (R343, R346). -/
def State.closeTransfers (s : State) (n : Nat) (k : Command) : State :=
  match k.cmd with
  | .rwr dst src len flag lossy mask =>
    match s.sourceBlocks k.got src len with
    | .error p => s.denyCommand k p
    | .ok blocks =>
      s.shipAll n k [{ dst := peerOf dst, target := dst.toNat % 2 ^ 52, flag := flag.toNat % 2 ^ 52,
                       mask := if lossy then mask.toNat % 2 ^ 52 else 0, mbit := 0, len := len, blocks := blocks, lossy := lossy,
                       direct := false }] 0
  | .coll dst src len flag cop _ =>
    match s.sourceBlocks k.got src len with
    | .error p => s.denyCommand k p
    | .ok blocks =>
      let lossy := cop == 2
      let r := s.ownModule
      let bit := r * blocks.length
      let w := s.ownSlot n k (dst.toNat % 2 ^ 52 + r * len) len blocks
        (if lossy then some (flag.toNat % 2 ^ 52 + 64 + bit / 8, bit % 8) else none)
      let t := match w.fails with
        | p :: _ => w.s.withCur (w.s.cur.fail true p 0 k.eq 0)
        | [] => w.s
      let u := w.far.foldl (fun x f => x.engineRequest k f.addr f.seat (.store [f.part]) .discard (some f.ptr)) t
      u.shipAll n k (u.contributions dst flag len blocks lossy) (w.far.length + w.more)
  | _ => s

/-- The identifiers that a command needs (R37). -/
def State.transfersOf (s : State) (k : Command) : Nat :=
  match k.cmd with
  | .coll .. => ((List.range 256).filter (fun m => s.isPresent m && m != s.ownModule)).length
  | _ => 1

/-- An earlier command of the queue has a request that has not left the port (R182). -/
def State.behindReads (s : State) (k : Command) : Bool :=
  s.requests.any (fun r => r.uid == s.cur.uid && r.addr.toNat / 2 ^ 60 == 5 && r.stage == .queued &&
    r.engine.any (fun e => e.1 == k.eq.toNat && decide (e.2 < k.num)))

/-- TRANSFER_CLOSE. R41, R343, R346: the last source byte of the remote write whose turn has come in an engine queue has been read. -/
def execTransferClose (tile : BitVec 10) (slot eq : BitVec 2) (s : State) : Host.Outcome State Fault Refusal :=
  match s.ctxAt tile.toNat slot.toNat with
  | none => .next s
  | some c =>
    let t := s.focus c.uid
    match t.turn eq with
    | none => .next s
    | some k =>
      let n := (t.partN c.part).port
      .next (if k.cmd.closes ∧ (t.portN n).roomFor (t.transfersOf k) ∧ !t.behindReads k then t.gathered k (fun u j => u.closeTransfers n j)
        else s)

end Sys2Proof.Machine
end

