-- ==== Sys2Proof/Machine/Integer.lean ====
section
/-!
DEFINITION. The integer operations of the V class (13_isa_vector_quire_jet R293 to R295): elements of 32, 16 or 8 bits,
no flag, latency 2.
-/
namespace Sys2Proof.Machine
open Sys2Proof

/-! ## Shared operations -/

/-- A lane formed from the integer elements of two sources (R293). -/
def intLane (w : Nat) (ws : List (List Word)) (f : Nat → Nat → Nat) : LaneResult :=
  { words := [BitVec.ofNat 32 (laneOf w ((List.range (32 / w)).map (fun j => f (elemOf (wordOf ws 0) w j) (elemOf (wordOf ws 1) w j))))]
    jf := 0 }

/-- An integer operation on the elements of one or two sources (R293). -/
def State.integer (s : State) (i : Instr) (h : Head) (fmt : Fmt) (vd : VNum) (f : Nat → Nat → Nat → Nat) :
    Host.Outcome State Fault Refusal :=
  let w := intWidth fmt
  s.issueV i [] (fun t => t.laneOp i h vd 1 2 false 0 (fun _ ws => intLane w ws (f w)))

/-- An arithmetic right shift of a w-bit pattern (R293). -/
def sarPat (w a n : Nat) : Nat := ((signedOf a w / 2 ^ n) % 2 ^ w).toNat

/-! ## Meanings -/

/-- VIADD. R293. -/
def execViadd (h : Head) (lgm : Lgm) (fmt : Fmt) (vd va vb : VNum) (ha hb : Bool) (s : State) :
    Host.Outcome State Fault Refusal := s.integer (.viadd h lgm fmt vd va vb ha hb) h fmt vd (fun w a b => (a + b) % 2 ^ w)

/-- VISUB. R293. -/
def execVisub (h : Head) (lgm : Lgm) (fmt : Fmt) (vd va vb : VNum) (ha hb : Bool) (s : State) :
    Host.Outcome State Fault Refusal := s.integer (.visub h lgm fmt vd va vb ha hb) h fmt vd (fun w a b => (a + 2 ^ w - b) % 2 ^ w)

/-- VIMUL. R293. -/
def execVimul (h : Head) (lgm : Lgm) (fmt : Fmt) (vd va vb : VNum) (ha hb : Bool) (s : State) :
    Host.Outcome State Fault Refusal := s.integer (.vimul h lgm fmt vd va vb ha hb) h fmt vd (fun w a b => a * b % 2 ^ w)

/-- VIMIN. R293. -/
def execVimin (h : Head) (lgm : Lgm) (fmt : Fmt) (vd va vb : VNum) (ha hb : Bool) (s : State) :
    Host.Outcome State Fault Refusal :=
  s.integer (.vimin h lgm fmt vd va vb ha hb) h fmt vd (fun w a b => if signedOf b w < signedOf a w then b else a)

/-- VIMAX. R293. -/
def execVimax (h : Head) (lgm : Lgm) (fmt : Fmt) (vd va vb : VNum) (ha hb : Bool) (s : State) :
    Host.Outcome State Fault Refusal :=
  s.integer (.vimax h lgm fmt vd va vb ha hb) h fmt vd (fun w a b => if signedOf a w < signedOf b w then b else a)

/-- VAND. R293. -/
def execVand (h : Head) (lgm : Lgm) (fmt : Fmt) (vd va vb : VNum) (ha hb : Bool) (s : State) :
    Host.Outcome State Fault Refusal := s.integer (.vand h lgm fmt vd va vb ha hb) h fmt vd (fun _ a b => a &&& b)

/-- VOR. R293. -/
def execVor (h : Head) (lgm : Lgm) (fmt : Fmt) (vd va vb : VNum) (ha hb : Bool) (s : State) :
    Host.Outcome State Fault Refusal := s.integer (.vor h lgm fmt vd va vb ha hb) h fmt vd (fun _ a b => a ||| b)

/-- VXOR. R293. -/
def execVxor (h : Head) (lgm : Lgm) (fmt : Fmt) (vd va vb : VNum) (ha hb : Bool) (s : State) :
    Host.Outcome State Fault Refusal := s.integer (.vxor h lgm fmt vd va vb ha hb) h fmt vd (fun _ a b => a ^^^ b)

/-- VNOT. R293. -/
def execVnot (h : Head) (lgm : Lgm) (fmt : Fmt) (vd va : VNum) (ha : Bool) (s : State) :
    Host.Outcome State Fault Refusal := s.integer (.vnot h lgm fmt vd va ha) h fmt vd (fun w a _ => 2 ^ w - 1 - a)

/-- VSHL. R293. -/
def execVshl (h : Head) (lgm : Lgm) (fmt : Fmt) (vd va vb : VNum) (ha hb : Bool) (s : State) :
    Host.Outcome State Fault Refusal :=
  s.integer (.vshl h lgm fmt vd va vb ha hb) h fmt vd (fun w a b => a * 2 ^ (b % w) % 2 ^ w)

/-- VSHR. R293. -/
def execVshr (h : Head) (lgm : Lgm) (fmt : Fmt) (vd va vb : VNum) (ha hb : Bool) (s : State) :
    Host.Outcome State Fault Refusal := s.integer (.vshr h lgm fmt vd va vb ha hb) h fmt vd (fun w a b => a / 2 ^ (b % w))

/-- VSAR. R293. -/
def execVsar (h : Head) (lgm : Lgm) (fmt : Fmt) (vd va vb : VNum) (ha hb : Bool) (s : State) :
    Host.Outcome State Fault Refusal := s.integer (.vsar h lgm fmt vd va vb ha hb) h fmt vd (fun w a b => sarPat w a (b % w))

/-- VICMP. R294. -/
def execVicmp (h : Head) (lgm : Lgm) (fmt : Fmt) (pd : PNum) (va vb : VNum) (ha hb : Bool) (cond : Cond) (s : State) :
    Host.Outcome State Fault Refusal :=
  let w := intWidth fmt
  s.compareLanes (.vicmp h lgm fmt pd va vb ha hb cond) h pd 2 w (32 / w) (condPat cond w)

/-- VPERM. R295: lanes of the same lane group, active or not, with their poison, and that of the index lane. -/
def execVperm (h : Head) (lgm : Lgm) (vd va vb : VNum) (ha hb : Bool) (s : State) : Host.Outcome State Fault Refusal :=
  let i := Instr.vperm h lgm vd va vb ha hb
  s.issueV i [] (fun t =>
    let os := t.sources i
    let a : VReg := ((os.getD 0 []).getD 0 VReg.zero)
    let b : VReg := ((os.getD 1 []).getD 0 VReg.zero)
    let active := t.activeLanes i h
    let from_ (l : Nat) : Nat := l / 16 * 16 + (b.lane l).toNat % 16
    t.withCur (t.cur.pushV vd (t.groups i) active (buildLanes active (fun l => laneWord a.bits (from_ l)))
      (buildMask active (fun l => a.poison.getLsbD (from_ l) || b.poison.getLsbD l)) 3))

/-- VBCAST. R293. -/
def execVbcast (h : Head) (lgm : Lgm) (fmt : Fmt) (vd : VNum) (sa : SRegNo) (s : State) : Host.Outcome State Fault Refusal :=
  let i := Instr.vbcast h lgm fmt vd sa
  let w := intWidth fmt
  s.issueV i [] (fun t => t.laneOp i h vd 1 2 false (if t.cur.sp sa then BitVec.allOnes 128 else 0) (fun _ _ =>
    intLane w [[t.cur.s sa]] (fun _ _ => (t.cur.s sa).toNat % 2 ^ w)))

/-- VIOTA. R293. -/
def execViota (h : Head) (lgm : Lgm) (fmt : Fmt) (vd : VNum) (s : State) : Host.Outcome State Fault Refusal :=
  let i := Instr.viota h lgm fmt vd
  let w := intWidth fmt
  s.issueV i [] (fun t => t.laneOp i h vd 1 2 false 0 (fun l _ =>
    { words := [BitVec.ofNat 32 (laneOf w ((List.range (32 / w)).map (fun j => (l * (32 / w) + j) % 2 ^ w)))], jf := 0 }))

end Sys2Proof.Machine
end

