-- ==== Sys2Proof/Machine/Jet.lean ====
section
/-!
DEFINITION. The jet syllables (13_isa_vector_quire_jet R302 to R305).
-/
namespace Sys2Proof.Machine
open Sys2Proof

/-- The coefficients 1 to k of a jet scaled by powers of t, c0 copied (R304). -/
def scaleJet (cs : List Nat) (t : Fx) (n e : Nat) : List Rounded :=
  (List.range cs.length).map (fun i =>
    let c := cs.getD i 0
    if i = 0 then Rounded.exact c
    else match decodePat c n e, t with
      | some x, some y => roundRat (x * y ^ i) (2 ^ (fxBits * (i + 1))) n e
      | _, _ => narOperand n)

/-- JSEED. R302. -/
def execJseed (h : Head) (lgm : Lgm) (vd va vb : VNum) (ha hb : Bool) (s : State) : Host.Outcome State Fault Refusal :=
  let i := Instr.jseed h lgm vd va vb ha hb
  let k := s.issue.jo
  s.issueV i [] (fun t =>
    let os := t.sources i
    let rs := ((os.getD 0 []) ++ (os.getD 1 []) ++ [VReg.zero, VReg.zero]).take (k + 1)
    t.withCur (t.cur.pushRegs vd (t.groups i) (t.activeLanes i h) rs 2))

/-- JGET. R303, R305. -/
def execJget (h : Head) (lgm : Lgm) (fmt : Fmt) (vd va : VNum) (ha fact : Bool) (ci : BitVec 2) (s : State) :
    Host.Outcome State Fault Refusal :=
  let i := Instr.jget h lgm fmt vd va ha fact ci
  let k := s.issue.jo
  let n := fmtWidth fmt
  s.issueV i [] (fun t =>
    let r := (((t.sources i).getD 0 []).getD ci.toNat VReg.zero)
    let active := t.activeLanes i h
    if fact then
      let f : Int := if ci.toNat = 3 then 6 else if ci.toNat = 2 then 2 else 1
      let poison := active &&& r.poison
      let out := (lanesIn active).map (fun l => (l, byElement fmt 1 (fun j =>
        [match decodeElem (r.lane l) fmt j with
          | some x => roundRat (x * f) (2 ^ fxBits) n (fmtEs fmt)
          | none => narOperand n])))
      t.withCur ((t.cur.pushLanes vd 1 (t.groups i) active out poison 2).pushJF (laneFlags out true poison 1) 2)
    else t.withCur (t.cur.pushRegs vd (t.groups i) active (if ci.toNat ≤ k then [r] else []) 2))

/-- JSET. R303, R305. -/
def execJset (h : Head) (lgm : Lgm) (vd va : VNum) (ha : Bool) (ci : BitVec 2) (s : State) :
    Host.Outcome State Fault Refusal :=
  let i := Instr.jset h lgm vd va ha ci
  s.issueV i [] (fun t =>
    t.withCur (t.cur.pushRegs (vd + BitVec.ofNat 6 ci.toNat) (t.groups i) (t.activeLanes i h) ((t.sources i).getD 0 []) 2))

/-- JSCALE. R304. -/
def execJscale (h : Head) (lgm : Lgm) (fmt : Fmt) (vd va vt : VNum) (ha hb : Bool) (s : State) :
    Host.Outcome State Fault Refusal :=
  let i := Instr.jscale h lgm fmt vd va vt ha hb
  let k := s.issue.jo
  s.issueV i [] (fun t => t.laneOp i h vd (k + 1) 4 true 0 (fun _ ws =>
    byElement fmt (k + 1) (fun j =>
      scaleJet (patsOf ws 0 fmt j) ((valsOf ws 1 fmt j).getD 0 none) (fmtWidth fmt) (fmtEs fmt))))

end Sys2Proof.Machine
end

