-- ==== Sys2Proof/Machine/Matrix.lean ====
section
/-!
DEFINITION. The M class (14_isa_matrix_memory_engines R313 to R324): staging, beats, coded weight lines, drains, and the
images of the accumulators.
-/
namespace Sys2Proof.Machine
open Sys2Proof

/-! ## Coded weight lines (R317 to R319) -/

/-- Width, largest es and the depth of the beat's format that a TYPE feeds (R317). -/
def recordType (t : Nat) : Option (Nat × Nat × Nat) :=
  match t with
  | 0 => some (8, 3, 4)
  | 1 => some (16, 3, 2)
  | 2 => some (32, 2, 1)
  | 3 => some (6, 1, 4)
  | 4 => some (4, 1, 4)
  | 5 => some (8, 0, 4)
  | _ => none

/-- The value of an element of a TYPE (R317). -/
def recordElem (t w es x : Nat) : Fx := if t = 5 then some (signedOf x 8 * 2 ^ fxBits) else decodePat x w es

/-- Position by position, kept elements of a payload in order and zeros (R318). -/
def expandRecord (t w es : Nat) (payload : Nat) : List Bool → List Fx
  | [] => []
  | true :: l => recordElem t w es (payload % 2 ^ w) :: expandRecord t w es (payload / 2 ^ w) l
  | false :: l => some 0 :: expandRecord t w es payload l

/-- A record of two lines: D and the value of every position; none when R319 refuses it. last says that it begins in
line 2,047, d is the depth of the beat's format. -/
def decodeRecord (rec d : Nat) (last : Bool) : Option (Nat × List Fx) :=
  let byte (k : Nat) : Nat := rec / 2 ^ (8 * k) % 256
  let t := byte 0 / 16
  let es := byte 0 / 4 % 4
  let n := byte 1 + 1
  let g := byte 2
  match recordType t with
  | none => none
  | some (w, maxEs, depth) =>
    let masks := if n = 16 then 0 else 2 * g
    let kept : List Bool := (List.range (16 * g)).map (fun p => n = 16 || (rec / 2 ^ (32 + p)).testBit 0)
    let counts := (List.range g).all (fun j => ((List.range 16).filter (fun p => kept.getD (16 * j + p) false)).length == n)
    let bits := g * n * w
    let len := 4 + masks + (bits + 7) / 8
    let lines := if len ≤ 128 then 1 else 2
    let start := 8 * (4 + masks)
    let clean := decide (rec % 2 ^ (1024 * lines) / 2 ^ (start + bits) = 0)
    if maxEs < es ∨ byte 0 % 4 ≠ 0 ∨ byte 3 ≠ 0 ∨ depth ≠ d ∨ ¬ (g = 2 * d ∨ (g = 4 * d ∧ n ≤ 8)) ∨ !counts ∨
        256 < len ∨ (last ∧ 128 < len) ∨ !clean then none
    else some (if g = 2 * d then 1 else 2, expandRecord t w es (rec / 2 ^ start) kept)

/-- A line is coded (R317). -/
def Ctx.coded (c : Ctx) (n : Nat) : Bool := decide (2048 - c.sys.mstat.toNat / 2 ^ 48 % 4096 ≤ n)

/-- The weights of a beat: D, and B(u, b) at b × D d + u (R316, R318); none when R319 refuses the line. -/
def Ctx.beatWeights (c : Ctx) (fmt : Fmt) (n : Nat) : Option (Nat × List Fx) :=
  if c.coded n then
    decodeRecord ((c.line n).toNat + (if n = 2047 then 0 else (c.line (n + 1)).toNat) * 2 ^ 1024) (fmtElems fmt) (n == 2047)
  else some (1, ((List.range 32).map (fun b => decodeLane ((c.line n).extractLsb' (32 * b) 32) fmt)).flatten)

/-! ## Shared operations -/

/-- A staging row as values of a format, with its poison. -/
def stagedRow (fmt : Fmt) (r : Word × Bool) : List Fx × Bool := (decodeLane r.1 fmt, r.2)

/-- Two lots of terms together. -/
def Terms.plus (a b : Terms) : Terms :=
  { sum := a.sum + b.sum, count := a.count + b.count, nan := a.nan || b.nan, poison := a.poison || b.poison }

/-- The terms of a beat for one accumulator (R316): a row of A0 against d weights; in a doubled beat the row of A1 against
the first d and that of A0 against the others. -/
def beatTerms (doubled : Bool) (d : Nat) (a0 a1 : List Fx × Bool) (w : List Fx) : Terms :=
  if doubled then (productTerms a1.1 (w.take d) a1.2 false).plus (productTerms a0.1 (w.drop d) a0.2 false)
  else productTerms a0.1 (w.take d) a0.2 false

/-- The accumulators of a row, or of all. -/
def rowsOf (row : BitVec 5) (all : Bool) : List Nat :=
  if all then List.range 1024 else (List.range 32).map (fun b => row.toNat * 32 + b)

/-- Image n of N moves C / N of the way through the C bank cycles (R322). -/
def imagesAt (n c : Nat) (k : Nat) : List Nat := (List.range n).filter (fun i => i * c / n == k)

/-- The next L-slot syllable, MSPILL or MFILL issues no earlier (R322). -/
def Ctx.spillFloor (c : Ctx) (all : Bool) : Ctx :=
  { c with floor := max c.floor (c.clk + if all then 29 else 2) }

/-- The faults of the whole range of an MSPILL or MFILL (R322). -/
def State.spillTraps (s : State) (i : Instr) (da : DNum) (all : Bool) (k : Kind) : List Trap :=
  s.reachTraps i da 0 8 k false [⟨0, 0, if all then 73728 else 2304⟩]

/-! ## Staging and beats (R314 to R316) -/

/-- MPUSH. R314. -/
def execMpush (h : Head) (lgm : Lgm) (va : VNum) (s : State) : Host.Outcome State Fault Refusal :=
  let i := Instr.mpush h lgm va
  s.issueOp i [] (fun t =>
    let g := ((List.range 8).find? (fun g => lgm.getLsbD g)).getD 0
    let row (a : Nat) : Word × Bool :=
      let v := t.cur.v (if a < 16 then va else va + 1)
      (v.lane (16 * g + a % 16), v.poison.getLsbD (16 * g + a % 16))
    t.withCur (t.cur.push 1 (.push ((List.range 32).map row))))

/-- MSHIFT. R315. -/
def execMshift (h : Head) (s : State) : Host.Outcome State Fault Refusal :=
  s.issueOp (.mshift h) [] (fun t => t.withCur (t.cur.push 1 .shift))

/-- MACC. R316, R319. -/
def execMacc (h : Head) (fmt : Fmt) (wl : BitVec 11) (s : State) : Host.Outcome State Fault Refusal :=
  let i := Instr.macc h fmt wl
  s.issueOp i (trapIf (s.cur.beatWeights fmt wl.toNat).isNone (s.synTrap i .decompress)) (fun t =>
    match t.cur.beatWeights fmt wl.toNat with
    | none => t
    | some (d2, ws) =>
      let d := fmtElems fmt
      let a0 := t.cur.stage0.toList.map (stagedRow fmt)
      let a1 := t.cur.stage1.toList.map (stagedRow fmt)
      let cols := (List.range 32).map (fun b => (ws.drop (b * (d2 * d))).take (d2 * d))
      let ops := ((List.range 32).map (fun a => (List.range 32).map (fun b =>
        (32 * a + b, QuireOp.acc (beatTerms (d2 == 2) d (a0.getD a ([], false)) (a1.getD a ([], false)) (cols.getD b [])) fmt)))).flatten
      t.withCur (t.cur.pushA ops 4))

/-! ## Draining and clearing (R320, R321, R324) -/

/-- MDRAIN. R320. -/
def execMdrain (h : Head) (lgm : Lgm) (fmt : Fmt) (vd : VNum) (row : BitVec 5) (s : State) :
    Host.Outcome State Fault Refusal :=
  let i := Instr.mdrain h lgm fmt vd row
  s.issueOp i [] (fun t =>
    let g := ((List.range 8).find? (fun g => lgm.getLsbD g)).getD 0
    let groups := t.groups i
    let active := groupLanes groups
    let qs := (List.range 32).map (fun b => t.cur.accAt row.toNat b)
    let rs := qs.map (fun q => q.round (fmtWidth fmt) (fmtEs fmt))
    let pat (b : Nat) : Nat := (rs.map (·.pat)).getD b 0
    let bad (b : Nat) : Bool := (qs.map Quire.poison).getD b false
    let wide := decide (fmtWidth fmt = 32)
    let word (r l : Nat) : Word :=
      if wide then BitVec.ofNat 32 (pat (16 * r + l)) else BitVec.ofNat 32 (pat (2 * l) + 2 ^ 16 * pat (2 * l + 1))
    let psn (r l : Nat) : Bool := if wide then bad (16 * r + l) else bad (2 * l) || bad (2 * l + 1)
    let c := (List.range (if wide then 2 else 1)).foldl (fun d r => d.pushV (vd + BitVec.ofNat 6 r) groups active
      (buildLanes active (fun l => word r (l - 16 * g))) (buildMask active (fun l => psn r (l - 16 * g))) 6) t.cur
    let inexact := (List.range 32).filter (fun b => (rs.map (·.inx)).getD b false)
    let flags : BitVec 4 := BitVec.ofNat 4 ((qs.any Quire.nar).toNat + 2 * (qs.any Quire.guard).toNat +
      4 * (qs.any Quire.poison).toNat + 8 * (qs.any Quire.inexact || !inexact.isEmpty).toNat)
    let count := ((qs.map Quire.count).getD 0 0)
    let c1 := (c.pushA (inexact.map (fun b => (row.toNat * 32 + b, QuireOp.inexact))) 6).push 6
      (.drained row flags (BitVec.ofNat 32 count))
    t.withCur (c1.pushJF (rs.foldl (fun a r => a ||| r.jfSatInx 0) (if qs.any Quire.poison then psnFlags 0 else 0)) 6))

/-- MCLR. R321. -/
def execMclr (h : Head) (row : BitVec 5) (all : Bool) (s : State) : Host.Outcome State Fault Refusal :=
  s.issueOp (.mclr h row all) [] (fun t => t.withCur (t.cur.pushA ((rowsOf row all).map (fun k => (k, QuireOp.clear))) 1))

/-- MSTAT. R324. -/
def execMstat (h : Head) (sd : SRegNo) (s : State) : Host.Outcome State Fault Refusal :=
  s.issueOp (.mstat h sd) [] (fun t =>
    t.withCur (t.cur.pushS sd (BitVec.ofNat 32 (t.cur.sys.mstat.toNat / 2 ^ 32 % 2 ^ 13)) false 2))

/-! ## Spilling and filling (R322) -/

/-- MSPILL. R322: images as they stand at issue, in their bank cycles, or as one request. -/
def execMspill (h : Head) (row : BitVec 5) (da : DNum) (all : Bool) (s : State) : Host.Outcome State Fault Refusal :=
  let i := Instr.mspill h row da all
  let l := s.baseLoc da 0 .store
  s.issueAccess i (s.poisonIf i (s.cur.dp da) ++ (if s.cur.dp da then [] else s.spillTraps i da all .store ++
      trapIf (decide (2 < l.space)) (s.addrTrap i l.addr .access))) (fun t =>
    let ks := rowsOf row all
    let n := ks.length
    let part (j : Nat) : Part :=
      let k := ks.getD j 0
      { off := l.off + 72 * j, size := 72, value := (t.cur.accAt (k / 32) (k % 32)).image.toNat }
    let u :=
      if l.fixed then
        let cs := if all then 29 else 2
        ((List.range cs).foldl (fun x k => x.withCur (x.cur.access k l.site (.store ((imagesAt n cs k).map part)))) t).markTsm
          l.slice.toList
      else t.storeTo l [(List.range n).map part] false
    u.withCur (u.cur.spillFloor all))

/-- MFILL. R322, R326. -/
def execMfill (h : Head) (row : BitVec 5) (da : DNum) (all : Bool) (s : State) : Host.Outcome State Fault Refusal :=
  let i := Instr.mfill h row da all
  s.issueAccess i (if s.cur.dp da then [] else s.spillTraps i da all .own) (fun t =>
    let ks := rowsOf row all
    let n := ks.length
    let l := t.baseLoc da 0 .own
    let lat := if all then 40 else 10
    let u :=
      if t.cur.dp da then t.withCur (t.cur.pushA (ks.map (fun k => (k, QuireOp.set Quire.poisoned))) lat)
      else
        let cs := if all then 29 else 2
        (List.range cs).foldl (fun x k => x.withCur (x.cur.access k l.site (.load
          ((imagesAt n cs k).map (fun j => { lane := ks.getD j 0, off := l.off + 72 * j, size := 72 })) (.accs (t.cur.clk + lat))))) t
    u.withCur (u.cur.spillFloor all))

end Sys2Proof.Machine
end

