-- ==== Sys2Proof/Machine/MemorySide.lean ====
section
/-!
DEFINITION. The memory side (07_memory_translation R165, R168 to R170): invalidation of translations, and the migration of pages.
-/
namespace Sys2Proof.Machine
open Sys2Proof

/-! ## Invalidation (R165) -/

/-- A translation lies outside a range. -/
def TlbEntry.outside (e : TlbEntry) (lo hi : Nat) : Bool := decide (e.lo + e.size ≤ lo) || decide (hi ≤ e.lo)

/-- The TLBs of a die and of a partition's tiles on it drop a range of offsets (R165, R169). -/
def State.dropTlbs (s : State) (part die lo hi : Nat) : State :=
  let t := s.mapDie die (fun d => { d with tlb := d.tlb.filter (fun x => x.1 != part || x.2.outside lo hi) })
  ((s.tiles.map (·.1)).filter (fun k => dieOf k == die && (s.partN part).wings.getLsbD (wingOf k))).foldl (fun u k =>
    let r := u.tileRec k
    u.setTile k { r with tlb := r.tlb.filter (fun e => e.outside lo hi) }) t

/-- An access that the die translated and forwarded has not yet performed (R165, R171). -/
def Request.forwardedIn (r : Request) (part die lo hi : Nat) : Bool :=
  r.part == part && r.space == 5 && (match r.home with
    | some p => dieOfPtr p == die && decide (lo ≤ offOfPtr p) && decide (offOfPtr p < hi)
    | none => false)

/-- TLB_INVALIDATE. R165: it completes once every access that was translated under an entry of the range has performed; every access
that the die serves itself performs as it is translated. -/
def execTlbInvalidate (part die : BitVec 3) (lo hi : Nat) (s : State) : Host.Outcome State Fault Refusal :=
  .next (if s.requests.any (fun r => r.forwardedIn part.toNat die.toNat lo hi) then s else s.dropTlbs part.toNat die.toNat lo hi)

/-! ## Migration (R168 to R170) -/

/-- The span in which a page moves at most 4 times (R170). -/
def pinSpan : Nat := 2 ^ 24

/-- A leaf with another tier and frame, and MIG clear (R164). -/
def leafWith (e : DWord) (tier : BitVec 2) (frame : BitVec 36) : DWord :=
  (e &&& ~~~(BitVec.ofNat 64 (2 ^ 57 * 3 + 2 ^ migBit + (2 ^ 36 - 1) * 2 ^ 12))) |||
    BitVec.ofNat 64 (tier.toNat * 2 ^ 57 + frame.toNat * 2 ^ 12)

/-- A leaf's page of a size lies wholly in memory that the module gives the partition. -/
def State.placed (s : State) (part die : Nat) (leaf : DWord) (size : Nat) : Bool :=
  (List.range (size / 4096)).all (fun i => (s.stageTwo part die (pteTier leaf) (pteFrame leaf + 4096 * i)).isSome)

/-- The target of a MIGRATE (R168): in the partition's shares or under a live grant of a peer, and aligned to the page size. -/
def State.targetOk (s : State) (part die : Nat) (target : DWord) (size : Nat) : Bool :=
  let f := pteFrame target
  f % size == 0 && (match pteTier target with
    | 2 => (s.portN (s.partN part).port).imported.any (fun g => g.peer == f / 2 ^ 40 && !g.recalled && decide (g.woff ≤ f % 2 ^ 40) &&
        decide (f % 2 ^ 40 + size ≤ g.woff + g.len))
    | 3 => false
    | t => s.inShare part die t f size && s.placed part die target size)

/-- The result of a MIGRATE (R168). -/
def State.migResult (s : State) (die code : Nat) : State := s.mapDie die (fun d => { d with result := code })

/-- 4 KiB copied from one physical place to another. -/
def copyPage (m : Memory) (src dst : Nat) : Memory := Memory.writeBytes m dst (Memory.readBytes m src 4096)

/-- The copy within the die: 4 KiB at a time. -/
def State.copyHere (s : State) (part die : Nat) (old target : DWord) (size : Nat) : State :=
  (List.range (size / 4096)).foldl (fun t i =>
    match t.stageTwo part die (pteTier old) (pteFrame old + 4096 * i), t.stageTwo part die (pteTier target) (pteFrame target + 4096 * i) with
    | some a, some b => { t with mem := copyPage t.mem a b }
    | _, _ => t) s

/-- The copy to a peer, 64 bytes at a time (R169 step 1). -/
def State.copyOut (s : State) (die : Nat) (m : Migration) (old : DWord) : State :=
  (List.range (m.size / 64)).foldl (fun t i =>
    match t.stageTwo m.part die (pteTier old) (pteFrame old + 64 * i) with
    | some a => t.sendTarget die m (64 * i) 64 (Memory.readNat t.mem a 64)
    | none => t) s

/-- The copy from a peer, 64 bytes at a time. -/
def State.copyIn (s : State) (die : Nat) (m : Migration) (old : DWord) : State :=
  let f := pteFrame old
  (List.range (m.size / 64)).foldl (fun t i =>
    let o := f % 2 ^ 40 + 64 * i
    t.copyRequest die m (64 * i) (peerPointer (f / 2 ^ 40) o) (.load [⟨0, o, 64⟩])) s

/-- A migration begins: MIG is set in the leaf at physical address a, and the copy is under way (R169 steps 1 and 2). -/
def State.startMove (s : State) (part die va size a : Nat) (old target : DWord) : State :=
  let far := decide (pteTier old = 2) || decide (pteTier target = 2)
  let m : Migration := { num := s.nextReq, part := part, va := va, size := size, leafAt := a, target := target, queue := [],
                         copied := false, owed := if far then size / 64 else 0 }
  let t := ({ s with nextReq := s.nextReq + 1, mem := setEntryBit s.mem a migBit true }).mapDie die (fun d => { d with migs := d.migs ++ [m] })
  if pteTier old = 2 then t.copyIn die m old
  else if pteTier target = 2 then t.copyOut die m old
  else t.copyHere part die old target size

/-- The moves of a page in the span that ends now, the oldest first (R170). -/
def State.recentMoves (s : State) (part die va : Nat) : List Nat :=
  ((s.dieRec die).moves.filter (fun m => m.1 == part && m.2.1 == va && decide (s.cycle < m.2.2 + pinSpan))).map (·.2.2)

/-- A fifth move is refused: PIN is set until the span after the oldest of the four has passed, and the kernel is told (R110, R170). -/
def State.refuseMove (s : State) (part die va a : Nat) (oldest : Nat) : State :=
  let t := ({ s with mem := setEntryBit s.mem a pinBit true }).mapDie die (fun d =>
    { d with result := migPinned, pins := d.pins.filter (fun (x : Nat × Nat × Nat) => x.1 != part || x.2.1 != va) ++ [(part, va, oldest + pinSpan)] })
  let g := die * 2 ^ 57 + va
  t.postHome (t.partN part) 5 die 0 (g / 2 ^ 12 % 2 ^ 32) (g / 2 ^ 44 % 2 ^ 16)

/-- MIGRATE. R168 to R170: busy first, then the target, then the bound on moves (log entry 24). -/
def execMigrate (part die : BitVec 3) (va level : Nat) (tier : BitVec 2) (frame : BitVec 36) (s : State) :
    Host.Outcome State Fault Refusal :=
  let p := part.toNat
  let d := die.toNat
  .next (match pageLevels[level - 1]?, s.leafOf p d va with
    | some (sh, _), some (e, a, l) =>
      let size := 2 ^ sh
      let target := leafWith e tier frame
      if ((s.dieRec d).migOf p va).isSome then s.migResult d migBusy
      else if level = 0 ∨ l ≠ sh ∨ va % size ≠ 0 ∨ s.targetOk p d target size = false ∨ (pteTier e ≠ 2 ∧ s.placed p d e size = false) then
        s.migResult d migBad
      else match s.recentMoves p d va with
        | x :: rest => if 3 ≤ rest.length then s.refuseMove p d va a x else s.startMove p d va size a e target
        | [] => s.startMove p d va size a e target
    | _, _ => s.migResult d migBad)

/-- The migration of a page. -/
def DieRec.move (d : DieRec) (part va : Nat) : Option Migration := d.migs.find? (fun m => m.part == part && m.va == va)

/-- The hold queue of a migration is replayed (R169 step 4): all of it into a frame of the die; to a peer one entry at a time, each
once the one before it is acknowledged. -/
def State.replay (s : State) (die : Nat) (m : Migration) : State :=
  if pteTier m.target = 2 then
    match m.queue with
    | [] => s
    | (off, bytes) :: rest =>
      let cs := chunksOf (BitVec.ofNat 64 off) bytes.length
      let t := s.mapMig die m.num (fun x => { x with queue := rest, owed := cs.length })
      cs.foldl (fun u c =>
        u.sendTarget die m c.1.toNat c.2 (natOfBytes ((bytes.drop (c.1.toNat - off)).take c.2))) t
  else (m.queue.foldl (fun t q => t.writeTarget die m q.1 q.2) s).mapMig die m.num (fun x => { x with queue := [] })

/-- MIGRATION_COPY_DONE. R169 step 4: the copy has ended, and what the hold queue holds by now is replayed. -/
def execMigrationCopyDone (part die : BitVec 3) (va : Nat) (s : State) : Host.Outcome State Fault Refusal :=
  let d := die.toNat
  .next (match (s.dieRec d).move part.toNat va with
    | some m => if m.owed = 0 then (s.mapMig d m.num (fun x => { x with copied := true })).replay d m else s
    | none => s)

/-- MIGRATION_SWITCH. R169 step 5: the hold queue is empty, and no atomic of which an entry will come is under way; the leaf switches, MIG
clears, the TLBs drop the page, and the move is done. -/
def execMigrationSwitch (part die : BitVec 3) (va : Nat) (s : State) : Host.Outcome State Fault Refusal :=
  let d := die.toNat
  let p := part.toNat
  .next (match (s.dieRec d).move p va with
    | some m =>
      if m.copied ∧ m.queue.isEmpty ∧ m.owed = 0 ∧ !s.requests.any (fun q => q.movesWith d m && q.unknown) then
        let e : DWord := BitVec.ofNat 64 (Memory.readNat s.mem m.leafAt 8)
        let leaf := leafWith e (BitVec.ofNat 2 (pteTier m.target)) (BitVec.ofNat 36 (pteFrame m.target / 2 ^ 12))
        let t := ({ s with mem := Memory.writeNat s.mem m.leafAt 8 leaf.toNat }).mapDie d (fun x =>
          { x.dropMig p va with moves := x.moves ++ [(p, va, s.cycle)], result := migDone })
        t.dropTlbs p d va (va + m.size)
      else s
    | none => s)

/-- PIN_EXPIRY. R170. -/
def execPinExpiry (part die : BitVec 3) (va : Nat) (s : State) : Host.Outcome State Fault Refusal :=
  let d := die.toNat
  let p := part.toNat
  .next (match (s.dieRec d).pins.find? (fun x => x.1 == p && x.2.1 == va && decide (x.2.2 ≤ s.cycle)) with
    | none => s
    | some _ =>
      let t := s.mapDie d (fun x => { x with pins := x.pins.filter (fun (y : Nat × Nat × Nat) => y.1 != p || y.2.1 != va) })
      match s.leafOf p d va with
      | some (_, a, _) => { t with mem := setEntryBit t.mem a pinBit false }
      | none => t)

end Sys2Proof.Machine
end

