-- ==== Sys2Proof/Machine/Predicate.lean ====
section
/-!
DEFINITION. Predicate syllables and the packing pair PPACK and PUNPK (12_isa_scalar_control R260, R261).
-/
namespace Sys2Proof.Machine
open Sys2Proof

/-- A predicate result in every lane from the predicate file (R260). -/
def State.predOp (s : State) (i : Instr) (pd : PNum) (f : Ctx → LaneMask) : Host.Outcome State Fault Refusal :=
  s.issueOp i [] (fun t => t.withCur (t.cur.pushP pd (BitVec.allOnes 128) (f t.cur) 1))

/-- Every lane true, or none. -/
def everyLane (b : Bool) : LaneMask := if b then BitVec.allOnes 128 else 0

/-- The number of true lanes (R260). -/
def laneCount (m : LaneMask) : Nat := ((List.range 128).filter (fun l => m.getLsbD l)).length

/-- PAND. R260. -/
def execPand (h : Head) (pd pa pb : PNum) (s : State) : Host.Outcome State Fault Refusal :=
  s.predOp (.pand h pd pa pb) pd (fun c => c.p pa &&& c.p pb)

/-- POR. R260. -/
def execPor (h : Head) (pd pa pb : PNum) (s : State) : Host.Outcome State Fault Refusal :=
  s.predOp (.por h pd pa pb) pd (fun c => c.p pa ||| c.p pb)

/-- PXOR. R260. -/
def execPxor (h : Head) (pd pa pb : PNum) (s : State) : Host.Outcome State Fault Refusal :=
  s.predOp (.pxor h pd pa pb) pd (fun c => c.p pa ^^^ c.p pb)

/-- PNOT. R260. -/
def execPnot (h : Head) (pd pa : PNum) (s : State) : Host.Outcome State Fault Refusal :=
  s.predOp (.pnot h pd pa) pd (fun c => ~~~(c.p pa))

/-- PMOV. R260. -/
def execPmov (h : Head) (pd pa : PNum) (s : State) : Host.Outcome State Fault Refusal :=
  s.predOp (.pmov h pd pa) pd (fun c => c.p pa)

/-- PANY. R260. -/
def execPany (h : Head) (pd pa : PNum) (s : State) : Host.Outcome State Fault Refusal :=
  s.predOp (.pany h pd pa) pd (fun c => everyLane (c.p pa != 0))

/-- PALL. R260. -/
def execPall (h : Head) (pd pa : PNum) (s : State) : Host.Outcome State Fault Refusal :=
  s.predOp (.pall h pd pa) pd (fun c => everyLane (c.p pa == BitVec.allOnes 128))

/-- PSET. R260. -/
def execPset (h : Head) (pd : PNum) (lgm : Lgm) (s : State) : Host.Outcome State Fault Refusal :=
  s.predOp (.pset h pd lgm) pd (fun _ => groupLanes (maskOf lgm s.issue.lgdef))

/-- PCNT. R260. -/
def execPcnt (h : Head) (rd : SRegNo) (pa : PNum) (s : State) : Host.Outcome State Fault Refusal :=
  s.issueOp (.pcnt h rd pa) [] (fun t => t.withCur (t.cur.pushS rd (BitVec.ofNat 32 (laneCount (t.cur.p pa))) false 1))

/-- PPACK. R261. -/
def execPpack (h : Head) (vd : VNum) (s : State) : Host.Outcome State Fault Refusal :=
  s.issueOp (.ppack h vd) [] (fun t =>
    let c := t.cur
    let m := c.guardLanes h
    t.withCur (c.pushV vd 0xFF m (buildLanes m (fun l => BitVec.ofNat 32
      ((List.range 8).foldl (fun a n => if (c.p (BitVec.ofNat 3 n)).getLsbD l then a + 2 ^ n else a) 0))) 0 2))

/-- PUNPK. R261. -/
def execPunpk (h : Head) (va : VNum) (s : State) : Host.Outcome State Fault Refusal :=
  let m := s.cur.guardLanes h
  s.issueOp (.punpk h va) (s.poisonIf (.punpk h va) ((s.cur.v va).poison &&& m != 0)) (fun t =>
    t.withCur ((List.range 7).foldl (fun c n =>
      if m = 0 then c
      else c.pushP (BitVec.ofNat 3 (n + 1)) m (buildMask m (fun l => (laneWord (t.cur.v va).bits l).getLsbD (n + 1))) 2) t.cur))

end Sys2Proof.Machine
end

