-- ==== Sys2Proof/Machine/QuireOps.lean ====
section
/-!
DEFINITION. The quire syllables (13_isa_vector_quire_jet R296 to R300): effects on the lane quires of the active lanes,
applied in landing order.
-/
namespace Sys2Proof.Machine
open Sys2Proof

/-! ## Shared operations -/

/-- A syllable with one effect on a lane quire in every active lane (R296, R297). -/
def State.quireOp (s : State) (i : Instr) (h : Head) (q : QNum) (lat : Nat) (f : State → Nat → QuireOp) :
    Host.Outcome State Fault Refusal :=
  s.issueV i [] (fun t => t.withCur (t.cur.pushQ ((lanesIn (t.activeLanes i h)).map (fun l => (q.toNat * 128 + l, f t l))) lat))

/-- Lane l of source a of a syllable, and its poison. -/
def State.lane (s : State) (i : Instr) (a l : Nat) : Word × Bool :=
  match ((s.sources i).getD a []).head? with
  | some r => (r.lane l, r.poison.getLsbD l)
  | none => (0, false)

/-- The products of a QMAC or QMSB in one lane (R297). -/
def State.macTerms (s : State) (i : Instr) (fmt : Fmt) (neg : Bool) (l : Nat) : QuireOp :=
  let a := s.lane i 0 l
  let b := s.lane i 1 l
  .acc (productTerms (decodeLane a.1 fmt) (decodeLane b.1 fmt) (a.2 || b.2) neg) fmt

/-! ## Meanings -/

/-- QCLR. R297. -/
def execQclr (h : Head) (lgm : Lgm) (q : QNum) (s : State) : Host.Outcome State Fault Refusal :=
  s.quireOp (.qclr h lgm q) h q 1 (fun _ _ => .clear)

/-- QMAC. R297. -/
def execQmac (h : Head) (lgm : Lgm) (fmt : Fmt) (q : QNum) (va vb : VNum) (ha hb : Bool) (s : State) :
    Host.Outcome State Fault Refusal :=
  let i := Instr.qmac h lgm fmt q va vb ha hb
  s.quireOp i h q 3 (fun t l => t.macTerms i fmt false l)

/-- QMSB. R297. -/
def execQmsb (h : Head) (lgm : Lgm) (fmt : Fmt) (q : QNum) (va vb : VNum) (ha hb : Bool) (s : State) :
    Host.Outcome State Fault Refusal :=
  let i := Instr.qmsb h lgm fmt q va vb ha hb
  s.quireOp i h q 3 (fun t l => t.macTerms i fmt true l)

/-- QADD. R297. -/
def execQadd (h : Head) (lgm : Lgm) (fmt : Fmt) (q : QNum) (va : VNum) (ha : Bool) (s : State) :
    Host.Outcome State Fault Refusal :=
  let i := Instr.qadd h lgm fmt q va ha
  s.quireOp i h q 3 (fun t l => let a := t.lane i 0 l; .acc (addendTerms (decodeLane a.1 fmt) a.2) fmt)

/-- QADDQ. R298. -/
def execQaddq (h : Head) (lgm : Lgm) (qd qa : QNum) (s : State) : Host.Outcome State Fault Refusal :=
  s.quireOp (.qaddq h lgm qd qa) h qd 4 (fun t l => .merge (t.cur.quire qa l))

/-- QRND. R299. -/
def execQrnd (h : Head) (lgm : Lgm) (fmt : Fmt) (vd : VNum) (q : QNum) (s : State) : Host.Outcome State Fault Refusal :=
  let i := Instr.qrnd h lgm fmt vd q
  s.issueV i [] (fun t =>
    let active := t.activeLanes i h
    let rs := (lanesIn active).map (fun l => (l, (t.cur.quire q l).round (fmtWidth fmt) (fmtEs fmt)))
    let poison := buildMask active (fun l => (t.cur.quire q l).poison)
    let out := rs.map (fun x => (x.1, { words := [BitVec.ofNat 32 x.2.pat], jf := x.2.jfSatInx 0 : LaneResult }))
    let c := (t.cur.pushLanes vd 1 (t.groups i) active out poison 6).pushQ
      ((rs.filter (fun x => x.2.inx)).map (fun x => (q.toNat * 128 + x.1, QuireOp.inexact))) 6
    t.withCur (c.pushJF (laneFlags out true poison 1) 6))

/-- QNEG. R298. -/
def execQneg (h : Head) (lgm : Lgm) (q : QNum) (s : State) : Host.Outcome State Fault Refusal :=
  s.quireOp (.qneg h lgm q) h q 2 (fun _ _ => .negate)

/-- QST. R300: a half of the status word; poison cleared. -/
def execQst (h : Head) (lgm : Lgm) (vd : VNum) (q : QNum) (hi : Bool) (s : State) : Host.Outcome State Fault Refusal :=
  let i := Instr.qst h lgm vd q hi
  s.issueV i [] (fun t =>
    let active := t.activeLanes i h
    t.withCur (t.cur.pushV vd (t.groups i) active
      (buildLanes active (fun l => (t.cur.quire q l).status.extractLsb' (if hi then 32 else 0) 32)) 0 2))

/-- QMOV. R298. -/
def execQmov (h : Head) (lgm : Lgm) (qd qa : QNum) (s : State) : Host.Outcome State Fault Refusal :=
  s.quireOp (.qmov h lgm qd qa) h qd 2 (fun t l => .set (t.cur.quire qa l))

end Sys2Proof.Machine
end

