-- ==== Sys2Proof/Machine/Dispatch.lean ====
section
/-!
DEFINITION. The dispatch of an operation to its meaning.
-/
namespace Sys2Proof.Machine
open Sys2Proof

def exec (i : Instr) (s : State) : Host.Outcome State Fault Refusal :=
  match i with
  | .add h rd ra rb => Sys2Proof.Machine.execAdd h rd ra rb s
  | .sub h rd ra rb => Sys2Proof.Machine.execSub h rd ra rb s
  | .mul h rd ra rb => Sys2Proof.Machine.execMul h rd ra rb s
  | .mulh h rd ra rb => Sys2Proof.Machine.execMulh h rd ra rb s
  | .mulhu h rd ra rb => Sys2Proof.Machine.execMulhu h rd ra rb s
  | .div h rd ra rb => Sys2Proof.Machine.execDiv h rd ra rb s
  | .divu h rd ra rb => Sys2Proof.Machine.execDivu h rd ra rb s
  | .rem h rd ra rb => Sys2Proof.Machine.execRem h rd ra rb s
  | .remu h rd ra rb => Sys2Proof.Machine.execRemu h rd ra rb s
  | .and h rd ra rb => Sys2Proof.Machine.execAnd h rd ra rb s
  | .or h rd ra rb => Sys2Proof.Machine.execOr h rd ra rb s
  | .xor h rd ra rb => Sys2Proof.Machine.execXor h rd ra rb s
  | .andn h rd ra rb => Sys2Proof.Machine.execAndn h rd ra rb s
  | .shl h rd ra rb => Sys2Proof.Machine.execShl h rd ra rb s
  | .shr h rd ra rb => Sys2Proof.Machine.execShr h rd ra rb s
  | .sar h rd ra rb => Sys2Proof.Machine.execSar h rd ra rb s
  | .rot h rd ra rb => Sys2Proof.Machine.execRot h rd ra rb s
  | .min h rd ra rb => Sys2Proof.Machine.execMin h rd ra rb s
  | .max h rd ra rb => Sys2Proof.Machine.execMax h rd ra rb s
  | .minu h rd ra rb => Sys2Proof.Machine.execMinu h rd ra rb s
  | .maxu h rd ra rb => Sys2Proof.Machine.execMaxu h rd ra rb s
  | .clz h rd ra => Sys2Proof.Machine.execClz h rd ra s
  | .ctz h rd ra => Sys2Proof.Machine.execCtz h rd ra s
  | .popc h rd ra => Sys2Proof.Machine.execPopc h rd ra s
  | .mov h rd ra => Sys2Proof.Machine.execMov h rd ra s
  | .addi h rd ra imm => Sys2Proof.Machine.execAddi h rd ra imm s
  | .andi h rd ra imm => Sys2Proof.Machine.execAndi h rd ra imm s
  | .ori h rd ra imm => Sys2Proof.Machine.execOri h rd ra imm s
  | .xori h rd ra imm => Sys2Proof.Machine.execXori h rd ra imm s
  | .shli h rd ra imm => Sys2Proof.Machine.execShli h rd ra imm s
  | .shri h rd ra imm => Sys2Proof.Machine.execShri h rd ra imm s
  | .sari h rd ra imm => Sys2Proof.Machine.execSari h rd ra imm s
  | .li h rd imm => Sys2Proof.Machine.execLi h rd imm s
  | .lih h rd imm => Sys2Proof.Machine.execLih h rd imm s
  | .bext h rd ra pos len => Sys2Proof.Machine.execBext h rd ra pos len s
  | .bins h rd ra pos len => Sys2Proof.Machine.execBins h rd ra pos len s
  | .sel h rd ra rb ps => Sys2Proof.Machine.execSel h rd ra rb ps s
  | .cmp h pd ra rb cond => Sys2Proof.Machine.execCmp h pd ra rb cond s
  | .cmpi h pd ra cond imm => Sys2Proof.Machine.execCmpi h pd ra cond imm s
  | .addd h dd da db => Sys2Proof.Machine.execAddd h dd da db s
  | .subd h dd da db => Sys2Proof.Machine.execSubd h dd da db s
  | .adddi h dd da imm => Sys2Proof.Machine.execAdddi h dd da imm s
  | .shld h dd da rb => Sys2Proof.Machine.execShld h dd da rb s
  | .tagd h dd da rs fld => Sys2Proof.Machine.execTagd h dd da rs fld s
  | .tagx h da rs fld => Sys2Proof.Machine.execTagx h da rs fld s
  | .pand h pd pa pb => Sys2Proof.Machine.execPand h pd pa pb s
  | .por h pd pa pb => Sys2Proof.Machine.execPor h pd pa pb s
  | .pxor h pd pa pb => Sys2Proof.Machine.execPxor h pd pa pb s
  | .pnot h pd pa => Sys2Proof.Machine.execPnot h pd pa s
  | .pmov h pd pa => Sys2Proof.Machine.execPmov h pd pa s
  | .pany h pd pa => Sys2Proof.Machine.execPany h pd pa s
  | .pall h pd pa => Sys2Proof.Machine.execPall h pd pa s
  | .pset h pd lgm => Sys2Proof.Machine.execPset h pd lgm s
  | .pcnt h rd pa => Sys2Proof.Machine.execPcnt h rd pa s
  | .ppack h vd => Sys2Proof.Machine.execPpack h vd s
  | .punpk h va => Sys2Proof.Machine.execPunpk h va s
  | .nopb h => Sys2Proof.Machine.execNopb h s
  | .br h disp => Sys2Proof.Machine.execBr h disp s
  | .brc h ra rb cond disp => Sys2Proof.Machine.execBrc h ra rb cond disp s
  | .brz h ra disp => Sys2Proof.Machine.execBrz h ra disp s
  | .jmp h da => Sys2Proof.Machine.execJmp h da s
  | .call h disp => Sys2Proof.Machine.execCall h disp s
  | .callr h da => Sys2Proof.Machine.execCallr h da s
  | .ret h => Sys2Proof.Machine.execRet h s
  | .loop h count endDisp => Sys2Proof.Machine.execLoop h count endDisp s
  | .loopr h ra endDisp => Sys2Proof.Machine.execLoopr h ra endDisp s
  | .lbrk h => Sys2Proof.Machine.execLbrk h s
  | .trap h imm => Sys2Proof.Machine.execTrap h imm s
  | .sysc h imm => Sys2Proof.Machine.execSysc h imm s
  | .eret h => Sys2Proof.Machine.execEret h s
  | .halt h => Sys2Proof.Machine.execHalt h s
  | .exit h => Sys2Proof.Machine.execExit h s
  | .exits h keepq entry => Sys2Proof.Machine.execExits h keepq entry s
  | .spawn h rd da => Sys2Proof.Machine.execSpawn h rd da s
  | .bar h gidx => Sys2Proof.Machine.execBar h gidx s
  | .waitge h da off scope rs => Sys2Proof.Machine.execWaitge h da off scope rs s
  | .waiteq h da off scope rs => Sys2Proof.Machine.execWaiteq h da off scope rs s
  | .vadd h lgm fmt vd va vb ha hb => Sys2Proof.Machine.execVadd h lgm fmt vd va vb ha hb s
  | .vsub h lgm fmt vd va vb ha hb => Sys2Proof.Machine.execVsub h lgm fmt vd va vb ha hb s
  | .vmul h lgm fmt vd va vb ha hb => Sys2Proof.Machine.execVmul h lgm fmt vd va vb ha hb s
  | .vdiv h lgm fmt vd va vb ha hb => Sys2Proof.Machine.execVdiv h lgm fmt vd va vb ha hb s
  | .vfma h lgm fmt vd va vb vc ha hb hc => Sys2Proof.Machine.execVfma h lgm fmt vd va vb vc ha hb hc s
  | .vfms h lgm fmt vd va vb vc ha hb hc => Sys2Proof.Machine.execVfms h lgm fmt vd va vb vc ha hb hc s
  | .vfnma h lgm fmt vd va vb vc ha hb hc => Sys2Proof.Machine.execVfnma h lgm fmt vd va vb vc ha hb hc s
  | .vsqrt h lgm fmt vd va ha => Sys2Proof.Machine.execVsqrt h lgm fmt vd va ha s
  | .vrsqrt h lgm fmt vd va ha => Sys2Proof.Machine.execVrsqrt h lgm fmt vd va ha s
  | .vrcp h lgm fmt vd va ha => Sys2Proof.Machine.execVrcp h lgm fmt vd va ha s
  | .vexp h lgm fmt vd va ha => Sys2Proof.Machine.execVexp h lgm fmt vd va ha s
  | .vexp2 h lgm fmt vd va ha => Sys2Proof.Machine.execVexp2 h lgm fmt vd va ha s
  | .vlog h lgm fmt vd va ha => Sys2Proof.Machine.execVlog h lgm fmt vd va ha s
  | .vlog2 h lgm fmt vd va ha => Sys2Proof.Machine.execVlog2 h lgm fmt vd va ha s
  | .vsin h lgm fmt vd va ha => Sys2Proof.Machine.execVsin h lgm fmt vd va ha s
  | .vcos h lgm fmt vd va ha => Sys2Proof.Machine.execVcos h lgm fmt vd va ha s
  | .vtanh h lgm fmt vd va ha => Sys2Proof.Machine.execVtanh h lgm fmt vd va ha s
  | .vsigm h lgm fmt vd va ha => Sys2Proof.Machine.execVsigm h lgm fmt vd va ha s
  | .vmin h lgm fmt vd va vb ha hb => Sys2Proof.Machine.execVmin h lgm fmt vd va vb ha hb s
  | .vmax h lgm fmt vd va vb ha hb => Sys2Proof.Machine.execVmax h lgm fmt vd va vb ha hb s
  | .vabs h lgm fmt vd va ha => Sys2Proof.Machine.execVabs h lgm fmt vd va ha s
  | .vneg h lgm fmt vd va ha => Sys2Proof.Machine.execVneg h lgm fmt vd va ha s
  | .vround h lgm fmt vd va ha => Sys2Proof.Machine.execVround h lgm fmt vd va ha s
  | .vclamp h lgm fmt vd va vb vc ha hb hc => Sys2Proof.Machine.execVclamp h lgm fmt vd va vb vc ha hb hc s
  | .vcmp h lgm fmt pd va vb ha hb cond => Sys2Proof.Machine.execVcmp h lgm fmt pd va vb ha hb cond s
  | .vsel h lgm fmt vd va vb ha hb ps => Sys2Proof.Machine.execVsel h lgm fmt vd va vb ha hb ps s
  | .vcvt h lgm fmt vd va vs scaled other ha hb kind sel => Sys2Proof.Machine.execVcvt h lgm fmt vd va vs scaled other ha hb kind sel s
  | .vqnt h lgm fmt vd va vs src ha sel => Sys2Proof.Machine.execVqnt h lgm fmt vd va vs src ha sel s
  | .vscl h lgm fmt vd va vs ha hb sel => Sys2Proof.Machine.execVscl h lgm fmt vd va vs ha hb sel s
  | .vred h lgm fmt vd va ha => Sys2Proof.Machine.execVred h lgm fmt vd va ha s
  | .vmred h lgm fmt vd dn dm k => Sys2Proof.Machine.execVmred h lgm fmt vd dn dm k s
  | .vmscl h lgm fmt vd va vb k ha hb => Sys2Proof.Machine.execVmscl h lgm fmt vd va vb k ha hb s
  | .viadd h lgm fmt vd va vb ha hb => Sys2Proof.Machine.execViadd h lgm fmt vd va vb ha hb s
  | .visub h lgm fmt vd va vb ha hb => Sys2Proof.Machine.execVisub h lgm fmt vd va vb ha hb s
  | .vimul h lgm fmt vd va vb ha hb => Sys2Proof.Machine.execVimul h lgm fmt vd va vb ha hb s
  | .vimin h lgm fmt vd va vb ha hb => Sys2Proof.Machine.execVimin h lgm fmt vd va vb ha hb s
  | .vimax h lgm fmt vd va vb ha hb => Sys2Proof.Machine.execVimax h lgm fmt vd va vb ha hb s
  | .vand h lgm fmt vd va vb ha hb => Sys2Proof.Machine.execVand h lgm fmt vd va vb ha hb s
  | .vor h lgm fmt vd va vb ha hb => Sys2Proof.Machine.execVor h lgm fmt vd va vb ha hb s
  | .vxor h lgm fmt vd va vb ha hb => Sys2Proof.Machine.execVxor h lgm fmt vd va vb ha hb s
  | .vnot h lgm fmt vd va ha => Sys2Proof.Machine.execVnot h lgm fmt vd va ha s
  | .vshl h lgm fmt vd va vb ha hb => Sys2Proof.Machine.execVshl h lgm fmt vd va vb ha hb s
  | .vshr h lgm fmt vd va vb ha hb => Sys2Proof.Machine.execVshr h lgm fmt vd va vb ha hb s
  | .vsar h lgm fmt vd va vb ha hb => Sys2Proof.Machine.execVsar h lgm fmt vd va vb ha hb s
  | .vicmp h lgm fmt pd va vb ha hb cond => Sys2Proof.Machine.execVicmp h lgm fmt pd va vb ha hb cond s
  | .vperm h lgm vd va vb ha hb => Sys2Proof.Machine.execVperm h lgm vd va vb ha hb s
  | .vbcast h lgm fmt vd sa => Sys2Proof.Machine.execVbcast h lgm fmt vd sa s
  | .viota h lgm fmt vd => Sys2Proof.Machine.execViota h lgm fmt vd s
  | .qclr h lgm q => Sys2Proof.Machine.execQclr h lgm q s
  | .qmac h lgm fmt q va vb ha hb => Sys2Proof.Machine.execQmac h lgm fmt q va vb ha hb s
  | .qmsb h lgm fmt q va vb ha hb => Sys2Proof.Machine.execQmsb h lgm fmt q va vb ha hb s
  | .qadd h lgm fmt q va ha => Sys2Proof.Machine.execQadd h lgm fmt q va ha s
  | .qaddq h lgm qd qa => Sys2Proof.Machine.execQaddq h lgm qd qa s
  | .qrnd h lgm fmt vd q => Sys2Proof.Machine.execQrnd h lgm fmt vd q s
  | .qneg h lgm q => Sys2Proof.Machine.execQneg h lgm q s
  | .qst h lgm vd q hi => Sys2Proof.Machine.execQst h lgm vd q hi s
  | .qmov h lgm qd qa => Sys2Proof.Machine.execQmov h lgm qd qa s
  | .jseed h lgm vd va vb ha hb => Sys2Proof.Machine.execJseed h lgm vd va vb ha hb s
  | .jget h lgm fmt vd va ha fact ci => Sys2Proof.Machine.execJget h lgm fmt vd va ha fact ci s
  | .jset h lgm vd va ha ci => Sys2Proof.Machine.execJset h lgm vd va ha ci s
  | .jscale h lgm fmt vd va vt ha hb => Sys2Proof.Machine.execJscale h lgm fmt vd va vt ha hb s
  | .mpush h lgm va => Sys2Proof.Machine.execMpush h lgm va s
  | .mshift h => Sys2Proof.Machine.execMshift h s
  | .macc h fmt wl => Sys2Proof.Machine.execMacc h fmt wl s
  | .mdrain h lgm fmt vd row => Sys2Proof.Machine.execMdrain h lgm fmt vd row s
  | .mclr h row all => Sys2Proof.Machine.execMclr h row all s
  | .mspill h row da all => Sys2Proof.Machine.execMspill h row da all s
  | .mfill h row da all => Sys2Proof.Machine.execMfill h row da all s
  | .mstat h sd => Sys2Proof.Machine.execMstat h sd s
  | .ld h da off width sx data q => Sys2Proof.Machine.execLd h da off width sx data q s
  | .st h da off width data => Sys2Proof.Machine.execSt h da off width data s
  | .ldv h da off lgm data q => Sys2Proof.Machine.execLdv h da off lgm data q s
  | .stv h da off lgm data => Sys2Proof.Machine.execStv h da off lgm data s
  | .ldvs h da off stride ew data q => Sys2Proof.Machine.execLdvs h da off stride ew data q s
  | .stvs h da off stride ew data => Sys2Proof.Machine.execStvs h da off stride ew data s
  | .ldq h da off lgm q => Sys2Proof.Machine.execLdq h da off lgm q s
  | .stq h da off lgm q => Sys2Proof.Machine.execStq h da off lgm q s
  | .lda h da off scope width data q => Sys2Proof.Machine.execLda h da off scope width data q s
  | .stl h da off scope width data => Sys2Proof.Machine.execStl h da off scope width data s
  | .amoAdd h da off rd rs q => Sys2Proof.Machine.execAmoAdd h da off rd rs q s
  | .amoAnd h da off rd rs q => Sys2Proof.Machine.execAmoAnd h da off rd rs q s
  | .amoOr h da off rd rs q => Sys2Proof.Machine.execAmoOr h da off rd rs q s
  | .amoXor h da off rd rs q => Sys2Proof.Machine.execAmoXor h da off rd rs q s
  | .amoMin h da off rd rs q => Sys2Proof.Machine.execAmoMin h da off rd rs q s
  | .amoMax h da off rd rs q => Sys2Proof.Machine.execAmoMax h da off rd rs q s
  | .amoMaxu h da off rd rs q => Sys2Proof.Machine.execAmoMaxu h da off rd rs q s
  | .amoMinu h da off rd rs q => Sys2Proof.Machine.execAmoMinu h da off rd rs q s
  | .amoXchg h da off rd rs q wide => Sys2Proof.Machine.execAmoXchg h da off rd rs q wide s
  | .amoQadd h da off q => Sys2Proof.Machine.execAmoQadd h da off q s
  | .amoPadd h da off rd rs fmt q => Sys2Proof.Machine.execAmoPadd h da off rd rs fmt q s
  | .amocas h da off rd rc rn q => Sys2Proof.Machine.execAmocas h da off rd rc rn q s
  | .amocasD h da off rd rc rn q => Sys2Proof.Machine.execAmocasD h da off rd rc rn q s
  | .fence h scope => Sys2Proof.Machine.execFence h scope s
  | .drain h => Sys2Proof.Machine.execDrain h s
  | .pref h da off => Sys2Proof.Machine.execPref h da off s
  | .cpy h eq start dst src len => Sys2Proof.Machine.execCpy h eq start dst src len s
  | .gth h eq start dst base idx count esz => Sys2Proof.Machine.execGth h eq start dst base idx count esz s
  | .sct h eq start dst base idx count esz => Sys2Proof.Machine.execSct h eq start dst base idx count esz s
  | .wld h eq start src line count => Sys2Proof.Machine.execWld h eq start src line count s
  | .rwr h eq start dst src len flag lossy mask => Sys2Proof.Machine.execRwr h eq start dst src len flag lossy mask s
  | .rwg h eq start dst src len flag lossy mask => Sys2Proof.Machine.execRwg h eq start dst src len flag lossy mask s
  | .rrd h eq start src rq len => Sys2Proof.Machine.execRrd h eq start src rq len s
  | .collGrp h eq start dst src len flag grp => Sys2Proof.Machine.execCollGrp h eq start dst src len flag grp s
  | .collMod h eq start dst src len flag grp => Sys2Proof.Machine.execCollMod h eq start dst src len flag grp s
  | .collLossy h eq start dst src len flag grp => Sys2Proof.Machine.execCollLossy h eq start dst src len flag grp s
  | .qfence h start qmask => Sys2Proof.Machine.execQfence h start qmask s
  | .eclose h => Sys2Proof.Machine.execEclose h s
  | .ewait h n => Sys2Proof.Machine.execEwait h n s
  | .estat h eq rd => Sys2Proof.Machine.execEstat h eq rd s
  | .popW h d rq kind => Sys2Proof.Machine.execPopW h d rq kind s
  | .popF h d rq kind pn => Sys2Proof.Machine.execPopF h d rq kind pn s
  | .pack h fmt vd va vb src => Sys2Proof.Machine.execPack h fmt vd va vb src s
  | .unpk h fmt vd va vs sel scaled src => Sys2Proof.Machine.execUnpk h fmt vd va vs sel scaled src s
  | .xlg h lgm vd va bcast rot => Sys2Proof.Machine.execXlg h lgm vd va bcast rot s
  | .chk h lgm va => Sys2Proof.Machine.execChk h lgm va s
  | .movv h lgm vd va => Sys2Proof.Machine.execMovv h lgm vd va s
  | .movs h sd va lane => Sys2Proof.Machine.execMovs h sd va lane s
  | .getc h sd idx => Sys2Proof.Machine.execGetc h sd idx s
  | .setc h sa idx => Sys2Proof.Machine.execSetc h sa idx s
  | .feat h sd n => Sys2Proof.Machine.execFeat h sd n s
  | .rep h cnt str step => Sys2Proof.Machine.execRep h cnt str step s
  | .ext h value => Sys2Proof.Machine.execExt h value s
  | .dlaunch rd rs1 => Sys2Proof.Machine.execDlaunch rd rs1 s
  | .devq rd rs1 => Sys2Proof.Machine.execDevq rd rs1 s
  | .moduleStart failing fwDigest benaleDigest defects process parts => Sys2Proof.Machine.execModuleStart failing fwDigest benaleDigest defects process parts s
  | .stageTimeLimit => Sys2Proof.Machine.execStageTimeLimit s
  | .imageCheckRequest part digest verdict => Sys2Proof.Machine.execImageCheckRequest part digest verdict s
  | .attestationLogRequest nonce => Sys2Proof.Machine.execAttestationLogRequest nonce s
  | .bootComplete => Sys2Proof.Machine.execBootComplete s
  | .start value => Sys2Proof.Machine.execStart value s
  | .hostattn part value => Sys2Proof.Machine.execHostattn part value s
  | .dumpvalidRelease value => Sys2Proof.Machine.execDumpvalidRelease value s
  | .registerWrite agent offset value => Sys2Proof.Machine.execRegisterWrite agent offset value s
  | .droopRead die j present => Sys2Proof.Machine.execDroopRead die j present s
  | .sensorSample die kind idx value => Sys2Proof.Machine.execSensorSample die kind idx value s
  | .droopAlarm die j mv => Sys2Proof.Machine.execDroopAlarm die j mv s
  | .droopFatal die j mv => Sys2Proof.Machine.execDroopFatal die j mv s
  | .fatalError cause die => Sys2Proof.Machine.execFatalError cause die s
  | .benalePanic => Sys2Proof.Machine.execBenalePanic s
  | .fireflyWatchdog => Sys2Proof.Machine.execFireflyWatchdog s
  | .dumpDone => Sys2Proof.Machine.execDumpDone s
  | .moduleReset => Sys2Proof.Machine.execModuleReset s
  | .powerOff => Sys2Proof.Machine.execPowerOff s
  | .grenzorLoad part off len demandSig => Sys2Proof.Machine.execGrenzorLoad part off len demandSig s
  | .unload part handle => Sys2Proof.Machine.execUnload part handle s
  | .partitionReset part => Sys2Proof.Machine.execPartitionReset part s
  | .partitionReboot part => Sys2Proof.Machine.execPartitionReboot part s
  | .release wing frames => Sys2Proof.Machine.execRelease wing frames s
  | .assign wing part => Sys2Proof.Machine.execAssign wing part s
  | .coreOnline wing => Sys2Proof.Machine.execCoreOnline wing s
  | .coreOffline wing => Sys2Proof.Machine.execCoreOffline wing s
  | .termiteUnit wing => Sys2Proof.Machine.execTermiteUnit wing s
  | .termiteKeySlots wing => Sys2Proof.Machine.execTermiteKeySlots wing s
  | .vdcfg part vd weight quantum priomax enable => Sys2Proof.Machine.execVdcfg part vd weight quantum priomax enable s
  | .refill part => Sys2Proof.Machine.execRefill part s
  | .dispatchSelect die bases => Sys2Proof.Machine.execDispatchSelect die bases s
  | .swarmComplete part handle => Sys2Proof.Machine.execSwarmComplete part handle s
  | .eventPost wing => Sys2Proof.Machine.execEventPost wing s
  | .quantumExpiry tile slot => Sys2Proof.Machine.execQuantumExpiry tile slot s
  | .waitQuantumExpiry tile slot => Sys2Proof.Machine.execWaitQuantumExpiry tile slot s
  | .preemptRequest part wings => Sys2Proof.Machine.execPreemptRequest part wings s
  | .hardStop tile slot => Sys2Proof.Machine.execHardStop tile slot s
  | .preempt4096Expiry tile slot => Sys2Proof.Machine.execPreempt4096Expiry tile slot s
  | .waitYield tile => Sys2Proof.Machine.execWaitYield tile s
  | .debugResume tile slot => Sys2Proof.Machine.execDebugResume tile slot s
  | .engineCommandStart tile slot => Sys2Proof.Machine.execEngineCommandStart tile slot s
  | .engineCommandComplete tile slot eq => Sys2Proof.Machine.execEngineCommandComplete tile slot eq s
  | .transferClose tile slot eq => Sys2Proof.Machine.execTransferClose tile slot eq s
  | .replyArrival id => Sys2Proof.Machine.execReplyArrival id s
  | .storeAck id => Sys2Proof.Machine.execStoreAck id s
  | .waitConditionMet tile slot => Sys2Proof.Machine.execWaitConditionMet tile slot s
  | .barLeave tile slot => Sys2Proof.Machine.execBarLeave tile slot s
  | .remoteAccessArrival id => Sys2Proof.Machine.execRemoteAccessArrival id s
  | .memsideAccess id => Sys2Proof.Machine.execMemsideAccess id s
  | .tlbInvalidate part die lo hi => Sys2Proof.Machine.execTlbInvalidate part die lo hi s
  | .migrate part die va level tier frame => Sys2Proof.Machine.execMigrate part die va level tier frame s
  | .migrationCopyDone part die va => Sys2Proof.Machine.execMigrationCopyDone part die va s
  | .migrationSwitch part die va => Sys2Proof.Machine.execMigrationSwitch part die va s
  | .pinExpiry part die va => Sys2Proof.Machine.execPinExpiry part die va s
  | .windowStart => Sys2Proof.Machine.execWindowStart s
  | .flitReceive port peer flit => Sys2Proof.Machine.execFlitReceive port peer flit s
  | .nak port peer seq => Sys2Proof.Machine.execNak port peer seq s
  | .ack port peer seq => Sys2Proof.Machine.execAck port peer seq s
  | .creditReturn port peer blocks => Sys2Proof.Machine.execCreditReturn port peer blocks s
  | .downMapUpdate port owner meeting down => Sys2Proof.Machine.execDownMapUpdate port owner meeting down s
  | .downMapEffect port => Sys2Proof.Machine.execDownMapEffect port s
  | .portResetNotice port peer => Sys2Proof.Machine.execPortResetNotice port peer s
  | .discardNotice port src xfer block type => Sys2Proof.Machine.execDiscardNotice port src xfer block type s
  | .remoteWriteRequest port => Sys2Proof.Machine.execRemoteWriteRequest port s
  | .lossyWriteRequest port => Sys2Proof.Machine.execLossyWriteRequest port s
  | .dataBlockArrival port => Sys2Proof.Machine.execDataBlockArrival port s
  | .flagIncrement port src xfer => Sys2Proof.Machine.execFlagIncrement port src xfer s
  | .lossyDeadline port src xfer => Sys2Proof.Machine.execLossyDeadline port src xfer s
  | .heldBlockExpiry port src xfer => Sys2Proof.Machine.execHeldBlockExpiry port src xfer s
  | .storeWrite port => Sys2Proof.Machine.execStoreWrite port s
  | .remoteLoad port => Sys2Proof.Machine.execRemoteLoad port s
  | .remoteAtomic port => Sys2Proof.Machine.execRemoteAtomic port s
  | .watch port => Sys2Proof.Machine.execWatch port s
  | .watchSatisfied port src srctile => Sys2Proof.Machine.execWatchSatisfied port src srctile s
  | .completionReply port => Sys2Proof.Machine.execCompletionReply port s
  | .verdict port => Sys2Proof.Machine.execVerdict port s
  | .resendTimeout port xfer => Sys2Proof.Machine.execResendTimeout port xfer s
  | .peerLeave port peer => Sys2Proof.Machine.execPeerLeave port peer s
  | .recallAutoAck port peer => Sys2Proof.Machine.execRecallAutoAck port peer s
  | .grantHandoff port importer record => Sys2Proof.Machine.execGrantHandoff port importer record s
  | .grant port => Sys2Proof.Machine.execGrant port s
  | .grantRecall port => Sys2Proof.Machine.execRecall port s
  | .recallAck port => Sys2Proof.Machine.execRecallAck port s
  | .fabtestArm tile value => Sys2Proof.Machine.execFabtestArm tile value s
  | .qcfgArm tile value => Sys2Proof.Machine.execQcfgArm tile value s
  | .popWTimeout tile slot => Sys2Proof.Machine.execPopWTimeout tile slot s
  | .saveComplete tile slot => Sys2Proof.Machine.execSaveComplete tile slot s
  | .restoreComplete tile slot => Sys2Proof.Machine.execRestoreComplete tile slot s
  | .meshSlot id => Sys2Proof.Machine.execMeshSlot id s
  | .hostattnCodeRead part => Sys2Proof.Machine.execHostattnCodeRead part s

end Sys2Proof.Machine
end

