-- ==== Sys2Proof/Machine/Bundle.lean ====
section
/-!
DEFINITION. The issue of a bundle (06_tile R120 to R144, 11_encoding_syntax R228 to R245) and the move of a tile.
-/
namespace Sys2Proof.Machine
open Sys2Proof

/-! ## Judging a bundle -/

/-- A syllable to issue: its position, its 64 bits and the instruction, stepped if REP heads the bundle (R243). -/
structure Syl where
  pos   : Nat
  word  : DWord
  instr : Instr
  deriving DecidableEq, Repr

/-- A bundle decoded: its flaws, the words that issue, the syllables that name an instruction and its EXT immediate. -/
structure Bundle where
  flaws : List Flaw
  raw   : List DWord
  syls  : List Syl
  ext   : Option Word
  deriving DecidableEq, Repr

/-- The syllables of a bundle from a position on that name an instruction. One with a flaw is among them, since its other faults of
decoding count too (R234). -/
def sylsFrom : Nat → List DWord → List Syl
  | _, [] => []
  | pos, x :: now =>
    (match decodeLoose x with
      | some i => [{ pos := pos, word := x, instr := i }]
      | none => []) ++ sylsFrom (pos + 1) now

/-- A bundle under the JO and LGDEF of its decision cycle (R127). -/
def Ctx.bundleOf (c : Ctx) (jo : Nat) (lgdef : BitVec 8) (raw : List DWord) : Bundle :=
  let f := bundleFlaws lgdef raw
  let now := if f.isEmpty then stepped c jo raw else raw
  let g := f ++ (if f.isEmpty then stepFlaws raw now else [])
  { flaws := g, raw := now, syls := sylsFrom 0 now, ext := extOf raw }

/-- The state in which the syllables of a bundle issue. -/
def State.openBundle (s : State) (jo : Nat) (lgdef : BitVec 8) (n : Nat) : State :=
  { s with issue := { Issue.none with addr := s.cur.pc, size := n, jo := jo, lgdef := lgdef } }

/-- The state in which one of its syllables issues. -/
def State.atSyl (s : State) (ext : Option Word) (y : Syl) : State :=
  { s with issue := { s.issue with pos := y.pos, word := some y.word, ext := if y.pos = 1 then ext else none } }

/-- A syllable tried alone: the faults and waits that it has. The trap that TRAP and SYSC bring is no fault of theirs. -/
def State.probe (s : State) (i : Instr) : Host.Outcome State Fault Refusal :=
  match i with
  | .trap .. | .sysc .. => s.issueOp i [] id
  | _ => exec i s

/-- What the syllables of a bundle have shown: the queue places that they take, the traps with the state that each
leaves, and those that wait. -/
structure Judged where
  opened : List Nat
  traps  : List (Trap × State)
  stalls : List Syl
  stop   : Option (Host.Outcome State Fault Refusal)

/-- Every syllable is tried on the state before the bundle (R124, R140). -/
def State.judge (s : State) (ext : Option Word) : List Syl → Judged → Judged
  | [], j => j
  | y :: l, j =>
    let s1 := s.atSyl ext y
    match ({ s1 with issue := { s1.issue with opened := j.opened } }).probe y.instr with
    | .next t =>
      match t.issue.trapped with
      | some k => s.judge ext l { j with traps := j.traps ++ [(k, t)] }
      | none => s.judge ext l { j with opened := t.issue.opened,
                                       stalls := if t.issue.stalled then j.stalls ++ [y] else j.stalls }
    | o => { j with stop := some o }

/-- The trap of a flaw: its TINFO is the syllable (R146). -/
def flawTrap (raw : List DWord) (f : Flaw) : Trap :=
  let w := raw.getD f.1 0
  { cause := f.2, info := w, addr := false, pos := f.1, cls := clsOf w }

/-- Of traps with the states that they leave, the one that is taken (R140). -/
def firstTrap : List (Trap × State) → Option (Trap × State)
  | [] => none
  | x :: l => match firstTrap l with
    | none => some x
    | some y => if y.1.before x.1 then some y else some x

/-- The faults and waits of a bundle in the state in which it issues. -/
def State.judgeBundle (s : State) (b : Bundle) : Judged :=
  let j := s.judge b.ext b.syls { opened := [], traps := [], stalls := [], stop := none }
  { j with traps := b.flaws.map (fun f => let k := flawTrap b.raw f; (k, s.takeTrap 0 k)) ++ j.traps }

/-! ## Issue -/

/-- A syllable that does what follows its bundle; it takes effect last. -/
def endsBundle : Instr → Bool
  | .trap .. | .sysc .. | .eret .. | .halt .. | .exit .. | .exits .. => true
  | _ => false

/-- The effects of syllables, one after another. -/
def State.effects (s : State) (ext : Option Word) : List Syl → State
  | [] => s
  | y :: l => match exec y.instr (s.atSyl ext y) with
    | .next t => t.effects ext l
    | _ => s.effects ext l

/-- The bundle with its effects, but for those that end it; no fault or wait of its syllables counts. -/
def State.afterEffects (s : State) (b : Bundle) : State :=
  ({ s with issue := { s.issue with passed := true } }).effects b.ext (b.syls.filter (fun y => !endsBundle y.instr))

/-- The bundle has issued: the next one, or that at the target (R126, R265). What was fetched for it at a peer is read again for the next
time (R171). -/
def State.closeBundle (s : State) : State :=
  let t :=
    if s.issue.ended then s
    else match s.issue.target with
      | some a => s.withCur (s.cur.transfer a s.issue.keep s.issue.gap)
      | none => s.withCur (s.cur.follow s.issue.size s.issue.gap)
  { t with issue := Issue.none, cur := { t.cur with code := [], early := [] } }

/-- No syllable issues in this cycle: the bundle waits (R123). -/
def State.waitOn (s : State) (l : List Syl) (ext : Option Word) : State :=
  let t := s.effects ext l
  { (if t.issue.stalled then t else t.stall false id) with issue := Issue.none }

/-- A trap that meets SYSC or TRAP at the boundary after their bundle: a fault of the next bundle, when that has no delay
to serve (R140). -/
def State.boundaryFault (s : State) : Option (Trap × State) :=
  match s.fetch s.cur.pc with
  | .error k =>
    let t : Trap := { cause := k, info := s.cur.pc, addr := true, pos := 0, cls := 0 }
    some (t, s.takeTrap 0 t)
  | .ok raw =>
    let jo := joOf s.cur.sys.jo
    let lgdef : BitVec 8 := s.cur.sys.lgdef.setWidth 8
    if s.serve stepped ≠ 0 then none
    else firstTrap ((s.openBundle jo lgdef raw.length).judgeBundle (s.cur.bundleOf jo lgdef raw)).traps

/-- The last syllable of a bundle that ends it: SYSC and TRAP may meet a fault of the next bundle with a lower code. -/
def State.endBundle (s : State) (ext : Option Word) (y : Syl) : State :=
  let s1 := s.effects ext [y]
  match y.instr, s1.issue.trapped with
  | .trap .., some k | .sysc .., some k =>
    match s.finishBundle.boundaryFault with
    | some x => if x.1.before k then x.2 else s1
    | none => s1
  | _, _ => s1

/-- A bundle that its floors admit: its lowest fault is taken with the late traps that meet it (R140), or it waits, or it issues. -/
def State.issueJudged (s : State) (b : Bundle) (late : List (Trap × State)) : Host.Outcome State Fault Refusal :=
  let j := s.judgeBundle b
  match j.stop with
  | some o => o
  | none =>
    match firstTrap (late ++ j.traps) with
    | some x => .next { x.2 with issue := Issue.none }
    | none =>
      if !j.stalls.isEmpty then .next ((s.withCur { s.cur with early := [] }).waitOn j.stalls b.ext)
      else
        let t := s.afterEffects b
        match b.syls.find? (fun y => endsBundle y.instr) with
        | some y => .next (t.endBundle b.ext y).closeBundle
        | none => .next t.closeBundle

/-- A bundle at the cycle in which its delays have been served. A floor puts its issue cycle off, and its faults with it; the late
traps are taken at its earliest cycle (R123, R140). -/
def State.issueBundle (s : State) (jo : Nat) (lgdef : BitVec 8) (raw : List DWord) : Host.Outcome State Fault Refusal :=
  let b := s.cur.bundleOf jo lgdef raw
  let s0 := s.openBundle jo lgdef raw.length
  let late := s.cur.late.map (fun k => (k, s0.takeTrap 0 k))
  if s0.floored jo lgdef (b.syls.map (·.instr)) then
    match firstTrap late with
    | some x => .next { x.2 with issue := Issue.none }
    | none => .next (s0.waitOn [] b.ext)
  else s0.issueJudged b late

/-! ## The move of a context -/

/-- The earliest issue cycle of the next bundle (R71, R123). -/
def Ctx.earliestCycle (c : Ctx) : Nat :=
  let e := max c.clk c.earliest
  if c.dlf then ((c.unfinishedHere c.clk).map Access.landed).foldl max ((c.flight.map (·.land)).foldl max e) else e

/-- A trap that has been found before the next bundle is taken at that bundle's earliest cycle (R140). -/
def State.takeLate (s : State) (d : Nat) (l : List Trap) : State :=
  match lowestTrap l with
  | some k => { (s.withCur { s.cur with late := [] }).takeTrap d k with issue := Issue.none }
  | none => s

/-- The result-queue places of a context that another still has. -/
def Ctx.placesIn (c d : Ctx) : Vector (List QEntry) 4 :=
  let all := (d.rq.toList.map (fun l => l.map (·.request))).flatten
  c.rq.map (fun l => l.filter (fun e => all.contains e.request))

/-- The next bundle is still on its way from a peer: one cycle passes (R171, R229). -/
def State.awaitCode (s : State) : State :=
  let t := s.askCode s.cur.pc
  t.withCur { t.cur with earliest := t.cur.clk + 1 }

/-- The context in issue reaches the issue cycle of its next bundle, and the bundle issues, waits or traps (R123, R140).
While a bundle waits, one cycle more has passed. -/
def State.issueNext (s : State) : Host.Outcome State Fault Refusal :=
  match s.cur.wait, s.cur.delay with
  | some w, none =>
    let t := s.advance (s.cur.clk + 1)
    (match t.fetch t.cur.pc with
      | .error k => .next { t.takeTrap 0 { cause := k, info := t.cur.pc, addr := true, pos := 0, cls := 0 } with issue := Issue.none }
      | .ok [] => .next t.awaitCode
      | .ok raw => t.issueBundle w.jo w.lgdef raw)
  | _, _ =>
    let e0 := s.advance s.cur.earliestCycle
    match e0.fetch e0.cur.pc with
    | .error k =>
      let t : Trap := { cause := k, info := e0.cur.pc, addr := true, pos := 0, cls := 0 }
      .next (e0.takeLate 0 (e0.cur.late ++ [t]))
    | .ok [] => .next e0.awaitCode
    | .ok raw =>
      let e := (e0.keepCode raw.length).openRep raw
      let stall := if e.cur.delay.isSome then 0 else e.cur.stallOf raw
      let p := e.advance (e.cur.clk + stall)
      let jo := joOf p.cur.sys.jo
      let lgdef : BitVec 8 := p.cur.sys.lgdef.setWidth 8
      let d := match e.cur.delay with
        | some d => d
        | none => stall + p.delays jo lgdef (instrsOf (stepped p.cur jo raw))
      if d ≠ 0 ∧ !e.cur.late.isEmpty then .next (e.takeLate d e.cur.late)
      else
        let i := (p.openBanks jo lgdef (instrsOf (stepped p.cur jo raw)) (e.cur.clk + d)).advance (e.cur.clk + d)
        if d ≠ 0 ∧ !i.cur.late.isEmpty then
          let x := e.withCur { e.cur with waiting := i.cur.waiting, eqs := i.cur.eqs, openB := i.cur.openB,
                                          closedB := i.cur.closedB, rq := e.cur.placesIn i.cur }
          .next (x.takeLate d i.cur.late)
        else
          let w := i.cur.wait.map (fun x => { x with since := i.cur.clk, jo := jo, lgdef := lgdef })
          (i.withCur { i.cur with delay := none, wait := w }).issueBundle jo lgdef raw

/-- The context in issue moves: it stops at a stop point (R112), yields its tile (R107), or goes on to its next bundle. -/
def State.moveIssuer (s : State) : Host.Outcome State Fault Refusal :=
  if s.stopDue then .next s.hardStop
  else if s.yieldDue then .next s.yieldTile
  else match s.issueNext with
    | .next t => .next (t.chargeSince s.cur)
    | o => o

/-- One module cycle passes with no bundle of a tile; the accesses of its cluster perform in it (R155, R369). -/
def State.idle (s : State) (tile : Nat) : State := { s with cycle := s.cycle + 1 }.passCluster (clusterOf tile) (s.cycle + 1)

/-- A tile moves: its issuing context, or a switch to one that is ready (R107), or nothing. -/
def State.moveTile (s : State) (tile : Nat) : Host.Outcome State Fault Refusal :=
  match s.issuerOf tile with
  | some c => (s.focus c.uid).moveIssuer
  | none => if (s.incoming tile none).isSome then .next (s.switchIn tile none) else .next (s.idle tile)

end Sys2Proof.Machine
end

