-- ==== Sys2Proof/Machine/Ieee.lean ====
section
/-!
DEFINITION. Binary32 and binary64 as the F and D extensions of RV64GC use them (00_scope R1; PRESUMED, log entry 3): exact rationals,
rounded once.
-/
namespace Sys2Proof.Machine
open Sys2Proof

/-- A format: the bits of its significand, with the leading one, and of its exponent. -/
structure IeeeFmt where
  prec : Nat
  ebits : Nat
  deriving DecidableEq, Repr

def singleFmt : IeeeFmt := { prec := 24, ebits := 8 }
def doubleFmt : IeeeFmt := { prec := 53, ebits := 11 }

/-- The bits of a format but for the sign. -/
def IeeeFmt.width (f : IeeeFmt) : Nat := f.prec - 1 + f.ebits

/-- The bit patterns of infinity and of the canonical NaN. -/
def IeeeFmt.inf (f : IeeeFmt) : Nat := (2 ^ f.ebits - 1) * 2 ^ (f.prec - 1)
def IeeeFmt.nan (f : IeeeFmt) : Nat := f.inf + 2 ^ (f.prec - 2)

/-- The exponent of the least normal number. -/
def IeeeFmt.emin (f : IeeeFmt) : Int := 2 - 2 ^ (f.ebits - 1)

/-- The exception flags of fflags. -/
def fNx : Nat := 1
def fUf : Nat := 2
def fOf : Nat := 4
def fDz : Nat := 8
def fNv : Nat := 16

/-- A number: a finite one is m × 2^e under a sign. -/
inductive Fp where
  | nan (signals : Bool)
  | inf (neg : Bool)
  | fin (neg : Bool) (m : Nat) (e : Int)
  deriving DecidableEq, Repr

/-- The sign bit of a pattern. -/
def IeeeFmt.neg (f : IeeeFmt) (x : Nat) : Bool := x.testBit f.width

/-- What a pattern means. -/
def IeeeFmt.decode (f : IeeeFmt) (x : Nat) : Fp :=
  let neg := f.neg x
  let frac := x % 2 ^ (f.prec - 1)
  let ex := x / 2 ^ (f.prec - 1) % 2 ^ f.ebits
  if ex = 2 ^ f.ebits - 1 then (if frac = 0 then .inf neg else .nan (!frac.testBit (f.prec - 2)))
  else if ex = 0 then .fin neg frac (f.emin - (f.prec - 1))
  else .fin neg (frac + 2 ^ (f.prec - 1)) (f.emin + ex - 1 - (f.prec - 1))

/-- A pattern under a sign. -/
def IeeeFmt.signed (f : IeeeFmt) (neg : Bool) (x : Nat) : Nat := x + if neg then 2 ^ f.width else 0

/-- m × 2^e as a ratio. -/
def ratioOf (m : Nat) (e : Int) : Nat × Nat := (m * 2 ^ e.toNat, 2 ^ (-e).toNat)

/-- The exponent of the leading bit of a positive ratio. -/
def leadOf (n d : Nat) : Int :=
  let k : Int := (Nat.log2 n : Int) - Nat.log2 d
  let r := ratioOf 1 k
  if n * r.2 < d * r.1 then k - 1 else k

/-- A ratio rounded to an integer: modes 0 nearest even, 1 to zero, 2 down, 3 up, 4 nearest with ties away; and whether it was inexact. -/
def roundUnit (mode : Nat) (neg : Bool) (n d : Nat) : Nat × Bool :=
  let i := n / d
  let r := n % d
  let up : Bool := match mode with
    | 0 => decide (d < 2 * r) || (2 * r == d && i % 2 == 1)
    | 1 => false
    | 2 => neg && r != 0
    | 3 => !neg && r != 0
    | _ => decide (d ≤ 2 * r)
  (if up then i + 1 else i, r != 0)

/-- A ratio in units of 2^q. -/
def ratioInUnits (n d : Nat) (q : Int) : Nat × Nat := (n * 2 ^ (-q).toNat, d * 2 ^ q.toNat)

/-- A ratio rounded to a format: the pattern and the flags. Underflow is found after rounding. -/
def IeeeFmt.round (f : IeeeFmt) (mode : Nat) (neg : Bool) (n d : Nat) : Nat × Nat :=
  if n = 0 then (f.signed neg 0, 0)
  else
    let lead := leadOf n d
    let e := max lead f.emin
    let u := ratioInUnits n d (e - (f.prec - 1))
    let x := roundUnit mode neg u.1 u.2
    let bits := (e - f.emin).toNat * 2 ^ (f.prec - 1) + x.1
    if f.inf ≤ bits then
      let big : Bool := match mode with
        | 1 => false
        | 2 => neg
        | 3 => !neg
        | _ => true
      (f.signed neg (if big then f.inf else f.inf - 1), fOf + fNx)
    else
      let v := ratioInUnits n d (lead - (f.prec - 1))
      let tiny := decide (lead < f.emin) && !(lead + 1 == f.emin && (roundUnit mode neg v.1 v.2).1 == 2 ^ f.prec)
      (f.signed neg bits, if x.2 then (if tiny then fUf + fNx else fNx) else 0)

/-- A finite number rounded to a format. -/
def IeeeFmt.roundFin (f : IeeeFmt) (mode : Nat) (neg : Bool) (m : Nat) (e : Int) : Nat × Nat :=
  let r := ratioOf m e
  f.round mode neg r.1 r.2

/-- A NaN raises the invalid flag when an operand signals. -/
def Fp.signals : Fp → Bool
  | .nan s => s
  | _ => false
def Fp.isNan : Fp → Bool
  | .nan _ => true
  | _ => false
def Fp.isInf : Fp → Bool
  | .inf _ => true
  | _ => false
def Fp.isZero : Fp → Bool
  | .fin _ 0 _ => true
  | _ => false
def Fp.sign : Fp → Bool
  | .nan _ => false
  | .inf s => s
  | .fin s _ _ => s

/-- The sign changed. -/
def Fp.negate : Fp → Fp
  | .nan s => .nan s
  | .inf s => .inf (!s)
  | .fin s m e => .fin (!s) m e

/-- The canonical NaN, with the invalid flag or without it. -/
def IeeeFmt.quiet (f : IeeeFmt) (invalid : Bool) : Nat × Nat := (f.nan, if invalid then fNv else 0)

/-- The signed significand of a number in units of 2^e. -/
def signedUnits (neg : Bool) (m : Nat) (unit wanted : Int) : Int := (if neg then -1 else 1) * ((m * 2 ^ (unit - wanted).toNat : Nat) : Int)

/-- The sum of two finite numbers, rounded; an exact zero of opposite signs is positive, but for rounding down. -/
def IeeeFmt.sumFin (f : IeeeFmt) (mode : Nat) (s1 : Bool) (m1 : Nat) (e1 : Int) (s2 : Bool) (m2 : Nat) (e2 : Int) : Nat × Nat :=
  let e := min e1 e2
  let x := signedUnits s1 m1 e1 e + signedUnits s2 m2 e2 e
  if x = 0 then (f.signed (if s1 = s2 then s1 else mode == 2) 0, 0)
  else f.roundFin mode (decide (x < 0)) x.natAbs e

/-- a × b + c, rounded once. -/
def IeeeFmt.fma (f : IeeeFmt) (mode : Nat) (a b c : Fp) : Nat × Nat :=
  let lost := (a.isInf && b.isZero) || (a.isZero && b.isInf)
  let sp := a.sign != b.sign
  if lost || a.signals || b.signals || c.signals then f.quiet true
  else if a.isNan || b.isNan || c.isNan then f.quiet false
  else if a.isInf || b.isInf then (if c.isInf && c.sign != sp then f.quiet true else (f.signed sp f.inf, 0))
  else match a, b, c with
    | .fin _ m1 e1, .fin _ m2 e2, .fin s3 m3 e3 => f.sumFin mode sp (m1 * m2) (e1 + e2) s3 m3 e3
    | _, _, _ => (f.signed c.sign f.inf, 0)

/-- The number one. -/
def Fp.one : Fp := .fin false 1 0

/-- a + b, and a × b. -/
def IeeeFmt.add (f : IeeeFmt) (mode : Nat) (a b : Fp) : Nat × Nat := f.fma mode a .one b
def IeeeFmt.mul (f : IeeeFmt) (mode : Nat) (a b : Fp) : Nat × Nat :=
  f.fma mode a b (.fin (a.sign != b.sign) 0 0)

/-- a / b. -/
def IeeeFmt.div (f : IeeeFmt) (mode : Nat) (a b : Fp) : Nat × Nat :=
  let s := a.sign != b.sign
  if a.signals || b.signals || (a.isInf && b.isInf) || (a.isZero && b.isZero) then f.quiet true
  else if a.isNan || b.isNan then f.quiet false
  else match a, b with
    | .fin _ m1 e1, .fin _ m2 e2 =>
      if m2 = 0 then (f.signed s f.inf, fDz)
      else
        let r := ratioOf m1 (e1 - e2)
        f.round mode s r.1 (r.2 * m2)
    | .inf _, _ => (f.signed s f.inf, 0)
    | _, _ => (f.signed s 0, 0)

/-- The integer square root of n, below 2^b added to r; structural in b. -/
def rootBits (n : Nat) : Nat → Nat → Nat
  | 0, r => r
  | b + 1, r => rootBits n b (if (r + 2 ^ b) * (r + 2 ^ b) ≤ n then r + 2 ^ b else r)

/-- The square root: enough bits of it, and a last one that says whether more follow. -/
def IeeeFmt.sqrt (f : IeeeFmt) (mode : Nat) (a : Fp) : Nat × Nat :=
  match a with
  | .nan s => f.quiet s
  | .inf s => if s then f.quiet true else (f.inf, 0)
  | .fin s m e =>
    if m = 0 then (f.signed s 0, 0)
    else if s then f.quiet true
    else
      let odd : Nat := (e % 2).toNat
      let n := m * 2 ^ (odd + 2 * (f.prec + 2))
      let half := (e - odd) / 2 - (f.prec + 2 : Nat)
      let r := rootBits n (Nat.log2 n / 2 + 1) 0
      f.roundFin mode false (2 * r + if r * r = n then 0 else 1) (half - 1)

/-- a < b, and a = b, of numbers that are no NaNs. -/
def Fp.lt (a b : Fp) : Bool :=
  match a, b with
  | .inf s, .inf t => s && !t
  | .inf s, _ => s
  | _, .inf t => !t
  | .fin s1 m1 e1, .fin s2 m2 e2 => let e := min e1 e2; decide (signedUnits s1 m1 e1 e < signedUnits s2 m2 e2 e)
  | _, _ => false
def Fp.eq (a b : Fp) : Bool := !a.isNan && !b.isNan && !a.lt b && !b.lt a

/-- The lesser, or the greater, of two patterns: a NaN gives way to a number, and −0 is less than +0. -/
def IeeeFmt.pick (f : IeeeFmt) (greater : Bool) (x y : Nat) : Nat × Nat :=
  let a := f.decode x
  let b := f.decode y
  let fl := if a.signals || b.signals then fNv else 0
  if a.isNan && b.isNan then (f.nan, fl)
  else if a.isNan then (y, fl)
  else if b.isNan then (x, fl)
  else
    let first := a.lt b || (a.eq b && a.sign && !b.sign)
    (if first != greater then x else y, fl)

/-- A number as an integer of n bits: the least or greatest where it does not fit, the greatest for a NaN. -/
def Fp.toInteger (mode n : Nat) (isSigned : Bool) (a : Fp) : Int × Nat :=
  let hi : Int := if isSigned then 2 ^ (n - 1) - 1 else 2 ^ n - 1
  let lo : Int := if isSigned then -(2 ^ (n - 1)) else 0
  match a with
  | .nan _ => (hi, fNv)
  | .inf s => (if s then lo else hi, fNv)
  | .fin s m e =>
    let r := ratioOf m e
    let x := roundUnit mode s r.1 r.2
    let v : Int := if s then -(x.1 : Int) else x.1
    if v < lo then (lo, fNv) else if hi < v then (hi, fNv) else (v, if x.2 then fNx else 0)

/-- The class of a pattern (FCLASS). -/
def IeeeFmt.classOf (f : IeeeFmt) (x : Nat) : Nat :=
  let sub := x / 2 ^ (f.prec - 1) % 2 ^ f.ebits == 0
  match f.decode x with
  | .inf s => if s then 1 else 2 ^ 7
  | .nan s => if s then 2 ^ 8 else 2 ^ 9
  | .fin s m _ =>
    if m = 0 then (if s then 2 ^ 3 else 2 ^ 4)
    else if sub then (if s then 2 ^ 2 else 2 ^ 5)
    else if s then 2 ^ 1 else 2 ^ 6

end Sys2Proof.Machine
end

