-- ==== Sys2Proof/Machine/Rv64.lean ====
section
/-!
DEFINITION. The instructions of RV64GC and of the hypervisor extension that a control core runs beside DLAUNCH and DEVQ (00_scope R1,
08_ordering R181): this manual names the instruction set and leaves its description to RISC-V (PRESUMED, log entry 3). A core performs one
instruction after another, which is an order that RVWMO allows, so FENCE and the aq and rl bits ask for nothing more.
-/
namespace Sys2Proof.Machine
open Sys2Proof

/-! ## Ends of an instruction -/

/-- An instruction of n bytes that leaves a value in rd. -/
def State.rvDone (s : State) (rd : BitVec 5) (v : DWord) (n : Nat) : State := s.mapCore s.hart (fun c => (c.setX rd v).past n)

/-- An instruction of n bytes that leaves nothing in a register. -/
def State.rvSkip (s : State) (n : Nat) : State := s.mapCore s.hart (fun c => c.past n)

/-- An instruction that goes to an address. -/
def State.rvJump (s : State) (rd : BitVec 5) (link target : DWord) : State :=
  s.mapCore s.hart (fun c => { (c.setX rd link).past 0 with pc := target &&& ~~~1 })

/-- An illegal instruction, and one that only a guest may not run. -/
def State.rvIllegal (s : State) (word : Word) : State := s.coreExcept 2 (word.setWidth 64)
def State.rvVirtual (s : State) (word : Word) : State := s.coreExcept 22 (word.setWidth 64)

/-- A value of n bytes as a register holds it, with its sign or without. -/
def extendTo (x n : Nat) : DWord := BitVec.ofInt 64 (signedOf (x % 2 ^ (8 * n)) (8 * n))
def loadValue (isSigned : Bool) (x n : Nat) : DWord := if isSigned then extendTo x n else BitVec.ofNat 64 (x % 2 ^ (8 * n))

/-! ## Loads and stores (R83, R162, R171) -/

/-- A page fault of a load, a store or a fetch of the core: guest says that the access is made for a guest. -/
def State.rvPageFault (s : State) (guest : Bool) (cause guestCause : Nat) (a : DWord) : State :=
  s.coreUsed.mapCore s.hart (fun c =>
    let k := if guest then guestCause else cause
    c.enter (c.trapLevel k) false k a guest)

/-- A load of n bytes, aligned, and what follows it. One whose page lives at a peer is asked for there first. -/
def State.rvLoad (s : State) (guest : Bool) (a : DWord) (n : Nat) (then_ : State → Nat → State) : State :=
  if a.toNat % n ≠ 0 then s.coreExcept 4 a
  else match s.coreRead a n with
    | .got x => then_ (s.coreKeep a n).coreUsed x
    | .away => s.coreGoes a false (fun o => .load [⟨0, o, n⟩])
    | .denied => s.rvPageFault guest 13 21 a

/-- A store of n bytes, aligned, and what follows it. -/
def State.rvStore (s : State) (guest : Bool) (a : DWord) (n x : Nat) (then_ : State → State) : State :=
  if a.toNat % n ≠ 0 then s.coreExcept 6 a
  else match s.coreAddr a true with
    | some p => then_ (s.coreWrite a p n x)
    | none =>
      if s.coreFar a true then
        match (s.partN (s.partOfWing s.hart)).farAnswer (farKey s.hart (coreDie a) (coreOff a) true) with
        | .got _ => then_ (s.coreHold a (bytesOfNat n x)).coreUsed
        | .away => s.coreGoes a true (fun o => .store [⟨o, n, x⟩])
        | .denied => s.rvPageFault guest 15 23 a
      else s.rvPageFault guest 15 23 a

/-- A read and write of n bytes as one, aligned, with the old value for what follows it. -/
def State.rvAtomic (s : State) (a : DWord) (n : Nat) (op : AmoOp) (b : DWord) (then_ : State → Nat → State) : State :=
  let c := s.core
  if a.toNat % n ≠ 0 then s.coreExcept 6 a
  else match s.coreAddr a true with
    | some p =>
      let old := Memory.readNat s.mem p n
      then_ (s.coreWrite a p n (op.eval (8 * n) old b.toNat)) old
    | none =>
      if s.coreFar a true then
        match (s.partN (s.partOfWing s.hart)).farAnswer (farKey s.hart (coreDie a) (coreOff a) true) with
        | .got old => then_ s.coreUsed old
        | .away => s.coreGoes a true (fun o => .atomic (.word 0 o n op b))
        | .denied => s.rvPageFault c.virt 15 23 a
      else s.rvPageFault c.virt 15 23 a

/-- Fields of an instruction. -/
def rdOf (w : Word) : BitVec 5 := w.extractLsb' 7 5
def rs1Of (w : Word) : BitVec 5 := w.extractLsb' 15 5
def rs2Of (w : Word) : BitVec 5 := w.extractLsb' 20 5
def funct3 (w : Word) : Nat := (w.extractLsb' 12 3).toNat
def funct7 (w : Word) : Nat := (w.extractLsb' 25 7).toNat

/-- The immediates of the formats I, S, B, U and J. -/
def immI (w : Word) : DWord := (w.extractLsb' 20 12).signExtend 64
def immS (w : Word) : DWord := (w.extractLsb' 25 7 ++ w.extractLsb' 7 5).signExtend 64
def immB (w : Word) : DWord :=
  (w.extractLsb' 31 1 ++ w.extractLsb' 7 1 ++ w.extractLsb' 25 6 ++ w.extractLsb' 8 4 ++ (0 : BitVec 1)).signExtend 64
def immU (w : Word) : DWord := (w.extractLsb' 12 20 ++ (0 : BitVec 12)).signExtend 64
def immJ (w : Word) : DWord :=
  (w.extractLsb' 31 1 ++ w.extractLsb' 12 8 ++ w.extractLsb' 20 1 ++ w.extractLsb' 21 10 ++ (0 : BitVec 1)).signExtend 64

/-- LB to LWU, by funct3: the bytes and whether they are signed. -/
def loadKind (f : Nat) : Option (Nat × Bool) :=
  match f with
  | 0 => some (1, true)
  | 1 => some (2, true)
  | 2 => some (4, true)
  | 3 => some (8, true)
  | 4 => some (1, false)
  | 5 => some (2, false)
  | 6 => some (4, false)
  | _ => none

/-- Loads of integer registers. -/
def State.rvLoadX (s : State) (w : Word) (len : Nat) : Option State :=
  (loadKind (funct3 w)).map (fun k =>
    s.rvLoad s.core.virt (s.core.x (rs1Of w) + immI w) k.1 (fun t x => t.rvDone (rdOf w) (loadValue k.2 x k.1) len))

/-- Stores of integer registers. -/
def State.rvStoreX (s : State) (w : Word) (len : Nat) : Option State :=
  if funct3 w ≤ 3 then
    some (s.rvStore s.core.virt (s.core.x (rs1Of w) + immS w) (2 ^ funct3 w) (s.core.x (rs2Of w)).toNat (fun t => t.rvSkip len))
  else none

/-! ## Integer operations -/

/-- The operations of OP and OP-IMM on 64 bits. -/
def alu64 (f3 : Nat) (alt : Bool) (a b : DWord) : DWord :=
  match f3 with
  | 0 => if alt then a - b else a + b
  | 1 => a <<< (b.toNat % 64)
  | 2 => if a.slt b then 1 else 0
  | 3 => if a.ult b then 1 else 0
  | 4 => a ^^^ b
  | 5 => if alt then a.sshiftRight (b.toNat % 64) else a >>> (b.toNat % 64)
  | 6 => a ||| b
  | _ => a &&& b

/-- A word as a register holds it. -/
def wordValue (x : Word) : DWord := x.signExtend 64

/-- The operations of OP-32 and OP-IMM-32. -/
def alu32 (f3 : Nat) (alt : Bool) (a b : Word) : Option DWord :=
  match f3 with
  | 0 => some (wordValue (if alt then a - b else a + b))
  | 1 => some (wordValue (a <<< (b.toNat % 32)))
  | 5 => some (wordValue (if alt then a.sshiftRight (b.toNat % 32) else a >>> (b.toNat % 32)))
  | _ => none

/-- Signed division towards zero of n-bit numbers, and its remainder; a divisor of 0 gives −1 and the dividend. -/
def quotS (a b : Int) : Int := if b = 0 then -1 else a.tdiv b
def restS (a b : Int) : Int := if b = 0 then a else a.tmod b
def quotU (a b n : Nat) : Nat := if b = 0 then 2 ^ n - 1 else a / b
def restU (a b : Nat) : Nat := if b = 0 then a else a % b

/-- The operations of the M extension on 64 bits. -/
def mul64 (f3 : Nat) (a b : DWord) : DWord :=
  let hi (x : Int) : DWord := BitVec.ofInt 64 (x / 2 ^ 64)
  match f3 with
  | 0 => a * b
  | 1 => hi (a.toInt * b.toInt)
  | 2 => hi (a.toInt * b.toNat)
  | 3 => hi ((a.toNat : Int) * b.toNat)
  | 4 => BitVec.ofInt 64 (quotS a.toInt b.toInt)
  | 5 => BitVec.ofNat 64 (quotU a.toNat b.toNat 64)
  | 6 => BitVec.ofInt 64 (restS a.toInt b.toInt)
  | _ => BitVec.ofNat 64 (restU a.toNat b.toNat)

/-- Those on words. -/
def mul32 (f3 : Nat) (a b : Word) : Option DWord :=
  match f3 with
  | 0 => some (wordValue (a * b))
  | 4 => some (wordValue (BitVec.ofInt 32 (quotS a.toInt b.toInt)))
  | 5 => some (wordValue (BitVec.ofNat 32 (quotU a.toNat b.toNat 32)))
  | 6 => some (wordValue (BitVec.ofInt 32 (restS a.toInt b.toInt)))
  | 7 => some (wordValue (BitVec.ofNat 32 (restU a.toNat b.toNat)))
  | _ => none

/-- OP-IMM. -/
def State.rvOpImm (s : State) (w : Word) (len : Nat) : Option State :=
  let f := funct3 w
  let top := (w.extractLsb' 26 6).toNat
  let a := s.core.x (rs1Of w)
  if f = 1 ∨ f = 5 then
    (if top = 0 ∨ (f = 5 ∧ top = 0x10) then some (s.rvDone (rdOf w) (alu64 f (top == 0x10) a ((w.extractLsb' 20 6).setWidth 64)) len) else none)
  else some (s.rvDone (rdOf w) (alu64 f false a (immI w)) len)

/-- OP-IMM-32. -/
def State.rvOpImm32 (s : State) (w : Word) (len : Nat) : Option State :=
  let f := funct3 w
  let top := funct7 w
  let a : Word := (s.core.x (rs1Of w)).setWidth 32
  if f = 0 then (alu32 0 false a ((immI w).setWidth 32)).map (fun v => s.rvDone (rdOf w) v len)
  else if top = 0 ∨ (f = 5 ∧ top = 0x20) then (alu32 f (top == 0x20) a ((rs2Of w).setWidth 32)).map (fun v => s.rvDone (rdOf w) v len)
  else none

/-- OP. -/
def State.rvOp (s : State) (w : Word) (len : Nat) : Option State :=
  let f := funct3 w
  let a := s.core.x (rs1Of w)
  let b := s.core.x (rs2Of w)
  match funct7 w with
  | 0 => some (s.rvDone (rdOf w) (alu64 f false a b) len)
  | 1 => some (s.rvDone (rdOf w) (mul64 f a b) len)
  | 0x20 => if f = 0 ∨ f = 5 then some (s.rvDone (rdOf w) (alu64 f true a b) len) else none
  | _ => none

/-- OP-32. -/
def State.rvOp32 (s : State) (w : Word) (len : Nat) : Option State :=
  let f := funct3 w
  let a : Word := (s.core.x (rs1Of w)).setWidth 32
  let b : Word := (s.core.x (rs2Of w)).setWidth 32
  let v : Option DWord := match funct7 w with
    | 0 => alu32 f false a b
    | 1 => mul32 f a b
    | 0x20 => if f = 0 ∨ f = 5 then alu32 f true a b else none
    | _ => none
  v.map (fun x => s.rvDone (rdOf w) x len)

/-! ## Branches and jumps -/

/-- Whether a branch is taken. -/
def branchTaken (f3 : Nat) (a b : DWord) : Option Bool :=
  match f3 with
  | 0 => some (a == b)
  | 1 => some (a != b)
  | 4 => some (a.slt b)
  | 5 => some (!a.slt b)
  | 6 => some (a.ult b)
  | 7 => some (!a.ult b)
  | _ => none

def State.rvBranch (s : State) (w : Word) (len : Nat) : Option State :=
  let c := s.core
  (branchTaken (funct3 w) (c.x (rs1Of w)) (c.x (rs2Of w))).map (fun t => if t then s.rvJump 0 0 (c.pc + immB w) else s.rvSkip len)

/-! ## Atomics (R181) -/

/-- The operation of an AMO by its funct5; LR and SC are apart. -/
def amoOf (f : Nat) : Option AmoOp :=
  match f with
  | 0b00000 => some .add
  | 0b00001 => some .xchg
  | 0b00100 => some .xor
  | 0b01000 => some .or
  | 0b01100 => some .and
  | 0b10000 => some .min
  | 0b10100 => some .max
  | 0b11000 => some .minu
  | 0b11100 => some .maxu
  | _ => none

/-- The key of a place at a peer, for a reservation. -/
def State.farPlace (s : State) (a : DWord) : Nat := farKey s.hart (coreDie a) (coreOff a) true

/-- LR: the value is read, and the place reserved. -/
def State.rvLr (s : State) (w : Word) (n : Nat) : State :=
  let a := s.core.x (rs1Of w)
  let r (x : Nat) : Reservation := match s.coreAddr a false with
    | some p => .here p n
    | none => .far (s.farPlace a) n x
  s.rvLoad s.core.virt a n (fun t x =>
    (t.mapCore t.hart (fun c => { c with reserved := some (r x) })).rvDone (rdOf w) (extendTo x n) 4)

/-- SC: the store is made while the reservation of the place holds. A place at a peer is exchanged against the value that was read. -/
def State.rvSc (s : State) (w : Word) (n : Nat) : State :=
  let c := s.core
  let a := c.x (rs1Of w)
  let b := c.x (rs2Of w)
  let drop (t : State) : State := t.mapCore t.hart (fun x => { x with reserved := none })
  let fail : State := (drop s).rvDone (rdOf w) 1 4
  if a.toNat % n ≠ 0 then s.coreExcept 6 a
  else match c.reserved with
    | some (.here p k) =>
      if s.coreAddr a true = some p ∧ k = n then s.rvStore c.virt a n b.toNat (fun t => (drop t).rvDone (rdOf w) 0 4) else fail
    | some (.far key k old) =>
      if s.coreFar a true ∧ s.farPlace a = key ∧ k = n then
        s.rvAtomic a n (.cas (BitVec.ofNat 64 old)) b (fun t x => (drop t).rvDone (rdOf w) (if x = old then 0 else 1) 4)
      else fail
    | none => fail

/-- LR, SC and the AMOs on words and doublewords. -/
def State.rvAmo (s : State) (w : Word) : Option State :=
  let n := 2 ^ funct3 w
  let f5 := (w.extractLsb' 27 5).toNat
  if n ≠ 4 ∧ n ≠ 8 then none
  else if f5 = 0b00010 then (if rs2Of w = 0 then some (s.rvLr w n) else none)
  else if f5 = 0b00011 then some (s.rvSc w n)
  else (amoOf f5).map (fun op =>
    s.rvAtomic (s.core.x (rs1Of w)) n op (s.core.x (rs2Of w)) (fun t x => t.rvDone (rdOf w) (extendTo x n) 4))

/-! ## Floating point -/

/-- A register as single precision: one that is not boxed is the canonical NaN. -/
def unbox (v : DWord) : Nat := if v.extractLsb' 32 32 = BitVec.allOnes 32 then v.toNat % 2 ^ 32 else singleFmt.nan

/-- A register's pattern in a format, and a pattern as a register holds it. -/
def Core.f (c : Core) (r : BitVec 5) (f : IeeeFmt) : Nat :=
  let v := c.fregs[r.toNat]'r.isLt
  if f = singleFmt then unbox v else v.toNat
def boxed (f : IeeeFmt) (x : Nat) : DWord := if f = singleFmt then BitVec.allOnes 32 ++ BitVec.ofNat 32 x else BitVec.ofNat 64 x

/-- A floating-point register written, with flags. -/
def Core.setF (c : Core) (r : BitVec 5) (v : DWord) (flags : Nat) : Core :=
  ({ c with fregs := c.fregs.set r.toNat v r.isLt }.setCsr csrFcsr (c.csr csrFcsr ||| BitVec.ofNat 64 flags)).fpDirty

/-- The end of an instruction that leaves a floating-point value. -/
def State.rvDoneF (s : State) (rd : BitVec 5) (v : DWord) (flags : Nat) (len : Nat) : State :=
  s.mapCore s.hart (fun c => (c.setF rd v flags).past len)

/-- The end of one that leaves an integer and flags. -/
def State.rvDoneX (s : State) (rd : BitVec 5) (v : DWord) (flags : Nat) : State :=
  s.mapCore s.hart (fun c =>
    let d := if flags = 0 then c else (c.setCsr csrFcsr (c.csr csrFcsr ||| BitVec.ofNat 64 flags)).fpDirty
    (d.setX rd v).past 4)

/-- The rounding mode of an instruction: none where it is reserved. -/
def Core.roundMode (c : Core) (rm : Nat) : Option Nat :=
  let m := if rm = 7 then (c.csr csrFcsr).toNat / 2 ^ 5 % 8 else rm
  if m ≤ 4 then some m else none

/-- The format of an instruction. -/
def ieeeFmt (k : Nat) : Option IeeeFmt := match k with | 0 => some singleFmt | 1 => some doubleFmt | _ => none

/-- FLW and FLD. -/
def State.rvLoadF (s : State) (w : Word) (len : Nat) : Option State :=
  if !s.core.fpOn ∨ (funct3 w ≠ 2 ∧ funct3 w ≠ 3) then none
  else
    let f := if funct3 w = 2 then singleFmt else doubleFmt
    let n := 2 ^ funct3 w
    some (s.rvLoad s.core.virt (s.core.x (rs1Of w) + immI w) n (fun t x => t.rvDoneF (rdOf w) (boxed f x) 0 len))

/-- FSW and FSD. -/
def State.rvStoreF (s : State) (w : Word) (len : Nat) : Option State :=
  if !s.core.fpOn ∨ (funct3 w ≠ 2 ∧ funct3 w ≠ 3) then none
  else
    let n := 2 ^ funct3 w
    let r := rs2Of w
    some (s.rvStore s.core.virt (s.core.x (rs1Of w) + immS w) n (s.core.fregs[r.toNat]'r.isLt).toNat (fun t => t.rvSkip len))

/-- FMADD, FMSUB, FNMSUB and FNMADD: kind 0 to 3. -/
def State.rvFma (s : State) (w : Word) (kind : Nat) : Option State :=
  let c := s.core
  match ieeeFmt (funct7 w % 4), c.roundMode (funct3 w) with
  | some f, some m =>
    if !c.fpOn then none
    else
      let a := f.decode (c.f (rs1Of w) f)
      let b := f.decode (c.f (rs2Of w) f)
      let d := f.decode (c.f (w.extractLsb' 27 5) f)
      let x := f.fma m (if kind = 2 ∨ kind = 3 then a.negate else a) b (if kind = 1 ∨ kind = 3 then d.negate else d)
      some (s.rvDoneF (rdOf w) (boxed f x.1) x.2 4)
  | _, _ => none

/-- FSGNJ, FSGNJN and FSGNJX: the sign of a result. -/
def signTaken (k : Nat) (a b : Bool) : Option Bool :=
  match k with
  | 0 => some b
  | 1 => some (!b)
  | 2 => some (a != b)
  | _ => none

/-- FLE, FLT and FEQ: 0, 1 and 2. -/
def compareF (k : Nat) (a b : Fp) : Option (Bool × Nat) :=
  let nan := a.isNan || b.isNan
  match k with
  | 0 => some (!nan && (a.lt b || a.eq b), if nan then fNv else 0)
  | 1 => some (!nan && a.lt b, if nan then fNv else 0)
  | 2 => some (a.eq b, if a.signals || b.signals then fNv else 0)
  | _ => none

/-- The integer forms of conversions: bits and whether signed, by rs2. -/
def intForm (k : Nat) : Option (Nat × Bool) :=
  match k with
  | 0 => some (32, true)
  | 1 => some (32, false)
  | 2 => some (64, true)
  | 3 => some (64, false)
  | _ => none

/-- An integer of n bits rounded to a format. -/
def fromInteger (f : IeeeFmt) (mode : Nat) (x : Int) : Nat × Nat := f.round mode (decide (x < 0)) x.natAbs 1

/-- A number of one format in another. -/
def convertF (src dst : IeeeFmt) (mode x : Nat) : Nat × Nat :=
  match src.decode x with
  | .nan sg => dst.quiet sg
  | .inf sg => (dst.signed sg dst.inf, 0)
  | .fin sg m e => dst.roundFin mode sg m e

/-- OP-FP. -/
def State.rvOpFp (s : State) (w : Word) : Option State :=
  let c := s.core
  let k := funct7 w / 4
  let rm := funct3 w
  let rs2 := (rs2Of w).toNat
  match ieeeFmt (funct7 w % 4) with
  | none => none
  | some f =>
    let x := c.f (rs1Of w) f
    let y := c.f (rs2Of w) f
    let a := f.decode x
    let b := f.decode y
    let toF (r : Nat × Nat) : State := s.rvDoneF (rdOf w) (boxed f r.1) r.2 4
    let rounded (g : Nat → Nat × Nat) : Option State := (c.roundMode rm).map (fun m => toF (g m))
    if !c.fpOn then none
    else match k with
      | 0x00 => rounded (fun m => f.add m a b)
      | 0x01 => rounded (fun m => f.add m a b.negate)
      | 0x02 => rounded (fun m => f.mul m a b)
      | 0x03 => rounded (fun m => f.div m a b)
      | 0x0B => if rs2 = 0 then rounded (fun m => f.sqrt m a) else none
      | 0x04 => (signTaken rm (f.neg x) (f.neg y)).map (fun sg => toF (f.signed sg (x % 2 ^ f.width), 0))
      | 0x05 => if rm ≤ 1 then some (toF (f.pick (rm == 1) x y)) else none
      | 0x08 => (match ieeeFmt rs2 with
          | some g => if g = f then none else (c.roundMode rm).map (fun m => toF (convertF g f m (c.f (rs1Of w) g)))
          | none => none)
      | 0x14 => (compareF rm a b).map (fun r => s.rvDoneX (rdOf w) (if r.1 then 1 else 0) r.2)
      | 0x18 => (match intForm rs2, c.roundMode rm with
          | some i, some m =>
            let r := a.toInteger m i.1 i.2
            some (s.rvDoneX (rdOf w) ((BitVec.ofInt i.1 r.1).signExtend 64) r.2)
          | _, _ => none)
      | 0x1A => (match intForm rs2, c.roundMode rm with
          | some i, some m =>
            let v := (c.x (rs1Of w)).toNat % 2 ^ i.1
            some (toF (fromInteger f m (if i.2 then signedOf v i.1 else (v : Int))))
          | _, _ => none)
      | 0x1C =>
        if rs2 ≠ 0 then none
        else if rm = 0 then
          (let v := c.fregs[(rs1Of w).toNat]'(rs1Of w).isLt
           some (s.rvDoneX (rdOf w) (if f = singleFmt then extendTo v.toNat 4 else v) 0))
        else if rm = 1 then some (s.rvDoneX (rdOf w) (BitVec.ofNat 64 (f.classOf x)) 0)
        else none
      | 0x1E => if rs2 = 0 ∧ rm = 0 then some (toF ((c.x (rs1Of w)).toNat % 2 ^ (f.width + 1), 0)) else none
      | _ => none

/-! ## The system instructions -/

/-- A CSR instruction: the register takes what the operation makes of its old value, which goes to rd. -/
def State.rvCsr (s : State) (w : Word) : Option State :=
  let c := s.core
  let n := (w.extractLsb' 20 12).toNat
  let f := funct3 w
  let operand : DWord := if 4 ≤ f then (rs1Of w).setWidth 64 else c.x (rs1Of w)
  let write := f % 4 == 1 || rs1Of w != 0
  match c.reach n write with
  | .illegal => none
  | .virtual => some (s.rvVirtual w)
  | .allowed =>
    let m := c.csrNumber n
    let old := s.csrRead s.hart m
    let v : DWord := match f % 4 with
      | 1 => operand
      | 2 => old ||| operand
      | _ => old &&& ~~~operand
    some ((if write then s.csrWrite s.hart m v else s).rvDone (rdOf w) old 4)

/-- SRET: the level to which it goes, and the status after it. -/
def Core.sret (c : Core) : Core :=
  let k := if c.virt then csrVsstatus else csrMstatus
  let x := c.csr k
  let y := putBit (putBit (putBit x 1 (x.getLsbD 5)) 5 true) 8 false
  let t := c.setCsr k y
  let level : Nat := if x.getLsbD 8 then 1 else 0
  if c.virt then { t with priv := level, pc := c.csr 0x241 }
  else { (t.setCsr csrHstatus (putBit (c.csr csrHstatus) 7 false)).setCsr csrMstatus (putBit y 17 false) with
         priv := level, virt := (c.csr csrHstatus).getLsbD 7, pc := c.csr 0x141 }

/-- MRET. -/
def Core.mret (c : Core) : Core :=
  let x := c.csr csrMstatus
  let level := (x.extractLsb' 11 2).toNat
  let y := putBit (putBit (putBit (x &&& ~~~bitsAt [11, 12]) 3 (x.getLsbD 7)) 7 true) 39 false
  { c.setCsr csrMstatus (if level = 3 then y else putBit y 17 false) with
    priv := level, virt := x.getLsbD 39 && level != 3, pc := c.csr 0x341 }

/-- What an instruction of HS level finds: it may run, or it is illegal, or virtual. needs gives a bit of mstatus that bars S level from it. -/
def Core.hyperReach (c : Core) (bar : Option Nat) : CsrReach :=
  if c.virt then .virtual
  else if c.priv = 0 ∨ (c.priv = 1 ∧ bar.any (fun k => (c.csr csrMstatus).getLsbD k)) then .illegal
  else .allowed

/-- An instruction of the supervisor: a bit of mstatus, or of hstatus for a guest, bars it. -/
def Core.superReach (c : Core) (k : Nat) : CsrReach :=
  if c.priv = 0 then (if c.virt then .virtual else .illegal)
  else if c.virt then (if (c.csr csrHstatus).getLsbD k then .virtual else .allowed)
  else if c.priv = 1 ∧ (c.csr csrMstatus).getLsbD k then .illegal
  else .allowed

/-- What follows when an instruction may run. -/
def State.reached (s : State) (w : Word) (r : CsrReach) (t : State) : Option State :=
  match r with
  | .illegal => none
  | .virtual => some (s.rvVirtual w)
  | .allowed => some t

/-- ECALL's cause. -/
def Core.callCause (c : Core) : Nat := if c.priv = 3 then 11 else if c.priv = 0 then 8 else if c.virt then 10 else 9

/-- A core that makes an access for a guest. -/
def State.asGuest (s : State) : State := s.mapCore s.hart (fun c => { c with priv := 1, virt := true })

/-- HLV, HLVX and HSV: loads and stores for a guest. The instruction ends as the core stood. -/
def State.rvGuest (s : State) (w : Word) : Option State :=
  let c := s.core
  let f7 := funct7 w
  let k := rs2Of w
  let a := c.x (rs1Of w)
  let reach : CsrReach := if c.virt then .virtual else if c.priv = 0 ∧ !(c.csr csrHstatus).getLsbD 9 then .illegal else .allowed
  let back (t : State) : State := t.mapCore t.hart (fun x => { x with priv := c.priv, virt := c.virt })
  let fault (cause : Nat) : State := s.coreUsed.mapCore s.hart (fun x => x.enter (x.trapLevel cause) false cause a true)
  let load (n : Nat) (isSigned : Bool) : State :=
    if a.toNat % n ≠ 0 then s.coreExcept 4 a
    else match s.asGuest.coreRead a n with
      | .denied => fault 21
      | _ => back (s.asGuest.rvLoad true a n (fun t x => (back t).rvDone (rdOf w) (loadValue isSigned x n) 4))
  let store (n : Nat) : State :=
    if a.toNat % n ≠ 0 then s.coreExcept 6 a
    else if s.asGuest.coreAddr a true = none ∧ !s.asGuest.coreFar a true then fault 23
    else match (s.partN (s.partOfWing s.hart)).farAnswer (farKey s.hart (coreDie a) (coreOff a) true) with
      | .denied => fault 23
      | _ => back (s.asGuest.rvStore true a n (c.x (rs2Of w)).toNat (fun t => (back t).rvSkip 4))
  match f7, k.toNat with
  | 0x30, 0 => s.reached w reach (load 1 true)
  | 0x30, 1 => s.reached w reach (load 1 false)
  | 0x32, 0 => s.reached w reach (load 2 true)
  | 0x32, 1 => s.reached w reach (load 2 false)
  | 0x32, 3 => s.reached w reach (load 2 false)
  | 0x34, 0 => s.reached w reach (load 4 true)
  | 0x34, 1 => s.reached w reach (load 4 false)
  | 0x34, 3 => s.reached w reach (load 4 false)
  | 0x36, 0 => s.reached w reach (load 8 true)
  | 0x31, _ => if rdOf w = 0 then s.reached w reach (store 1) else none
  | 0x33, _ => if rdOf w = 0 then s.reached w reach (store 2) else none
  | 0x35, _ => if rdOf w = 0 then s.reached w reach (store 4) else none
  | 0x37, _ => if rdOf w = 0 then s.reached w reach (store 8) else none
  | _, _ => none

/-- SYSTEM. WFI ends at once. The fences of translation have nothing to do: the tables of a die are the module's, and its events drop what
has been cached (R162, R165). -/
def State.rvSystem (s : State) (w : Word) (len : Nat) : Option State :=
  let c := s.core
  let fence : State := s.rvSkip len
  match funct3 w with
  | 0 =>
    if w = 0x0000_0073 then some (s.coreExcept c.callCause 0)
    else if w = 0x0010_0073 then some (s.coreExcept 3 c.pc)
    else if w = 0x1020_0073 then s.reached w (c.superReach 22) (s.mapCore s.hart (fun x => (x.past 0).sret))
    else if w = 0x3020_0073 then (if c.priv = 3 then some (s.mapCore s.hart (fun x => (x.past 0).mret)) else none)
    else if w = 0x1050_0073 then some fence
    else if rdOf w ≠ 0 then none
    else match funct7 w with
      | 0x09 => s.reached w (c.superReach 20) fence
      | 0x11 => s.reached w (c.hyperReach none) fence
      | 0x31 => s.reached w (c.hyperReach (some 20)) fence
      | _ => none
  | 4 => s.rvGuest w
  | _ => s.rvCsr w

/-! ## Compressed instructions -/

/-- Words of the formats I, S, R, B and J. -/
def encI (imm rs1 f3 rd op : Nat) : Word := BitVec.ofNat 32 (imm % 2 ^ 12 * 2 ^ 20 + rs1 * 2 ^ 15 + f3 * 2 ^ 12 + rd * 2 ^ 7 + op)
def encS (imm rs2 rs1 f3 op : Nat) : Word :=
  BitVec.ofNat 32 (imm / 32 % 2 ^ 7 * 2 ^ 25 + rs2 * 2 ^ 20 + rs1 * 2 ^ 15 + f3 * 2 ^ 12 + imm % 32 * 2 ^ 7 + op)
def encR (f7 rs2 rs1 f3 rd op : Nat) : Word :=
  BitVec.ofNat 32 (f7 * 2 ^ 25 + rs2 * 2 ^ 20 + rs1 * 2 ^ 15 + f3 * 2 ^ 12 + rd * 2 ^ 7 + op)
def encU (imm rd op : Nat) : Word := BitVec.ofNat 32 (imm % 2 ^ 20 * 2 ^ 12 + rd * 2 ^ 7 + op)
def encB (imm rs2 rs1 f3 : Nat) : Word :=
  BitVec.ofNat 32 (imm / 2 ^ 12 % 2 * 2 ^ 31 + imm / 2 ^ 5 % 2 ^ 6 * 2 ^ 25 + rs2 * 2 ^ 20 + rs1 * 2 ^ 15 + f3 * 2 ^ 12 + imm / 2 % 2 ^ 4 * 2 ^ 8 +
    imm / 2 ^ 11 % 2 * 2 ^ 7 + 0x63)
def encJ (imm rd : Nat) : Word :=
  BitVec.ofNat 32 (imm / 2 ^ 20 % 2 * 2 ^ 31 + imm / 2 % 2 ^ 10 * 2 ^ 21 + imm / 2 ^ 11 % 2 * 2 ^ 20 + imm / 2 ^ 12 % 2 ^ 8 * 2 ^ 12 + rd * 2 ^ 7 +
    0x6F)

/-- A number built from bits of a half-word: each piece says where it stands there, how many bits it has, and where they go. -/
def bitsFrom (h : Nat) (l : List (Nat × Nat × Nat)) : Nat := (l.map (fun x => h / 2 ^ x.1 % 2 ^ x.2.1 * 2 ^ x.2.2)).foldl (· + ·) 0

/-- A number of n bits with its sign carried to the 21 bits of the longest immediate. -/
def carrySign (n x : Nat) : Nat := if x.testBit (n - 1) then x + (2 ^ 21 - 2 ^ n) else x

/-- Quadrant 0. -/
def expand0 (h : Nat) : Option Word :=
  let rd := 8 + h / 4 % 8
  let rs := 8 + h / 128 % 8
  let word := bitsFrom h [(10, 3, 3), (6, 1, 2), (5, 1, 6)]
  let dbl := bitsFrom h [(10, 3, 3), (5, 2, 6)]
  match h / 2 ^ 13 % 8 with
  | 0 => let imm := bitsFrom h [(11, 2, 4), (7, 4, 6), (6, 1, 2), (5, 1, 3)]; if imm = 0 then none else some (encI imm 2 0 rd 0x13)
  | 1 => some (encI dbl rs 3 rd 0x07)
  | 2 => some (encI word rs 2 rd 0x03)
  | 3 => some (encI dbl rs 3 rd 0x03)
  | 5 => some (encS dbl rd rs 3 0x27)
  | 6 => some (encS word rd rs 2 0x23)
  | 7 => some (encS dbl rd rs 3 0x23)
  | _ => none

/-- The register forms of quadrant 1. -/
def expandAlu (h : Nat) : Option Word :=
  let rd := 8 + h / 128 % 8
  let rs := 8 + h / 4 % 8
  let shift := bitsFrom h [(2, 5, 0), (12, 1, 5)]
  match h / 2 ^ 10 % 4 with
  | 0 => some (encI shift rd 5 rd 0x13)
  | 1 => some (encI (shift + 0x400) rd 5 rd 0x13)
  | 2 => some (encI (carrySign 6 shift) rd 7 rd 0x13)
  | _ => match h / 2 ^ 12 % 2, h / 32 % 4 with
    | 0, 0 => some (encR 0x20 rs rd 0 rd 0x33)
    | 0, 1 => some (encR 0 rs rd 4 rd 0x33)
    | 0, 2 => some (encR 0 rs rd 6 rd 0x33)
    | 0, _ => some (encR 0 rs rd 7 rd 0x33)
    | 1, 0 => some (encR 0x20 rs rd 0 rd 0x3B)
    | 1, 1 => some (encR 0 rs rd 0 rd 0x3B)
    | _, _ => none

/-- Quadrant 1. -/
def expand1 (h : Nat) : Option Word :=
  let rd := h / 128 % 32
  let imm := carrySign 6 (bitsFrom h [(2, 5, 0), (12, 1, 5)])
  let br := carrySign 9 (bitsFrom h [(12, 1, 8), (10, 2, 3), (5, 2, 6), (3, 2, 1), (2, 1, 5)])
  match h / 2 ^ 13 % 8 with
  | 0 => some (encI imm rd 0 rd 0x13)
  | 1 => if rd = 0 then none else some (encI imm rd 0 rd 0x1B)
  | 2 => some (encI imm 0 0 rd 0x13)
  | 3 =>
    if rd = 2 then
      (let x := carrySign 10 (bitsFrom h [(12, 1, 9), (6, 1, 4), (5, 1, 6), (3, 2, 7), (2, 1, 5)])
       if x = 0 then none else some (encI x 2 0 2 0x13))
    else if imm = 0 then none else some (encU imm rd 0x37)
  | 4 => expandAlu h
  | 5 =>
    some (encJ (carrySign 12 (bitsFrom h [(12, 1, 11), (11, 1, 4), (9, 2, 8), (8, 1, 10), (7, 1, 6), (6, 1, 7), (3, 3, 1), (2, 1, 5)])) 0)
  | 6 => some (encB br 0 (8 + h / 128 % 8) 0)
  | _ => some (encB br 0 (8 + h / 128 % 8) 1)

/-- Quadrant 2. -/
def expand2 (h : Nat) : Option Word :=
  let rd := h / 128 % 32
  let rs := h / 4 % 32
  let dbl := bitsFrom h [(12, 1, 5), (5, 2, 3), (2, 3, 6)]
  match h / 2 ^ 13 % 8 with
  | 0 => some (encI (bitsFrom h [(2, 5, 0), (12, 1, 5)]) rd 1 rd 0x13)
  | 1 => some (encI dbl 2 3 rd 0x07)
  | 2 => if rd = 0 then none else some (encI (bitsFrom h [(12, 1, 5), (4, 3, 2), (2, 2, 6)]) 2 2 rd 0x03)
  | 3 => if rd = 0 then none else some (encI dbl 2 3 rd 0x03)
  | 4 => (match h / 2 ^ 12 % 2 with
      | 0 => if rs = 0 then (if rd = 0 then none else some (encI 0 rd 0 0 0x67)) else some (encR 0 rs 0 0 rd 0x33)
      | _ => if rs = 0 then (if rd = 0 then some 0x0010_0073 else some (encI 0 rd 0 1 0x67)) else some (encR 0 rs rd 0 rd 0x33))
  | 5 => some (encS (bitsFrom h [(10, 3, 3), (7, 3, 6)]) rs 2 3 0x27)
  | 6 => some (encS (bitsFrom h [(9, 4, 2), (7, 2, 6)]) rs 2 2 0x23)
  | _ => some (encS (bitsFrom h [(10, 3, 3), (7, 3, 6)]) rs 2 3 0x23)

/-- The instruction that a compressed one stands for. -/
def expandC (h : Nat) : Option Word :=
  match h % 4 with
  | 0 => expand0 h
  | 1 => expand1 h
  | _ => expand2 h

/-! ## One instruction -/

/-- The meaning of a word of len bytes in memory; none where it is illegal. FENCE and FENCE.I find every earlier access performed (R181). -/
def State.rvOf (s : State) (w : Word) (len : Nat) : Option State :=
  let c := s.core
  match w.toNat % 128 with
  | 0x03 => s.rvLoadX w len
  | 0x07 => s.rvLoadF w len
  | 0x0F => if funct3 w ≤ 1 then some (s.rvSkip len) else none
  | 0x13 => s.rvOpImm w len
  | 0x17 => some (s.rvDone (rdOf w) (c.pc + immU w) len)
  | 0x1B => s.rvOpImm32 w len
  | 0x23 => s.rvStoreX w len
  | 0x27 => s.rvStoreF w len
  | 0x2F => s.rvAmo w
  | 0x33 => s.rvOp w len
  | 0x37 => some (s.rvDone (rdOf w) (immU w) len)
  | 0x3B => s.rvOp32 w len
  | 0x43 => s.rvFma w 0
  | 0x47 => s.rvFma w 1
  | 0x4B => s.rvFma w 2
  | 0x4F => s.rvFma w 3
  | 0x53 => s.rvOpFp w
  | 0x63 => s.rvBranch w len
  | 0x67 =>
    if funct3 w = 0 then some (s.rvJump (rdOf w) (c.pc + BitVec.ofNat 64 len) (c.x (rs1Of w) + immI w)) else none
  | 0x6F => some (s.rvJump (rdOf w) (c.pc + BitVec.ofNat 64 len) (c.pc + immJ w))
  | 0x73 => s.rvSystem w len
  | _ => none

/-- A core runs the word, of 4 bytes, that stands at its pc. -/
def State.rvWord (s : State) (w : Word) : State := (s.rvOf w 4).getD (s.rvIllegal w)

/-- A core runs the compressed instruction that stands at its pc. -/
def State.rvHalf (s : State) (h : BitVec 16) : State :=
  ((expandC h.toNat).bind (fun w => s.rvOf w 2)).getD (s.coreExcept 2 (h.setWidth 64))

end Sys2Proof.Machine
end

