-- ==== Sys2Proof/Machine/Fetch.lean ====
section
/-!
DEFINITION. The agents of the module move as the schedule says: a control core fetches and runs one instruction, a tile
issues one bundle, an event happens, or a partition sends a message to the host.
-/
namespace Sys2Proof.Machine
open Sys2Proof

/-- What the fetch of a control core finds at its pc: a word, a compressed instruction, a part that has still to come from a peer, or an
address that is denied. -/
inductive CoreFetched where
  | word (w : Word)
  | half (h : BitVec 16)
  | away (a : DWord) (n : Nat)
  | denied (a : DWord)
  deriving DecidableEq, Repr

/-- The state as the fetch of a core sees it: MPRV has no say. -/
def State.fetchView (s : State) : State :=
  s.mapCore s.hart (fun c => c.setCsr csrMstatus (putBit (c.csr csrMstatus) 17 false))

/-- The instruction at the pc of the core that moves: 4 bytes, of which a compressed one is the first two; at the end of a page the two
halves are read one after the other. -/
def State.coreFetch (s : State) : CoreFetched :=
  let v := s.fetchView
  let pc := s.core.pc
  let n := if pc.toNat % 4096 = 4094 then 2 else 4
  match v.coreRead pc n with
  | .denied => .denied pc
  | .away => .away pc n
  | .got x =>
    if x % 4 ≠ 3 then .half (BitVec.ofNat 16 x)
    else if n = 4 then .word (BitVec.ofNat 32 x)
    else match v.coreRead (pc + 2) 2 with
      | .denied => .denied (pc + 2)
      | .away => .away (pc + 2) 2
      | .got y => .word (BitVec.ofNat 32 (x + y * 2 ^ 16))

/-- The core that moves awaits an access at a peer. -/
def State.coreBusy (s : State) : Bool :=
  s.requests.any (fun r => r.uid == 0 && r.sink == .record && r.part == s.partOfWing s.hart && r.swarm / 2 == s.hart)

/-- The core that moves awaits an access at a peer, or has not used what has come from there: no interrupt comes between. -/
def State.coreAwaits (s : State) : Bool :=
  s.coreBusy || (s.partN (s.partOfWing s.hart)).far.any (fun x => x.1 / 2 ^ 65 == s.hart)

/-- Code that has come from a peer has been used once its instruction has ended (R171). -/
def State.codeUsed (s : State) (far : Bool) : State := if far ∧ !s.coreBusy then s.coreUsed else s

/-- A control core takes an interrupt that is due, or runs the instruction at its pc: DLAUNCH or DEVQ (R77), or one of RV64GCH (R1, R181; log
entry 3); every other encoding of custom-0 is an illegal instruction (R77). -/
def State.moveCore (s0 : State) (w : Nat) : Host.Outcome State Fault Refusal :=
  let s := { s0 with hart := w }
  let c := s.core
  let far := s.fetchView.coreFar c.pc false
  if !c.online then .next s
  else match (if s.coreAwaits then none else s.interruptDue w) with
    | some (lv, k) => .next (s.mapCore w (fun x => x.enter lv true k 0 false))
    | none => match s.coreFetch with
      | .denied a => .next (s.coreUsed.coreExcept (c.pageFault 12 20) a)
      | .away a n => .next (s.coreGoes a false (fun o => .load [⟨0, o, n⟩]))
      | .half h => .next ((s.rvHalf h).codeUsed far)
      | .word x => match decodeRv x with
        | .ok i => match exec i s with
          | .next t => .next (t.codeUsed far)
          | o => o
        | .error _ => .next ((s.rvWord x).codeUsed far)

/-- Whether an operation is an event of the module, which the schedule may name. -/
def isEvent : Instr → Bool
  | .dlaunch .. | .devq .. => false
  | i => classOf i == 8

/-- The events that happen while the module does not run (R16, R24, R25): those of Firefly, of its monitors and of the host. Every other
agent has halted or has no power. -/
def actsHalted : Instr → Bool
  | .moduleStart .. | .stageTimeLimit | .attestationLogRequest _ | .start _ | .dumpvalidRelease _ | .registerWrite .. => true
  | .sensorSample .. | .droopRead .. | .droopAlarm .. | .droopFatal .. | .fatalError .. | .benalePanic | .fireflyWatchdog => true
  | .dumpDone | .moduleReset | .powerOff => true
  | _ => false

/-- The agent that the schedule names next moves. Unless the module runs, only the events of actsHalted happen. -/
def State.moveNext (s : State) : Host.Outcome State Fault Refusal :=
  match s.sched with
  | .event i :: l =>
    if isEvent i ∧ (s.firefly.power = .on ∨ actsHalted i) then exec i { s with sched := l } else .next { s with sched := l }
  | .tile t :: l => if s.firefly.power = .on then { s with sched := l }.moveTile t else .next { s with sched := l }
  | .core w :: l => if s.firefly.power = .on then { s with sched := l }.moveCore w else .next { s with sched := l }
  | .message n v :: l =>
    .next (if s.firefly.power = .on ∧ (s.partN n).up ∧ v < 32 then { s with sched := l }.mapPart n (fun p => p.message v) else { s with sched := l })
  | [] => if s.firefly.power = .on then s.moveTile s.cur.tile else .fault .poweredOff

/-- The translation that gives a page to itself in HBM4. -/
def flatEntry (off : Nat) : TlbEntry :=
  { lo := off / 2 ^ 12 * 2 ^ 12, size := 2 ^ 12, tier := 0, frame := off / 2 ^ 12 * 2 ^ 12, rd := true, wr := true, atm := true }

/-- A word placed where the next step fetches: a control core's at the pc of core 0, a tile's at the program counter of
the context that the model looks at. -/
def State.placeWord (s : State) (nbits w : Nat) : State :=
  let on := { s with firefly := { s.firefly with power := .on } }
  if nbits ≤ 32 then
    let c := s.coreN 0
    match ({ s with hart := 0 }).coreAddr c.pc false with
    | some p => { on with mem := Memory.writeNat s.mem p 4 w, sched := [.core 0],
                          cores := (on.mapCore 0 (fun x => { x with online := true })).cores }
    | none => s
  else
    let pc := s.cur.pc.toNat
    let die := pc / 2 ^ 57 % 8
    let off := pc % 2 ^ 57
    let e := flatEntry off
    let p := e.phys die off
    let m := Memory.writeNat s.mem p 8 w
    let m2 := if w.testBit 63 then m else Memory.writeNat m (p + 8) 8 (encode (.addi ⟨true, 0, false, 0, false⟩ 0 0 0)).toNat
    let t := { on with mem := m2, sched := [], cur := { s.cur with run := .issuing } }
    t.mapDie die (fun d => { d with tlb := (s.cur.part, e) :: d.tlb })

end Sys2Proof.Machine
end

