-- ==== Sys2Proof/Machine/Step.lean ====
section
/-!
DEFINITION. The step of the module: the agent that the schedule names next moves; with no schedule, the tile that the
model looks at.
-/
namespace Sys2Proof.Machine
open Sys2Proof

/-- One step. -/
def step (s : State) : Host.Outcome State Fault Refusal := s.moveNext

/-- A state whose next step runs the instruction of nbits bits w. -/
def State.withFetchWord (s : State) (nbits w : Nat) : State := s.placeWord nbits w

end Sys2Proof.Machine
end

