-- ==== Sys2Proof/Laws/Lanes.lean ====
section
/-!
SUPPORT. Lanes put together and taken apart again: what a lane of a vector built lane by lane holds.
-/
namespace Sys2Proof.Machine
open Sys2Proof

/-! ## Digits of a sum -/

theorem digit_below {a b k n : Nat} (hk : k < n) (w : Nat) : (a + b * 2 ^ (w * n)) / 2 ^ (w * k) % 2 ^ w = a / 2 ^ (w * k) % 2 ^ w := by
  have h1 : 2 ^ (w * n) = 2 ^ (w * k) * (2 ^ w * 2 ^ (w * (n - k - 1))) := by
    rw [← Nat.pow_add, ← Nat.pow_add]
    congr 1
    have : w * n = w * (k + 1 + (n - k - 1)) := by congr 1; omega
    rw [this, Nat.mul_add, Nat.mul_add]; omega
  rw [h1, ← Nat.mul_assoc, Nat.mul_comm b, Nat.mul_assoc, Nat.add_mul_div_left _ _ (Nat.two_pow_pos _)]
  rw [Nat.mul_comm b, Nat.mul_assoc, Nat.add_mul_mod_self_left]

theorem digit_at {a b n : Nat} (w : Nat) (ha : a < 2 ^ (w * n)) (hb : b < 2 ^ w) :
    (a + b * 2 ^ (w * n)) / 2 ^ (w * n) % 2 ^ w = b := by
  rw [Nat.add_mul_div_right _ _ (Nat.two_pow_pos _), Nat.div_eq_of_lt ha, Nat.zero_add, Nat.mod_eq_of_lt hb]

theorem digits_lt {a b n : Nat} (w : Nat) (ha : a < 2 ^ (w * n)) (hb : b < 2 ^ w) : a + b * 2 ^ (w * n) < 2 ^ (w * (n + 1)) := by
  rw [Nat.mul_add, Nat.pow_add, Nat.mul_one, Nat.mul_comm (2 ^ (w * n))]
  have : (b + 1) * 2 ^ (w * n) ≤ 2 ^ w * 2 ^ (w * n) := Nat.mul_le_mul_right _ hb
  rw [Nat.add_mul] at this
  omega

/-! ## Lanes from a function -/

theorem lanesOf_lt (f : Nat → Word) : ∀ n, lanesOf f n < 2 ^ (32 * n)
  | 0 => by simp [lanesOf]
  | n + 1 => digits_lt 32 (lanesOf_lt f n) (f n).isLt

theorem lanesOf_digit (f : Nat → Word) : ∀ {n k : Nat}, k < n → lanesOf f n / 2 ^ (32 * k) % 2 ^ 32 = (f k).toNat
  | 0, _, h => absurd h (Nat.not_lt_zero _)
  | n + 1, k, h => by
    unfold lanesOf
    by_cases hk : k < n
    · rw [digit_below hk, lanesOf_digit f hk]
    · have : k = n := by omega
      subst this
      exact digit_at 32 (lanesOf_lt f k) (f k).isLt

theorem laneWord_toNat (b : VBits) (l : Nat) : (laneWord b l).toNat = b.toNat / 2 ^ (32 * l) % 2 ^ 32 := by
  simp [laneWord, Nat.shiftRight_eq_div_pow]

/-- A lane of a vector built lane by lane. -/
theorem laneWord_buildLanes (m : LaneMask) (f : Nat → Word) {k : Nat} (hk : k < 128) :
    laneWord (buildLanes m f) k = if m.getLsbD k then f k else 0 := by
  apply BitVec.eq_of_toNat_eq
  rw [laneWord_toNat, buildLanes, BitVec.toNat_ofNat,
    Nat.mod_eq_of_lt (show _ < 2 ^ 4096 from lanesOf_lt _ 128), lanesOf_digit _ hk]

/-! ## Lanes from a list -/

/-- The sum that puts together the lanes below n of a mask. -/
def laneSum (m : LaneMask) (f : Nat → Word) : Nat → Nat
  | 0 => 0
  | n + 1 => laneSum m f n + (if m.getLsbD n then (f n).toNat else 0) * 2 ^ (32 * n)

theorem laneSum_lt (m : LaneMask) (f : Nat → Word) : ∀ n, laneSum m f n < 2 ^ (32 * n)
  | 0 => by simp [laneSum]
  | n + 1 => digits_lt 32 (laneSum_lt m f n) (by split; exact (f n).isLt; exact Nat.two_pow_pos _)

theorem laneSum_digit (m : LaneMask) (f : Nat → Word) : ∀ {n k : Nat}, k < n →
    laneSum m f n / 2 ^ (32 * k) % 2 ^ 32 = if m.getLsbD k then (f k).toNat else 0
  | 0, _, h => absurd h (Nat.not_lt_zero _)
  | n + 1, k, h => by
    unfold laneSum
    by_cases hk : k < n
    · rw [digit_below hk, laneSum_digit m f hk]
    · have : k = n := by omega
      subst this
      exact digit_at 32 (laneSum_lt m f k) (by split; exact (f k).isLt; exact Nat.two_pow_pos _)

theorem foldl_add (l : List Nat) (a : Nat) : l.foldl (· + ·) a = a + l.foldl (· + ·) 0 := by
  induction l generalizing a with
  | nil => rfl
  | cons x l ih => rw [List.foldl_cons, ih, List.foldl_cons, ih (0 + x)]; omega

theorem foldl_lanes (m : LaneMask) (f : Nat → Word) : ∀ n,
    (((List.range n).filter (fun l => m.getLsbD l)).map (fun l => (f l).toNat % 2 ^ 32 * 2 ^ (32 * l))).foldl (· + ·) 0 = laneSum m f n
  | 0 => rfl
  | n + 1 => by
    rw [List.range_succ, List.filter_append, List.map_append, List.foldl_append, foldl_lanes m f n, laneSum]
    by_cases h : m.getLsbD n
    · simp [h, Nat.mod_eq_of_lt (f n).isLt]
    · simp [h]

/-- A lane of a vector put together from its active lanes. -/
theorem laneWord_vectorOf (m : LaneMask) (f : Nat → Word) {k : Nat} (hk : k < 128) :
    laneWord (vectorOf ((lanesIn m).map (fun l => (l, (f l).toNat)))) k = if m.getLsbD k then f k else 0 := by
  apply BitVec.eq_of_toNat_eq
  have e : (((lanesIn m).map (fun l => (l, (f l).toNat))).map (fun x => x.2 % 2 ^ 32 * 2 ^ (32 * x.1))).foldl (· + ·) 0 =
      laneSum m f 128 := by
    rw [List.map_map]; exact foldl_lanes m f 128
  rw [laneWord_toNat, vectorOf, BitVec.toNat_ofNat, e, Nat.mod_eq_of_lt (show _ < 2 ^ 4096 from laneSum_lt m f 128), laneSum_digit m f hk]
  split <;> rfl

/-! ## Lane masks from a function -/

theorem laneMaskOf_lt (f : Nat → Bool) : ∀ n, laneMaskOf f n < 2 ^ n
  | 0 => by simp [laneMaskOf]
  | n + 1 => by
    have := laneMaskOf_lt f n
    unfold laneMaskOf
    rw [Nat.pow_succ]
    split <;> omega

theorem laneMaskOf_testBit (f : Nat → Bool) : ∀ {n k : Nat}, k < n → (laneMaskOf f n).testBit k = f k
  | 0, _, h => absurd h (Nat.not_lt_zero _)
  | n + 1, k, h => by
    unfold laneMaskOf
    have hlt := laneMaskOf_lt f n
    by_cases hf : f n
    · rw [if_pos hf, Nat.add_comm]
      by_cases hk : k < n
      · rw [Nat.testBit_two_pow_add_gt hk, laneMaskOf_testBit f hk]
      · have : k = n := by omega
        subst this
        rw [Nat.testBit_two_pow_add_eq, Nat.testBit_lt_two_pow hlt, hf]; rfl
    · rw [if_neg hf, Nat.add_zero]
      by_cases hk : k < n
      · exact laneMaskOf_testBit f hk
      · have : k = n := by omega
        subst this
        rw [Nat.testBit_lt_two_pow hlt]; simpa using hf

/-- A lane of a mask built lane by lane. -/
theorem getLsbD_buildMask (m : LaneMask) (f : Nat → Bool) {k : Nat} (hk : k < 128) :
    (buildMask m f).getLsbD k = (m.getLsbD k && f k) := by
  rw [buildMask, BitVec.getLsbD_ofNat, laneMaskOf_testBit _ hk]
  simp [hk]

/-- The lanes of lane groups (R2). -/
theorem getLsbD_groupLanes (g : BitVec 8) {k : Nat} (hk : k < 128) : (groupLanes g).getLsbD k = g.getLsbD (k / 16) := by
  rw [groupLanes, BitVec.getLsbD_ofNat, laneMaskOf_testBit _ hk]
  simp [hk]

theorem mem_lanesIn {m : LaneMask} {l : Nat} : l ∈ lanesIn m ↔ l < 128 ∧ m.getLsbD l = true := by
  simp [lanesIn]

end Sys2Proof.Machine
end

