-- ==== Sys2Proof/Laws/State.lean ====
section
/-!
SUPPORT. One lemma for each field under each update of the state and of a context, true by computation, and what the
operations that put a result in flight leave unchanged.
-/
namespace Sys2Proof.Machine
open Sys2Proof

/-! ## The context in view replaced -/

@[simp] theorem State.withCur_cur (s : State) (c : Ctx) : (s.withCur c).cur = c := rfl
@[simp] theorem State.withCur_others (s : State) (c : Ctx) : (s.withCur c).others = s.others := rfl
@[simp] theorem State.withCur_mem (s : State) (c : Ctx) : (s.withCur c).mem = s.mem := rfl
@[simp] theorem State.withCur_tiles (s : State) (c : Ctx) : (s.withCur c).tiles = s.tiles := rfl
@[simp] theorem State.withCur_requests (s : State) (c : Ctx) : (s.withCur c).requests = s.requests := rfl
@[simp] theorem State.withCur_nextReq (s : State) (c : Ctx) : (s.withCur c).nextReq = s.nextReq := rfl
@[simp] theorem State.withCur_nextUid (s : State) (c : Ctx) : (s.withCur c).nextUid = s.nextUid := rfl
@[simp] theorem State.withCur_firefly (s : State) (c : Ctx) : (s.withCur c).firefly = s.firefly := rfl
@[simp] theorem State.withCur_parts (s : State) (c : Ctx) : (s.withCur c).parts = s.parts := rfl
@[simp] theorem State.withCur_cores (s : State) (c : Ctx) : (s.withCur c).cores = s.cores := rfl
@[simp] theorem State.withCur_hart (s : State) (c : Ctx) : (s.withCur c).hart = s.hart := rfl
@[simp] theorem State.withCur_units (s : State) (c : Ctx) : (s.withCur c).units = s.units := rfl
@[simp] theorem State.withCur_degraded (s : State) (c : Ctx) : (s.withCur c).degraded = s.degraded := rfl
@[simp] theorem State.withCur_fused (s : State) (c : Ctx) : (s.withCur c).fused = s.fused := rfl
@[simp] theorem State.withCur_dies (s : State) (c : Ctx) : (s.withCur c).dies = s.dies := rfl
@[simp] theorem State.withCur_ports (s : State) (c : Ctx) : (s.withCur c).ports = s.ports := rfl
@[simp] theorem State.withCur_window (s : State) (c : Ctx) : (s.withCur c).window = s.window := rfl
@[simp] theorem State.withCur_ownModule (s : State) (c : Ctx) : (s.withCur c).ownModule = s.ownModule := rfl
@[simp] theorem State.withCur_present (s : State) (c : Ctx) : (s.withCur c).present = s.present := rfl
@[simp] theorem State.withCur_cycle (s : State) (c : Ctx) : (s.withCur c).cycle = s.cycle := rfl
@[simp] theorem State.withCur_fresh (s : State) (c : Ctx) : (s.withCur c).fresh = s.fresh := rfl
@[simp] theorem State.withCur_issue (s : State) (c : Ctx) : (s.withCur c).issue = s.issue := rfl
@[simp] theorem State.withCur_sched (s : State) (c : Ctx) : (s.withCur c).sched = s.sched := rfl
@[simp] theorem State.withCur_withCur (s : State) (c d : Ctx) : (s.withCur c).withCur d = s.withCur d := rfl
@[simp] theorem State.withCur_self (s : State) : s.withCur s.cur = s := rfl

/-! ## The record of a tile replaced -/

@[simp] theorem State.setTile_cur (s : State) (t : Nat) (r : TileRec) : (s.setTile t r).cur = s.cur := rfl
@[simp] theorem State.setTile_others (s : State) (t : Nat) (r : TileRec) : (s.setTile t r).others = s.others := rfl
@[simp] theorem State.setTile_mem (s : State) (t : Nat) (r : TileRec) : (s.setTile t r).mem = s.mem := rfl
@[simp] theorem State.setTile_requests (s : State) (t : Nat) (r : TileRec) : (s.setTile t r).requests = s.requests := rfl
@[simp] theorem State.setTile_nextReq (s : State) (t : Nat) (r : TileRec) : (s.setTile t r).nextReq = s.nextReq := rfl
@[simp] theorem State.setTile_nextUid (s : State) (t : Nat) (r : TileRec) : (s.setTile t r).nextUid = s.nextUid := rfl
@[simp] theorem State.setTile_firefly (s : State) (t : Nat) (r : TileRec) : (s.setTile t r).firefly = s.firefly := rfl
@[simp] theorem State.setTile_parts (s : State) (t : Nat) (r : TileRec) : (s.setTile t r).parts = s.parts := rfl
@[simp] theorem State.setTile_cores (s : State) (t : Nat) (r : TileRec) : (s.setTile t r).cores = s.cores := rfl
@[simp] theorem State.setTile_hart (s : State) (t : Nat) (r : TileRec) : (s.setTile t r).hart = s.hart := rfl
@[simp] theorem State.setTile_units (s : State) (t : Nat) (r : TileRec) : (s.setTile t r).units = s.units := rfl
@[simp] theorem State.setTile_degraded (s : State) (t : Nat) (r : TileRec) : (s.setTile t r).degraded = s.degraded := rfl
@[simp] theorem State.setTile_fused (s : State) (t : Nat) (r : TileRec) : (s.setTile t r).fused = s.fused := rfl
@[simp] theorem State.setTile_dies (s : State) (t : Nat) (r : TileRec) : (s.setTile t r).dies = s.dies := rfl
@[simp] theorem State.setTile_ports (s : State) (t : Nat) (r : TileRec) : (s.setTile t r).ports = s.ports := rfl
@[simp] theorem State.setTile_window (s : State) (t : Nat) (r : TileRec) : (s.setTile t r).window = s.window := rfl
@[simp] theorem State.setTile_ownModule (s : State) (t : Nat) (r : TileRec) : (s.setTile t r).ownModule = s.ownModule := rfl
@[simp] theorem State.setTile_present (s : State) (t : Nat) (r : TileRec) : (s.setTile t r).present = s.present := rfl
@[simp] theorem State.setTile_cycle (s : State) (t : Nat) (r : TileRec) : (s.setTile t r).cycle = s.cycle := rfl
@[simp] theorem State.setTile_fresh (s : State) (t : Nat) (r : TileRec) : (s.setTile t r).fresh = s.fresh := rfl
@[simp] theorem State.setTile_issue (s : State) (t : Nat) (r : TileRec) : (s.setTile t r).issue = s.issue := rfl
@[simp] theorem State.setTile_sched (s : State) (t : Nat) (r : TileRec) : (s.setTile t r).sched = s.sched := rfl

/-! ## A partition replaced -/

@[simp] theorem State.mapPart_cur (s : State) (n : Nat) (f : Partition → Partition) : (s.mapPart n f).cur = s.cur := by
  unfold State.mapPart; split <;> rfl
@[simp] theorem State.mapPart_others (s : State) (n : Nat) (f : Partition → Partition) : (s.mapPart n f).others = s.others := by
  unfold State.mapPart; split <;> rfl
@[simp] theorem State.mapPart_mem (s : State) (n : Nat) (f : Partition → Partition) : (s.mapPart n f).mem = s.mem := by
  unfold State.mapPart; split <;> rfl
@[simp] theorem State.mapPart_tiles (s : State) (n : Nat) (f : Partition → Partition) : (s.mapPart n f).tiles = s.tiles := by
  unfold State.mapPart; split <;> rfl
@[simp] theorem State.mapPart_requests (s : State) (n : Nat) (f : Partition → Partition) : (s.mapPart n f).requests = s.requests := by
  unfold State.mapPart; split <;> rfl
@[simp] theorem State.mapPart_nextReq (s : State) (n : Nat) (f : Partition → Partition) : (s.mapPart n f).nextReq = s.nextReq := by
  unfold State.mapPart; split <;> rfl
@[simp] theorem State.mapPart_nextUid (s : State) (n : Nat) (f : Partition → Partition) : (s.mapPart n f).nextUid = s.nextUid := by
  unfold State.mapPart; split <;> rfl
@[simp] theorem State.mapPart_firefly (s : State) (n : Nat) (f : Partition → Partition) : (s.mapPart n f).firefly = s.firefly := by
  unfold State.mapPart; split <;> rfl
@[simp] theorem State.mapPart_cores (s : State) (n : Nat) (f : Partition → Partition) : (s.mapPart n f).cores = s.cores := by
  unfold State.mapPart; split <;> rfl
@[simp] theorem State.mapPart_hart (s : State) (n : Nat) (f : Partition → Partition) : (s.mapPart n f).hart = s.hart := by
  unfold State.mapPart; split <;> rfl
@[simp] theorem State.mapPart_units (s : State) (n : Nat) (f : Partition → Partition) : (s.mapPart n f).units = s.units := by
  unfold State.mapPart; split <;> rfl
@[simp] theorem State.mapPart_degraded (s : State) (n : Nat) (f : Partition → Partition) : (s.mapPart n f).degraded = s.degraded := by
  unfold State.mapPart; split <;> rfl
@[simp] theorem State.mapPart_fused (s : State) (n : Nat) (f : Partition → Partition) : (s.mapPart n f).fused = s.fused := by
  unfold State.mapPart; split <;> rfl
@[simp] theorem State.mapPart_dies (s : State) (n : Nat) (f : Partition → Partition) : (s.mapPart n f).dies = s.dies := by
  unfold State.mapPart; split <;> rfl
@[simp] theorem State.mapPart_ports (s : State) (n : Nat) (f : Partition → Partition) : (s.mapPart n f).ports = s.ports := by
  unfold State.mapPart; split <;> rfl
@[simp] theorem State.mapPart_window (s : State) (n : Nat) (f : Partition → Partition) : (s.mapPart n f).window = s.window := by
  unfold State.mapPart; split <;> rfl
@[simp] theorem State.mapPart_ownModule (s : State) (n : Nat) (f : Partition → Partition) : (s.mapPart n f).ownModule = s.ownModule := by
  unfold State.mapPart; split <;> rfl
@[simp] theorem State.mapPart_present (s : State) (n : Nat) (f : Partition → Partition) : (s.mapPart n f).present = s.present := by
  unfold State.mapPart; split <;> rfl
@[simp] theorem State.mapPart_cycle (s : State) (n : Nat) (f : Partition → Partition) : (s.mapPart n f).cycle = s.cycle := by
  unfold State.mapPart; split <;> rfl
@[simp] theorem State.mapPart_fresh (s : State) (n : Nat) (f : Partition → Partition) : (s.mapPart n f).fresh = s.fresh := by
  unfold State.mapPart; split <;> rfl
@[simp] theorem State.mapPart_issue (s : State) (n : Nat) (f : Partition → Partition) : (s.mapPart n f).issue = s.issue := by
  unfold State.mapPart; split <;> rfl
@[simp] theorem State.mapPart_sched (s : State) (n : Nat) (f : Partition → Partition) : (s.mapPart n f).sched = s.sched := by
  unfold State.mapPart; split <;> rfl

/-! ## A result in flight -/

@[simp] theorem Ctx.pushAt_uid (c : Ctx) (land seq : Nat) (w : Landing) : (c.pushAt land seq w).uid = c.uid := rfl
@[simp] theorem Ctx.pushAt_tile (c : Ctx) (land seq : Nat) (w : Landing) : (c.pushAt land seq w).tile = c.tile := rfl
@[simp] theorem Ctx.pushAt_slot (c : Ctx) (land seq : Nat) (w : Landing) : (c.pushAt land seq w).slot = c.slot := rfl
@[simp] theorem Ctx.pushAt_block (c : Ctx) (land seq : Nat) (w : Landing) : (c.pushAt land seq w).block = c.block := rfl
@[simp] theorem Ctx.pushAt_part (c : Ctx) (land seq : Nat) (w : Landing) : (c.pushAt land seq w).part = c.part := rfl
@[simp] theorem Ctx.pushAt_device (c : Ctx) (land seq : Nat) (w : Landing) : (c.pushAt land seq w).device = c.device := rfl
@[simp] theorem Ctx.pushAt_run (c : Ctx) (land seq : Nat) (w : Landing) : (c.pushAt land seq w).run = c.run := rfl
@[simp] theorem Ctx.pushAt_image (c : Ctx) (land seq : Nat) (w : Landing) : (c.pushAt land seq w).image = c.image := rfl
@[simp] theorem Ctx.pushAt_entry (c : Ctx) (land seq : Nat) (w : Landing) : (c.pushAt land seq w).entry = c.entry := rfl
@[simp] theorem Ctx.pushAt_regs (c : Ctx) (land seq : Nat) (w : Landing) : (c.pushAt land seq w).regs = c.regs := rfl
@[simp] theorem Ctx.pushAt_array (c : Ctx) (land seq : Nat) (w : Landing) : (c.pushAt land seq w).array = c.array := rfl
@[simp] theorem Ctx.pushAt_checked (c : Ctx) (land seq : Nat) (w : Landing) : (c.pushAt land seq w).checked = c.checked := rfl
@[simp] theorem Ctx.pushAt_det (c : Ctx) (land seq : Nat) (w : Landing) : (c.pushAt land seq w).det = c.det := rfl
@[simp] theorem Ctx.pushAt_gang (c : Ctx) (land seq : Nat) (w : Landing) : (c.pushAt land seq w).gang = c.gang := rfl
@[simp] theorem Ctx.pushAt_dlf (c : Ctx) (land seq : Nat) (w : Landing) : (c.pushAt land seq w).dlf = c.dlf := rfl
@[simp] theorem Ctx.pushAt_reserve (c : Ctx) (land seq : Nat) (w : Landing) : (c.pushAt land seq w).reserve = c.reserve := rfl
@[simp] theorem Ctx.pushAt_allocs (c : Ctx) (land seq : Nat) (w : Landing) : (c.pushAt land seq w).allocs = c.allocs := rfl
@[simp] theorem Ctx.pushAt_pc (c : Ctx) (land seq : Nat) (w : Landing) : (c.pushAt land seq w).pc = c.pc := rfl
@[simp] theorem Ctx.pushAt_sregs (c : Ctx) (land seq : Nat) (w : Landing) : (c.pushAt land seq w).sregs = c.sregs := rfl
@[simp] theorem Ctx.pushAt_preds (c : Ctx) (land seq : Nat) (w : Landing) : (c.pushAt land seq w).preds = c.preds := rfl
@[simp] theorem Ctx.pushAt_vregs (c : Ctx) (land seq : Nat) (w : Landing) : (c.pushAt land seq w).vregs = c.vregs := rfl
@[simp] theorem Ctx.pushAt_quires (c : Ctx) (land seq : Nat) (w : Landing) : (c.pushAt land seq w).quires = c.quires := rfl
@[simp] theorem Ctx.pushAt_accs (c : Ctx) (land seq : Nat) (w : Landing) : (c.pushAt land seq w).accs = c.accs := rfl
@[simp] theorem Ctx.pushAt_stage0 (c : Ctx) (land seq : Nat) (w : Landing) : (c.pushAt land seq w).stage0 = c.stage0 := rfl
@[simp] theorem Ctx.pushAt_stage1 (c : Ctx) (land seq : Nat) (w : Landing) : (c.pushAt land seq w).stage1 = c.stage1 := rfl
@[simp] theorem Ctx.pushAt_weights (c : Ctx) (land seq : Nat) (w : Landing) : (c.pushAt land seq w).weights = c.weights := rfl
@[simp] theorem Ctx.pushAt_sys (c : Ctx) (land seq : Nat) (w : Landing) : (c.pushAt land seq w).sys = c.sys := rfl
@[simp] theorem Ctx.pushAt_latches (c : Ctx) (land seq : Nat) (w : Landing) : (c.pushAt land seq w).latches = c.latches := rfl
@[simp] theorem Ctx.pushAt_loops (c : Ctx) (land seq : Nat) (w : Landing) : (c.pushAt land seq w).loops = c.loops := rfl
@[simp] theorem Ctx.pushAt_rep (c : Ctx) (land seq : Nat) (w : Landing) : (c.pushAt land seq w).rep = c.rep := rfl
@[simp] theorem Ctx.pushAt_clk (c : Ctx) (land seq : Nat) (w : Landing) : (c.pushAt land seq w).clk = c.clk := rfl
@[simp] theorem Ctx.pushAt_earliest (c : Ctx) (land seq : Nat) (w : Landing) : (c.pushAt land seq w).earliest = c.earliest := rfl
@[simp] theorem Ctx.pushAt_modBase (c : Ctx) (land seq : Nat) (w : Landing) : (c.pushAt land seq w).modBase = c.modBase := rfl
@[simp] theorem Ctx.pushAt_rate (c : Ctx) (land seq : Nat) (w : Landing) : (c.pushAt land seq w).rate = c.rate := rfl
@[simp] theorem Ctx.pushAt_seq (c : Ctx) (land seq : Nat) (w : Landing) : (c.pushAt land seq w).seq = c.seq := rfl
@[simp] theorem Ctx.pushAt_bundle (c : Ctx) (land seq : Nat) (w : Landing) : (c.pushAt land seq w).bundle = c.bundle := rfl
@[simp] theorem Ctx.pushAt_floor (c : Ctx) (land seq : Nat) (w : Landing) : (c.pushAt land seq w).floor = c.floor := rfl
@[simp] theorem Ctx.pushAt_parked (c : Ctx) (land seq : Nat) (w : Landing) : (c.pushAt land seq w).parked = c.parked := rfl
@[simp] theorem Ctx.pushAt_delay (c : Ctx) (land seq : Nat) (w : Landing) : (c.pushAt land seq w).delay = c.delay := rfl
@[simp] theorem Ctx.pushAt_accesses (c : Ctx) (land seq : Nat) (w : Landing) : (c.pushAt land seq w).accesses = c.accesses := rfl
@[simp] theorem Ctx.pushAt_rq (c : Ctx) (land seq : Nat) (w : Landing) : (c.pushAt land seq w).rq = c.rq := rfl
@[simp] theorem Ctx.pushAt_late (c : Ctx) (land seq : Nat) (w : Landing) : (c.pushAt land seq w).late = c.late := rfl
@[simp] theorem Ctx.pushAt_wait (c : Ctx) (land seq : Nat) (w : Landing) : (c.pushAt land seq w).wait = c.wait := rfl
@[simp] theorem Ctx.pushAt_cmdSeq (c : Ctx) (land seq : Nat) (w : Landing) : (c.pushAt land seq w).cmdSeq = c.cmdSeq := rfl
@[simp] theorem Ctx.pushAt_waiting (c : Ctx) (land seq : Nat) (w : Landing) : (c.pushAt land seq w).waiting = c.waiting := rfl
@[simp] theorem Ctx.pushAt_eqs (c : Ctx) (land seq : Nat) (w : Landing) : (c.pushAt land seq w).eqs = c.eqs := rfl
@[simp] theorem Ctx.pushAt_batchSeq (c : Ctx) (land seq : Nat) (w : Landing) : (c.pushAt land seq w).batchSeq = c.batchSeq := rfl
@[simp] theorem Ctx.pushAt_openB (c : Ctx) (land seq : Nat) (w : Landing) : (c.pushAt land seq w).openB = c.openB := rfl
@[simp] theorem Ctx.pushAt_closedB (c : Ctx) (land seq : Nat) (w : Landing) : (c.pushAt land seq w).closedB = c.closedB := rfl
@[simp] theorem Ctx.pushAt_failures (c : Ctx) (land seq : Nat) (w : Landing) : (c.pushAt land seq w).failures = c.failures := rfl
@[simp] theorem Ctx.pushAt_verdicts (c : Ctx) (land seq : Nat) (w : Landing) : (c.pushAt land seq w).verdicts = c.verdicts := rfl
@[simp] theorem Ctx.pushAt_denied (c : Ctx) (land seq : Nat) (w : Landing) : (c.pushAt land seq w).denied = c.denied := rfl
@[simp] theorem Ctx.pushAt_ldaOwed (c : Ctx) (land seq : Nat) (w : Landing) : (c.pushAt land seq w).ldaOwed = c.ldaOwed := rfl
@[simp] theorem Ctx.pushAt_epoch (c : Ctx) (land seq : Nat) (w : Landing) : (c.pushAt land seq w).epoch = c.epoch := rfl
@[simp] theorem Ctx.pushAt_code (c : Ctx) (land seq : Nat) (w : Landing) : (c.pushAt land seq w).code = c.code := rfl
@[simp] theorem Ctx.pushAt_fetching (c : Ctx) (land seq : Nat) (w : Landing) : (c.pushAt land seq w).fetching = c.fetching := rfl
@[simp] theorem Ctx.pushAt_barriers (c : Ctx) (land seq : Nat) (w : Landing) : (c.pushAt land seq w).barriers = c.barriers := rfl
@[simp] theorem Ctx.pushAt_lastIssue (c : Ctx) (land seq : Nat) (w : Landing) : (c.pushAt land seq w).lastIssue = c.lastIssue := rfl
@[simp] theorem Ctx.pushAt_hard (c : Ctx) (land seq : Nat) (w : Landing) : (c.pushAt land seq w).hard = c.hard := rfl
@[simp] theorem Ctx.pushAt_askedAt (c : Ctx) (land seq : Nat) (w : Landing) : (c.pushAt land seq w).askedAt = c.askedAt := rfl
@[simp] theorem Ctx.pushAt_soft (c : Ctx) (land seq : Nat) (w : Landing) : (c.pushAt land seq w).soft = c.soft := rfl
@[simp] theorem Ctx.pushAt_boundary (c : Ctx) (land seq : Nat) (w : Landing) : (c.pushAt land seq w).boundary = c.boundary := rfl
@[simp] theorem Ctx.pushAt_watch (c : Ctx) (land seq : Nat) (w : Landing) : (c.pushAt land seq w).watch = c.watch := rfl
@[simp] theorem Ctx.pushAt_began (c : Ctx) (land seq : Nat) (w : Landing) : (c.pushAt land seq w).began = c.began := rfl
@[simp] theorem Ctx.pushAt_waitedFrom (c : Ctx) (land seq : Nat) (w : Landing) : (c.pushAt land seq w).waitedFrom = c.waitedFrom := rfl
@[simp] theorem Ctx.pushAt_copies (c : Ctx) (land seq : Nat) (w : Landing) : (c.pushAt land seq w).copies = c.copies := rfl
@[simp] theorem Ctx.pushAt_saveSlot (c : Ctx) (land seq : Nat) (w : Landing) : (c.pushAt land seq w).saveSlot = c.saveSlot := rfl
@[simp] theorem Ctx.pushAt_flight (c : Ctx) (land seq : Nat) (w : Landing) :
    (c.pushAt land seq w).flight = insertFlight { land := land, seq := seq, what := w } c.flight := rfl
@[simp] theorem Ctx.push_uid (c : Ctx) (lat : Nat) (w : Landing) : (c.push lat w).uid = c.uid := rfl
@[simp] theorem Ctx.push_tile (c : Ctx) (lat : Nat) (w : Landing) : (c.push lat w).tile = c.tile := rfl
@[simp] theorem Ctx.push_slot (c : Ctx) (lat : Nat) (w : Landing) : (c.push lat w).slot = c.slot := rfl
@[simp] theorem Ctx.push_block (c : Ctx) (lat : Nat) (w : Landing) : (c.push lat w).block = c.block := rfl
@[simp] theorem Ctx.push_part (c : Ctx) (lat : Nat) (w : Landing) : (c.push lat w).part = c.part := rfl
@[simp] theorem Ctx.push_device (c : Ctx) (lat : Nat) (w : Landing) : (c.push lat w).device = c.device := rfl
@[simp] theorem Ctx.push_run (c : Ctx) (lat : Nat) (w : Landing) : (c.push lat w).run = c.run := rfl
@[simp] theorem Ctx.push_image (c : Ctx) (lat : Nat) (w : Landing) : (c.push lat w).image = c.image := rfl
@[simp] theorem Ctx.push_entry (c : Ctx) (lat : Nat) (w : Landing) : (c.push lat w).entry = c.entry := rfl
@[simp] theorem Ctx.push_regs (c : Ctx) (lat : Nat) (w : Landing) : (c.push lat w).regs = c.regs := rfl
@[simp] theorem Ctx.push_array (c : Ctx) (lat : Nat) (w : Landing) : (c.push lat w).array = c.array := rfl
@[simp] theorem Ctx.push_checked (c : Ctx) (lat : Nat) (w : Landing) : (c.push lat w).checked = c.checked := rfl
@[simp] theorem Ctx.push_det (c : Ctx) (lat : Nat) (w : Landing) : (c.push lat w).det = c.det := rfl
@[simp] theorem Ctx.push_gang (c : Ctx) (lat : Nat) (w : Landing) : (c.push lat w).gang = c.gang := rfl
@[simp] theorem Ctx.push_dlf (c : Ctx) (lat : Nat) (w : Landing) : (c.push lat w).dlf = c.dlf := rfl
@[simp] theorem Ctx.push_reserve (c : Ctx) (lat : Nat) (w : Landing) : (c.push lat w).reserve = c.reserve := rfl
@[simp] theorem Ctx.push_allocs (c : Ctx) (lat : Nat) (w : Landing) : (c.push lat w).allocs = c.allocs := rfl
@[simp] theorem Ctx.push_pc (c : Ctx) (lat : Nat) (w : Landing) : (c.push lat w).pc = c.pc := rfl
@[simp] theorem Ctx.push_sregs (c : Ctx) (lat : Nat) (w : Landing) : (c.push lat w).sregs = c.sregs := rfl
@[simp] theorem Ctx.push_preds (c : Ctx) (lat : Nat) (w : Landing) : (c.push lat w).preds = c.preds := rfl
@[simp] theorem Ctx.push_vregs (c : Ctx) (lat : Nat) (w : Landing) : (c.push lat w).vregs = c.vregs := rfl
@[simp] theorem Ctx.push_quires (c : Ctx) (lat : Nat) (w : Landing) : (c.push lat w).quires = c.quires := rfl
@[simp] theorem Ctx.push_accs (c : Ctx) (lat : Nat) (w : Landing) : (c.push lat w).accs = c.accs := rfl
@[simp] theorem Ctx.push_stage0 (c : Ctx) (lat : Nat) (w : Landing) : (c.push lat w).stage0 = c.stage0 := rfl
@[simp] theorem Ctx.push_stage1 (c : Ctx) (lat : Nat) (w : Landing) : (c.push lat w).stage1 = c.stage1 := rfl
@[simp] theorem Ctx.push_weights (c : Ctx) (lat : Nat) (w : Landing) : (c.push lat w).weights = c.weights := rfl
@[simp] theorem Ctx.push_sys (c : Ctx) (lat : Nat) (w : Landing) : (c.push lat w).sys = c.sys := rfl
@[simp] theorem Ctx.push_latches (c : Ctx) (lat : Nat) (w : Landing) : (c.push lat w).latches = c.latches := rfl
@[simp] theorem Ctx.push_loops (c : Ctx) (lat : Nat) (w : Landing) : (c.push lat w).loops = c.loops := rfl
@[simp] theorem Ctx.push_rep (c : Ctx) (lat : Nat) (w : Landing) : (c.push lat w).rep = c.rep := rfl
@[simp] theorem Ctx.push_clk (c : Ctx) (lat : Nat) (w : Landing) : (c.push lat w).clk = c.clk := rfl
@[simp] theorem Ctx.push_earliest (c : Ctx) (lat : Nat) (w : Landing) : (c.push lat w).earliest = c.earliest := rfl
@[simp] theorem Ctx.push_modBase (c : Ctx) (lat : Nat) (w : Landing) : (c.push lat w).modBase = c.modBase := rfl
@[simp] theorem Ctx.push_rate (c : Ctx) (lat : Nat) (w : Landing) : (c.push lat w).rate = c.rate := rfl
@[simp] theorem Ctx.push_bundle (c : Ctx) (lat : Nat) (w : Landing) : (c.push lat w).bundle = c.bundle := rfl
@[simp] theorem Ctx.push_floor (c : Ctx) (lat : Nat) (w : Landing) : (c.push lat w).floor = c.floor := rfl
@[simp] theorem Ctx.push_parked (c : Ctx) (lat : Nat) (w : Landing) : (c.push lat w).parked = c.parked := rfl
@[simp] theorem Ctx.push_delay (c : Ctx) (lat : Nat) (w : Landing) : (c.push lat w).delay = c.delay := rfl
@[simp] theorem Ctx.push_accesses (c : Ctx) (lat : Nat) (w : Landing) : (c.push lat w).accesses = c.accesses := rfl
@[simp] theorem Ctx.push_rq (c : Ctx) (lat : Nat) (w : Landing) : (c.push lat w).rq = c.rq := rfl
@[simp] theorem Ctx.push_late (c : Ctx) (lat : Nat) (w : Landing) : (c.push lat w).late = c.late := rfl
@[simp] theorem Ctx.push_wait (c : Ctx) (lat : Nat) (w : Landing) : (c.push lat w).wait = c.wait := rfl
@[simp] theorem Ctx.push_cmdSeq (c : Ctx) (lat : Nat) (w : Landing) : (c.push lat w).cmdSeq = c.cmdSeq := rfl
@[simp] theorem Ctx.push_waiting (c : Ctx) (lat : Nat) (w : Landing) : (c.push lat w).waiting = c.waiting := rfl
@[simp] theorem Ctx.push_eqs (c : Ctx) (lat : Nat) (w : Landing) : (c.push lat w).eqs = c.eqs := rfl
@[simp] theorem Ctx.push_batchSeq (c : Ctx) (lat : Nat) (w : Landing) : (c.push lat w).batchSeq = c.batchSeq := rfl
@[simp] theorem Ctx.push_openB (c : Ctx) (lat : Nat) (w : Landing) : (c.push lat w).openB = c.openB := rfl
@[simp] theorem Ctx.push_closedB (c : Ctx) (lat : Nat) (w : Landing) : (c.push lat w).closedB = c.closedB := rfl
@[simp] theorem Ctx.push_failures (c : Ctx) (lat : Nat) (w : Landing) : (c.push lat w).failures = c.failures := rfl
@[simp] theorem Ctx.push_verdicts (c : Ctx) (lat : Nat) (w : Landing) : (c.push lat w).verdicts = c.verdicts := rfl
@[simp] theorem Ctx.push_denied (c : Ctx) (lat : Nat) (w : Landing) : (c.push lat w).denied = c.denied := rfl
@[simp] theorem Ctx.push_ldaOwed (c : Ctx) (lat : Nat) (w : Landing) : (c.push lat w).ldaOwed = c.ldaOwed := rfl
@[simp] theorem Ctx.push_epoch (c : Ctx) (lat : Nat) (w : Landing) : (c.push lat w).epoch = c.epoch := rfl
@[simp] theorem Ctx.push_code (c : Ctx) (lat : Nat) (w : Landing) : (c.push lat w).code = c.code := rfl
@[simp] theorem Ctx.push_fetching (c : Ctx) (lat : Nat) (w : Landing) : (c.push lat w).fetching = c.fetching := rfl
@[simp] theorem Ctx.push_barriers (c : Ctx) (lat : Nat) (w : Landing) : (c.push lat w).barriers = c.barriers := rfl
@[simp] theorem Ctx.push_lastIssue (c : Ctx) (lat : Nat) (w : Landing) : (c.push lat w).lastIssue = c.lastIssue := rfl
@[simp] theorem Ctx.push_hard (c : Ctx) (lat : Nat) (w : Landing) : (c.push lat w).hard = c.hard := rfl
@[simp] theorem Ctx.push_askedAt (c : Ctx) (lat : Nat) (w : Landing) : (c.push lat w).askedAt = c.askedAt := rfl
@[simp] theorem Ctx.push_soft (c : Ctx) (lat : Nat) (w : Landing) : (c.push lat w).soft = c.soft := rfl
@[simp] theorem Ctx.push_boundary (c : Ctx) (lat : Nat) (w : Landing) : (c.push lat w).boundary = c.boundary := rfl
@[simp] theorem Ctx.push_watch (c : Ctx) (lat : Nat) (w : Landing) : (c.push lat w).watch = c.watch := rfl
@[simp] theorem Ctx.push_began (c : Ctx) (lat : Nat) (w : Landing) : (c.push lat w).began = c.began := rfl
@[simp] theorem Ctx.push_waitedFrom (c : Ctx) (lat : Nat) (w : Landing) : (c.push lat w).waitedFrom = c.waitedFrom := rfl
@[simp] theorem Ctx.push_copies (c : Ctx) (lat : Nat) (w : Landing) : (c.push lat w).copies = c.copies := rfl
@[simp] theorem Ctx.push_saveSlot (c : Ctx) (lat : Nat) (w : Landing) : (c.push lat w).saveSlot = c.saveSlot := rfl
@[simp] theorem Ctx.push_flight (c : Ctx) (lat : Nat) (w : Landing) :
    (c.push lat w).flight = insertFlight { land := c.clk + lat, seq := c.seq, what := w } c.flight := rfl
@[simp] theorem Ctx.push_seq (c : Ctx) (lat : Nat) (w : Landing) : (c.push lat w).seq = c.seq + 1 := rfl

/-! ## Registers replaced -/

@[simp] theorem Ctx.setS_uid (c : Ctx) (r : SRegNo) (x : SReg) : (c.setS r x).uid = c.uid := by
  unfold Ctx.setS; split <;> rfl
@[simp] theorem Ctx.setS_tile (c : Ctx) (r : SRegNo) (x : SReg) : (c.setS r x).tile = c.tile := by
  unfold Ctx.setS; split <;> rfl
@[simp] theorem Ctx.setS_slot (c : Ctx) (r : SRegNo) (x : SReg) : (c.setS r x).slot = c.slot := by
  unfold Ctx.setS; split <;> rfl
@[simp] theorem Ctx.setS_block (c : Ctx) (r : SRegNo) (x : SReg) : (c.setS r x).block = c.block := by
  unfold Ctx.setS; split <;> rfl
@[simp] theorem Ctx.setS_part (c : Ctx) (r : SRegNo) (x : SReg) : (c.setS r x).part = c.part := by
  unfold Ctx.setS; split <;> rfl
@[simp] theorem Ctx.setS_device (c : Ctx) (r : SRegNo) (x : SReg) : (c.setS r x).device = c.device := by
  unfold Ctx.setS; split <;> rfl
@[simp] theorem Ctx.setS_run (c : Ctx) (r : SRegNo) (x : SReg) : (c.setS r x).run = c.run := by
  unfold Ctx.setS; split <;> rfl
@[simp] theorem Ctx.setS_image (c : Ctx) (r : SRegNo) (x : SReg) : (c.setS r x).image = c.image := by
  unfold Ctx.setS; split <;> rfl
@[simp] theorem Ctx.setS_entry (c : Ctx) (r : SRegNo) (x : SReg) : (c.setS r x).entry = c.entry := by
  unfold Ctx.setS; split <;> rfl
@[simp] theorem Ctx.setS_regs (c : Ctx) (r : SRegNo) (x : SReg) : (c.setS r x).regs = c.regs := by
  unfold Ctx.setS; split <;> rfl
@[simp] theorem Ctx.setS_array (c : Ctx) (r : SRegNo) (x : SReg) : (c.setS r x).array = c.array := by
  unfold Ctx.setS; split <;> rfl
@[simp] theorem Ctx.setS_checked (c : Ctx) (r : SRegNo) (x : SReg) : (c.setS r x).checked = c.checked := by
  unfold Ctx.setS; split <;> rfl
@[simp] theorem Ctx.setS_det (c : Ctx) (r : SRegNo) (x : SReg) : (c.setS r x).det = c.det := by
  unfold Ctx.setS; split <;> rfl
@[simp] theorem Ctx.setS_gang (c : Ctx) (r : SRegNo) (x : SReg) : (c.setS r x).gang = c.gang := by
  unfold Ctx.setS; split <;> rfl
@[simp] theorem Ctx.setS_dlf (c : Ctx) (r : SRegNo) (x : SReg) : (c.setS r x).dlf = c.dlf := by
  unfold Ctx.setS; split <;> rfl
@[simp] theorem Ctx.setS_reserve (c : Ctx) (r : SRegNo) (x : SReg) : (c.setS r x).reserve = c.reserve := by
  unfold Ctx.setS; split <;> rfl
@[simp] theorem Ctx.setS_allocs (c : Ctx) (r : SRegNo) (x : SReg) : (c.setS r x).allocs = c.allocs := by
  unfold Ctx.setS; split <;> rfl
@[simp] theorem Ctx.setS_pc (c : Ctx) (r : SRegNo) (x : SReg) : (c.setS r x).pc = c.pc := by
  unfold Ctx.setS; split <;> rfl
@[simp] theorem Ctx.setS_preds (c : Ctx) (r : SRegNo) (x : SReg) : (c.setS r x).preds = c.preds := by
  unfold Ctx.setS; split <;> rfl
@[simp] theorem Ctx.setS_vregs (c : Ctx) (r : SRegNo) (x : SReg) : (c.setS r x).vregs = c.vregs := by
  unfold Ctx.setS; split <;> rfl
@[simp] theorem Ctx.setS_quires (c : Ctx) (r : SRegNo) (x : SReg) : (c.setS r x).quires = c.quires := by
  unfold Ctx.setS; split <;> rfl
@[simp] theorem Ctx.setS_accs (c : Ctx) (r : SRegNo) (x : SReg) : (c.setS r x).accs = c.accs := by
  unfold Ctx.setS; split <;> rfl
@[simp] theorem Ctx.setS_stage0 (c : Ctx) (r : SRegNo) (x : SReg) : (c.setS r x).stage0 = c.stage0 := by
  unfold Ctx.setS; split <;> rfl
@[simp] theorem Ctx.setS_stage1 (c : Ctx) (r : SRegNo) (x : SReg) : (c.setS r x).stage1 = c.stage1 := by
  unfold Ctx.setS; split <;> rfl
@[simp] theorem Ctx.setS_weights (c : Ctx) (r : SRegNo) (x : SReg) : (c.setS r x).weights = c.weights := by
  unfold Ctx.setS; split <;> rfl
@[simp] theorem Ctx.setS_sys (c : Ctx) (r : SRegNo) (x : SReg) : (c.setS r x).sys = c.sys := by
  unfold Ctx.setS; split <;> rfl
@[simp] theorem Ctx.setS_latches (c : Ctx) (r : SRegNo) (x : SReg) : (c.setS r x).latches = c.latches := by
  unfold Ctx.setS; split <;> rfl
@[simp] theorem Ctx.setS_loops (c : Ctx) (r : SRegNo) (x : SReg) : (c.setS r x).loops = c.loops := by
  unfold Ctx.setS; split <;> rfl
@[simp] theorem Ctx.setS_rep (c : Ctx) (r : SRegNo) (x : SReg) : (c.setS r x).rep = c.rep := by
  unfold Ctx.setS; split <;> rfl
@[simp] theorem Ctx.setS_clk (c : Ctx) (r : SRegNo) (x : SReg) : (c.setS r x).clk = c.clk := by
  unfold Ctx.setS; split <;> rfl
@[simp] theorem Ctx.setS_earliest (c : Ctx) (r : SRegNo) (x : SReg) : (c.setS r x).earliest = c.earliest := by
  unfold Ctx.setS; split <;> rfl
@[simp] theorem Ctx.setS_modBase (c : Ctx) (r : SRegNo) (x : SReg) : (c.setS r x).modBase = c.modBase := by
  unfold Ctx.setS; split <;> rfl
@[simp] theorem Ctx.setS_rate (c : Ctx) (r : SRegNo) (x : SReg) : (c.setS r x).rate = c.rate := by
  unfold Ctx.setS; split <;> rfl
@[simp] theorem Ctx.setS_seq (c : Ctx) (r : SRegNo) (x : SReg) : (c.setS r x).seq = c.seq := by
  unfold Ctx.setS; split <;> rfl
@[simp] theorem Ctx.setS_bundle (c : Ctx) (r : SRegNo) (x : SReg) : (c.setS r x).bundle = c.bundle := by
  unfold Ctx.setS; split <;> rfl
@[simp] theorem Ctx.setS_floor (c : Ctx) (r : SRegNo) (x : SReg) : (c.setS r x).floor = c.floor := by
  unfold Ctx.setS; split <;> rfl
@[simp] theorem Ctx.setS_parked (c : Ctx) (r : SRegNo) (x : SReg) : (c.setS r x).parked = c.parked := by
  unfold Ctx.setS; split <;> rfl
@[simp] theorem Ctx.setS_delay (c : Ctx) (r : SRegNo) (x : SReg) : (c.setS r x).delay = c.delay := by
  unfold Ctx.setS; split <;> rfl
@[simp] theorem Ctx.setS_flight (c : Ctx) (r : SRegNo) (x : SReg) : (c.setS r x).flight = c.flight := by
  unfold Ctx.setS; split <;> rfl
@[simp] theorem Ctx.setS_accesses (c : Ctx) (r : SRegNo) (x : SReg) : (c.setS r x).accesses = c.accesses := by
  unfold Ctx.setS; split <;> rfl
@[simp] theorem Ctx.setS_rq (c : Ctx) (r : SRegNo) (x : SReg) : (c.setS r x).rq = c.rq := by
  unfold Ctx.setS; split <;> rfl
@[simp] theorem Ctx.setS_late (c : Ctx) (r : SRegNo) (x : SReg) : (c.setS r x).late = c.late := by
  unfold Ctx.setS; split <;> rfl
@[simp] theorem Ctx.setS_wait (c : Ctx) (r : SRegNo) (x : SReg) : (c.setS r x).wait = c.wait := by
  unfold Ctx.setS; split <;> rfl
@[simp] theorem Ctx.setS_cmdSeq (c : Ctx) (r : SRegNo) (x : SReg) : (c.setS r x).cmdSeq = c.cmdSeq := by
  unfold Ctx.setS; split <;> rfl
@[simp] theorem Ctx.setS_waiting (c : Ctx) (r : SRegNo) (x : SReg) : (c.setS r x).waiting = c.waiting := by
  unfold Ctx.setS; split <;> rfl
@[simp] theorem Ctx.setS_eqs (c : Ctx) (r : SRegNo) (x : SReg) : (c.setS r x).eqs = c.eqs := by
  unfold Ctx.setS; split <;> rfl
@[simp] theorem Ctx.setS_batchSeq (c : Ctx) (r : SRegNo) (x : SReg) : (c.setS r x).batchSeq = c.batchSeq := by
  unfold Ctx.setS; split <;> rfl
@[simp] theorem Ctx.setS_openB (c : Ctx) (r : SRegNo) (x : SReg) : (c.setS r x).openB = c.openB := by
  unfold Ctx.setS; split <;> rfl
@[simp] theorem Ctx.setS_closedB (c : Ctx) (r : SRegNo) (x : SReg) : (c.setS r x).closedB = c.closedB := by
  unfold Ctx.setS; split <;> rfl
@[simp] theorem Ctx.setS_failures (c : Ctx) (r : SRegNo) (x : SReg) : (c.setS r x).failures = c.failures := by
  unfold Ctx.setS; split <;> rfl
@[simp] theorem Ctx.setS_verdicts (c : Ctx) (r : SRegNo) (x : SReg) : (c.setS r x).verdicts = c.verdicts := by
  unfold Ctx.setS; split <;> rfl
@[simp] theorem Ctx.setS_denied (c : Ctx) (r : SRegNo) (x : SReg) : (c.setS r x).denied = c.denied := by
  unfold Ctx.setS; split <;> rfl
@[simp] theorem Ctx.setS_ldaOwed (c : Ctx) (r : SRegNo) (x : SReg) : (c.setS r x).ldaOwed = c.ldaOwed := by
  unfold Ctx.setS; split <;> rfl
@[simp] theorem Ctx.setS_epoch (c : Ctx) (r : SRegNo) (x : SReg) : (c.setS r x).epoch = c.epoch := by
  unfold Ctx.setS; split <;> rfl
@[simp] theorem Ctx.setS_code (c : Ctx) (r : SRegNo) (x : SReg) : (c.setS r x).code = c.code := by
  unfold Ctx.setS; split <;> rfl
@[simp] theorem Ctx.setS_fetching (c : Ctx) (r : SRegNo) (x : SReg) : (c.setS r x).fetching = c.fetching := by
  unfold Ctx.setS; split <;> rfl
@[simp] theorem Ctx.setS_barriers (c : Ctx) (r : SRegNo) (x : SReg) : (c.setS r x).barriers = c.barriers := by
  unfold Ctx.setS; split <;> rfl
@[simp] theorem Ctx.setS_lastIssue (c : Ctx) (r : SRegNo) (x : SReg) : (c.setS r x).lastIssue = c.lastIssue := by
  unfold Ctx.setS; split <;> rfl
@[simp] theorem Ctx.setS_hard (c : Ctx) (r : SRegNo) (x : SReg) : (c.setS r x).hard = c.hard := by
  unfold Ctx.setS; split <;> rfl
@[simp] theorem Ctx.setS_askedAt (c : Ctx) (r : SRegNo) (x : SReg) : (c.setS r x).askedAt = c.askedAt := by
  unfold Ctx.setS; split <;> rfl
@[simp] theorem Ctx.setS_soft (c : Ctx) (r : SRegNo) (x : SReg) : (c.setS r x).soft = c.soft := by
  unfold Ctx.setS; split <;> rfl
@[simp] theorem Ctx.setS_boundary (c : Ctx) (r : SRegNo) (x : SReg) : (c.setS r x).boundary = c.boundary := by
  unfold Ctx.setS; split <;> rfl
@[simp] theorem Ctx.setS_watch (c : Ctx) (r : SRegNo) (x : SReg) : (c.setS r x).watch = c.watch := by
  unfold Ctx.setS; split <;> rfl
@[simp] theorem Ctx.setS_began (c : Ctx) (r : SRegNo) (x : SReg) : (c.setS r x).began = c.began := by
  unfold Ctx.setS; split <;> rfl
@[simp] theorem Ctx.setS_waitedFrom (c : Ctx) (r : SRegNo) (x : SReg) : (c.setS r x).waitedFrom = c.waitedFrom := by
  unfold Ctx.setS; split <;> rfl
@[simp] theorem Ctx.setS_copies (c : Ctx) (r : SRegNo) (x : SReg) : (c.setS r x).copies = c.copies := by
  unfold Ctx.setS; split <;> rfl
@[simp] theorem Ctx.setS_saveSlot (c : Ctx) (r : SRegNo) (x : SReg) : (c.setS r x).saveSlot = c.saveSlot := by
  unfold Ctx.setS; split <;> rfl
@[simp] theorem Ctx.setP_uid (c : Ctx) (r : PNum) (x : LaneMask) : (c.setP r x).uid = c.uid := by
  unfold Ctx.setP; split <;> rfl
@[simp] theorem Ctx.setP_tile (c : Ctx) (r : PNum) (x : LaneMask) : (c.setP r x).tile = c.tile := by
  unfold Ctx.setP; split <;> rfl
@[simp] theorem Ctx.setP_slot (c : Ctx) (r : PNum) (x : LaneMask) : (c.setP r x).slot = c.slot := by
  unfold Ctx.setP; split <;> rfl
@[simp] theorem Ctx.setP_block (c : Ctx) (r : PNum) (x : LaneMask) : (c.setP r x).block = c.block := by
  unfold Ctx.setP; split <;> rfl
@[simp] theorem Ctx.setP_part (c : Ctx) (r : PNum) (x : LaneMask) : (c.setP r x).part = c.part := by
  unfold Ctx.setP; split <;> rfl
@[simp] theorem Ctx.setP_device (c : Ctx) (r : PNum) (x : LaneMask) : (c.setP r x).device = c.device := by
  unfold Ctx.setP; split <;> rfl
@[simp] theorem Ctx.setP_run (c : Ctx) (r : PNum) (x : LaneMask) : (c.setP r x).run = c.run := by
  unfold Ctx.setP; split <;> rfl
@[simp] theorem Ctx.setP_image (c : Ctx) (r : PNum) (x : LaneMask) : (c.setP r x).image = c.image := by
  unfold Ctx.setP; split <;> rfl
@[simp] theorem Ctx.setP_entry (c : Ctx) (r : PNum) (x : LaneMask) : (c.setP r x).entry = c.entry := by
  unfold Ctx.setP; split <;> rfl
@[simp] theorem Ctx.setP_regs (c : Ctx) (r : PNum) (x : LaneMask) : (c.setP r x).regs = c.regs := by
  unfold Ctx.setP; split <;> rfl
@[simp] theorem Ctx.setP_array (c : Ctx) (r : PNum) (x : LaneMask) : (c.setP r x).array = c.array := by
  unfold Ctx.setP; split <;> rfl
@[simp] theorem Ctx.setP_checked (c : Ctx) (r : PNum) (x : LaneMask) : (c.setP r x).checked = c.checked := by
  unfold Ctx.setP; split <;> rfl
@[simp] theorem Ctx.setP_det (c : Ctx) (r : PNum) (x : LaneMask) : (c.setP r x).det = c.det := by
  unfold Ctx.setP; split <;> rfl
@[simp] theorem Ctx.setP_gang (c : Ctx) (r : PNum) (x : LaneMask) : (c.setP r x).gang = c.gang := by
  unfold Ctx.setP; split <;> rfl
@[simp] theorem Ctx.setP_dlf (c : Ctx) (r : PNum) (x : LaneMask) : (c.setP r x).dlf = c.dlf := by
  unfold Ctx.setP; split <;> rfl
@[simp] theorem Ctx.setP_reserve (c : Ctx) (r : PNum) (x : LaneMask) : (c.setP r x).reserve = c.reserve := by
  unfold Ctx.setP; split <;> rfl
@[simp] theorem Ctx.setP_allocs (c : Ctx) (r : PNum) (x : LaneMask) : (c.setP r x).allocs = c.allocs := by
  unfold Ctx.setP; split <;> rfl
@[simp] theorem Ctx.setP_pc (c : Ctx) (r : PNum) (x : LaneMask) : (c.setP r x).pc = c.pc := by
  unfold Ctx.setP; split <;> rfl
@[simp] theorem Ctx.setP_sregs (c : Ctx) (r : PNum) (x : LaneMask) : (c.setP r x).sregs = c.sregs := by
  unfold Ctx.setP; split <;> rfl
@[simp] theorem Ctx.setP_vregs (c : Ctx) (r : PNum) (x : LaneMask) : (c.setP r x).vregs = c.vregs := by
  unfold Ctx.setP; split <;> rfl
@[simp] theorem Ctx.setP_quires (c : Ctx) (r : PNum) (x : LaneMask) : (c.setP r x).quires = c.quires := by
  unfold Ctx.setP; split <;> rfl
@[simp] theorem Ctx.setP_accs (c : Ctx) (r : PNum) (x : LaneMask) : (c.setP r x).accs = c.accs := by
  unfold Ctx.setP; split <;> rfl
@[simp] theorem Ctx.setP_stage0 (c : Ctx) (r : PNum) (x : LaneMask) : (c.setP r x).stage0 = c.stage0 := by
  unfold Ctx.setP; split <;> rfl
@[simp] theorem Ctx.setP_stage1 (c : Ctx) (r : PNum) (x : LaneMask) : (c.setP r x).stage1 = c.stage1 := by
  unfold Ctx.setP; split <;> rfl
@[simp] theorem Ctx.setP_weights (c : Ctx) (r : PNum) (x : LaneMask) : (c.setP r x).weights = c.weights := by
  unfold Ctx.setP; split <;> rfl
@[simp] theorem Ctx.setP_sys (c : Ctx) (r : PNum) (x : LaneMask) : (c.setP r x).sys = c.sys := by
  unfold Ctx.setP; split <;> rfl
@[simp] theorem Ctx.setP_latches (c : Ctx) (r : PNum) (x : LaneMask) : (c.setP r x).latches = c.latches := by
  unfold Ctx.setP; split <;> rfl
@[simp] theorem Ctx.setP_loops (c : Ctx) (r : PNum) (x : LaneMask) : (c.setP r x).loops = c.loops := by
  unfold Ctx.setP; split <;> rfl
@[simp] theorem Ctx.setP_rep (c : Ctx) (r : PNum) (x : LaneMask) : (c.setP r x).rep = c.rep := by
  unfold Ctx.setP; split <;> rfl
@[simp] theorem Ctx.setP_clk (c : Ctx) (r : PNum) (x : LaneMask) : (c.setP r x).clk = c.clk := by
  unfold Ctx.setP; split <;> rfl
@[simp] theorem Ctx.setP_earliest (c : Ctx) (r : PNum) (x : LaneMask) : (c.setP r x).earliest = c.earliest := by
  unfold Ctx.setP; split <;> rfl
@[simp] theorem Ctx.setP_modBase (c : Ctx) (r : PNum) (x : LaneMask) : (c.setP r x).modBase = c.modBase := by
  unfold Ctx.setP; split <;> rfl
@[simp] theorem Ctx.setP_rate (c : Ctx) (r : PNum) (x : LaneMask) : (c.setP r x).rate = c.rate := by
  unfold Ctx.setP; split <;> rfl
@[simp] theorem Ctx.setP_seq (c : Ctx) (r : PNum) (x : LaneMask) : (c.setP r x).seq = c.seq := by
  unfold Ctx.setP; split <;> rfl
@[simp] theorem Ctx.setP_bundle (c : Ctx) (r : PNum) (x : LaneMask) : (c.setP r x).bundle = c.bundle := by
  unfold Ctx.setP; split <;> rfl
@[simp] theorem Ctx.setP_floor (c : Ctx) (r : PNum) (x : LaneMask) : (c.setP r x).floor = c.floor := by
  unfold Ctx.setP; split <;> rfl
@[simp] theorem Ctx.setP_parked (c : Ctx) (r : PNum) (x : LaneMask) : (c.setP r x).parked = c.parked := by
  unfold Ctx.setP; split <;> rfl
@[simp] theorem Ctx.setP_delay (c : Ctx) (r : PNum) (x : LaneMask) : (c.setP r x).delay = c.delay := by
  unfold Ctx.setP; split <;> rfl
@[simp] theorem Ctx.setP_flight (c : Ctx) (r : PNum) (x : LaneMask) : (c.setP r x).flight = c.flight := by
  unfold Ctx.setP; split <;> rfl
@[simp] theorem Ctx.setP_accesses (c : Ctx) (r : PNum) (x : LaneMask) : (c.setP r x).accesses = c.accesses := by
  unfold Ctx.setP; split <;> rfl
@[simp] theorem Ctx.setP_rq (c : Ctx) (r : PNum) (x : LaneMask) : (c.setP r x).rq = c.rq := by
  unfold Ctx.setP; split <;> rfl
@[simp] theorem Ctx.setP_late (c : Ctx) (r : PNum) (x : LaneMask) : (c.setP r x).late = c.late := by
  unfold Ctx.setP; split <;> rfl
@[simp] theorem Ctx.setP_wait (c : Ctx) (r : PNum) (x : LaneMask) : (c.setP r x).wait = c.wait := by
  unfold Ctx.setP; split <;> rfl
@[simp] theorem Ctx.setP_cmdSeq (c : Ctx) (r : PNum) (x : LaneMask) : (c.setP r x).cmdSeq = c.cmdSeq := by
  unfold Ctx.setP; split <;> rfl
@[simp] theorem Ctx.setP_waiting (c : Ctx) (r : PNum) (x : LaneMask) : (c.setP r x).waiting = c.waiting := by
  unfold Ctx.setP; split <;> rfl
@[simp] theorem Ctx.setP_eqs (c : Ctx) (r : PNum) (x : LaneMask) : (c.setP r x).eqs = c.eqs := by
  unfold Ctx.setP; split <;> rfl
@[simp] theorem Ctx.setP_batchSeq (c : Ctx) (r : PNum) (x : LaneMask) : (c.setP r x).batchSeq = c.batchSeq := by
  unfold Ctx.setP; split <;> rfl
@[simp] theorem Ctx.setP_openB (c : Ctx) (r : PNum) (x : LaneMask) : (c.setP r x).openB = c.openB := by
  unfold Ctx.setP; split <;> rfl
@[simp] theorem Ctx.setP_closedB (c : Ctx) (r : PNum) (x : LaneMask) : (c.setP r x).closedB = c.closedB := by
  unfold Ctx.setP; split <;> rfl
@[simp] theorem Ctx.setP_failures (c : Ctx) (r : PNum) (x : LaneMask) : (c.setP r x).failures = c.failures := by
  unfold Ctx.setP; split <;> rfl
@[simp] theorem Ctx.setP_verdicts (c : Ctx) (r : PNum) (x : LaneMask) : (c.setP r x).verdicts = c.verdicts := by
  unfold Ctx.setP; split <;> rfl
@[simp] theorem Ctx.setP_denied (c : Ctx) (r : PNum) (x : LaneMask) : (c.setP r x).denied = c.denied := by
  unfold Ctx.setP; split <;> rfl
@[simp] theorem Ctx.setP_ldaOwed (c : Ctx) (r : PNum) (x : LaneMask) : (c.setP r x).ldaOwed = c.ldaOwed := by
  unfold Ctx.setP; split <;> rfl
@[simp] theorem Ctx.setP_epoch (c : Ctx) (r : PNum) (x : LaneMask) : (c.setP r x).epoch = c.epoch := by
  unfold Ctx.setP; split <;> rfl
@[simp] theorem Ctx.setP_code (c : Ctx) (r : PNum) (x : LaneMask) : (c.setP r x).code = c.code := by
  unfold Ctx.setP; split <;> rfl
@[simp] theorem Ctx.setP_fetching (c : Ctx) (r : PNum) (x : LaneMask) : (c.setP r x).fetching = c.fetching := by
  unfold Ctx.setP; split <;> rfl
@[simp] theorem Ctx.setP_barriers (c : Ctx) (r : PNum) (x : LaneMask) : (c.setP r x).barriers = c.barriers := by
  unfold Ctx.setP; split <;> rfl
@[simp] theorem Ctx.setP_lastIssue (c : Ctx) (r : PNum) (x : LaneMask) : (c.setP r x).lastIssue = c.lastIssue := by
  unfold Ctx.setP; split <;> rfl
@[simp] theorem Ctx.setP_hard (c : Ctx) (r : PNum) (x : LaneMask) : (c.setP r x).hard = c.hard := by
  unfold Ctx.setP; split <;> rfl
@[simp] theorem Ctx.setP_askedAt (c : Ctx) (r : PNum) (x : LaneMask) : (c.setP r x).askedAt = c.askedAt := by
  unfold Ctx.setP; split <;> rfl
@[simp] theorem Ctx.setP_soft (c : Ctx) (r : PNum) (x : LaneMask) : (c.setP r x).soft = c.soft := by
  unfold Ctx.setP; split <;> rfl
@[simp] theorem Ctx.setP_boundary (c : Ctx) (r : PNum) (x : LaneMask) : (c.setP r x).boundary = c.boundary := by
  unfold Ctx.setP; split <;> rfl
@[simp] theorem Ctx.setP_watch (c : Ctx) (r : PNum) (x : LaneMask) : (c.setP r x).watch = c.watch := by
  unfold Ctx.setP; split <;> rfl
@[simp] theorem Ctx.setP_began (c : Ctx) (r : PNum) (x : LaneMask) : (c.setP r x).began = c.began := by
  unfold Ctx.setP; split <;> rfl
@[simp] theorem Ctx.setP_waitedFrom (c : Ctx) (r : PNum) (x : LaneMask) : (c.setP r x).waitedFrom = c.waitedFrom := by
  unfold Ctx.setP; split <;> rfl
@[simp] theorem Ctx.setP_copies (c : Ctx) (r : PNum) (x : LaneMask) : (c.setP r x).copies = c.copies := by
  unfold Ctx.setP; split <;> rfl
@[simp] theorem Ctx.setP_saveSlot (c : Ctx) (r : PNum) (x : LaneMask) : (c.setP r x).saveSlot = c.saveSlot := by
  unfold Ctx.setP; split <;> rfl
@[simp] theorem Ctx.setV_uid (c : Ctx) (v : VNum) (x : VReg) : (c.setV v x).uid = c.uid := rfl
@[simp] theorem Ctx.setV_tile (c : Ctx) (v : VNum) (x : VReg) : (c.setV v x).tile = c.tile := rfl
@[simp] theorem Ctx.setV_slot (c : Ctx) (v : VNum) (x : VReg) : (c.setV v x).slot = c.slot := rfl
@[simp] theorem Ctx.setV_block (c : Ctx) (v : VNum) (x : VReg) : (c.setV v x).block = c.block := rfl
@[simp] theorem Ctx.setV_part (c : Ctx) (v : VNum) (x : VReg) : (c.setV v x).part = c.part := rfl
@[simp] theorem Ctx.setV_device (c : Ctx) (v : VNum) (x : VReg) : (c.setV v x).device = c.device := rfl
@[simp] theorem Ctx.setV_run (c : Ctx) (v : VNum) (x : VReg) : (c.setV v x).run = c.run := rfl
@[simp] theorem Ctx.setV_image (c : Ctx) (v : VNum) (x : VReg) : (c.setV v x).image = c.image := rfl
@[simp] theorem Ctx.setV_entry (c : Ctx) (v : VNum) (x : VReg) : (c.setV v x).entry = c.entry := rfl
@[simp] theorem Ctx.setV_regs (c : Ctx) (v : VNum) (x : VReg) : (c.setV v x).regs = c.regs := rfl
@[simp] theorem Ctx.setV_array (c : Ctx) (v : VNum) (x : VReg) : (c.setV v x).array = c.array := rfl
@[simp] theorem Ctx.setV_checked (c : Ctx) (v : VNum) (x : VReg) : (c.setV v x).checked = c.checked := rfl
@[simp] theorem Ctx.setV_det (c : Ctx) (v : VNum) (x : VReg) : (c.setV v x).det = c.det := rfl
@[simp] theorem Ctx.setV_gang (c : Ctx) (v : VNum) (x : VReg) : (c.setV v x).gang = c.gang := rfl
@[simp] theorem Ctx.setV_dlf (c : Ctx) (v : VNum) (x : VReg) : (c.setV v x).dlf = c.dlf := rfl
@[simp] theorem Ctx.setV_reserve (c : Ctx) (v : VNum) (x : VReg) : (c.setV v x).reserve = c.reserve := rfl
@[simp] theorem Ctx.setV_allocs (c : Ctx) (v : VNum) (x : VReg) : (c.setV v x).allocs = c.allocs := rfl
@[simp] theorem Ctx.setV_pc (c : Ctx) (v : VNum) (x : VReg) : (c.setV v x).pc = c.pc := rfl
@[simp] theorem Ctx.setV_sregs (c : Ctx) (v : VNum) (x : VReg) : (c.setV v x).sregs = c.sregs := rfl
@[simp] theorem Ctx.setV_preds (c : Ctx) (v : VNum) (x : VReg) : (c.setV v x).preds = c.preds := rfl
@[simp] theorem Ctx.setV_quires (c : Ctx) (v : VNum) (x : VReg) : (c.setV v x).quires = c.quires := rfl
@[simp] theorem Ctx.setV_accs (c : Ctx) (v : VNum) (x : VReg) : (c.setV v x).accs = c.accs := rfl
@[simp] theorem Ctx.setV_stage0 (c : Ctx) (v : VNum) (x : VReg) : (c.setV v x).stage0 = c.stage0 := rfl
@[simp] theorem Ctx.setV_stage1 (c : Ctx) (v : VNum) (x : VReg) : (c.setV v x).stage1 = c.stage1 := rfl
@[simp] theorem Ctx.setV_weights (c : Ctx) (v : VNum) (x : VReg) : (c.setV v x).weights = c.weights := rfl
@[simp] theorem Ctx.setV_sys (c : Ctx) (v : VNum) (x : VReg) : (c.setV v x).sys = c.sys := rfl
@[simp] theorem Ctx.setV_latches (c : Ctx) (v : VNum) (x : VReg) : (c.setV v x).latches = c.latches := rfl
@[simp] theorem Ctx.setV_loops (c : Ctx) (v : VNum) (x : VReg) : (c.setV v x).loops = c.loops := rfl
@[simp] theorem Ctx.setV_rep (c : Ctx) (v : VNum) (x : VReg) : (c.setV v x).rep = c.rep := rfl
@[simp] theorem Ctx.setV_clk (c : Ctx) (v : VNum) (x : VReg) : (c.setV v x).clk = c.clk := rfl
@[simp] theorem Ctx.setV_earliest (c : Ctx) (v : VNum) (x : VReg) : (c.setV v x).earliest = c.earliest := rfl
@[simp] theorem Ctx.setV_modBase (c : Ctx) (v : VNum) (x : VReg) : (c.setV v x).modBase = c.modBase := rfl
@[simp] theorem Ctx.setV_rate (c : Ctx) (v : VNum) (x : VReg) : (c.setV v x).rate = c.rate := rfl
@[simp] theorem Ctx.setV_seq (c : Ctx) (v : VNum) (x : VReg) : (c.setV v x).seq = c.seq := rfl
@[simp] theorem Ctx.setV_bundle (c : Ctx) (v : VNum) (x : VReg) : (c.setV v x).bundle = c.bundle := rfl
@[simp] theorem Ctx.setV_floor (c : Ctx) (v : VNum) (x : VReg) : (c.setV v x).floor = c.floor := rfl
@[simp] theorem Ctx.setV_parked (c : Ctx) (v : VNum) (x : VReg) : (c.setV v x).parked = c.parked := rfl
@[simp] theorem Ctx.setV_delay (c : Ctx) (v : VNum) (x : VReg) : (c.setV v x).delay = c.delay := rfl
@[simp] theorem Ctx.setV_flight (c : Ctx) (v : VNum) (x : VReg) : (c.setV v x).flight = c.flight := rfl
@[simp] theorem Ctx.setV_accesses (c : Ctx) (v : VNum) (x : VReg) : (c.setV v x).accesses = c.accesses := rfl
@[simp] theorem Ctx.setV_rq (c : Ctx) (v : VNum) (x : VReg) : (c.setV v x).rq = c.rq := rfl
@[simp] theorem Ctx.setV_late (c : Ctx) (v : VNum) (x : VReg) : (c.setV v x).late = c.late := rfl
@[simp] theorem Ctx.setV_wait (c : Ctx) (v : VNum) (x : VReg) : (c.setV v x).wait = c.wait := rfl
@[simp] theorem Ctx.setV_cmdSeq (c : Ctx) (v : VNum) (x : VReg) : (c.setV v x).cmdSeq = c.cmdSeq := rfl
@[simp] theorem Ctx.setV_waiting (c : Ctx) (v : VNum) (x : VReg) : (c.setV v x).waiting = c.waiting := rfl
@[simp] theorem Ctx.setV_eqs (c : Ctx) (v : VNum) (x : VReg) : (c.setV v x).eqs = c.eqs := rfl
@[simp] theorem Ctx.setV_batchSeq (c : Ctx) (v : VNum) (x : VReg) : (c.setV v x).batchSeq = c.batchSeq := rfl
@[simp] theorem Ctx.setV_openB (c : Ctx) (v : VNum) (x : VReg) : (c.setV v x).openB = c.openB := rfl
@[simp] theorem Ctx.setV_closedB (c : Ctx) (v : VNum) (x : VReg) : (c.setV v x).closedB = c.closedB := rfl
@[simp] theorem Ctx.setV_failures (c : Ctx) (v : VNum) (x : VReg) : (c.setV v x).failures = c.failures := rfl
@[simp] theorem Ctx.setV_verdicts (c : Ctx) (v : VNum) (x : VReg) : (c.setV v x).verdicts = c.verdicts := rfl
@[simp] theorem Ctx.setV_denied (c : Ctx) (v : VNum) (x : VReg) : (c.setV v x).denied = c.denied := rfl
@[simp] theorem Ctx.setV_ldaOwed (c : Ctx) (v : VNum) (x : VReg) : (c.setV v x).ldaOwed = c.ldaOwed := rfl
@[simp] theorem Ctx.setV_epoch (c : Ctx) (v : VNum) (x : VReg) : (c.setV v x).epoch = c.epoch := rfl
@[simp] theorem Ctx.setV_code (c : Ctx) (v : VNum) (x : VReg) : (c.setV v x).code = c.code := rfl
@[simp] theorem Ctx.setV_fetching (c : Ctx) (v : VNum) (x : VReg) : (c.setV v x).fetching = c.fetching := rfl
@[simp] theorem Ctx.setV_barriers (c : Ctx) (v : VNum) (x : VReg) : (c.setV v x).barriers = c.barriers := rfl
@[simp] theorem Ctx.setV_lastIssue (c : Ctx) (v : VNum) (x : VReg) : (c.setV v x).lastIssue = c.lastIssue := rfl
@[simp] theorem Ctx.setV_hard (c : Ctx) (v : VNum) (x : VReg) : (c.setV v x).hard = c.hard := rfl
@[simp] theorem Ctx.setV_askedAt (c : Ctx) (v : VNum) (x : VReg) : (c.setV v x).askedAt = c.askedAt := rfl
@[simp] theorem Ctx.setV_soft (c : Ctx) (v : VNum) (x : VReg) : (c.setV v x).soft = c.soft := rfl
@[simp] theorem Ctx.setV_boundary (c : Ctx) (v : VNum) (x : VReg) : (c.setV v x).boundary = c.boundary := rfl
@[simp] theorem Ctx.setV_watch (c : Ctx) (v : VNum) (x : VReg) : (c.setV v x).watch = c.watch := rfl
@[simp] theorem Ctx.setV_began (c : Ctx) (v : VNum) (x : VReg) : (c.setV v x).began = c.began := rfl
@[simp] theorem Ctx.setV_waitedFrom (c : Ctx) (v : VNum) (x : VReg) : (c.setV v x).waitedFrom = c.waitedFrom := rfl
@[simp] theorem Ctx.setV_copies (c : Ctx) (v : VNum) (x : VReg) : (c.setV v x).copies = c.copies := rfl
@[simp] theorem Ctx.setV_saveSlot (c : Ctx) (v : VNum) (x : VReg) : (c.setV v x).saveSlot = c.saveSlot := rfl

/-! ## Results only -/

/-- d is c with other results in flight: what a syllable that only writes registers does to its context (R124). -/
def Ctx.OnlyResults (c d : Ctx) : Prop := d = { c with flight := d.flight, seq := d.seq }

theorem Ctx.OnlyResults.refl (c : Ctx) : c.OnlyResults c := rfl

theorem Ctx.OnlyResults.trans {c d e : Ctx} (h : c.OnlyResults d) (k : d.OnlyResults e) : c.OnlyResults e := by
  unfold Ctx.OnlyResults at *
  rw [k, h]

theorem Ctx.push_onlyResults (c : Ctx) (lat : Nat) (w : Landing) : c.OnlyResults (c.push lat w) := rfl

theorem Ctx.pushAt_onlyResults (c : Ctx) (land seq : Nat) (w : Landing) : c.OnlyResults (c.pushAt land seq w) := rfl

theorem Ctx.pushS_onlyResults (c : Ctx) (r : SRegNo) (x : Word) (p : Bool) (lat : Nat) : c.OnlyResults (c.pushS r x p lat) := by
  unfold Ctx.pushS; split <;> rfl

theorem Ctx.pushD_onlyResults (c : Ctx) (d : DNum) (x : DWord) (p : Bool) (lat : Nat) : c.OnlyResults (c.pushD d x p lat) :=
  (c.pushS_onlyResults _ _ _ _).trans (Ctx.pushS_onlyResults _ _ _ _ _)

theorem Ctx.pushP_onlyResults (c : Ctx) (p : PNum) (m x : LaneMask) (lat : Nat) : c.OnlyResults (c.pushP p m x lat) := by
  unfold Ctx.pushP; split <;> rfl

theorem Ctx.pushV_onlyResults (c : Ctx) (v : VNum) (g : BitVec 8) (m : LaneMask) (b : VBits) (p : LaneMask) (lat : Nat) :
    c.OnlyResults (c.pushV v g m b p lat) := by
  unfold Ctx.pushV; split <;> rfl

theorem Ctx.pushJF_onlyResults (c : Ctx) (j : DWord) (lat : Nat) : c.OnlyResults (c.pushJF j lat) := by
  unfold Ctx.pushJF; split <;> rfl

theorem Ctx.pushQ_onlyResults (c : Ctx) (l : List (Nat × QuireOp)) (lat : Nat) : c.OnlyResults (c.pushQ l lat) := by
  unfold Ctx.pushQ; split <;> rfl

theorem Ctx.pushA_onlyResults (c : Ctx) (l : List (Nat × QuireOp)) (lat : Nat) : c.OnlyResults (c.pushA l lat) := by
  unfold Ctx.pushA; split <;> rfl

/-- A chain of results is results only. -/
theorem Ctx.foldl_onlyResults {α : Type} (f : Ctx → α → Ctx) (h : ∀ (c : Ctx) (a : α), c.OnlyResults (f c a)) (l : List α) (c : Ctx) :
    c.OnlyResults (l.foldl f c) := by
  induction l generalizing c with
  | nil => exact .refl c
  | cons a l ih => exact (h c a).trans (ih (f c a))

/-- What a result-only change leaves: every field but the results and their numbers. -/
theorem Ctx.OnlyResults.fields {c d : Ctx} (h : c.OnlyResults d) :
    d.sregs = c.sregs ∧ d.preds = c.preds ∧ d.vregs = c.vregs ∧ d.quires = c.quires ∧ d.accs = c.accs ∧
    d.stage0 = c.stage0 ∧ d.stage1 = c.stage1 ∧ d.weights = c.weights ∧ d.sys = c.sys ∧ d.pc = c.pc ∧
    d.loops = c.loops ∧ d.rep = c.rep ∧ d.rq = c.rq ∧ d.accesses = c.accesses ∧ d.clk = c.clk ∧ d.uid = c.uid ∧
    d.tile = c.tile ∧ d.slot = c.slot ∧ d.allocs = c.allocs ∧ d.run = c.run ∧ d.waiting = c.waiting ∧ d.eqs = c.eqs := by
  unfold Ctx.OnlyResults at h
  rw [h]
  simp

end Sys2Proof.Machine
end

