-- ==== Sys2Proof/Certificates/Slice0/Obligations.lean ====
section
/-!
DEFINITION. The statements about the model, for the provers. First the few predicates they share, then one definition for
each statement.
-/
open Sys2Proof Sys2Proof.Machine

namespace Sys2Proof.Certificates

/-- A syllable issues with its effect: it raises no fault (R140), own being the checks of its own rule, and it acts: its
guard holds for it, and it names a lane group (R230, R277). A bundle whose faults have been judged raises none. -/
def Issues (s : State) (i : Instr) (own : List Trap) : Prop :=
  (s.issue.passed = true ∨ s.faults i own = []) ∧ s.acts i = true

/-- No reply of an LDA holds an access back (R178). -/
def Unheld (s : State) : Prop := s.issue.passed = true ∨ s.acquiring = false

/-- The operations that are syllables of a tile; the others are those of a control core and of the module. -/
def isSyllable (i : Instr) : Bool := (headOf i).isSome

/-- s with the context in view replaced. -/
abbrev withCtx (s : State) (c : Ctx) : State := s.withCur c

/-- What a syllable that forms vector registers does: regs registers from vd on are written in the active lanes, lat cycles
later, word giving what lane l of register r receives and poison its poisoned lanes; JF takes the bits jf; the hold latches may change
(R124, R129, R280). -/
def WritesLanes (s t : State) (i : Instr) (h : Head) (vd : VNum) (regs lat : Nat) (jf : DWord) (poison : Nat → LaneMask)
    (word : Nat → Nat → Word) : Prop :=
  ∃ (bits : Nat → VBits) (latches : List (Nat × Latch)),
    (∀ r l, r < regs → l < 128 → (s.activeLanes i h).getLsbD l = true → laneWord (bits r) l = word r l) ∧
    t = s.withCur { (((List.range regs).foldl (fun c r =>
      c.pushV (vd + BitVec.ofNat 6 r) (s.groups i) (s.activeLanes i h) (bits r) (poison r) lat) s.cur).pushJF jf lat) with
      latches := latches }

/-- The JF bits of results Q of coefficient r, lane l and element j: NAR, SAT and INX of a coefficient where an element of an active
lane raises them, and PSN of every coefficient where a lane is written poisoned (R221, R281). -/
def FlagsOf (jf : DWord) (psn : Bool) (lanes : LaneMask) (regs elems : Nat) (Q : Nat → Nat → Nat → Rounded) : Prop :=
  ∀ b, b < 64 → (jf.getLsbD b = true ↔ ∃ r, r < regs ∧ (b = 4 * r + 3 ∧ psn = true ∨ ∃ l j, l < 128 ∧ lanes.getLsbD l = true ∧
    j < elems ∧ (b = 4 * r ∧ (Q r l j).nar = true ∨ b = 4 * r + 1 ∧ (Q r l j).sat = true ∨ b = 4 * r + 2 ∧ (Q r l j).inx = true)))

/-- The active lanes that a poisoned source lane poisons (R280). -/
def poisonedLanes (s : State) (i : Instr) (h : Head) : LaneMask := s.activeLanes i h &&& poisonOf (s.sources i)

/-- Lane l of coefficient r of source a of a vector syllable, as a number: zero value bits where it is poisoned (R217, R280). -/
def source (s : State) (i : Instr) (a r l : Nat) : Word := (((s.sources i).getD a []).map (fun x => x.lane l)).getD r 0

/-- The pattern of element j of that lane, for elements of w bits (R201). -/
def pattern (s : State) (i : Instr) (a w r l j : Nat) : Nat := (source s i a r l).toNat / 2 ^ (w * j) % 2 ^ w

/-- The values of element j of a source, coefficient by coefficient (R202, R217). -/
def values (s : State) (i : Instr) (a : Nat) (fmt : Fmt) (l j : Nat) : List Fx :=
  ((s.sources i).getD a []).map (fun x => decodePat (elemOf (x.lane l).toNat (fmtWidth fmt) j) (fmtWidth fmt) (fmtEs fmt))

/-- Coefficient r of a list of values that are all numbers, in units of 2^-120. -/
def number (v : List Fx) (r : Nat) : Int := (v.getD r none).getD 0

/-- A lane packed from its element patterns, element 0 lowest (R201). -/
def packed (w : Nat) (pats : List Nat) : Word := BitVec.ofNat 32 (laneOf w pats)

/-- A rounding elementwise syllable: WritesLanes with the elements Q and their flags (R278, R280, R281). -/
def WritesElements (s t : State) (i : Instr) (h : Head) (vd : VNum) (fmt : Fmt) (regs lat : Nat) (Q : Nat → Nat → Nat → Rounded) : Prop :=
  ∃ jf, FlagsOf jf (poisonedLanes s i h != 0) (s.activeLanes i h) regs (fmtElems fmt) Q ∧
    WritesLanes s t i h vd regs lat jf (fun _ => poisonedLanes s i h)
      (fun r l => packed (fmtWidth fmt) ((List.range (fmtElems fmt)).map (fun j => (Q r l j).pat)))

/-- The conditions of R233. -/
def condition (cond : Cond) (a b : Word) : Bool :=
  match cond.toNat with
  | 0 => a == b | 1 => a != b | 2 => a.slt b | 3 => !a.slt b | 4 => !b.slt a | 5 => b.slt a
  | 6 => a.ult b | 7 => !a.ult b | 8 => !b.ult a | 9 => b.ult a | _ => false

/-- The state after own-cluster accesses of one syllable are issued: each has its bank cycle, so many cycles before I + 4, and its effect is
still to come (R155, R156). -/
def accessed (s : State) (site : Site) (acts : List (Nat × Act)) (acquire strong : Bool) : State :=
  s.withCur (acts.foldl (fun (c : Ctx) g => { c with
    accesses := insertAccess { cycle := s.cur.clk + 4 - g.1, seq := c.seq, bundle := s.cur.bundle, site := site, act := g.2,
                               shadow := [], skip := [], done := false, stamp := none, acquire := acquire, strong := strong,
                               handler := s.cur.parked.isSome } c.accesses
    seq := c.seq + 1 }) s.cur)

/-- Things with runs of bytes, parted into the bank cycles of a location: the last cycle, or up to three before it in space 1 (R156). -/
def PartedInto {α : Type} (gs : List (Nat × List α)) (l : Loc) (xs : List α) : Prop :=
  (gs.map (·.2)).flatten.Perm xs ∧ (∀ g ∈ gs, g.1 ≤ 3 ∧ g.2 ≠ []) ∧ (l.space ≠ 1 → gs = [(0, xs)])

/-- The requests after a syllable has sent some: an earlier write of its bundle loses the bytes that they write (R172). -/
def sentAfter (s : State) (rs : List Request) : List Request :=
  let all := s.requests ++ rs
  all.map (fun r => if r.id < s.nextReq ∧ r.uid = s.cur.uid ∧ r.engine = none ∧ r.bundle = s.cur.bundle then
    { r with ask := r.ask.without ((all.filter (fun x => decide (s.nextReq ≤ x.id) && x.target == r.target)).map (fun x => x.ask.writes)).flatten }
    else r)

end Sys2Proof.Certificates

open Sys2Proof.Certificates

/-! ## Scalar syllables -/

/-- R252, R253. The register forms: each result is the function of the two scalars that the rule names, lands after the
latency of R251, and is poisoned when a source is.
R254 to R257. The unary, immediate, bit-field and select forms. The immediate of ADDI, ANDI, ORI, XORI and LI is that of
an EXT prefix where there is one, and else its 24 bits sign-extended. -/
def Obligations.ScalarForms : Prop :=
  (∀ (s : State) (h : Head) (rd ra rb : SRegNo),
    let a := s.cur.s ra
    let b := s.cur.s rb
    let gives (i : Instr) (lat : Nat) (v : Word) : Prop := Issues s i [] →
      exec i s = .next (s.withCur (s.cur.pushS rd v (s.cur.sp ra || s.cur.sp rb) lat))
    gives (.add h rd ra rb) 1 (a + b) ∧ gives (.sub h rd ra rb) 1 (a - b) ∧ gives (.mul h rd ra rb) 3 (a * b) ∧
    gives (.mulh h rd ra rb) 3 ((a.signExtend 64 * b.signExtend 64).extractLsb' 32 32) ∧
    gives (.mulhu h rd ra rb) 3 ((a.zeroExtend 64 * b.zeroExtend 64).extractLsb' 32 32) ∧
    gives (.div h rd ra rb) 18 (if b = 0 then 0xFFFF_FFFF else a.sdiv b) ∧
    gives (.divu h rd ra rb) 18 (if b = 0 then 0xFFFF_FFFF else a.udiv b) ∧
    gives (.rem h rd ra rb) 18 (if b = 0 then a else a.srem b) ∧
    gives (.remu h rd ra rb) 18 (if b = 0 then a else a.umod b) ∧
    gives (.and h rd ra rb) 1 (a &&& b) ∧ gives (.or h rd ra rb) 1 (a ||| b) ∧ gives (.xor h rd ra rb) 1 (a ^^^ b) ∧
    gives (.andn h rd ra rb) 1 (a &&& ~~~b) ∧
    gives (.shl h rd ra rb) 1 (a <<< (b &&& 31)) ∧ gives (.shr h rd ra rb) 1 (a >>> (b &&& 31)) ∧
    gives (.sar h rd ra rb) 1 (a.sshiftRight' (b &&& 31)) ∧ gives (.rot h rd ra rb) 1 (a.rotateLeft (b &&& 31).toNat) ∧
    gives (.min h rd ra rb) 1 (if b.slt a then b else a) ∧ gives (.max h rd ra rb) 1 (if a.slt b then b else a) ∧
    gives (.minu h rd ra rb) 1 (if b.ult a then b else a) ∧ gives (.maxu h rd ra rb) 1 (if a.ult b then b else a)) ∧
  (∀ (s : State) (h : Head) (rd ra rb : SRegNo) (imm : BitVec 24) (pos len : BitVec 5) (ps : PNum),
    let a := s.cur.s ra
    let x : Word := match s.issue.ext with | some w => w | none => imm.signExtend 32
    let gives (i : Instr) (v : Word) (p : Bool) : Prop := Issues s i [] → exec i s = .next (s.withCur (s.cur.pushS rd v p 1))
    (∀ n : Nat, n ≤ 32 → a.toNat < 2 ^ (32 - n) → (n < 32 → 2 ^ (31 - n) ≤ a.toNat) → gives (.clz h rd ra) (BitVec.ofNat 32 n) (s.cur.sp ra)) ∧
    (∀ n : Nat, n ≤ 32 → a.toNat % 2 ^ n = 0 → (n < 32 → a.getLsbD n = true) → gives (.ctz h rd ra) (BitVec.ofNat 32 n) (s.cur.sp ra)) ∧
    gives (.popc h rd ra) (BitVec.ofNat 32 ((List.range 32).countP (fun k => a.getLsbD k))) (s.cur.sp ra) ∧
    gives (.mov h rd ra) a (s.cur.sp ra) ∧ gives (.addi h rd ra imm) (a + x) (s.cur.sp ra) ∧
    gives (.andi h rd ra imm) (a &&& x) (s.cur.sp ra) ∧ gives (.ori h rd ra imm) (a ||| x) (s.cur.sp ra) ∧
    gives (.xori h rd ra imm) (a ^^^ x) (s.cur.sp ra) ∧ gives (.shli h rd ra imm) (a <<< imm.toNat) (s.cur.sp ra) ∧
    gives (.shri h rd ra imm) (a >>> imm.toNat) (s.cur.sp ra) ∧ gives (.sari h rd ra imm) (a.sshiftRight imm.toNat) (s.cur.sp ra) ∧
    gives (.li h rd imm) x false ∧
    gives (.lih h rd imm) (imm.extractLsb' 0 16 ++ (s.cur.s rd).extractLsb' 0 16) (s.cur.sp rd) ∧
    gives (.bext h rd ra pos len) (BitVec.ofNat 32 (a.toNat / 2 ^ pos.toNat % 2 ^ (len.toNat + 1))) (s.cur.sp ra) ∧
    (∀ v : Word, (∀ k, k < 32 → v.getLsbD k = if pos.toNat ≤ k ∧ k < pos.toNat + len.toNat + 1 then a.getLsbD (k - pos.toNat)
        else (s.cur.s rd).getLsbD k) → gives (.bins h rd ra pos len) v (s.cur.sp rd || s.cur.sp ra)) ∧
    gives (.sel h rd ra rb ps) (if (s.cur.p ps).getLsbD 0 then a else s.cur.s rb) (s.cur.sp ra || s.cur.sp rb))

/-- R258, R259. Pair arithmetic modulo 2^64 and the fields of tagged pointers, with latency 2; a result is poisoned when any
half of a source is. FLD 7 never issues (R259). -/
def Obligations.PairForms : Prop :=
  ∀ (s : State) (h : Head) (dd da db : DNum) (rb : SRegNo) (imm : BitVec 24) (fld : BitVec 3),
    let a := s.cur.d da
    let b := s.cur.d db
    let x : Word := match s.issue.ext with | some w => w | none => imm.signExtend 32
    let field : Nat × Nat := ([(60, 4), (53, 7), (48, 5), (45, 3), (44, 1), (57, 3), (52, 8)] : List (Nat × Nat)).getD fld.toNat (0, 0)
    let gives (i : Instr) (v : DWord) (p : Bool) : Prop := Issues s i [] → exec i s = .next (s.withCur (s.cur.pushD dd v p 2))
    gives (.addd h dd da db) (a + b) (s.cur.dp da || s.cur.dp db) ∧
    gives (.subd h dd da db) (a - b) (s.cur.dp da || s.cur.dp db) ∧
    gives (.adddi h dd da imm) (a + x.signExtend 64) (s.cur.dp da) ∧
    gives (.shld h dd da rb) (a <<< ((s.cur.s rb).toNat % 64)) (s.cur.dp da || s.cur.sp rb) ∧
    (∀ v : DWord, (∀ k, k < 64 → v.getLsbD k = if field.1 ≤ k ∧ k < field.1 + field.2 then (s.cur.s rb).getLsbD (k - field.1)
        else a.getLsbD k) → gives (.tagd h dd da rb fld) v (s.cur.dp da || s.cur.sp rb)) ∧
    (Issues s (.tagx h da rb fld) [] → exec (.tagx h da rb fld) s = .next (s.withCur (s.cur.pushS rb
      (BitVec.ofNat 32 (a.toNat / 2 ^ field.1 % 2 ^ field.2)) (s.cur.dp da) 2)))

/-- R257. CMP and CMPI write every lane of their predicate with the condition of R233, and raise POISON_CONSUMED, leaving
TINFO as it is, when they read a poisoned scalar.
R260, R261. Predicate syllables in every lane, with latency 1; PPACK and PUNPK with latency 2 in the lanes whose guard
holds. -/
def Obligations.ComparesAndPredicateForms : Prop :=
  (∀ (s : State) (h : Head) (pd : PNum) (ra rb : SRegNo) (cond : Cond) (imm : BitVec 24),
    let x : Word := match s.issue.ext with | some w => w | none => imm.signExtend 32
    let lanes (v : Bool) : State := s.withCur (s.cur.pushP pd (BitVec.allOnes 128) (if v then BitVec.allOnes 128 else 0) 1)
    (Issues s (.cmp h pd ra rb cond) [] → s.cur.sp ra = false → s.cur.sp rb = false →
      exec (.cmp h pd ra rb cond) s = .next (lanes (condition cond (s.cur.s ra) (s.cur.s rb)))) ∧
    (Issues s (.cmpi h pd ra cond imm) [] → s.cur.sp ra = false →
      exec (.cmpi h pd ra cond imm) s = .next (lanes (condition cond (s.cur.s ra) x))) ∧
    (∀ i, (i = .cmp h pd ra rb cond ∧ (s.cur.sp ra || s.cur.sp rb) = true ∨ i = .cmpi h pd ra cond imm ∧ s.cur.sp ra = true) →
      s.issue.passed = false → Issues s i [] →
      ∃ t : Trap, t.cause = .poisonConsumed ∧ exec i s = .next (s.takeTrap 0 t))) ∧
  (∀ (s : State) (h : Head) (pd pa pb : PNum) (rd : SRegNo) (lgm : Lgm) (v : VNum),
    let a := s.cur.p pa
    let b := s.cur.p pb
    let every (x : Bool) : LaneMask := if x then BitVec.allOnes 128 else 0
    let gives (i : Instr) (m : LaneMask) : Prop := Issues s i [] → exec i s = .next (s.withCur (s.cur.pushP pd (BitVec.allOnes 128) m 1))
    gives (.pand h pd pa pb) (a &&& b) ∧ gives (.por h pd pa pb) (a ||| b) ∧ gives (.pxor h pd pa pb) (a ^^^ b) ∧
    gives (.pnot h pd pa) (~~~a) ∧ gives (.pmov h pd pa) a ∧ gives (.pany h pd pa) (every (a != 0)) ∧
    gives (.pall h pd pa) (every (a == BitVec.allOnes 128)) ∧
    (∀ m : LaneMask, (∀ l, l < 128 → m.getLsbD l = (if lgm = 0 then s.issue.lgdef else lgm).getLsbD (l / 16)) → gives (.pset h pd lgm) m) ∧
    (Issues s (.pcnt h rd pa) [] → exec (.pcnt h rd pa) s =
      .next (s.withCur (s.cur.pushS rd (BitVec.ofNat 32 ((List.range 128).countP (fun l => a.getLsbD l))) false 1))) ∧
    (Issues s (.ppack h v) [] → ∃ bits : VBits, exec (.ppack h v) s = .next (s.withCur (s.cur.pushV v 0xFF (s.cur.guardLanes h) bits 0 2)) ∧
      ∀ l, l < 128 → (s.cur.guardLanes h).getLsbD l = true → ∀ k, k < 32 →
        (laneWord bits l).getLsbD k = (decide (k < 8) && (s.cur.p (BitVec.ofNat 3 k)).getLsbD l)) ∧
    (Issues s (.punpk h v) [] → (s.cur.v v).poison &&& s.cur.guardLanes h = 0 → ∃ f : Nat → LaneMask,
      exec (.punpk h v) s = .next (s.withCur (if s.cur.guardLanes h = 0 then s.cur else (List.range 7).foldl (fun c n =>
        c.pushP (BitVec.ofNat 3 (n + 1)) (s.cur.guardLanes h) (f (n + 1)) 2) s.cur)) ∧
      ∀ n l, n < 7 → l < 128 → (s.cur.guardLanes h).getLsbD l = true →
        (f (n + 1)).getLsbD l = (laneWord (s.cur.v v).bits l).getLsbD (n + 1)))

/-- R124, R251. A scalar result is readable from its land cycle on and not before, whatever else is in flight in order; s0
keeps reading as zero, and no other scalar takes the result. -/
def Obligations.ScalarResultLands : Prop :=
  ∀ (s : State) (r q : SRegNo) (v : Word) (p : Bool) (lat : Nat), 0 < lat →
    List.Pairwise (fun f g => g.before f = false) s.cur.flight → (∀ f ∈ s.cur.flight, f.seq < s.cur.seq) →
    let t := s.withCur (s.cur.pushS r v p lat)
    ((t.landTo (s.cur.clk + lat)).cur.sreg r = if r = 0 then SReg.zero else { value := v, poison := p }) ∧
    (∀ n, n < s.cur.clk + lat → (t.landTo n).cur.sreg q = (s.landTo n).cur.sreg q) ∧
    (q ≠ r → (t.landTo (s.cur.clk + lat)).cur.sreg q = (s.landTo (s.cur.clk + lat)).cur.sreg q)

/-! ## Encoding -/

/-- R228, R234. Every well-formed syllable, with every operand at every value that its fields admit, is what its own word
decodes to. -/
def Obligations.DecodeOfEncodeIsTheSyllable : Prop :=
  ∀ i : Instr, isSyllable i = true → i.wf = true →
    decode (encode i) = .ok i ∧ decodeTableWord 64 (encode i).toNat = some i

/-- Words that the manual itself writes out, and the syllables that it says they are. -/
def Obligations.WordsOfTheManualDecode : Prop :=
  let h (last : Bool) (p : PNum) : Head := { last := last, stall := 0, old := false, pred := p, psns := false }
  decodeTableWord 64 0x8020_0293_FFFF_D000 = some (.addi (h true 0) 5 4 (-12)) ∧
  decodeTableWord 64 0x8020_0B58_0000_0400 = some (.addi (h true 0) 22 22 1) ∧
  decodeTableWord 64 0x9008_0000_0A00_0004 = some (.loop (h true 0) 10 4) ∧
  decodeTableWord 64 0x900A_2000_0000_0000 = some (.lbrk (h true 1)) ∧
  decodeTableWord 64 0x9212_0000_0000_0000 = some (.eret { h true 0 with stall := 1 }) ∧
  decodeTableWord 64 0xB002_0001_0000_0040 = some (.macc (h true 0) 1 1) ∧
  decodeTableWord 64 0xA024_0015_2061_CC00 = some (.vmred (h true 0) 1 5 8 6 7 12) ∧
  decodeTableWord 64 0xA024_0FF5_00B3_1A00 = some (.vmred (h true 0) 0xFF 5 0 11 12 26) ∧
  decodeTableWord 64 0xD000_0001_151C_0000 = some (.cpy (h true 0) 0 4 5 4 14)

/-! ## A step -/

/-- R123, R126. When the words at the program counter are one syllable, the bundle raises no fault and holds no wait, and
its issue cycle has come, a step runs exec of that syllable (SYSC and TRAP bring their trap, and a prefix never stands
alone); around it the step moves on to the next bundle, or to the target of the transfer taken, and charges the cycles to
the device (R92). The translation of the fetch is kept (R162). The bundle is tried first (R140): t0 is what that trial
answers, t what the syllable does. That a step is one bundle of one agent is the model's choice (log entry 9). -/
def Obligations.StepRunsTheSyllableAtThePc : Prop :=
  ∀ (s t0 t : State) (w : DWord) (i : Instr), s.sched = [] → s.firefly.power = .on → s.issuerOf s.cur.tile = some s.cur →
    s.stopDue = false → s.yieldDue = false → s.cur.wait = none → s.cur.delay = none →
    let e0 := s.advance s.cur.earliestCycle
    let e := e0.keepCode 1
    let p := e.advance e.cur.clk
    let is := instrsOf (stepped p.cur (joOf p.cur.sys.jo) [w])
    let n := (p.openBanks (joOf p.cur.sys.jo) (p.cur.sys.lgdef.setWidth 8) is e.cur.clk).advance e.cur.clk
    let go := (n.withCur { n.cur with delay := none, wait := n.cur.wait.map (fun x => { x with
      since := n.cur.clk, jo := joOf p.cur.sys.jo, lgdef := p.cur.sys.lgdef.setWidth 8 }) }).openBundle
        (joOf p.cur.sys.jo) (p.cur.sys.lgdef.setWidth 8) 1
    let y := go.atSyl none { pos := 0, word := w, instr := i }
    let q := { y with issue := { y.issue with passed := true } }
    e0.fetch e0.cur.pc = .ok [w] → e.cur.delay = none → e.cur.stallOf [w] = 0 →
    p.delays (joOf p.cur.sys.jo) (p.cur.sys.lgdef.setWidth 8) is = 0 →
    n.cur.late = [] → n.cur.rep = none → bundleFlaws (p.cur.sys.lgdef.setWidth 8) [w] = [] → decodeLoose w = some i →
    (match i with | .trap .. | .sysc .. | .rep .. | .ext .. => False | _ => True) →
    exec i y = .next t0 → t0.issue.trapped = none → t0.issue.stalled = false →
    go.floored (joOf p.cur.sys.jo) (p.cur.sys.lgdef.setWidth 8) [i] = false → exec i q = .next t →
      step s = .next (t.closeBundle.chargeSince s.cur)

/-- An event that the schedule names happens: exec of it, with the turn taken off the schedule. While the module does not
run, only the events of Firefly, of its monitors and of the host happen; the turns of all other agents pass (R24, R25).
R77. A control core that is online and has no interrupt to take, and whose pc lies on DLAUNCH or DEVQ in this module, runs it, and
every other word of 32 bits as one of RV64GCH. R77. A control core's decoder reads
exactly the words of DLAUNCH and DEVQ: custom-0, funct3 0 and 1, with funct7 and rs2 zero. That one agent moves at a time,
in the order of the schedule, is the model's choice (log entry 9); what the manual does not say of a core is RISC-V's (log
entry 3). -/
def Obligations.StepRunsEventsAndControlCores : Prop :=
  (∀ (s : State) (l : List Turn),
    (∀ i, isEvent i = true → s.sched = .event i :: l →
      (s.firefly.power = .on ∨ actsHalted i = true → step s = exec i { s with sched := l }) ∧
      (s.firefly.power ≠ .on → actsHalted i = false → step s = .next { s with sched := l })) ∧
    (s.firefly.power ≠ .on → ∀ x, (s.sched = .tile x :: l ∨ s.sched = .core x :: l) → step s = .next { s with sched := l })) ∧
  (∀ (s : State) (w p : Nat) (l : List Turn), s.sched = .core w :: l → s.firefly.power = .on →
    let s1 := { s with sched := l, hart := w }
    let x := BitVec.ofNat 32 (Memory.readNat s.mem p 4)
    s1.core.online = true → s1.coreAwaits = false →
    (∀ lv k, s1.interruptDue w = some (lv, k) → step s = .next (s1.mapCore w (fun c => c.enter lv true k 0 false))) ∧
    (s1.interruptDue w = none → s1.core.pc.toNat % 4096 ≠ 4094 → s1.fetchView.coreAddr s1.core.pc false = some p →
      (∀ i, decodeRv x = .ok i → step s = exec i s1) ∧
      (x.extractLsb' 0 2 = 3 → (∀ i, decodeRv x ≠ .ok i) → step s = .next (s1.rvWord x)))) ∧
  (∀ w : BitVec 32, ∀ i : Instr, decodeRv w = .ok i ↔
    w.extractLsb' 0 7 = 0b0001011 ∧ w.extractLsb' 25 7 = 0 ∧ w.extractLsb' 20 5 = 0 ∧
      (w.extractLsb' 12 3 = 0 ∧ i = .dlaunch (w.extractLsb' 7 5) (w.extractLsb' 15 5) ∨
       w.extractLsb' 12 3 = 1 ∧ i = .devq (w.extractLsb' 7 5) (w.extractLsb' 15 5)))

/-! ## Guards, faults and traps -/

/-- R230, R277. A syllable that raises no fault and whose guard fails, in every lane where it is taken lane by lane, has no effect. -/
def Obligations.FailedGuardHasNoEffect : Prop :=
  ∀ (s : State) (i : Instr), isSyllable i = true → (s.issue.passed = true ∨ s.faults i [] = []) → s.acts i = false →
    exec i s = .next s

/-- R114, R142. Trap entry before the bundle at the program counter: TCLK stops, every access under way keeps the module
cycle of its bank cycle, the bundle's address and the delay that it has still to serve are kept, TPC, TCAUSE and TINFO are
written, results in flight are parked as the pending-write set, the latches are empty, HMODE is set and the program
counter is TVEC, in the third module cycle on. The loop stack stays. TINFO of POISON_CONSUMED is the address kept when the
register was poisoned (R166). R110, R114, R142. A trap without a handler, or in handler mode, ends the task, after what it
has issued has performed: with nothing under way memory stays. Its launch counts one more task ended on a trap, and keeps
the first one's task index and cause. That bank cycles pass while TCLK stands still is the model's reading (log entry 12).
-/
def Obligations.TrapsEnterTheHandlerOrEndTheTask : Prop :=
  (∀ (s : State) (d : Nat) (t : Trap), s.cur.parked = none → s.stop.cur.sys.tvec ≠ 0 →
    let c := s.stop.cur
    let u := s.takeTrap d t
    u.cur.pc = c.sys.tvec ∧ u.cur.sys.tpc = s.cur.pc ∧
    u.cur.sys.tinfo = (if t.cause = .poisonConsumed then c.sys.tinfo else t.info) ∧
    u.cur.sys.tcause.toNat = (if t.addr then 2 ^ 15 else 0) + t.pos % 8 * 2 ^ 12 + t.cls % 8 * 2 ^ 9 + 2 ^ 8 + causeCode t.cause ∧
    u.cur.sys = { c.sys with tpc := s.cur.pc, tcause := u.cur.sys.tcause, tinfo := u.cur.sys.tinfo } ∧
    u.cur.latches = [] ∧ u.cur.loops = s.cur.loops ∧ u.cur.flight = [] ∧ u.cur.clk = 0 ∧
    u.cur.accesses = s.cur.accesses.map (fun a => if a.done || a.stamp.isSome then a else { a with stamp := some (s.cur.bankCycle a).toNat }) ∧
    u.cur.modBase = (c.module : Int) + 3 ∧ u.cur.rep = none ∧ u.issue.trapped = some t ∧
    u.cur.parked = some { c := s.cur.clk, d := d, tpc := s.cur.pc, pending := c.flight, depth := s.cur.loops.length,
                          rep := s.cur.rep, arrived := s.cur.wait.bind (·.arrived), floor := c.floor } ∧
    (∀ f ∈ c.flight, f.what.isEntry = true) ∧
    u.cur.sregs = c.sregs ∧ u.cur.preds = c.preds ∧ u.cur.vregs = c.vregs ∧ u.cur.quires = c.quires ∧ u.cur.accs = c.accs ∧
    u.mem = s.mem) ∧
  (∀ (s : State) (d : Nat) (t : Trap), (s.stop.cur.parked.isSome = true ∨ s.stop.cur.sys.tvec = 0) →
    let c := s.stop.cur
    let u := s.takeTrap d t
    u.cur.run = .ended ∧ u.cur.allocs = [] ∧ u.issue.ended = true ∧
    ((∀ a ∈ s.cur.accesses, a.done = true ∨ a.act.turn ≠ 0) → u.mem = s.mem) ∧
    (∀ l, s.stop.launchOf c = some l → c.part < 8 → ∃ l', u.launchOf c = some l' ∧ l'.ended = l.ended + 1 ∧ l'.faulted = l.faulted + 1 ∧
      l'.fault = firstFault l.fault (c.module, c.sys.taskid.toNat, causeCode t.cause)))

/-! ## Control -/

/-- R262 to R264, R269. What a B-class transfer does when its operands are not poisoned: the target it takes, the scalar that CALL
and CALLR write, and that a branch not taken, and NOPB, change nothing. -/
def Obligations.TransfersGoToTheirTargets : Prop :=
  ∀ (s : State) (h : Head) (ra rb : SRegNo) (da : DNum) (cond : Cond) (disp : BitVec 30),
    let at_ : DWord := s.issue.addr + BitVec.ofNat 64 (8 * s.issue.pos)
    let next : DWord := s.issue.addr + BitVec.ofNat 64 (8 * s.issue.size)
    let label : DWord := at_ + disp.signExtend 64 * 8
    let goes (t : DWord) (trims : Bool) : State := { s with issue := { s.issue with target := some t, keep := !trims } }
    let calls (t : DWord) : State := (goes t false).withCur (s.cur.pushS 1 (next.extractLsb' 0 32) false 1)
    (Issues s (.nopb h) [] → exec (.nopb h) s = .next s) ∧
    (Issues s (.br h disp) [] → exec (.br h disp) s = .next (goes label true)) ∧
    (Issues s (.brc h ra rb cond disp) [] → s.cur.sp ra = false → s.cur.sp rb = false →
      exec (.brc h ra rb cond disp) s = .next (if condition cond (s.cur.s ra) (s.cur.s rb) then goes label true else s)) ∧
    (Issues s (.brz h ra disp) [] → s.cur.sp ra = false →
      exec (.brz h ra disp) s = .next (if s.cur.s ra = 0 then goes label true else s)) ∧
    (Issues s (.jmp h da) [] → s.cur.dp da = false → exec (.jmp h da) s = .next (goes (s.cur.d da) true)) ∧
    (Issues s (.call h disp) [] → exec (.call h disp) s = .next (calls label)) ∧
    (Issues s (.callr h da) [] → s.cur.dp da = false → exec (.callr h da) s = .next (calls (s.cur.d da))) ∧
    (Issues s (.ret h) [] → s.cur.sp 1 = false →
      exec (.ret h) s = .next (goes (at_.extractLsb' 32 32 ++ s.cur.s 1) true))

/-- R126, R262. A taken transfer: the next bundle is the one at the target, not before three cycles on; entries of the loop stack go,
from the innermost, up to the first whose body holds the target, and none does under CALL and CALLR.
R265. After a bundle without a transfer: entries of the loop stack whose end bundle it is and whose count is 1 are finished and
popped; the first that has iterations to run counts one fewer and goes back to its start; and else the bundle that follows is next. -/
def Obligations.LoopStackOfABundle : Prop :=
  (∀ (s : State) (a : DWord) (lost kept : List LoopEntry), s.issue.ended = false → s.issue.target = some a → s.issue.gap = 1 →
    s.cur.loops = lost ++ kept → (∀ e ∈ lost, ¬(e.start.toNat ≤ a.toNat ∧ a.toNat ≤ e.stop.toNat)) →
    (∀ e ∈ kept.head?, e.start.toNat ≤ a.toNat ∧ a.toNat ≤ e.stop.toNat) →
    let t := s.closeBundle
    t.cur.pc = a ∧ t.cur.earliest = s.cur.clk + 3 ∧ t.cur.loops = (if s.issue.keep then s.cur.loops else kept) ∧ t.cur.sregs = s.cur.sregs ∧
    t.mem = s.mem) ∧
  (∀ (s : State) (ended rest : List LoopEntry) (e : LoopEntry), s.issue.ended = false → s.issue.target = none → s.issue.gap = 1 →
    s.cur.rep = none → (∀ x ∈ ended, x.stop = s.cur.pc ∧ x.count ≤ 1) →
    let t := s.closeBundle
    let next : DWord := s.cur.pc + BitVec.ofNat 64 (8 * s.issue.size)
    t.cur.earliest = s.cur.clk + 1 ∧
    (s.cur.loops = ended → t.cur.loops = [] ∧ t.cur.pc = next) ∧
    (s.cur.loops = ended ++ e :: rest → e.stop ≠ s.cur.pc → t.cur.loops = e :: rest ∧ t.cur.pc = next) ∧
    (s.cur.loops = ended ++ e :: rest → e.stop = s.cur.pc → 1 < e.count →
      t.cur.loops = { e with count := e.count - 1 } :: rest ∧ t.cur.pc = e.start))

/-- R265, R266. LOOP and LOOPR push one entry: the count, the bundle after theirs, and the end bundle. LBRK pops the innermost entry and goes
past its end bundle, where that can be read. That LOOPR with a count of zero goes past the end bundle is the model's reading, and what it
does where that bundle cannot be read a free value (log entries 36 and 8). -/
def Obligations.HardwareLoops : Prop :=
  ∀ (s : State) (h : Head) (count : BitVec 20) (ra : SRegNo) (disp : BitVec 24),
    let at_ : DWord := s.issue.addr + BitVec.ofNat 64 (8 * s.issue.pos)
    let next : DWord := s.issue.addr + BitVec.ofNat 64 (8 * s.issue.size)
    let stop : DWord := at_ + disp.signExtend 64 * 8
    let pushes (n : Nat) : State := s.withCur { s.cur with loops := { count := n, start := next, stop := stop } :: s.cur.loops }
    let past (u : State) (e : DWord) (k : Nat) : State :=
      { u with issue := { u.issue with target := some (e + BitVec.ofNat 64 (8 * k)), keep := false } }
    (Issues s (.loop h count disp) [] → exec (.loop h count disp) s = .next (pushes count.toNat)) ∧
    (Issues s (.loopr h ra disp) [] → s.cur.sp ra = false → s.cur.s ra ≠ 0 →
      exec (.loopr h ra disp) s = .next (pushes (s.cur.s ra).toNat)) ∧
    (∀ ws, Issues s (.loopr h ra disp) [] → s.cur.sp ra = false → s.cur.s ra = 0 → s.fetch stop = .ok ws → ws ≠ [] →
      exec (.loopr h ra disp) s = .next (past s stop ws.length)) ∧
    (∀ e l ws, Issues s (.lbrk h) [] → s.cur.loops = e :: l → (s.withCur { s.cur with loops := l }).fetch e.stop = .ok ws → ws ≠ [] →
      exec (.lbrk h) s = .next (past (s.withCur { s.cur with loops := l }) e.stop ws.length))

/-- R267. TRAP and SYSC: their bundle takes its effect and the next one is reached, and the trap, BREAK or SYSCALL with the immediate
in TINFO, is taken before it.
R143, R268. ERET, once the handler's results have landed: HMODE is cleared, the entries of the loop stack that the handler pushed are
gone, the latches are empty, TCLK restarts in the third module cycle on at the value where it stopped, the pending-write set
is in flight again, and the bundle at TPC is next, with the delay it still had to serve when TPC is unchanged. -/
def Obligations.SystemCallsAndReturns : Prop :=
  (∀ (s : State) (h : Head) (imm : BitVec 16), s.finishBundle.cur.late = [] →
    let enters (i : Instr) (k : Cause) : Prop := Issues s i [] → ∃ (d : Nat) (t : Trap), t.cause = k ∧ t.info = imm.setWidth 64 ∧
      t.addr = false ∧ exec i s = .next (s.finishBundle.openNext.takeTrap d t)
    enters (.trap h imm) .brk ∧ enters (.sysc h imm) .syscall ∧ s.finishBundle.cur.clk = s.cur.clk + 1) ∧
  (∀ (s : State) (h : Head) (p : Parked), Issues s (.eret h) [] → s.cur.parked = some p →
    s.cur.flight = [] → s.cur.unfinishedHere s.cur.clk = [] →
    ∃ t, exec (.eret h) s = .next t ∧ t.cur.parked = none ∧ t.cur.pc = s.cur.sys.tpc ∧
      t.cur.sys = { s.cur.sys with tcause := s.cur.sys.tcause &&& ~~~(0x100 : DWord) } ∧ t.cur.latches = [] ∧
      t.cur.loops = s.cur.loops.drop (s.cur.loops.length - p.depth) ∧ t.cur.clk = p.c ∧ t.cur.module = s.cur.module + 3 ∧
      t.cur.flight = p.pending ∧ t.cur.delay = (if s.cur.sys.tpc = p.tpc then some p.d else none) ∧
      t.cur.rep = (if s.cur.sys.tpc = p.tpc then p.rep else none) ∧ t.cur.sregs = s.cur.sregs ∧ t.cur.vregs = s.cur.vregs ∧ t.mem = s.mem)

/-- R270, R271. EXIT with its conditions met, or with the bundle past them, ends the task: its registers, allocations and
queues are free and its launch counts one more task ended; in handler mode it counts as a trap that was not handled, with
the cause in TCAUSE. EXITS starts the entry it names, three cycles on, with the scalars, predicates and system registers
that R105 gives a task at its start. R269. HALT with debugging enabled: its bundle takes its effect, TCLK stands one cycle
on, and nothing more issues until the debugger resumes the context; its accesses keep their bank cycles, and of its
results only the pending-write set stays in flight. What of engines and buffers stays, and what a bundle with EXIT
completes, is the model's reading (log entries 12, 36, 43). -/
def Obligations.ExitsEndTheEntryAndHaltStops : Prop :=
  (∀ (s : State) (h : Head) (keepq : Bool) (entry : BitVec 8), (s.issue.passed = true ∨ s.complete = true) →
    let u := s.settle
    let counts (t : State) (k : Option Nat) : Prop := t.cur.run = .ended ∧ t.cur.allocs = [] ∧ t.issue.ended = true ∧
      ∀ l, u.launchOf u.cur = some l → u.cur.part < 8 → ∃ l', t.launchOf u.cur = some l' ∧ l'.ended = l.ended + 1 ∧
        l'.faulted = l.faulted + (if k.isSome then 1 else 0) ∧
        l'.fault = (match k with | none => l.fault | some c => firstFault l.fault (u.cur.module, u.cur.sys.taskid.toNat, c))
    (Issues s (.exit h) (s.exitTraps (.exit h)) → u.cur.parked = none → ∃ t, exec (.exit h) s = .next t ∧ counts t none) ∧
    (Issues s (.exit h) (s.exitTraps (.exit h)) → u.cur.parked ≠ none →
      ∃ t, exec (.exit h) s = .next t ∧ counts t (some (u.cur.sys.tcause.toNat % 256))) ∧
    (∀ img l, Issues s (.exits h keepq entry) (trapIf (keepq && !s.cur.array)
        (s.synTrap (.exits h keepq entry) .access) ++ s.exitTraps (.exits h keepq entry)) → u.cur.parked = none →
      u.imageOf u.cur = some img → u.launchOf u.cur = some l →
      ∃ t, exec (.exits h keepq entry) s = .next t ∧ t.cur.pc = img.entries.getD entry.toNat 0 ∧ t.cur.entry = entry.toNat ∧
        t.cur.earliest = u.cur.clk + 3 ∧ t.cur.clk = u.cur.clk ∧ t.cur.run = u.cur.run ∧ t.cur.allocs = u.cur.allocs ∧
        t.cur.quires = (if keepq then u.cur.quires else []) ∧ t.cur.accs = u.cur.accs ∧ t.cur.weights = u.cur.weights ∧
        t.cur.loops = [] ∧ t.cur.flight = [] ∧ t.cur.d 1 = l.args ∧ t.cur.s 4 = BitVec.ofNat 32 (u.cur.sys.taskid.toNat % 2 ^ 16) ∧
        t.cur.s 5 = BitVec.ofNat 32 l.tasks ∧ t.cur.s 6 = l.param ∧ t.cur.s 7 = 0 ∧ t.cur.sys.tvec = 0 ∧ t.cur.sys.jo = 0 ∧
        t.cur.sys.lgdef = 0xFF ∧ t.cur.sys.grps = u.cur.sys.grps)) ∧
  (∀ (s : State) (h : Head), Issues s (.halt h) [] →
    ∃ t, exec (.halt h) s = .next t ∧ t.cur.run = .halted ∧ t.cur.clk = s.cur.clk + 1 ∧ t.issue.ended = true ∧
      t.cur.pc = s.finishBundle.cur.pc ∧ (∀ a ∈ t.cur.accesses, a.done = true ∨ a.stamp.isSome = true) ∧ (∀ f ∈ t.cur.flight, f.what.isEntry = true))

/-- R272. SPAWN whose pair is not poisoned and names a record that it can read, once its release can perform and what the
dispatcher needs has come: the submission of R97 with the task as parent, and the pair of results, the handle and the
field with the status; both are readable at the next bundle. R273, R274. BAR: a member whose release can perform clears
the TSM bits that it waited on and arrives at its next generation, and waits; it leaves once the generation has completed
and B(X) module cycles have passed, and a bundle that has passed its waits changes nothing more. The order of the waits in
a bundle is the model's reading (log entries 34, 36). -/
def Obligations.SpawnAndBarriers : Prop :=
  (∀ (s : State) (h : Head) (rd : SRegNo) (da : DNum) (rec : Nat) (l : Launch) (i : Instr), i = .spawn h rd da → s.acts i = true →
    let r := s.resolve (s.cur.d da) 0 64 64 .load false
    let v := s.clearTsm moduleSlices
    let u := if r.1.space = 0 then v.keepRun v.cur.part r.1.die r.1.off 64 else v
    (s.issue.passed = true ∨ (s.faults i [] = [] ∧ s.cur.dp da = false ∧ r.2 = [] ∧ (r.1.space < 2 ∨ 5 < r.1.space) ∧
      s.deniedTraps i moduleSlices = [] ∧ s.launchRecord r.1 ≠ .denied ∧ s.released 4 moduleSlices = true ∧ s.spawnAway r.1 = false)) →
    u.launchRecord r.1 = .got rec → u.launchOf u.cur = some l →
    let x := u.submit u.cur.part l.core (some (u.cur.device, u.cur.handle, clusterOf u.cur.tile, u.cur.uid)) (BitVec.ofNat 512 rec)
    exec i s = .next (x.1.withCur ((x.1.cur.pushS rd (BitVec.ofNat 32 (if x.2.status = 0 then x.2.handle else 0)) false 1).pushS
      (rd ||| 1) (BitVec.ofNat 32 (x.2.field * 2 ^ 16 + x.2.status)) false 1))) ∧
  (∀ (s : State) (h : Head) (g : BitVec 8) (x : Nat), s.acts (.bar h g) = true → s.faults (.bar h g) [] = [] →
    namesGroup s.cur.sys.grps g.toNat = true → s.groupScope g.toNat = some x →
    (s.issue.passed = true → exec (.bar h g) s = .next s) ∧
    (∀ n l m c, s.issue.passed = false → s.cur.arrivedAt = some n → s.launchOf s.cur = some l →
      (g.toNat, m, c) ∈ l.barDone → n ≤ m → c + (if x ≤ 1 then 4 else if x = 2 then 12 else if x = 3 then 40 else 72) ≤ s.cur.module →
      exec (.bar h g) s = .next s) ∧
    (s.issue.passed = false → s.cur.arrivedAt = none → s.deniedTraps (.bar h g) (s.fenceBits x) = [] →
      s.released x (s.fenceBits x) = true → ∃ t, exec (.bar h g) s = .next t ∧ t.issue.stalled = true ∧
        t.cur.arrivedAt = some (s.cur.generation g.toNat + 1) ∧ t.cur.generation g.toNat = s.cur.generation g.toNat + 1 ∧
        t.cur.sys.tsm = s.cur.sys.tsm &&& ~~~(bitsOf (s.fenceBits x)) ∧ t.cur.clk = s.cur.clk ∧ t.mem = s.mem))

/-! ## Vectors of posits -/

/-- R207, R219, R220, R282, R301. The binary and ternary posit operations at every order: each coefficient of each element of an active lane is
rounded once from the operands' coefficients and the result's own earlier, rounded ones; NaR in an operand makes every
coefficient NaR; VDIV by zero creates NaR. -/
def Obligations.PositArithmeticOfEveryOrder : Prop :=
  ∀ (s : State) (h : Head) (lgm : Lgm) (fmt : Fmt) (vd va vb vc : VNum) (ha hb hc : Bool),
    let k := s.issue.jo
    let n := fmtWidth fmt
    let e := fmtEs fmt
    let conv (x y : Nat → Int) (r : Nat) : Int := ((List.range (r + 1)).map (fun j => x j * y (r - j))).sum
    let forms (i : Instr) (lat : Nat) (rule : (Nat → Int) → (Nat → Int) → (Nat → Int) → (Nat → Rounded) → Prop) : Prop :=
      Issues s i [] → ∃ t Q, exec i s = .next t ∧ WritesElements s t i h vd fmt (k + 1) lat Q ∧
        ∀ l j, l < 128 → (s.activeLanes i h).getLsbD l = true → j < fmtElems fmt →
          if none ∈ values s i 0 fmt l j ++ values s i 1 fmt l j ++ values s i 2 fmt l j
          then ∀ r, r ≤ k → Q r l j = { pat := 2 ^ (n - 1), nar := false, sat := false, inx := false }
          else rule (number (values s i 0 fmt l j)) (number (values s i 1 fmt l j)) (number (values s i 2 fmt l j)) (fun r => Q r l j)
    let one := 2 ^ 120
    forms (.vadd h lgm fmt vd va vb ha hb) 3 (fun x y _ q => ∀ r, r ≤ k → q r = roundRat (x r + y r) one n e) ∧
    forms (.vsub h lgm fmt vd va vb ha hb) 3 (fun x y _ q => ∀ r, r ≤ k → q r = roundRat (x r - y r) one n e) ∧
    forms (.vmul h lgm fmt vd va vb ha hb) (4 + 2 * k) (fun x y _ q => ∀ r, r ≤ k → q r = roundRat (conv x y r) (one * one) n e) ∧
    forms (.vfma h lgm fmt vd va vb vc ha hb hc) (5 + 2 * k) (fun x y z q => ∀ r, r ≤ k → q r = roundRat (conv x y r + z r * 2 ^ 120) (one * one) n e) ∧
    forms (.vfms h lgm fmt vd va vb vc ha hb hc) (5 + 2 * k) (fun x y z q => ∀ r, r ≤ k → q r = roundRat (conv x y r - z r * 2 ^ 120) (one * one) n e) ∧
    forms (.vfnma h lgm fmt vd va vb vc ha hb hc) (5 + 2 * k) (fun x y z q => ∀ r, r ≤ k → q r = roundRat (z r * 2 ^ 120 - conv x y r) (one * one) n e) ∧
    forms (.vdiv h lgm fmt vd va vb ha hb) ((if n = 32 then 10 else 8) + 3 * k) (fun x y _ q =>
      if y 0 = 0 then ∀ r, r ≤ k → q r = { pat := 2 ^ (n - 1), nar := true, sat := false, inx := false }
      else ∀ r, r ≤ k → q r = roundRat ((y 0).sign * (x r * 2 ^ 120 - ((List.range r).map (fun j =>
        y (j + 1) * ((decodePat (q (r - (j + 1))).pat n e).getD 0))).sum)) (one * (y 0).natAbs) n e)

/-- R207, R219, R283, R301. The one-operand functions at every order: each element's jet is that of the function, with its
latency. The rules of each coefficient of a jet follow. R207, R283. Coefficient 0 of a one-operand function. A NaR in the
operand makes every coefficient NaR; where the function creates a NaR, its flag is set in every coefficient. The square
root and its reciprocal lie, among the roundings of all fractions, where the exact root lies among the fractions, and are
exact where the pattern is the root; the other functions are exact at the operands whose value is rational. R219, R220.
The series of the one-operand functions, for any coefficients that are numbers: each coefficient is rounded once from the
operand's and from the function's own earlier, rounded ones. Where ln 2 or 1 / ln 2 enters, the coefficient is stated with
the rounding of the reals. That a working precision settles a coefficient with ln 2 is the model's presumption (log entry
7). -/
def Obligations.SpecialFunctionsOfEveryOrder : Prop :=
  (∀ (s : State) (h : Head) (lgm : Lgm) (fmt : Fmt) (vd va : VNum) (ha : Bool),
    let k := s.issue.jo
    let forms (i : Instr) (f : Fn) (lat : Nat) : Prop := Issues s i [] → ∃ t Q, exec i s = .next t ∧
      WritesElements s t i h vd fmt (k + 1) lat Q ∧ ∀ r l j, r ≤ k → l < 128 → (s.activeLanes i h).getLsbD l = true → j < fmtElems fmt →
        some (Q r l j) = (f.jet (values s i 0 fmt l j) k (fmtWidth fmt) (fmtEs fmt))[r]?
    let a := (if fmtWidth fmt = 32 then 10 else 8) + 3 * k
    let b := 12 + 4 * k
    forms (.vsqrt h lgm fmt vd va ha) .sqrt a ∧ forms (.vrsqrt h lgm fmt vd va ha) .rsqrt a ∧ forms (.vrcp h lgm fmt vd va ha) .rcp a ∧
    forms (.vexp h lgm fmt vd va ha) .exp b ∧ forms (.vexp2 h lgm fmt vd va ha) .exp2 b ∧ forms (.vlog h lgm fmt vd va ha) .log b ∧
    forms (.vlog2 h lgm fmt vd va ha) .log2 b ∧ forms (.vsin h lgm fmt vd va ha) .sin b ∧ forms (.vcos h lgm fmt vd va ha) .cos b ∧
    forms (.vtanh h lgm fmt vd va ha) .tanh b ∧ forms (.vsigm h lgm fmt vd va ha) .sigm b) ∧
  (∀ (fmt : Fmt) (a : List Int) (k : Nat), fmt ≠ 3 →
    let n := fmtWidth fmt
    let e := fmtEs fmt
    let x : Int := a.getD 0 0
    let c (f : Fn) : Option Rounded := (f.jet (a.map some) k n e)[0]?
    let order (q : Rounded) : Int := (BitVec.ofNat n q.pat).toInt
    let exact (q : Rounded) : Int := (decodePat q.pat n e).getD 0
    let one : Int := 2 ^ 120
    (∀ (b : List Fx) (f : Fn) r, none ∈ b → r ≤ k → (f.jet b k n e)[r]? = some { pat := 2 ^ (n - 1), nar := false, sat := false, inx := false }) ∧
    (∀ (f : Fn) r, r ≤ k → ((f = .sqrt ∧ x < 0) ∨ (f = .rsqrt ∧ x ≤ 0) ∨ (f = .rcp ∧ x = 0) ∨ ((f = .log ∨ f = .log2) ∧ x ≤ 0)) →
      (f.jet (a.map some) k n e)[r]? = some { pat := 2 ^ (n - 1), nar := true, sat := false, inx := false }) ∧
    (x = 0 → c .sqrt = some (roundRat 0 1 n e)) ∧
    (0 < x → ∃ q, c .sqrt = some q ∧ q.nar = false ∧ (q.inx = true ↔ exact q * exact q ≠ x * one) ∧
      ∀ u v : Nat, 0 < v → ((u * u * one ≤ x * (v * v) → order (roundRat u v n e) ≤ order q) ∧
        (x * (v * v) ≤ u * u * one → order q ≤ order (roundRat u v n e)))) ∧
    (0 < x → ∃ q, c .rsqrt = some q ∧ q.nar = false ∧ (q.inx = true ↔ exact q * exact q * x ≠ one * one * one) ∧
      ∀ u v : Nat, 0 < v → ((u * u * x ≤ one * (v * v) → order (roundRat u v n e) ≤ order q) ∧
        (one * (v * v) ≤ u * u * x → order q ≤ order (roundRat u v n e)))) ∧
    (x ≠ 0 → c .rcp = some (roundRat (x.sign * one) x.natAbs n e)) ∧
    (x = 0 → c .exp = some (roundRat 1 1 n e)) ∧
    (∀ m : Int, x = m * one → c .exp2 = some (if 0 ≤ m then (if 200 ≤ m then { pat := 2 ^ (n - 1) - 1, nar := false, sat := true, inx := true }
      else roundRat (2 ^ m.toNat) 1 n e) else if m ≤ -200 then { pat := 1, nar := false, sat := true, inx := true }
      else roundRat 1 (2 ^ (-m).toNat) n e)) ∧
    (x = one → c .log = some (roundRat 0 1 n e)) ∧
    (∀ m : Nat, x = 2 ^ m → c .log2 = some (roundRat (m - 120) 1 n e)) ∧
    (x = 0 → c .sin = some (roundRat 0 1 n e) ∧ c .cos = some (roundRat 1 1 n e) ∧ c .tanh = some (roundRat 0 1 n e) ∧
      c .sigm = some (roundRat 1 2 n e))) ∧
  (∀ (a : List Int) (k n e r : Nat), 1 ≤ r → r ≤ k →
    let x (j : Nat) : Int := a.getD j 0
    let jet (f : Fn) : List Rounded := f.jet (a.map some) k n e
    let q (f : Fn) (j : Nat) : Int := (((jet f)[j]?).map (fun y => (decodePat y.pat n e).getD 0)).getD 0
    let sum (g : Nat → Int) : Int := ((List.range r).map (fun j => g (j + 1))).sum
    -- coefficient m of the square of f's series, from the rounded coefficients
    let square (f : Fn) (m : Nat) : Int := ((List.range (m + 1)).map (fun j => q f j * q f (m - j))).sum
    let one := 2 ^ 120
    (x 0 ≠ 0 → (jet .rcp)[r]? = some (roundRat ((x 0).sign * -(sum (fun j => x j * q .rcp (r - j)))) (one * (x 0).natAbs) n e)) ∧
    (jet .exp)[r]? = some (roundRat (sum (fun j => j * x j * q .exp (r - j))) (one * one * r) n e) ∧
    (jet .exp2)[r]? = some (roundTimesLn2 (sum (fun j => j * x j * q .exp2 (r - j))) (one * one * r) n e) ∧
    (0 < x 0 → (jet .log)[r]? = some (roundRat (r * x r * 2 ^ 120 - ((List.range (r - 1)).map (fun (j : Nat) =>
      ((j + 1 : Nat) : Int) * q .log (j + 1) * x (r - (j + 1)))).sum) (one * r * (x 0).toNat) n e)) ∧
    (0 < x 0 → (jet .log2)[r]? = some (roundOverLn2 (r * x r * 2 ^ 120) ((List.range (r - 1)).map (fun (j : Nat) =>
      ((j + 1 : Nat) : Int) * q .log2 (j + 1) * x (r - (j + 1)))).sum (one * r * (x 0).toNat) n e)) ∧
    (0 < x 0 → (jet .sqrt)[r]? = some (roundRat (sum (fun j => (3 * j - 2 * r) * x j * q .sqrt (r - j))) (one * (2 * r * (x 0).toNat)) n e)) ∧
    (0 < x 0 → (jet .rsqrt)[r]? = some (roundRat (sum (fun j => (j - 2 * r) * x j * q .rsqrt (r - j))) (one * (2 * r * (x 0).toNat)) n e)) ∧
    (jet .sin)[r]? = some (roundRat (sum (fun j => j * x j * q .cos (r - j))) (one * one * r) n e) ∧
    (jet .cos)[r]? = some (roundRat (-(sum (fun j => j * x j * q .sin (r - j)))) (one * one * r) n e) ∧
    (jet .tanh)[r]? = some (roundRat (sum (fun j => j * x j * ((if j = r then one * one else 0) - square .tanh (r - j)))) (one * one * one * r) n e) ∧
    (jet .sigm)[r]? = some (roundRat (sum (fun j => j * x j * (q .sigm (r - j) * 2 ^ 120 - square .sigm (r - j)))) (one * one * one * r) n e) ∧
    (x 0 = 0 → (jet .sqrt)[r]? = some { pat := 2 ^ (n - 1), nar := true, sat := false, inx := false }) ∧
    (x 0 < 0 → ∀ f, f = .sqrt ∨ f = .rsqrt ∨ f = .log ∨ f = .log2 →
      (jet f)[r]? = some { pat := 2 ^ (n - 1), nar := true, sat := false, inx := false }))

/-- round_T of a real number that is no fraction: among the roundings of all fractions the result lies where the number lies
among the fractions; it is inexact, and saturated beyond maxpos and below minpos. -/
def RoundsReal (x : ℝ) (n e : Nat) (q : Rounded) : Prop :=
  q.nar = false ∧ q.inx = true ∧ (q.sat = true ↔ (2 : ℝ) ^ ((n - 2) * 2 ^ e) < |x| ∨ |x| * 2 ^ ((n - 2) * 2 ^ e) < 1) ∧
  ∀ (num : Int) (den : Nat), 0 < den →
    let p := roundRat num den n e
    ((num : ℝ) / den ≤ x → (BitVec.ofNat n p.pat).toInt ≤ (BitVec.ofNat n q.pat).toInt) ∧
    (x ≤ (num : ℝ) / den → (BitVec.ofNat n q.pat).toInt ≤ (BitVec.ofNat n p.pat).toInt)

/-- One of the precisions that the model tries settles the rounding of this enclosure. -/
def Settles (f : Nat → Encl) (n e : Nat) : Prop := ∃ k, k < 64 ∧ ((f (192 * 2 ^ k)).round n e).isSome = true

/-- R207, R219, R283. The exponentials, logarithms, circular and hyperbolic functions, and the coefficients into which ln 2 enters, are round_T of the
exact real value, wherever one of the model's working precisions settles the rounding. That one always does is the model's presumption (log
entry 7), so it stands as a premise. -/
def Obligations.SpecialFunctionsRoundTheRealValue : Prop :=
  ∀ (fmt : Fmt) (v : Int), fmt ≠ 3 → v.natAbs ≤ 2 ^ 240 →
    let n := fmtWidth fmt
    let e := fmtEs fmt
    let x : ℝ := (v : ℝ) / 2 ^ 120
    let rounds (f : Fn) (g : Nat → Encl) (y : ℝ) : Prop := Settles g n e → RoundsReal y n e (f.eval v n e)
    (v ≠ 0 → rounds .exp (expOf false v) (Real.exp x)) ∧
    ((∀ m : Int, v ≠ m * 2 ^ 120) → rounds .exp2 (expOf true v) ((2 : ℝ) ^ x)) ∧
    (0 < v → v ≠ 2 ^ 120 → rounds .log (logOf v) (Real.log x)) ∧
    (0 < v → (∀ m : Nat, v ≠ 2 ^ m) → rounds .log2 (log2Of v) (Real.log x / Real.log 2)) ∧
    (v ≠ 0 → rounds .sin (sinOf 0 v) (Real.sin x)) ∧
    (v ≠ 0 → rounds .cos (sinOf 1 v) (Real.cos x)) ∧
    (v ≠ 0 → rounds .tanh (tanhOf v) (Real.tanh x)) ∧
    (v ≠ 0 → rounds .sigm (sigmOf v) (1 / (1 + Real.exp (-x)))) ∧
    (∀ (num t : Int) (den : Nat), num ≠ 0 → 0 < den →
      (Settles (timesLn2 num den) n e → RoundsReal (Real.log 2 * num / den) n e (roundTimesLn2 num den n e)) ∧
      (Settles (overLn2 num t den) n e → RoundsReal ((num / Real.log 2 - t) / den) n e (roundOverLn2 num t den n e)))

/-- R203, R206. Every pattern of a format but NaR rounds to itself, exactly.
R206. round_T of a fraction. From maxpos on the result is maxpos, up to minpos it is minpos; between them the value lies between the two
boundaries of its pattern p, which are the values of the patterns 2p - 1 and 2p + 1 with one bit more, and a value on a boundary has an even
pattern. SAT is set beyond maxpos and minpos, INX where the pattern's value differs; a negative value takes the negated pattern, and zero
is zero. So a result that is not zero is neither zero nor NaR and has the sign of the value. -/
def Obligations.RoundingToPosits : Prop :=
  (∀ (fmt : Fmt) (b : Nat) (v : Int), b < 2 ^ fmtWidth fmt → decodePat b (fmtWidth fmt) (fmtEs fmt) = some v → fmt ≠ 3 →
    roundRat v (2 ^ 120) (fmtWidth fmt) (fmtEs fmt) = { pat := b, nar := false, sat := false, inx := false }) ∧
  (∀ (fmt : Fmt) (num den : Nat), 0 < num → 0 < den → fmt ≠ 3 →
    let n := fmtWidth fmt
    let e := fmtEs fmt
    let maxpos := 2 ^ ((n - 2) * 2 ^ e)
    let q := roundRat num den n e
    let boundary (b : Nat) : Int := (decodePat b (n + 1) e).getD 0
    roundRat 0 den n e = { pat := 0, nar := false, sat := false, inx := false } ∧
    roundRat (-(num : Int)) den n e = { q with pat := 2 ^ n - q.pat } ∧
    q.nar = false ∧ 0 < q.pat ∧ q.pat < 2 ^ (n - 1) ∧
    (q.sat = true ↔ den * maxpos < num ∨ num * maxpos < den) ∧
    (q.inx = true ↔ (decodePat q.pat n e).getD 0 * den ≠ num * 2 ^ 120) ∧
    (den * maxpos ≤ num → q.pat = 2 ^ (n - 1) - 1) ∧
    (num * maxpos ≤ den → q.pat = 1) ∧
    (num < den * maxpos → den < num * maxpos →
      (1 < q.pat → boundary (2 * q.pat - 1) * den ≤ num * 2 ^ 120 ∧ (boundary (2 * q.pat - 1) * den = num * 2 ^ 120 → q.pat % 2 = 0)) ∧
      (q.pat < 2 ^ (n - 1) - 1 → num * 2 ^ 120 ≤ boundary (2 * q.pat + 1) * den ∧ (boundary (2 * q.pat + 1) * den = num * 2 ^ 120 → q.pat % 2 = 0))))

/-- R284, R286. Selections and sign changes at every order: patterns are chosen or negated by coefficient 0, no flag is set, and VSEL takes
the whole lane with the poison of the operand that it selects. VROUND rounds coefficient 0 to an integer, ties to even.
R285, R294. VCMP and VICMP write their predicate in the active lanes: a lane is true when every element of coefficient 0
meets the condition, posits being ordered as n-bit two's-complement integers. -/
def Obligations.SelectionsSignsAndCompares : Prop :=
  (∀ (s : State) (h : Head) (lgm : Lgm) (fmt : Fmt) (vd va vb vc : VNum) (ha hb hc : Bool) (ps : PNum),
    let k := s.issue.jo
    let n := fmtWidth fmt
    let order (p : Nat) : Int := (BitVec.ofNat n p).toInt
    let neg (p : Nat) : Nat := (2 ^ n - p) % 2 ^ n
    let forms (i : Instr) (f : (Nat → Nat) → (Nat → Nat) → (Nat → Nat) → Nat → Nat) : Prop := Issues s i [] → ∃ t, exec i s = .next t ∧
      WritesLanes s t i h vd (k + 1) 3 0 (fun _ => poisonedLanes s i h) (fun r l => packed n ((List.range (fmtElems fmt)).map (fun j =>
        f (fun r => pattern s i 0 n r l j) (fun r => pattern s i 1 n r l j) (fun r => pattern s i 2 n r l j) r)))
    forms (.vmin h lgm fmt vd va vb ha hb) (fun a b _ r => if order (b 0) < order (a 0) then b r else a r) ∧
    forms (.vmax h lgm fmt vd va vb ha hb) (fun a b _ r => if order (a 0) < order (b 0) then b r else a r) ∧
    forms (.vneg h lgm fmt vd va ha) (fun a _ _ r => neg (a r)) ∧
    forms (.vabs h lgm fmt vd va ha) (fun a _ _ r => if order (a 0) < 0 ∧ a 0 ≠ 2 ^ (n - 1) then neg (a r) else a r) ∧
    forms (.vclamp h lgm fmt vd va vb vc ha hb hc) (fun a lo hi r => if r ≠ 0 then 0 else
      let x := if order (a 0) < order (lo 0) then lo 0 else a 0
      if order (hi 0) < order x then hi 0 else x) ∧
    (Issues s (.vround h lgm fmt vd va ha) [] → ∃ t Q, exec (.vround h lgm fmt vd va ha) s = .next t ∧
      WritesElements s t (.vround h lgm fmt vd va ha) h vd fmt (k + 1) 3 Q ∧ ∀ r l j, r ≤ k → l < 128 →
        (s.activeLanes (.vround h lgm fmt vd va ha) h).getLsbD l = true → j < fmtElems fmt →
        (0 < r → Q r l j = { pat := 0, nar := false, sat := false, inx := false }) ∧
        (∀ x m : Int, (values s (.vround h lgm fmt vd va ha) 0 fmt l j).getD 0 none = some x →
          2 * (x - m * 2 ^ 120).natAbs ≤ 2 ^ 120 → (2 * (x - m * 2 ^ 120).natAbs = 2 ^ 120 → m % 2 = 0) →
          (Q 0 l j).pat = (roundRat (m * 2 ^ 120) (2 ^ 120) n (fmtEs fmt)).pat ∧ ((Q 0 l j).inx = true ↔ x ≠ m * 2 ^ 120)) ∧
        ((values s (.vround h lgm fmt vd va ha) 0 fmt l j).getD 0 none = none → (Q 0 l j).pat = 2 ^ (n - 1))) ∧
    (Issues s (.vsel h lgm fmt vd va vb ha hb ps) [] →
      let chosen (r l : Nat) : VReg := ((s.sources (.vsel h lgm fmt vd va vb ha hb ps)).getD (if (s.cur.p ps).getLsbD l then 0 else 1) []).getD r VReg.zero
      ∃ t p, exec (.vsel h lgm fmt vd va vb ha hb ps) s = .next t ∧
        WritesLanes s t (.vsel h lgm fmt vd va vb ha hb ps) h vd (k + 1) 3 0 p (fun r l => laneWord (chosen r l).bits l) ∧
        ∀ r l, r ≤ k → l < 128 → (p r).getLsbD l = (chosen r l).poison.getLsbD l)) ∧
  (∀ (s : State) (h : Head) (lgm : Lgm) (fmt : Fmt) (pd : PNum) (va vb : VNum) (ha hb : Bool) (cond : Cond),
    let holds (w a b : Nat) : Bool :=
      let x := BitVec.ofNat w a
      let y := BitVec.ofNat w b
      match cond.toNat with
      | 0 => x == y | 1 => x != y | 2 => x.slt y | 3 => !x.slt y | 4 => !y.slt x | 5 => y.slt x
      | 6 => x.ult y | 7 => !x.ult y | 8 => !y.ult x | 9 => y.ult x | _ => false
    let forms (i : Instr) (w elems lat : Nat) : Prop := Issues s i [] → ∃ t m latches, exec i s = .next t ∧
      t = s.withCur { (if s.activeLanes i h = 0 then s.cur else s.cur.pushP pd (s.activeLanes i h) m lat) with latches := latches } ∧
      ∀ l, l < 128 → (s.activeLanes i h).getLsbD l = true →
        (m.getLsbD l = true ↔ ∀ j, j < elems → holds w (pattern s i 0 w 0 l j) (pattern s i 1 w 0 l j) = true)
    forms (.vcmp h lgm fmt pd va vb ha hb cond) (fmtWidth fmt) (fmtElems fmt) 3 ∧
    forms (.vicmp h lgm fmt pd va vb ha hb cond) (intWidth fmt) (32 / intWidth fmt) 2)

/-! ## Conversion, scaling and reduction -/

/-- R208, R209, R215, R287. VCVT: the elements that both sides have are converted, scaled by the byte SEL when the form is scaled, and the
others of the target are zero. -/
def Obligations.ConversionsOfEveryKind : Prop :=
  ∀ (s : State) (h : Head) (lgm : Lgm) (fmt : Fmt) (vd va vs : VNum) (scaled : Bool) (other : BitVec 4) (ha hb : Bool)
    (kind : BitVec 3) (sel : BitVec 2),
    let i := Instr.vcvt h lgm fmt vd va vs scaled other ha hb kind sel
    let n := fmtWidth fmt
    let e := fmtEs fmt
    let iw := if other.getLsbD 0 then 8 else 32
    let ws := match kind.toNat with | 0 => fmtWidth other | 1 => 32 | 2 => 16 | 5 => iw | _ => n
    let wd := match kind.toNat with | 3 => 32 | 4 => 16 | 6 => iw | _ => n
    let rounded (num sc : Int) (den : Nat) : Rounded := roundRat (num * 2 ^ sc.toNat) (den * 2 ^ (-sc).toNat) n e
    let nar (created : Bool) : Rounded := { pat := 2 ^ (n - 1), nar := created, sat := false, inx := false }
    Issues s i [] → (kind = 0 → s.badT6 i h other = false) → kind ≠ 7 → ∃ t Q jf, exec i s = .next t ∧
      FlagsOf jf (poisonedLanes s i h != 0) (s.activeLanes i h) 1 (min (32 / ws) (32 / wd)) Q ∧
      WritesLanes s t i h vd 1 3 jf (fun _ => poisonedLanes s i h)
        (fun _ l => packed wd ((List.range (min (32 / ws) (32 / wd))).map (fun j => (Q 0 l j).pat))) ∧
      ∀ l j, l < 128 → (s.activeLanes i h).getLsbD l = true → j < min (32 / ws) (32 / wd) →
        let x := pattern s i 0 ws 0 l j
        let sc : Int := if scaled then ((source s i 1 0 l).extractLsb' (8 * sel.toNat) 8).toInt else 0
        match kind.toNat with
        | 0 => Q 0 l j = (match decodePat x (fmtWidth other) (fmtEs other) with | none => nar false | some v => rounded v sc (2 ^ 120))
        | 1 => Q 0 l j = (match ieeeValue x 8 23 with | none => nar true | some v => rounded v.1 sc v.2)
        | 2 => Q 0 l j = (match ieeeValue x 5 10 with | none => nar true | some v => rounded v.1 sc v.2)
        | 3 => Q 0 l j = positToIeee (decodePat x n e) 8 23
        | 4 => Q 0 l j = positToIeee (decodePat x n e) 5 10
        | 5 => Q 0 l j = rounded ((BitVec.ofNat iw x).toInt * 2 ^ 120) sc (2 ^ 120)
        | _ => match decodePat x n e with
          | none => Q 0 l j = { pat := 2 ^ (iw - 1), nar := true, sat := false, inx := false }
          | some v =>
            let q := v.tdiv (2 ^ 120)
            let c := max (-(2 ^ (iw - 1) : Int)) (min (2 ^ (iw - 1) - 1) q)
            (Q 0 l j).pat = (BitVec.ofInt iw c).toNat ∧ ((Q 0 l j).sat = true ↔ c ≠ q) ∧ ((Q 0 l j).inx = true ↔ v % 2 ^ 120 ≠ 0) ∧
              (Q 0 l j).nar = false

/-- R215, R224, R288, R292. VSCL scales every coefficient by the scale byte; VMSCL rescales a sum by P over V in one rounding, and writes 0 when either is zero. -/
def Obligations.ScalingAndMaskedRescale : Prop :=
  ∀ (s : State) (h : Head) (lgm : Lgm) (fmt : Fmt) (vd va vs : VNum) (ha hb : Bool) (sel : BitVec 2) (k : SRegNo),
    let n := fmtWidth fmt
    let e := fmtEs fmt
    let i := Instr.vscl h lgm fmt vd va vs ha hb sel
    let m := Instr.vmscl h lgm fmt vd va vs k ha hb
    let nar : Rounded := { pat := 2 ^ (n - 1), nar := false, sat := false, inx := false }
    (Issues s i [] → ∃ t Q, exec i s = .next t ∧ WritesElements s t i h vd fmt (s.issue.jo + 1) 3 Q ∧
      ∀ r l j, r ≤ s.issue.jo → l < 128 → (s.activeLanes i h).getLsbD l = true → j < fmtElems fmt →
        let sc : Int := ((source s i 1 0 l).extractLsb' (8 * sel.toNat) 8).toInt
        Q r l j = (match (values s i 0 fmt l j).getD r none with
          | none => nar
          | some v => roundRat (v * 2 ^ sc.toNat) (2 ^ 120 * 2 ^ (-sc).toNat) n e)) ∧
    (Issues s m [] → ∃ t Q jf, exec m s = .next t ∧
      let poison := s.activeLanes m h &&& (poisonOf (s.sources m) ||| (if s.cur.sp k then BitVec.allOnes 128 else 0))
      FlagsOf jf (poison != 0) (s.activeLanes m h) 1 (fmtElems fmt) Q ∧
      WritesLanes s t m h vd 1 5 jf (fun _ => poison) (fun _ l => packed n ((List.range (fmtElems fmt)).map (fun j => (Q 0 l j).pat))) ∧
      ∀ l j, l < 128 → (s.activeLanes m h).getLsbD l = true → j < fmtElems fmt →
        let p := (s.cur.s k).toNat
        let v := (source s m 1 0 l).toNat
        Q 0 l j = (if p = 0 ∨ v = 0 then { pat := 0, nar := false, sat := false, inx := false }
          else match (values s m 0 fmt l j).getD 0 none with
            | none => nar
            | some x => roundRat (x * p) (2 ^ 120 * v) n e))

/-- R290. VRED: in each lane group on its own, each coefficient of every active lane receives the one rounding of the exact sum of every element of every active
lane in element 0, and zero above it; the whole group is poisoned when one of its active lanes is. -/
def Obligations.LaneGroupReduction : Prop :=
  ∀ (s : State) (h : Head) (lgm : Lgm) (fmt : Fmt) (vd va : VNum) (ha : Bool),
    let i := Instr.vred h lgm fmt vd va ha
    let n := fmtWidth fmt
    let active := s.activeLanes i h
    let rs := (s.sources i).getD 0 []
    let terms (r g : Nat) : List Fx := ((List.range 128).filter (fun l => active.getLsbD l && l / 16 == g)).flatMap (fun l =>
      (List.range (fmtElems fmt)).map (fun j => (values s i 0 fmt l j).getD r none))
    Issues s i [] → ∃ t Q jf p, exec i s = .next t ∧ FlagsOf jf (p != 0) active (s.issue.jo + 1) 1 Q ∧
      WritesLanes s t i h vd (s.issue.jo + 1) 8 jf (fun _ => p) (fun r l => BitVec.ofNat 32 (Q r l 0).pat) ∧
      ∀ r l, r ≤ s.issue.jo → l < 128 → active.getLsbD l = true →
        (p.getLsbD l = true ↔ ∃ m, m < 128 ∧ m / 16 = l / 16 ∧ active.getLsbD m = true ∧ ∃ x ∈ rs, x.poison.getLsbD m = true) ∧
        (none ∈ terms r (l / 16) → Q r l 0 = { pat := 2 ^ (n - 1), nar := false, sat := false, inx := false }) ∧
        (∀ x : List Int, terms r (l / 16) = x.map some → Q r l 0 = roundRat x.sum (2 ^ 120) n (fmtEs fmt))

/-- R224, R291. VMRED: the access is issued for bank cycle I + 4, and when it performs, the lanes receive at I + 16, element by element, the exact sum of the
contributions whose mask bit is set, times P over their number, rounded once; zero where none is valid. It reads with what the context has sent
over the mesh before (R174). -/
def Obligations.MaskedReductionFromMemory : Prop :=
  ∀ (s : State) (h : Head) (lgm : Lgm) (fmt : Fmt) (vd : VNum) (dn dm : DNum) (k : SRegNo),
    let i := Instr.vmred h lgm fmt vd dn dm k
    let x := (s.cur.s k).toNat
    let data := (s.resolve (s.cur.d dn) 0 1 1 .load false).1
    let mask := (s.resolve (s.cur.d dm) 0 1 1 .load false).1
    let r : Reduce := { fmt := fmt, vd := vd, lgm := s.groups i, mask := s.activeLanes i h, data := data.site, doff := data.off,
                        valid := mask.site, moff := mask.off, p := x % 2 ^ 16, stride := x / 2 ^ 16, land := s.cur.clk + 16 }
    (Issues s i [] → s.reduceTraps i dn dm k = [] → Unheld s →
      exec i s = .next (accessed s data.site [(0, .reduce r)] false false)) ∧
    (∀ (u : State) (a : Access), a.act = .reduce r → a.stamp = none → r.mask ≠ 0 → ∃ (bits : VBits) (jf : DWord),
      u.perform a = u.withCur (if jf = 0 then u.cur.pushAt r.land a.seq (.vector vd r.lgm r.mask bits 0)
        else (u.cur.pushAt r.land a.seq (.vector vd r.lgm r.mask bits 0)).pushAt r.land a.seq (.flags jf)) ∧
      ∀ l j, l < 128 → r.mask.getLsbD l = true → j < fmtElems fmt →
        let block (c : Nat) : Nat := c * r.stride + l / 16
        let valid := (List.range r.p).filter (fun c => ((u.foreseen a.bundle).siteRead a.shadow r.valid (r.moff + block c / 8) 1).testBit (block c % 8))
        let term (c : Nat) : Fx := decodePat (elemOf ((u.foreseen a.bundle).siteRead a.shadow r.data (r.doff + 64 * block c + 4 * (l % 16)) 4) (fmtWidth fmt) j) (fmtWidth fmt) (fmtEs fmt)
        (valid = [] → elemOf (laneWord bits l).toNat (fmtWidth fmt) j = 0) ∧
        (∀ y : List Int, valid ≠ [] → valid.map term = y.map some → elemOf (laneWord bits l).toNat (fmtWidth fmt) j =
          (roundRat (y.sum * r.p) (2 ^ 120 * valid.length) (fmtWidth fmt) (fmtEs fmt)).pat) ∧
        (none ∈ valid.map term → elemOf (laneWord bits l).toNat (fmtWidth fmt) j = 2 ^ (fmtWidth fmt - 1)))

/-- R216, R221, R289. VQNT: the block of a lane gets the scale floor(log2 amax) - 2^e, clamped to a byte, its elements are rounded at that scale,
and byte SEL of the scale register takes the scale. A block with a NaR has scale 0 and is NaR, and sets NB; a block of zeros is zero,
and sets ZB; a clamped scale sets SCL.
R306, R307. PACK narrows two registers into one, the first filling the low elements; UNPK widens one into as many as it needs, scaled
by the byte SEL when the form is scaled. -/
def Obligations.QuantisationAndPacking : Prop :=
  (∀ (s : State) (h : Head) (lgm : Lgm) (fmt : Fmt) (vd va vs : VNum) (src : BitVec 4) (ha : Bool) (sel : BitVec 2),
    let i := Instr.vqnt h lgm fmt vd va vs src ha sel
    let n := fmtWidth fmt
    let e := fmtEs fmt
    let block (l : Nat) : List Fx := (((s.sources i).map (fun o => (o.map (fun r =>
      (List.range (fmtElems src)).map (fun j => decodePat (elemOf (r.lane l).toNat (fmtWidth src) j) (fmtWidth src) (fmtEs src)))).flatten)).flatten)
    let active := s.activeLanes i h
    Issues s i [] → ∃ (bits bytes : VBits) (jf : DWord) (latches : List (Nat × Latch)) (scale : Nat → Int),
      exec i s = .next (s.withCur { ((if active = 0 then s.cur else (s.cur.pushV vd (s.groups i) active bits (poisonedLanes s i h) 4).push 4
        (.scale vs (s.groups i) active sel.toNat bytes)).pushJF jf 4) with latches := latches }) ∧
      ∀ l, l < 128 → active.getLsbD l = true → laneWord bytes l = (BitVec.ofInt 8 (scale l)).setWidth 32 <<< (8 * sel.toNat) ∧
        (none ∈ block l → scale l = 0 ∧ laneWord bits l = packed n ((block l).map (fun _ => 2 ^ (n - 1))) ∧ jf.getLsbD 17 = true) ∧
        (∀ x : List Int, block l = x.map some →
          let amax := (x.map Int.natAbs).foldl max 0
          let c (q : Int) : Int := max (-128) (min 127 q)
          (amax = 0 → scale l = 0 ∧ laneWord bits l = 0 ∧ jf.getLsbD 16 = true) ∧
          (∀ p : Nat, 2 ^ p ≤ amax → amax < 2 ^ (p + 1) → scale l = c ((p : Int) - 120 - 2 ^ e) ∧
            (scale l ≠ (p : Int) - 120 - 2 ^ e → jf.getLsbD 18 = true) ∧
            laneWord bits l = packed n (x.map (fun v => (roundRat (v * 2 ^ (-(scale l)).toNat) (2 ^ 120 * 2 ^ (scale l).toNat) n e).pat))))) ∧
  (∀ (s : State) (h : Head) (fmt : Fmt) (vd va vb : VNum) (src : BitVec 4) (sel : BitVec 2) (scaled : Bool),
    let n := fmtWidth fmt
    let e := fmtEs fmt
    let ps := fmtElems src
    let i := Instr.pack h fmt vd va vb src
    let m := Instr.unpk h fmt vd va vb sel scaled src
    let convert (x : Nat) (sc : Int) : Rounded := match decodePat x (fmtWidth src) (fmtEs src) with
      | none => { pat := 2 ^ (n - 1), nar := false, sat := false, inx := false }
      | some v => roundRat (v * 2 ^ sc.toNat) (2 ^ 120 * 2 ^ (-sc).toNat) n e
    (Issues s i [] → ∃ t Q jf, exec i s = .next t ∧ FlagsOf jf (poisonedLanes s i h != 0) (s.activeLanes i h) 1 (2 * ps) Q ∧
      WritesLanes s t i h vd 1 2 jf (fun _ => poisonedLanes s i h) (fun _ l => packed n ((List.range (2 * ps)).map (fun j => (Q 0 l j).pat))) ∧
      ∀ l j, l < 128 → (s.activeLanes i h).getLsbD l = true → j < ps →
        Q 0 l j = convert (pattern s i 0 (fmtWidth src) 0 l j) 0 ∧ Q 0 l (ps + j) = convert (pattern s i 1 (fmtWidth src) 0 l j) 0) ∧
    (Issues s m [] → s.badT6 m h src = false → ∃ (bits : Nat → VBits) (jf : DWord) (Q : Nat → Nat → Rounded),
      exec m s = .next (s.withCur ((((List.range (unpkSpan fmt src)).foldl (fun c r =>
        c.pushV (vd + BitVec.ofNat 6 r) (s.groups m) (s.activeLanes m h) (bits r) (poisonedLanes s m h) 2) s.cur).pushJF jf 2).pushJF
          (if poisonedLanes s m h = 0 then 0 else 8) 2)) ∧
      FlagsOf jf false (s.activeLanes m h) 1 (unpkSpan fmt src * fmtElems fmt) (fun _ => Q) ∧
      (∀ r l, r < unpkSpan fmt src → l < 128 → (s.activeLanes m h).getLsbD l = true →
        laneWord (bits r) l = packed n ((List.range (fmtElems fmt)).map (fun j => (Q l (r * fmtElems fmt + j)).pat))) ∧
      ∀ l j, l < 128 → (s.activeLanes m h).getLsbD l = true → j < unpkSpan fmt src * fmtElems fmt →
        let sc : Int := if scaled then ((source s m 1 0 l).extractLsb' (8 * sel.toNat) 8).toInt else 0
        Q l j = convert (if j < ps then pattern s m 0 (fmtWidth src) 0 l j else 0) sc))

/-! ## Vectors of integers, permutations and moves -/

/-- R293. The integer operations on elements of 32, 16 or 8 bits, modulo 2^w, with no flag and latency 2. -/
def Obligations.IntegerVectorForms : Prop :=
  ∀ (s : State) (h : Head) (lgm : Lgm) (fmt : Fmt) (vd va vb : VNum) (ha hb : Bool) (sa : SRegNo),
    let w := intWidth fmt
    let forms (i : Instr) (f : BitVec w → BitVec w → BitVec w) : Prop := Issues s i [] → ∃ t, exec i s = .next t ∧
      WritesLanes s t i h vd 1 2 0 (fun _ => poisonedLanes s i h) (fun _ l => packed w ((List.range (32 / w)).map (fun j =>
        (f (BitVec.ofNat w (pattern s i 0 w 0 l j)) (BitVec.ofNat w (pattern s i 1 w 0 l j))).toNat)))
    let bcast := Instr.vbcast h lgm fmt vd sa
    let iota := Instr.viota h lgm fmt vd
    forms (.viadd h lgm fmt vd va vb ha hb) (· + ·) ∧ forms (.visub h lgm fmt vd va vb ha hb) (· - ·) ∧
    forms (.vimul h lgm fmt vd va vb ha hb) (· * ·) ∧
    forms (.vimin h lgm fmt vd va vb ha hb) (fun a b => if b.slt a then b else a) ∧
    forms (.vimax h lgm fmt vd va vb ha hb) (fun a b => if a.slt b then b else a) ∧
    forms (.vand h lgm fmt vd va vb ha hb) (· &&& ·) ∧ forms (.vor h lgm fmt vd va vb ha hb) (· ||| ·) ∧
    forms (.vxor h lgm fmt vd va vb ha hb) (· ^^^ ·) ∧ forms (.vnot h lgm fmt vd va ha) (fun a _ => ~~~a) ∧
    forms (.vshl h lgm fmt vd va vb ha hb) (fun a b => a <<< (b.toNat % w)) ∧
    forms (.vshr h lgm fmt vd va vb ha hb) (fun a b => a >>> (b.toNat % w)) ∧
    forms (.vsar h lgm fmt vd va vb ha hb) (fun a b => a.sshiftRight (b.toNat % w)) ∧
    (Issues s bcast [] → ∃ t, exec bcast s = .next t ∧ WritesLanes s t bcast h vd 1 2 0
      (fun _ => if s.cur.sp sa then s.activeLanes bcast h else 0)
      (fun _ _ => packed w ((List.range (32 / w)).map (fun _ => (s.cur.s sa).toNat % 2 ^ w)))) ∧
    (Issues s iota [] → ∃ t, exec iota s = .next t ∧ WritesLanes s t iota h vd 1 2 0 (fun _ => 0)
      (fun _ l => packed w ((List.range (32 / w)).map (fun j => (l * (32 / w) + j) % 2 ^ w))))

/-- R295, R308, R309. VPERM within a lane group and XLG between lane groups move whole lanes with their poison, whether or not the source lane is
active; MOVV copies a register in the active lanes, and MOVS one lane into a scalar.
R138, R140, R310. CHK: when the register and its shadow differ, in value or poison, in an active lane, SHADOW_MISMATCH is found, to be taken before
the next bundle; TINFO names the lane groups that differ and the register. Otherwise nothing changes. -/
def Obligations.PermutationsMovesAndShadowCheck : Prop :=
  (∀ (s : State) (h : Head) (lgm : Lgm) (vd va vb : VNum) (ha hb bcast : Bool) (rot : BitVec 3) (sd : SRegNo) (lane : BitVec 7),
    let perm := Instr.vperm h lgm vd va vb ha hb
    let xlg := Instr.xlg h lgm vd va bcast rot
    let a : VReg := ((s.sources perm).getD 0 []).getD 0 VReg.zero
    let b : VReg := ((s.sources perm).getD 1 []).getD 0 VReg.zero
    let index (l : Nat) : Nat := 16 * (l / 16) + (source s perm 1 0 l).toNat % 16
    let groups : BitVec 8 := if lgm = 0 then s.issue.lgdef else lgm
    let from_ (l : Nat) : Nat := 16 * (if bcast then rot.toNat else (l / 16 + rot.toNat) % 8) + l % 16
    let active : LaneMask := s.cur.active h groups
    (Issues s perm [] → ∃ t p, exec perm s = .next t ∧ WritesLanes s t perm h vd 1 3 0 (fun _ => p) (fun _ l => laneWord a.bits (index l)) ∧
      ∀ l, l < 128 → (s.activeLanes perm h).getLsbD l = true → p.getLsbD l = (a.poison.getLsbD (index l) || b.poison.getLsbD l)) ∧
    (Issues s xlg [] → ∃ bits p, exec xlg s = .next (s.withCur (s.cur.pushV vd groups active bits p 4)) ∧
      ∀ l, l < 128 → active.getLsbD l = true → laneWord bits l = laneWord (s.cur.v va).bits (from_ l) ∧
        p.getLsbD l = (s.cur.v va).poison.getLsbD (from_ l)) ∧
    (Issues s (.movv h lgm vd va) [] → exec (.movv h lgm vd va) s = .next (s.withCur
      (s.cur.pushV vd groups active (s.cur.v va).bits (s.cur.v va).poison 2))) ∧
    (Issues s (.movs h sd va lane) [] → exec (.movs h sd va lane) s = .next (s.withCur
      (s.cur.pushS sd (laneWord (s.cur.v va).bits lane.toNat) ((s.cur.v va).poison.getLsbD lane.toNat) 2)))) ∧
  (∀ (s : State) (h : Head) (lgm : Lgm) (va : VNum),
    let i := Instr.chk h lgm va
    let a := s.cur.v va
    let b := s.cur.v (va + 32)
    let bad (g : Nat) : Prop := ∃ l, l < 128 ∧ l / 16 = g ∧ (s.activeLanes i h).getLsbD l = true ∧
      (a.lane l ≠ b.lane l ∨ a.poison.getLsbD l ≠ b.poison.getLsbD l)
    Issues s i [] →
      ((∀ g, ¬bad g) → exec i s = .next s) ∧
      (∀ m : BitVec 8, (∀ g, g < 8 → (m.getLsbD g = true ↔ bad g)) → m ≠ 0 → ∃ t : Trap, t.cause = .shadowMismatch ∧
        t.info.toNat = m.toNat * 2 ^ 8 + va.toNat ∧ exec i s = .next (s.withCur { s.cur with late := s.cur.late ++ [t] })))

/-- R302 to R305. Jet syllables: JSEED forms x, the direction and zeros; JGET reads a coefficient, times its factorial in the rounding form; JSET writes one; JSCALE
scales coefficient r by the r-th power of t. -/
def Obligations.JetForms : Prop :=
  ∀ (s : State) (h : Head) (lgm : Lgm) (fmt : Fmt) (vd va vb : VNum) (ha hb : Bool) (ci : BitVec 2),
    let k := s.issue.jo
    let n := fmtWidth fmt
    let seed := Instr.jseed h lgm vd va vb ha hb
    let get := Instr.jget h lgm fmt vd va ha false ci
    let fact := Instr.jget h lgm fmt vd va ha true ci
    let set := Instr.jset h lgm vd va ha ci
    let scale := Instr.jscale h lgm fmt vd va vb ha hb
    let reg (i : Instr) (a r : Nat) : VReg := ((s.sources i).getD a []).getD r VReg.zero
    (Issues s seed [] → k ≤ 3 → ∃ t, exec seed s = .next t ∧
      let x (r : Nat) : VReg := if r = 0 then reg seed 0 0 else if r = 1 then reg seed 1 0 else VReg.zero
      WritesLanes s t seed h vd (k + 1) 2 0 (fun r => (x r).poison) (fun r l => laneWord (x r).bits l)) ∧
    (Issues s get [] → ci.toNat ≤ k → ∃ t, exec get s = .next t ∧ WritesLanes s t get h vd 1 2 0
      (fun _ => (reg get 0 ci.toNat).poison) (fun _ l => laneWord (reg get 0 ci.toNat).bits l)) ∧
    (Issues s fact [] → ci.toNat ≤ k → ∃ t Q jf, exec fact s = .next t ∧
      let poison := s.activeLanes fact h &&& (reg fact 0 ci.toNat).poison
      FlagsOf jf (poison != 0) (s.activeLanes fact h) 1 (fmtElems fmt) Q ∧
      WritesLanes s t fact h vd 1 2 jf (fun _ => poison) (fun _ l => packed n ((List.range (fmtElems fmt)).map (fun j => (Q 0 l j).pat))) ∧
      ∀ l j, l < 128 → (s.activeLanes fact h).getLsbD l = true → j < fmtElems fmt →
        Q 0 l j = (match (values s fact 0 fmt l j).getD ci.toNat none with
          | none => { pat := 2 ^ (n - 1), nar := false, sat := false, inx := false }
          | some x => roundRat (x * (([1, 1, 2, 6] : List Int).getD ci.toNat 0)) (2 ^ 120) n (fmtEs fmt))) ∧
    (Issues s set [] → ∃ t, exec set s = .next t ∧ WritesLanes s t set h (vd + ci.setWidth 6) 1 2 0
      (fun _ => (reg set 0 0).poison) (fun _ l => laneWord (reg set 0 0).bits l)) ∧
    (Issues s scale [] → ∃ t Q, exec scale s = .next t ∧ WritesElements s t scale h vd fmt (k + 1) 4 Q ∧
      ∀ r l j, r ≤ k → l < 128 → (s.activeLanes scale h).getLsbD l = true → j < fmtElems fmt →
        (r = 0 → (Q r l j).pat = pattern s scale 0 n 0 l j ∧ (Q r l j).inx = false) ∧
        (0 < r → Q r l j = (match (values s scale 0 fmt l j).getD r none, (values s scale 1 fmt l j).getD 0 none with
          | some x, some y => roundRat (x * y ^ r) (2 ^ (120 * (r + 1))) n (fmtEs fmt)
          | _, _ => { pat := 2 ^ (n - 1), nar := false, sat := false, inx := false })))

/-! ## Quires and the matrix array -/

namespace Sys2Proof.Certificates

/-- What accumulating terms, in units of 2^-240 and none for NaR, makes of a quire (R210 to R212). -/
def Absorbs (q r : Quire) (terms : List (Option Int)) (poisoned : Bool) (fmt : Fmt) : Prop :=
  r.count = min (q.count + terms.length) (2 ^ 32 - 1) ∧ r.nar = (q.nar || terms.contains none) ∧ r.poison = (q.poison || poisoned) ∧
  r.inexact = q.inexact ∧ r.status.extractLsb' 36 4 = fmt ∧ r.status.extractLsb' 40 24 = 0 ∧
  (q.value = quireNar ∨ none ∈ terms → r.value = quireNar ∧ r.guard = q.guard) ∧
  (∀ xs : List Int, q.value ≠ quireNar → terms = xs.map some →
    let v := q.value.toInt + xs.sum
    if v.natAbs < 2 ^ 511 then r.value.toInt = v ∧ r.guard = q.guard else r.value = quireNar ∧ r.guard = true)

/-- A term: the product of two values in units of 2^-120, NaR when one is. -/
def term (x y : Fx) : Option Int := match x, y with | some a, some b => some (a * b) | _, _ => none

end Sys2Proof.Certificates

/-- R212, R214, R296 to R298. The quire syllables that write quires: one effect in each active lane and no other, applied when it lands. QMAC and QMSB absorb the
exact products of the elements, negated for QMSB, QADD the elements; a poisoned lane gives zero terms and POISON. QADDQ merges, QMOV copies,
QNEG negates and QCLR clears. -/
def Obligations.QuireSyllables : Prop :=
  ∀ (s : State) (h : Head) (lgm : Lgm) (fmt : Fmt) (q qa : QNum) (va vb : VNum) (ha hb : Bool),
    let forms (i : Instr) (lat : Nat) (rule : Nat → Quire → Quire → Prop) : Prop := Issues s i [] →
      ∃ (ops : List (Nat × QuireOp)) (latches : List (Nat × Latch)),
        exec i s = .next (s.withCur { s.cur.pushQ ops lat with latches := latches }) ∧
        ops.map (·.1) = ((List.range 128).filter (fun l => (s.activeLanes i h).getLsbD l)).map (fun l => q.toNat * 128 + l) ∧
        ∀ l o (x : Quire), l < 128 → (q.toNat * 128 + l, o) ∈ ops → rule l x (o.apply x)
    let lane (i : Instr) (a l : Nat) : List Fx := (List.range (fmtElems fmt)).map (fun j => (values s i a fmt l j).getD 0 none)
    let bad (i : Instr) (l : Nat) : Bool := (poisonOf (s.sources i)).getLsbD l
    let products (i : Instr) (l : Nat) : List (Option Int) := ((lane i 0 l).zip (lane i 1 l)).map (fun x => if bad i l then some 0 else term x.1 x.2)
    forms (.qclr h lgm q) 1 (fun _ _ r => r = Quire.zero) ∧
    forms (.qmac h lgm fmt q va vb ha hb) 3 (fun l x r => Absorbs x r (products (.qmac h lgm fmt q va vb ha hb) l) (bad (.qmac h lgm fmt q va vb ha hb) l) fmt) ∧
    forms (.qmsb h lgm fmt q va vb ha hb) 3 (fun l x r => Absorbs x r ((products (.qmsb h lgm fmt q va vb ha hb) l).map (·.map (- ·)))
      (bad (.qmsb h lgm fmt q va vb ha hb) l) fmt) ∧
    forms (.qadd h lgm fmt q va ha) 3 (fun l x r => Absorbs x r ((lane (.qadd h lgm fmt q va ha) 0 l).map (fun y =>
      if bad (.qadd h lgm fmt q va ha) l then some 0 else y.map (· * 2 ^ 120))) (bad (.qadd h lgm fmt q va ha) l) fmt) ∧
    forms (.qneg h lgm q) 2 (fun _ x r => r.status = x.status ∧ r.value = if x.value = quireNar then quireNar else -x.value) ∧
    forms (.qmov h lgm q qa) 2 (fun l _ r => r = s.cur.quire qa l) ∧
    forms (.qaddq h lgm q qa) 4 (fun l x r =>
      let b := s.cur.quire qa l
      r.count = min (x.count + b.count) (2 ^ 32 - 1) ∧ r.nar = (x.nar || b.nar) ∧ r.poison = (x.poison || b.poison) ∧
      r.inexact = (x.inexact || b.inexact) ∧ r.status.extractLsb' 36 4 = b.status.extractLsb' 36 4 ∧
      (x.value = quireNar ∨ b.value = quireNar → r.value = quireNar ∧ r.guard = (x.guard || b.guard)) ∧
      (x.value ≠ quireNar → b.value ≠ quireNar → let v := x.value.toInt + b.value.toInt; if v.natAbs < 2 ^ 511 then r.value.toInt = v ∧ r.guard = (x.guard || b.guard) else r.value = quireNar ∧ r.guard = true))

/-- R212, R299, R300. QRND rounds each active lane's quire once into element 0, poisons the lane when POISON is set, sets INX0 and SAT0, and sets INEXACT of the quires
that lose bits when it lands; QST gives a half of the status word, with the poison cleared. -/
def Obligations.QuireRoundingAndStatus : Prop :=
  ∀ (s : State) (h : Head) (lgm : Lgm) (fmt : Fmt) (vd : VNum) (q : QNum) (hi : Bool),
    let i := Instr.qrnd h lgm fmt vd q
    let m := Instr.qst h lgm vd q hi
    let n := fmtWidth fmt
    let active := s.activeLanes i h
    let rounded (l : Nat) : Rounded := if (s.cur.quire q l).value = quireNar then { pat := 2 ^ (n - 1), nar := false, sat := false, inx := false }
      else roundRat (s.cur.quire q l).value.toInt (2 ^ 240) n (fmtEs fmt)
    (Issues s i [] → ∃ (bits : VBits) (p : LaneMask) (ops : List (Nat × QuireOp)) (jf : DWord) (latches : List (Nat × Latch)),
      exec i s = .next (s.withCur { (((s.cur.pushV vd (s.groups i) active bits p 6).pushQ ops 6).pushJF jf 6) with latches := latches }) ∧
      FlagsOf jf (p != 0) active 1 1 (fun _ l _ => { rounded l with nar := false }) ∧
      (∀ l, l < 128 → active.getLsbD l = true → laneWord bits l = BitVec.ofNat 32 (rounded l).pat ∧
        p.getLsbD l = (s.cur.quire q l).poison) ∧
      (∀ k o, (k, o) ∈ ops ↔ o = .inexact ∧ ∃ l, l < 128 ∧ active.getLsbD l = true ∧ (rounded l).inx = true ∧ k = q.toNat * 128 + l)) ∧
    (Issues s m [] → ∃ t, exec m s = .next t ∧ WritesLanes s t m h vd 1 2 0 (fun _ => 0)
      (fun _ l => if hi then (s.cur.quire q l).status.extractLsb' 32 32 else (s.cur.quire q l).status.extractLsb' 0 32))

/-- R212, R316. MACC: every accumulator absorbs, four cycles on, the exact products of its row's elements and its column's weights; in a doubled beat
A1's elements meet the first weights and A0's the others. A poisoned row gives zero terms and POISON.
R316, R317, R319. A raw line gives a single beat of the elements of its words, and a MACC on a coded line whose record is refused raises DECOMPRESS, or a trap of a lower code,
before its bundle. -/
def Obligations.BeatAccumulatesEveryProduct : Prop :=
  (∀ (s : State) (h : Head) (fmt : Fmt) (wl : BitVec 11) (d2 : Nat) (w : List Fx), d2 = 1 ∨ d2 = 2 →
    w.length = 32 * (d2 * fmtElems fmt) → s.cur.beatWeights fmt wl.toNat = some (d2, w) → Issues s (.macc h fmt wl) [] →
    let d := fmtElems fmt
    let row (a u : Nat) : Word × Bool := if d2 = 1 ∨ d ≤ u then s.cur.stage0.toList.getD a (0, false) else s.cur.stage1.toList.getD a (0, false)
    ∃ ops : List (Nat × QuireOp), exec (.macc h fmt wl) s = .next (s.withCur (s.cur.pushA ops 4)) ∧ ops.map (·.1) = List.range 1024 ∧
      ∀ a b o (x : Quire), a < 32 → b < 32 → (32 * a + b, o) ∈ ops → Absorbs x (o.apply x)
        ((List.range (d2 * d)).map (fun u => if (row a u).2 then some 0 else
          term (decodePat (elemOf (row a u).1.toNat (fmtWidth fmt) (u % d)) (fmtWidth fmt) (fmtEs fmt)) (w.getD (b * (d2 * d) + u) none)))
        ((List.range (d2 * d)).any (fun u => (row a u).2)) fmt) ∧
  (∀ (s : State) (h : Head) (fmt : Fmt) (wl : BitVec 11) (b u : Nat),
    let line := s.cur.line wl.toNat
    (wl.toNat < 2048 - s.cur.sys.mstat.toNat / 2 ^ 48 % 4096 → b < 32 → u < fmtElems fmt → ∃ w, s.cur.beatWeights fmt wl.toNat = some (1, w) ∧
      w.length = 32 * fmtElems fmt ∧
      w.getD (b * fmtElems fmt + u) none = decodePat (elemOf (line.toNat / 2 ^ (32 * b) % 2 ^ 32) (fmtWidth fmt) u) (fmtWidth fmt) (fmtEs fmt)) ∧
    (s.issue.passed = false → s.acts (.macc h fmt wl) = true → 2048 - s.cur.sys.mstat.toNat / 2 ^ 48 % 4096 ≤ wl.toNat →
      (6 ≤ line.toNat / 16 % 16 ∨ line.toNat % 4 ≠ 0 ∨ line.toNat / 2 ^ 24 % 256 ≠ 0) →
      ∃ t : Trap, causeCode t.cause ≤ causeCode .decompress ∧ exec (.macc h fmt wl) s = .next (s.takeTrap 0 t)))

/-- R313 to R315. MPUSH and MSHIFT: one cycle on, A1 takes A0 and A0 the 32 lanes of the register pair in the lane group, with their
poison; or the 64 rows of A0 followed by A1 move up one place, the first to the end.
R321, R323, R324. MCLR clears the accumulators of a row, or all, one cycle on; MSTAT reads the flags and the row of the last drain, two cycles on. A
drain adds its flags to the sticky ones and leaves CLINES. -/
def Obligations.StagingClearAndMatrixStatus : Prop :=
  (∀ (s : State) (h : Head) (lgm : Lgm) (va : VNum) (g : Nat), g < 8 → lgm = BitVec.ofNat 8 (2 ^ g) →
    (Issues s (.mpush h lgm va) [] → ∃ rows, exec (.mpush h lgm va) s = .next (s.withCur (s.cur.push 1 (.push rows))) ∧
      ∀ (c : Ctx) (a : Nat) (ha : a < 32), (c.landOne (.push rows)).stage1 = c.stage0 ∧
        (c.landOne (.push rows)).stage0[a] =
          ((s.cur.v (if a < 16 then va else va + 1)).lane (16 * g + a % 16), (s.cur.v (if a < 16 then va else va + 1)).poison.getLsbD (16 * g + a % 16))) ∧
    (Issues s (.mshift h) [] → exec (.mshift h) s = .next (s.withCur (s.cur.push 1 .shift))) ∧
    (∀ (c : Ctx) (a : Nat) (ha : a < 32),
      (c.landOne .shift).stage0[a] = (if h1 : a + 1 < 32 then c.stage0[a + 1] else c.stage1[0]) ∧
      (c.landOne .shift).stage1[a] = (if h1 : a + 1 < 32 then c.stage1[a + 1] else c.stage0[0]))) ∧
  (∀ (s : State) (h : Head) (row : BitVec 5) (all : Bool) (sd : SRegNo) (c : Ctx) (flags : BitVec 4) (count : Word),
    (Issues s (.mclr h row all) [] → ∃ ops : List (Nat × QuireOp), exec (.mclr h row all) s = .next (s.withCur (s.cur.pushA ops 1)) ∧
      ∀ k o, (k, o) ∈ ops ↔ o = .clear ∧ k < 1024 ∧ (all = true ∨ k / 32 = row.toNat)) ∧
    (Issues s (.mstat h sd) [] → exec (.mstat h sd) s = .next (s.withCur (s.cur.pushS sd
      ((s.cur.sys.mstat.extractLsb' 32 13).setWidth 32) false 2))) ∧
    (let m := (c.landOne (.drained row flags count)).sys.mstat;
      m.extractLsb' 0 32 = count ∧ m.extractLsb' 32 4 = flags ∧ m.extractLsb' 36 4 = c.sys.mstat.extractLsb' 36 4 ||| flags ∧
      m.extractLsb' 40 5 = row ∧ m.extractLsb' 48 12 = c.sys.mstat.extractLsb' 48 12))

/-- R320. MDRAIN rounds a row of accumulators once into the lanes of one lane group, six cycles on: one element a lane over two registers in T32, two
in T16. A lane is poisoned when an accumulator that it holds is; MSTAT takes the row, its flags and COUNT.
R322. MSPILL and MFILL in the own cluster: image n of N moves in bank cycle I + 4 + n C / N, with C = 2 for a row and 29 for all; images are written as the
accumulators stand at issue, or replace them at I + 10 or I + 40; a poisoned address poisons what MFILL would fill. The next L-slot syllable waits two or 29 cycles. -/
def Obligations.DrainSpillAndFill : Prop :=
  (∀ (s : State) (h : Head) (lgm : Lgm) (fmt : Fmt) (vd : VNum) (row : BitVec 5) (g : Nat), g < 8 → lgm = BitVec.ofNat 8 (2 ^ g) →
    let i := Instr.mdrain h lgm fmt vd row
    let n := fmtWidth fmt
    let q (b : Nat) : Quire := s.cur.accAt row.toNat b
    let r (b : Nat) : Rounded := if (q b).value = quireNar then { pat := 2 ^ (n - 1), nar := false, sat := false, inx := false }
      else roundRat (q b).value.toInt (2 ^ 240) n (fmtEs fmt)
    let regs := if n = 32 then 2 else 1
    let any (f : Nat → Bool) : Bool := (List.range 32).any f
    Issues s i [] → (n = 32 ∨ n = 16) → ∃ (bits : Nat → VBits) (p : Nat → LaneMask) (ops : List (Nat × QuireOp)) (flags : BitVec 4) (jf : DWord),
      exec i s = .next (s.withCur (((((List.range regs).foldl (fun c k => c.pushV (vd + BitVec.ofNat 6 k) lgm (groupLanes lgm) (bits k) (p k) 6) s.cur).pushA
        ops 6).push 6 (.drained row flags (BitVec.ofNat 32 (q 0).count))).pushJF jf 6)) ∧
      (∀ k l, k < regs → l < 16 → laneWord (bits k) (16 * g + l) = (if n = 32 then BitVec.ofNat 32 (r (16 * k + l)).pat
        else BitVec.ofNat 32 ((r (2 * l)).pat + 2 ^ 16 * (r (2 * l + 1)).pat)) ∧
        (p k).getLsbD (16 * g + l) = (if n = 32 then (q (16 * k + l)).poison else (q (2 * l)).poison || (q (2 * l + 1)).poison)) ∧
      flags.getLsbD 0 = any (fun b => (q b).nar) ∧ flags.getLsbD 1 = any (fun b => (q b).guard) ∧ flags.getLsbD 2 = any (fun b => (q b).poison) ∧
      flags.getLsbD 3 = any (fun b => (q b).inexact || (r b).inx) ∧
      (∀ k o, (k, o) ∈ ops ↔ o = .inexact ∧ ∃ b, b < 32 ∧ (r b).inx = true ∧ k = row.toNat * 32 + b) ∧
      FlagsOf jf (any (fun b => (q b).poison)) (BitVec.allOnes 128) 1 32 (fun _ _ b => r b)) ∧
  (∀ (s : State) (h : Head) (row : BitVec 5) (da : DNum) (all : Bool),
    let sp := Instr.mspill h row da all
    let fi := Instr.mfill h row da all
    let ls := s.baseLoc da 0 .store
    let lf := s.baseLoc da 0 .own
    let n := if all then 1024 else 32
    let cs := if all then 29 else 2
    let key (j : Nat) : Nat := if all then j else row.toNat * 32 + j
    let floors (t : State) : Prop := t.cur.floor = max s.cur.floor (s.cur.clk + cs) ∧ t.mem = s.mem ∧ t.cur.sregs = s.cur.sregs ∧ t.cur.vregs = s.cur.vregs
    (Issues s sp (s.poisonIf sp (s.cur.dp da) ++ (if s.cur.dp da then [] else s.spillTraps sp da all .store ++
      trapIf (decide (2 < ls.space)) (s.addrTrap sp ls.addr .access))) → Unheld s → ls.fixed = true →
      ∃ t, exec sp s = .next t ∧ floors t ∧ ∀ j, j < n → ∃ a ∈ t.cur.accesses, a.cycle = s.cur.clk + 4 + j * cs / n ∧ a.site = ls.site ∧
        ∃ parts, a.act = .store parts ∧ { off := ls.off + 72 * j, size := 72, value := (s.cur.accAt (key j / 32) (key j % 32)).image.toNat } ∈ parts) ∧
    (Issues s sp (s.poisonIf sp (s.cur.dp da) ++ (if s.cur.dp da then [] else s.spillTraps sp da all .store ++
      trapIf (decide (2 < ls.space)) (s.addrTrap sp ls.addr .access))) → Unheld s → ls.fixed = false →
      ∃ t, exec sp s = .next t ∧ t.cur.floor = max s.cur.floor (s.cur.clk + cs) ∧ t.mem = s.mem) ∧
    (Issues s fi (if s.cur.dp da then [] else s.spillTraps fi da all .own) → Unheld s → s.cur.dp da = false →
      ∃ t, exec fi s = .next t ∧ floors t ∧ ∀ j, j < n → ∃ a ∈ t.cur.accesses, a.cycle = s.cur.clk + 4 + j * cs / n ∧ a.site = lf.site ∧
        ∃ ps, a.act = .load ps (.accs (s.cur.clk + (if all then 40 else 10))) ∧ { lane := key j, off := lf.off + 72 * j, size := 72 } ∈ ps) ∧
    (Issues s fi (if s.cur.dp da then [] else s.spillTraps fi da all .own) → Unheld s → s.cur.dp da = true →
      ∃ ops : List (Nat × QuireOp), exec fi s = .next (s.withCur { (s.cur.pushA ops (if all then 40 else 10)) with
        floor := max s.cur.floor (s.cur.clk + cs) }) ∧
        ∀ k o, (k, o) ∈ ops ↔ o = .set Quire.poisoned ∧ k < 1024 ∧ (all = true ∨ k / 32 = row.toNat)))

/-! ## Memory accesses -/

/-- R150, R325 to R331. The loads: the place that the address pair and the offset name, how many bytes for each lane, and
where the value goes. With a poisoned address there is no access, and the destination is written poisoned. LDA is an
acquire. R132, R155, R156, R172, R178, R325. What a load leaves under way: under Q = 0 its own-cluster accesses; under Q =
1 one place of its result queue, and own-cluster accesses, or one request for each part, which will fill it. Nothing has
been read yet but what the bank cycles before the issue have brought, and no register changes. In which of the bank cycles that R156 counts a run is served is the model's
reading (log entry 12). Corners of queue loads are the model's reading (log entry 37). -/
def Obligations.LoadsReadTheirPlaces : Prop :=
  (∀ (s : State) (h : Head) (da : DNum) (off : BitVec 24) (width : BitVec 2) (sx q : Bool) (data : VNum) (sc : Scope) (lgm : Lgm) (stride : SRegNo)
    (ew : BitVec 2) (k : QNum), Unheld s →
    let n := 2 ^ width.toNat
    let queue : Option QNum := if q then some (data.setWidth 2) else none
    let at_ (rel : Int) (size : Nat) : Nat := (s.placeAt da off 1 .load ⟨0, rel, size⟩).1.off
    let land := s.cur.clk + 8
    let scalar (i : Instr) (kind : Kind) (signed acquire : Bool) : Prop :=
      Issues s i (s.loadTraps i da off n kind (kind == .load && width == 2) queue [⟨0, 0, n⟩]) →
      (s.cur.dp da = false → exec i s = .next (s.loadFrom (s.baseLoc da off kind) [[{ lane := 0, off := at_ 0 n, size := n }]]
        (if width = 3 then .pair (data.setWidth 5) land else .scalar (data.setWidth 5) (8 * n) signed land) queue (if width = 3 then 1 else 0) 1
        (8 * n) signed acquire 8)) ∧
      (s.cur.dp da = true → q = false → width ≠ 3 → exec i s = .next (s.withCur (s.cur.pushS (data.setWidth 5) 0 true 8))) ∧
      (s.cur.dp da = true → q = false → width = 3 → exec i s = .next (s.withCur (s.cur.pushD (data.extractLsb' 1 4) 0 true 8))) ∧
      (s.cur.dp da = true → q = true → exec i s = .next (s.fillNow (data.setWidth 2) 8 (if width = 3 then 1 else 0) 1 1))
    let v := Instr.ldv h da off lgm data q
    let vs := Instr.ldvs h da off stride ew data q
    let lq := Instr.ldq h da off lgm k
    let lanes (i : Instr) : List Nat := (List.range 128).filter (fun l => (s.activeLanes i h).getLsbD l)
    let e := 4 / 2 ^ ew.toNat
    scalar (.ld h da off width sx data q) .load sx false ∧ scalar (.lda h da off sc width data q) .acquire false true ∧
    (Issues s v (s.loadTraps v da off 64 .load false queue (blockReach (s.activeLanes v h))) →
      (s.cur.dp da = false → ∃ parts, parts.flatten = (lanes v).map (fun l => { lane := l, off := at_ (4 * l) 4, size := 4 }) ∧
        exec v s = .next (s.loadFrom (s.baseLoc da off .load) parts (.vector data (s.groups v) (s.activeLanes v h) land) queue 2 (s.activeLanes v h) 32 false false 8)) ∧
      (s.cur.dp da = true → q = false → exec v s = .next (s.withCur (s.cur.pushV data (s.groups v) (s.activeLanes v h) 0 (s.activeLanes v h) 8)))) ∧
    (Issues s vs (s.loadTraps vs da off e .load false queue (s.stridedReach (s.activeLanes vs h) stride ew)) → s.cur.sp stride = false →
      (s.cur.dp da = false → exec vs s = .next (s.loadFrom (s.baseLoc da off .load)
        ((lanes vs).map (fun l => [{ lane := l, off := at_ (l * (s.cur.s stride).toInt) e, size := e }]))
        (.vector data (s.groups vs) (s.activeLanes vs h) land) queue 2 (s.activeLanes vs h) 32 false false 8)) ∧
      (s.cur.dp da = true → q = false → exec vs s = .next (s.withCur (s.cur.pushV data (s.groups vs) (s.activeLanes vs h) 0 (s.activeLanes vs h) 8)))) ∧
    (Issues s vs [] → s.cur.sp stride = true → q = false →
      exec vs s = .next (s.withCur (s.cur.pushV data (s.groups vs) (s.activeLanes vs h) 0 (s.activeLanes vs h) 8))) ∧
    (Issues s lq (if s.cur.dp da then [] else s.reachTraps lq da off 8 .own false (laneReach (s.activeLanes lq h) 72 72)) →
      (s.cur.dp da = false → exec lq s = .next (s.loadFrom (s.baseLoc da off .own)
        [(lanes lq).map (fun l => { lane := l, off := at_ (72 * l) 72, size := 72 })] (.quires k (s.cur.clk + 10)) none 2 (s.activeLanes lq h) 576 false false 10)) ∧
      (s.cur.dp da = true → ∃ ops : List (Nat × QuireOp), exec lq s = .next (s.withCur (s.cur.pushQ ops 10)) ∧
        ops = (lanes lq).map (fun l => (k.toNat * 128 + l, QuireOp.set Quire.poisoned))))) ∧
  (∀ (s : State) (l : Loc) (parts : List (List Piece)) (reg : Sink) (k : QNum) (kind bits lat : Nat) (lanes : LaneMask) (signed acquire : Bool),
    parts.flatten ≠ [] →
    let asks := if l.space = 5 then parts else [parts.flatten]
    let t := s.loadFrom l parts reg (some k) kind lanes bits signed acquire lat
    let queue := Sink.queue k s.nextReq signed bits (s.cur.clk + lat)
    let known := parts.flatten.filterMap (fun p => (s.known l p).map (fun x => (p.lane, x)))
    let c : Ctx := if known = [] then s.cur else { s.cur.deliver s.cur.seq (reg.forLanes (known.map (·.1))) known with seq := s.cur.seq + 1 }
    ∃ gs, PartedInto gs l (parts.flatten.filter (fun p => (s.known l p).isNone)) ∧
    (s.cur.early = [] → known = []) ∧
    s.loadFrom l parts reg none kind lanes bits signed acquire lat =
      accessed (s.withCur c) l.site (gs.map (fun g => (g.1, .load g.2 (reg.forLanes (g.2.map (·.lane)))))) acquire acquire ∧
    t.mem = s.mem ∧ t.cur.sregs = s.cur.sregs ∧ t.cur.vregs = s.cur.vregs ∧ t.cur.preds = s.cur.preds ∧ t.cur.sys = s.cur.sys ∧
    t.cur.ldaOwed = (if acquire then s.cur.ldaOwed ++ [s.nextReq] else s.cur.ldaOwed) ∧
    (∀ j : QNum, j ≠ k → t.cur.rq[j.toNat]'j.isLt = s.cur.rq[j.toNat]'j.isLt) ∧
    (∃ e : QEntry, t.cur.rq[k.toNat]'k.isLt = s.cur.rq[k.toNat]'k.isLt ++ [e] ∧ e.request = s.nextReq ∧ e.kind = kind ∧
      e.owed = (if l.fixed then gs.length else asks.length) ∧ e.lanes = lanes ∧ e.poison = 0 ∧ e.status = 0) ∧
    (l.fixed = true → t.requests = s.requests ∧ t.cur.accesses =
      (accessed (s.withCur { s.cur with seq := c.seq }) l.site (gs.map (fun g => (g.1, .load g.2 queue))) acquire acquire).cur.accesses) ∧
    (l.fixed = false → t.cur.accesses = s.cur.accesses ∧
      ∃ rs : List Request, t.requests = s.requests ++ rs ∧ rs.map (·.ask) = asks.map Ask.load ∧
        ∀ r ∈ rs, r.addr = l.addr ∧ r.uid = s.cur.uid ∧ r.source = s.cur.tile ∧ r.stage = .queued ∧ r.acquire = acquire ∧ r.strong = acquire ∧
          r.bundle = s.cur.bundle ∧ r.sink = .queue k s.nextReq signed bits 0))

/-- R150, R325 to R331. The stores: the place and the bytes of each part, as the registers stand at issue. STL clears the TSM bits that its release has
waited on.
R155, R156, R159, R160, R172, R177, R325. What a store leaves under way: in spaces 1 and 3 own-cluster accesses in the bank cycles that end at I + 4; in space 4 a request to every
member; elsewhere one request, or one for each part in space 5. An earlier write of the same bundle, still a request, loses exactly the bytes that
a run of this one covers. The TSM bits of the slices will be set; memory and registers stand. -/
def Obligations.StoresWriteTheirPlaces : Prop :=
  (∀ (s : State) (h : Head) (da : DNum) (off : BitVec 24) (width : BitVec 2) (data : VNum) (sc : Scope) (lgm : Lgm) (stride : SRegNo)
    (ew : BitVec 2) (q : QNum), Unheld s → s.cur.dp da = false →
    let n := 2 ^ width.toNat
    let at_ (rel : Int) (size : Nat) : Nat := (s.placeAt da off 1 .store ⟨0, rel, size⟩).1.off
    let place (k : Kind) : Loc := (s.placeAt da off n k ⟨0, 0, n⟩).1
    let value : Nat := (if width = 3 then (s.cur.d (data.extractLsb' 1 4)).toNat else (s.cur.s (data.setWidth 5)).toNat % 2 ^ (8 * n))
    let one (k : Kind) : List (List Part) := [[{ off := (place k).off, size := n, value := value }]]
    let st := Instr.st h da off width data
    let stl := Instr.stl h da off sc width data
    let v := Instr.stv h da off lgm data
    let vs := Instr.stvs h da off stride ew data
    let sq := Instr.stq h da off lgm q
    let e := 4 / 2 ^ ew.toNat
    let lanes (i : Instr) : List Nat := (List.range 128).filter (fun l => (s.activeLanes i h).getLsbD l)
    let bits := (place .release).bits sc.toNat
    (Issues s st (s.storeTraps st da off width data .store) → exec st s = .next (s.storeTo (place .store) (one .store) false)) ∧
    (Issues s stl (s.storeTraps stl da off width data .release ++ s.deniedTraps stl bits) →
      (s.issue.passed = true ∨ s.released sc.toNat bits = true) →
      let u := s.clearTsm bits
      let l := (u.placeAt da off n .release ⟨0, 0, n⟩).1
      exec stl s = .next (u.storeTo l [[{ off := l.off, size := n, value := value }]] true)) ∧
    (Issues s v (s.poisonIf v (s.activeLanes v h != 0 && (s.cur.v data).poison &&& s.activeLanes v h != 0) ++
        s.reachTraps v da off 64 .store false (blockReach (s.activeLanes v h))) →
      ∃ parts : List (List Part), exec v s = .next (s.storeTo (s.baseLoc da off .store) parts false) ∧
        ∀ (l j : Nat), l < 128 → j < 4 → (s.activeLanes v h).getLsbD l = true → ∃ p ∈ parts.flatten, ∃ lane : Nat, lane ≤ l ∧ p.off = at_ (4 * lane) p.size ∧
          4 * (l - lane) + j < p.size ∧ p.value / 2 ^ (8 * (4 * (l - lane) + j)) % 256 = (laneWord (s.cur.v data).bits l).toNat / 2 ^ (8 * j) % 256) ∧
    (Issues s vs (s.poisonIf vs (s.activeLanes vs h != 0 && ((s.cur.dp da || s.cur.sp stride) || (s.cur.v data).poison &&& s.activeLanes vs h != 0)) ++
        (if s.cur.dp da || s.cur.sp stride then [] else s.reachTraps vs da off e .store false (s.stridedReach (s.activeLanes vs h) stride ew))) →
      exec vs s = .next (s.storeTo (s.baseLoc da off .store) ((lanes vs).map (fun (l : Nat) =>
        [{ off := at_ (l * (s.cur.s stride).toInt) e, size := e, value := (laneWord (s.cur.v data).bits l).toNat % 2 ^ (8 * e) }])) false)) ∧
    (Issues s sq (s.reachTraps sq da off 8 .store false (laneReach (s.activeLanes sq h) 72 72) ++
        trapIf (s.activeLanes sq h != 0 && (s.baseLoc da off .store).space == 3) (s.addrTrap sq (s.baseLoc da off .store).addr .access)) →
      exec sq s = .next (s.storeTo (s.baseLoc da off .store) ((lanes sq).flatMap (fun l =>
        let x := (s.cur.quire q l).image.toNat
        [[{ off := at_ (72 * l) 64, size := 64, value := x % 2 ^ 512 }], [{ off := at_ (72 * l + 64) 8, size := 8, value := x / 2 ^ 512 }]])) false))) ∧
  ((∀ (s : State) (l : Loc) (parts : List (List Part)) (strong : Bool), parts.flatten ≠ [] →
    let t := s.storeTo l parts strong
    let asks := if l.space = 5 then parts else [parts.flatten]
    let slices : List Nat := match l.space with | 0 => [32 + l.die] | 1 | 2 => [l.cluster / 4] | 5 => [40] | _ => []
    t.mem = s.mem ∧ t.cur.sregs = s.cur.sregs ∧ t.cur.vregs = s.cur.vregs ∧ t.cur.preds = s.cur.preds ∧ t.cur.sys = s.cur.sys ∧ t.cur.rq = s.cur.rq ∧
    (l.fixed = true → t.requests = s.requests ∧ ∃ gs, PartedInto gs l parts.flatten ∧
      t.cur.accesses = (accessed s l.site (gs.map (fun g => (g.1, .store g.2))) false strong).cur.accesses) ∧
    (l.fixed = false → t.cur.accesses = s.cur.accesses ∧ ∃ rs : List Request, t.requests = sentAfter s rs ∧
      (∀ r ∈ rs, r.addr = l.addr ∧ r.uid = s.cur.uid ∧ r.sink = .discard ∧ r.stage = .queued ∧ r.strong = strong ∧ s.nextReq ≤ r.id) ∧
      (l.space = 4 → rs.map (·.ask) = l.holders.map (fun _ => Ask.store parts.flatten) ∧ rs.map (fun r => (r.tile, r.slot)) = l.holders) ∧
      (l.space ≠ 4 → rs.map (·.ask) = asks.map Ask.store ∧ ∀ r ∈ rs, r.slice = slices.head?)) ∧
    (l.space ≠ 4 → slices ≠ [] → ∃ f ∈ t.cur.flight, f.land = s.cur.clk + 1 ∧ f.what = .tsm (bitsOf slices))) ∧
  (∀ (p : Part) (off size j b : Nat), (∃ q ∈ p.without off size, q.off ≤ j ∧ j < q.off + q.size ∧ b = q.value / 256 ^ (j - q.off) % 256) ↔
    (p.off ≤ j ∧ j < p.off + p.size ∧ ¬(off ≤ j ∧ j < off + size) ∧ b = p.value / 256 ^ (j - p.off) % 256)))

/-- R154. Where the bytes of an allocation lie: each row of 2,048 bytes is mapped onto itself, one to one, and with SWZ 0 nothing moves. -/
def Obligations.SwizzleIsABijectionOfEachRow : Prop :=
  ∀ z o p : Nat, z < 7 → swizzle z o / 2048 = o / 2048 ∧ (swizzle z o = swizzle z p → o = p) ∧ swizzle 0 o = o ∧
    (0 < z → swizzle z o % 2 ^ (z + 3) = o % 2 ^ (z + 3) ∧
      swizzle z o % 2048 / 2 ^ (z + 3) = (o % 2048 / 2 ^ (z + 3)) ^^^ (o / 2048 % (2048 / 2 ^ (z + 3))))

/-- R155, R158, R172, R177, R325, R332 to R335. The atomics: one operation on the word that the address names, with the operands as they stand at issue; the old value goes to RD
at I + 10, to a queue, or nowhere. AMO.QADD merges the quire of each active lane. In spaces 1 and 3 the operations are under way for the bank cycles that end at I + 4,
elsewhere each is a request; with Q = 1 they owe one place of the result queue. The TSM bit of the slice will be set, and nothing else changes. -/
def Obligations.AtomicsReachTheirWords : Prop :=
  (∀ (s : State) (h : Head) (da : DNum) (off : BitVec 24) (rd rs rc rn : SRegNo) (q : Bool) (fmt : Fmt) (qn : QNum), Unheld s →
    let place (n : Nat) : Loc := (s.placeAt da off n .atomic ⟨0, 0, n⟩).1
    let forms (i : Instr) (n : Nat) (op : AmoOp) (operand : DWord) (poisoned travels : Bool) : Prop :=
      Issues s i (s.atomicTraps i da off n poisoned travels rd q) →
      exec i s = .next (s.atomicTo (place n) [.word 0 (place n).off n op operand]
        (if rd = 0 then .discard else if n = 8 then .pair rd (s.cur.clk + 10) else .scalar rd (8 * n) false (s.cur.clk + 10))
        (if q then some (rd.setWidth 2) else none) (if n = 8 then 1 else 0))
    let a : DWord := (s.cur.s rs).setWidth 64
    let p := s.cur.sp rs
    let pair (r : SRegNo) : DWord := s.cur.d (r.extractLsb' 1 4)
    let pairBad (r : SRegNo) : Bool := s.cur.dp (r.extractLsb' 1 4)
    let qadd := Instr.amoQadd h da off qn
    forms (.amoAdd h da off rd rs q) 4 .add a p true ∧ forms (.amoAnd h da off rd rs q) 4 .and a p true ∧
    forms (.amoOr h da off rd rs q) 4 .or a p true ∧ forms (.amoXor h da off rd rs q) 4 .xor a p true ∧
    forms (.amoMin h da off rd rs q) 4 .min a p true ∧ forms (.amoMax h da off rd rs q) 4 .max a p true ∧
    forms (.amoMaxu h da off rd rs q) 4 .maxu a p true ∧ forms (.amoMinu h da off rd rs q) 4 .minu a p false ∧
    forms (.amoXchg h da off rd rs q false) 4 .xchg a p true ∧ forms (.amoXchg h da off rd rs q true) 8 .xchg (pair rs) (pairBad rs) true ∧
    forms (.amoPadd h da off rd rs fmt q) (fmtWidth fmt / 8) (.padd fmt) a p true ∧
    forms (.amocas h da off rd rc rn q) 4 (.cas ((s.cur.s rc).setWidth 64)) ((s.cur.s rn).setWidth 64) (s.cur.sp rc || s.cur.sp rn) true ∧
    forms (.amocasD h da off rd rc rn q) 8 (.cas (pair rc)) (pair rn) (pairBad rc || pairBad rn) true ∧
    (Issues s qadd (s.poisonIf qadd (s.activeLanes qadd h != 0 && s.cur.dp da) ++
        (if s.cur.dp da then [] else s.reachTraps qadd da off 8 .atomic false (laneReach (s.activeLanes qadd h) 72 72))) →
      exec qadd s = .next (s.atomicTo (s.baseLoc da off .atomic) (((List.range 128).filter (fun l => (s.activeLanes qadd h).getLsbD l)).map (fun l =>
        .quire l (s.placeAt da off 8 .atomic ⟨l, 72 * l, 72⟩).1.off (s.cur.quire qn l).image)) .discard none 0))) ∧
  (∀ (s : State) (l : Loc) (atoms : List Atom) (reg : Sink) (q : Option QNum) (kind : Nat), atoms ≠ [] →
    let t := s.atomicTo l atoms reg q kind
    let slices : List Nat := match l.space with | 0 => [32 + l.die] | 1 | 2 => [l.cluster / 4] | 5 => [40] | _ => []
    let marked : State := if slices = [] then s else s.withCur (s.cur.push 1 (.tsm (bitsOf slices)))
    let sink (land : Nat) : Sink := match q with | none => if l.fixed then reg else .discard | some k => .queue k s.nextReq false 32 land
    t.mem = s.mem ∧ t.cur.sregs = s.cur.sregs ∧ t.cur.vregs = s.cur.vregs ∧ t.cur.preds = s.cur.preds ∧ t.cur.sys = s.cur.sys ∧ t.cur.flight = marked.cur.flight ∧
    (∀ k : QNum, q ≠ some k → t.cur.rq[k.toNat]'k.isLt = s.cur.rq[k.toNat]'k.isLt) ∧
    (∀ k : QNum, q = some k → ∃ e : QEntry, t.cur.rq[k.toNat]'k.isLt = s.cur.rq[k.toNat]'k.isLt ++ [e] ∧ e.request = s.nextReq ∧ e.owed = atoms.length ∧
      e.kind = kind ∧ e.lanes = 1 ∧ e.poison = 0 ∧ e.status = 0) ∧
    (l.fixed = true → t.requests = s.requests ∧ ∃ gs, PartedInto gs l atoms ∧
      t.cur.accesses = (accessed marked l.site (gs.map (fun g => (g.1, .atomic g.2 (sink (s.cur.clk + 10))))) false true).cur.accesses) ∧
    (l.fixed = false → t.cur.accesses = s.cur.accesses ∧ ∃ rs : List Request, t.requests = sentAfter s rs ∧ rs.map (·.ask) = atoms.map Ask.atomic ∧
      ∀ r ∈ rs, r.addr = l.addr ∧ r.uid = s.cur.uid ∧ r.stage = .queued ∧ r.strong = true ∧ r.sink = sink 0 ∧ r.slice = slices.head? ∧ s.nextReq ≤ r.id))

/-- R5, R155, R172. What an own-cluster store does in its bank cycle: the bytes of each part, little-endian, are written where the allocation holds them, but for those that a later syllable of
its bundle has written; every other byte of memory reads as before, and so does every register.
R157, R158. What one word atomic does in its bank cycle: it answers the old word and leaves the operation's new one; a posit add rounds once, and gives NaR when
either is NaR. No byte outside the word changes. -/
def Obligations.PerformedAccessesInTheirBanks : Prop :=
  (∀ (s : State) (a : Access) (tile slot atag : Nat) (parts : List Part), a.site = .alloc tile slot atag → a.act = .store parts →
    let t := s.perform a
    let addrs (p : Part) : List Nat := s.siteAddrs a.site p.off p.size
    t.cur = s.cur ∧ t.requests = s.requests ∧
    (∀ x : Nat, s.mem.wf = true → (∀ p ∈ parts, x ∉ addrs p) ∨ x ∈ a.skip → Memory.read t.mem x = Memory.read s.mem x) ∧
    (∀ (early late : List Part) (p : Part) (j x : Nat), s.mem.wf = true → parts = early ++ p :: late → (addrs p)[j]? = some x → x ∉ a.skip → (addrs p).Nodup →
      (∀ q ∈ late, x ∉ addrs q) → Memory.read t.mem x = BitVec.ofNat 8 (p.value / 256 ^ j)) ∧
    (s.mem.wf = true → t.mem.wf = true)) ∧
  (∀ (s : State) (tile slot atag lane off n : Nat) (op : AmoOp) (x : DWord), n = 4 ∨ n = 8 ∨ n = 2 →
    let site := Site.alloc tile slot atag
    let r := s.siteAtom site (.word lane off n op x)
    let old := s.siteRead [] site off n
    let w := 8 * n
    let a : BitVec w := BitVec.ofNat w old
    let b : BitVec w := x.setWidth w
    r.2 = (lane, old) ∧ r.1.cur = s.cur ∧ (∀ y, s.mem.wf = true → y ∉ s.siteAddrs site off n → Memory.read r.1.mem y = Memory.read s.mem y) ∧
    (s.mem.wf = true → (s.siteAddrs site off n).Nodup → (s.siteAddrs site off n).length = n →
      let new : BitVec w := BitVec.ofNat w (r.1.siteRead [] site off n)
      match op with
      | .add => new = a + b | .and => new = a &&& b | .or => new = a ||| b | .xor => new = a ^^^ b
      | .min => new = (if b.slt a then b else a) | .max => new = (if a.slt b then b else a)
      | .maxu => new = (if a.ult b then b else a) | .minu => new = (if b.ult a then b else a)
      | .xchg => new = b
      | .cas c => new = (if a = c.setWidth w then b else a)
      | .padd fmt => fmtWidth fmt = w → new = BitVec.ofNat w (match decodePat a.toNat w (fmtEs fmt), decodePat b.toNat w (fmtEs fmt) with
          | some u, some v => (roundRat (u + v) (2 ^ 120) w (fmtEs fmt)).pat
          | _, _ => 2 ^ (w - 1))))

/-- R177, R180, R336, R337. FENCE, once its release can perform, clears the TSM bits that it waited on, and both order the
accesses that follow after those before; DRAIN, once everything has performed, changes nothing else; while FENCE cannot,
the bundle waits. PREF performs no access: at most a translation is cached. Whether PREF caches is a free value (log entry
8). -/
def Obligations.FencesAndPrefetches : Prop :=
  ∀ (s : State) (h : Head) (sc : Scope) (da : DNum) (off : BitVec 24),
    let bits := s.fenceBits sc.toNat
    let fence := Instr.fence h sc
    let drain := Instr.drain h
    let pref := Instr.pref h da off
    (Issues s fence (s.deniedTraps fence bits) → (s.issue.passed = true ∨ s.released sc.toNat bits = true) → exec fence s = .next
      (s.withCur { s.cur with sys := { s.cur.sys with tsm := s.cur.sys.tsm &&& ~~~(bitsOf bits) }, epoch := s.cur.epoch + 1 })) ∧
    (Issues s fence (s.deniedTraps fence bits) → s.issue.passed = false → s.released sc.toNat bits = false →
      ∃ t, exec fence s = .next t ∧ t.issue.stalled = true ∧ t.mem = s.mem ∧ t.cur.sys = s.cur.sys) ∧
    (Issues s drain (s.deniedTraps drain allSlices) → (s.issue.passed = true ∨ s.quiet = true) → exec drain s = .next (s.withCur { s.cur with epoch := s.cur.epoch + 1 })) ∧
    (Issues s pref [] → s.cur.dp da = false → ∃ t, exec pref s = .next t ∧ t.mem = s.mem ∧ t.cur = s.cur ∧ t.requests = s.requests ∧
      ∀ tile, tile ≠ s.cur.tile → t.tileRec tile = s.tileRec tile)

/-- R140. A syllable with a static fault takes a trap, whatever its guard says, with a cause code that is no higher than
that of any of its static faults; nothing else of it takes effect. Only records of denials and failures that the trap
raises are gone. R266. A seventh LOOP, LBRK without an entry, and CALL or LOOP in the end bundle of the innermost loop
raise a trap of a code no higher than that of ILLEGAL_SYLLABLE. R140, R151. An access of 2, 4 or 8 bytes that is not
aligned to its size, by LD, ST, LDA, STL or an atomic with an address that is not poisoned, takes a trap, with a code no
higher than that of ALIGN, and reads and writes nothing. Which of two places TINFO names is in part the model's reading
(log entry 35), and is not stated here. -/
def Obligations.FaultsTakeTheirTraps : Prop :=
  (∀ (s : State) (i : Instr) (k : Cause), isSyllable i = true → s.issue.passed = false → k ∈ staticFaults i →
    ∃ (t : Trap) (d : List (DWord × Nat)) (f : List EngineFailure),
      exec i s = .next ((s.withCur { s.cur with denied := d, failures := f }).takeTrap 0 t) ∧ causeCode t.cause ≤ causeCode k) ∧
  (∀ (s : State) (i : Instr), s.issue.passed = false →
    (match i with
      | .loop .. | .loopr .. => 6 ≤ s.cur.loops.length ∨ ∃ e l, s.cur.loops = e :: l ∧ s.cur.pc = e.stop
      | .call .. | .callr .. => ∃ e l, s.cur.loops = e :: l ∧ s.cur.pc = e.stop
      | .lbrk .. => s.cur.loops = []
      | _ => False) →
    ∃ t : Trap, causeCode t.cause ≤ causeCode .illegalSyllable ∧ exec i s = .next (s.takeTrap 0 t)) ∧
  (∀ (s : State) (h : Head) (da : DNum) (off : BitVec 24) (width : BitVec 2) (sx q : Bool) (data : VNum) (sc : Scope) (rd rs : SRegNo) (i : Instr),
    s.issue.passed = false → s.acts i = true → s.cur.dp da = false →
    (i = .ld h da off width sx data q ∨ i = .st h da off width data ∨ i = .lda h da off sc width data q ∨ i = .stl h da off sc width data ∨
      width = 2 ∧ i = .amoAdd h da off rd rs q) →
    (addField (s.cur.d da) off.toInt).1.toNat % 2 ^ width.toNat ≠ 0 →
    ∃ t : Trap, causeCode t.cause ≤ causeCode .align ∧ exec i s = .next (s.takeTrap 0 t))

/-! ## Firefly -/

/-- R15 to R20, R89, R139. A start that a reset has made ready runs its stages and waits in stage 4 with two records of
the attestation log, every scratchpad erased, every wing scrubbed with the frames that a move has released, the process
counts read, and every tile judged by its working units; it fails with the reason code of its check and is counted; the
fourth start runs in minimal mode. Stage 4 ends with boot complete, which clears the count, or at its time limit with code
8. An image check is recorded, and an accepted partition boots. The full-start request is heard in minimal mode. R19, R25,
R26. A fatal error, a panic of Benale or a watchdog stops the module: it writes a dump unless one stands already, and
LASTDOWN says which. When the dump is done the module is reset with DUMPVALID set; a watchdog during a dump begins it
anew. A reset and the end of power keep REASON and the count, and LASTDOWN says how the run ended. That a start is one
event, and what minimal mode leaves out, is the model's reading (log entries 16, 27). -/
def Obligations.StartsAndEndsOfARun : Prop :=
  (∀ (s : State) (fw benale digest : BitVec 512) (defects : List (Nat × Defects)) (process : Vector (BitVec 16) 128)
    (parts : List PartConfig) (part : BitVec 3) (verdict : BitVec 2)
    (nonce : BitVec 256) (value : BitVec 32),
    let f := s.firefly
    let start (k : Option BootFailure) : Instr := .moduleStart k fw benale defects process parts
    let failed (g : Firefly) (reason : Byte) : Prop := g.power = .stopped ∧ g.reason = reason ∧ g.fails.toNat = min 3 (f.fails.toNat + 1)
    let lgs (d : Defects) : Nat := ((List.range 9).filter (fun k => !d.lgs.getLsbD k)).length
    let alus (d : Defects) : Nat := ((List.range 3).filter (fun k => !d.alus.getLsbD k)).length
    let released (x : Nat) : Prop := ∃ m ∈ f.moving, ∃ r ∈ m.2.2, r.1 ≤ x ∧ x < r.1 + r.2
    let fresh : Prop := f.power = .on ∧ f.stage = 0 ∧ f.minimal = false ∧ f.log = []
    (fresh → f.fails.toNat < 3 → ∃ t, exec (start none) s = .next t ∧ t.firefly.power = .on ∧ t.firefly.stage = 4 ∧ t.firefly.minimal = false ∧
      t.firefly.fails = f.fails ∧ t.firefly.log.length = 2 ∧ t.firefly.scrubDone = BitVec.allOnes 32 ∧ (∀ d k, d < 8 → k < 16 →
        (t.firefly.sensor d (96 + k)).valid = true ∧ (t.firefly.sensor d (96 + k)).value = process.toList.getD (16 * d + k) 0) ∧
      ((defects.map (·.1)).Nodup → ∀ x, x < 1024 →
        ((∀ d, (x, d) ∉ defects) → t.fused.getLsbD x = false ∧ t.degraded.getLsbD x = false) ∧
        (∀ d, (x, d) ∈ defects → (t.fused.getLsbD x = true ↔ d.other = true ∨ lgs d < 4 ∨ alus d < 1) ∧
          (t.degraded.getLsbD x = true ↔ t.fused.getLsbD x = false ∧ (lgs d < 8 ∨ alus d < 2)))) ∧
      (s.mem.wf = true → (∀ c o, c < 128 → o < 2 ^ 22 → Memory.read t.mem ((Region.scratch c).addr o) = 0) ∧
        ∀ x, x < 128 * 2 ^ 60 → (released x → Memory.read t.mem x = 0) ∧ (¬released x → Memory.read t.mem x = Memory.read s.mem x))) ∧
    (fresh → f.fails.toNat < 3 → ∀ k reason, (k, reason) ∈ ([(.firmwareSignature, 1), (.benaleSignature, 2), (.imageDigest, 3), (.hbmTraining, 4),
        (.lpddrTraining, 5), (.ucieTraining, 6), (.supply, 7), (.benaleTimeout, 8)] : List (BootFailure × Byte)) →
      ∃ t, exec (start (some k)) s = .next t ∧ failed t.firefly reason) ∧
    (fresh → f.fails.toNat < 3 → (∀ k, ∃ t, exec (start (some (.timeLimit k))) s = .next t ∧ failed t.firefly 11) ∧
      (∃ t, exec (start (some .thermalTrip)) s = .next t ∧ t.firefly.power = .cut ∧ t.firefly.reason = 9 ∧ t.firefly.lastDown = 4 ∧
        t.firefly.fails.toNat = f.fails.toNat + 1) ∧
      (∀ c d, ∃ t, exec (start (some (.fatal c d))) s = .next t ∧ t.firefly.reason = 10 ∧ t.firefly.fails.toNat = f.fails.toNat + 1 ∧
        (f.dumpValid = false → t.firefly.power = .dumping ∧ t.firefly.lastDown = 2 ∧ t.firefly.dumpCause = c ∧ t.firefly.dumpDie = d) ∧
        (f.dumpValid = true → t.firefly.power = .stopped ∧ t.firefly.lastDown = 3))) ∧
    (fresh → f.fails = 3 → ∀ k, ∃ t, exec (start k) s = .next t ∧ t.firefly.minimal = true ∧ t.firefly.stage = 6 ∧ t.mem = s.mem) ∧
    (f.power = .on → f.stage = 4 → f.fails.toNat ≤ 3 →
      (∃ t, exec .stageTimeLimit s = .next t ∧ failed t.firefly 8) ∧
      (∃ t, exec .bootComplete s = .next t ∧ t.firefly = { f with stage := 5, fails := 0, reason := 0 } ∧ t.mem = s.mem)) ∧
    (f.power = .on → 4 ≤ f.stage.toNat → f.minimal = false → (s.partN part.toNat).state = 1 →
      (verdict = 0 → ∃ t, exec (.imageCheckRequest part digest verdict) s = .next t ∧ (t.partN part.toNat).state = 2 ∧
        t.firefly.partOk = f.partOk ||| BitVec.ofNat 8 (2 ^ part.toNat) ∧ t.firefly.log.length = f.log.length + 1 ∧ t.mem = s.mem) ∧
      (verdict = 1 ∨ verdict = 2 → ∃ t, exec (.imageCheckRequest part digest verdict) s = .next t ∧ (t.partN part.toNat).state = 0 ∧
        t.firefly.partOk = f.partOk ∧ t.firefly.log.length = f.log.length + 1 ∧ t.mem = s.mem)) ∧
    (f.power = .on → ∃ t b, exec (.attestationLogRequest nonce) s = .next t ∧ t.firefly = { f with signedLog := b ++ Config.identitySign b } ∧
      b.length = 96 * f.log.length + 32) ∧
    (f.power = .on → f.minimal = true → value.getLsbD 0 = true → ∃ t, exec (.start value) s = .next t ∧ t.firefly.power = .on ∧
      t.firefly.stage = 0 ∧ t.firefly.minimal = false ∧ t.firefly.fails = 0 ∧ t.firefly.lastDown = 1 ∧ t.firefly.log = [] ∧ t.mem = s.mem)) ∧
  (∀ (s : State) (cause die : BitVec 32),
    let f := s.firefly
    let ends (i : Instr) (done undone : BitVec 6) (code at_ : BitVec 32) : Prop := f.power = .on → ∃ t, exec i s = .next t ∧ t.mem = s.mem ∧
      (f.dumpValid = false → t.firefly.power = .dumping ∧ t.firefly.lastDown = done ∧ t.firefly.dumpCause = code ∧ t.firefly.dumpDie = at_) ∧
      (f.dumpValid = true → t.firefly.power = .stopped ∧ t.firefly.lastDown = undone) ∧
      t.firefly.reason = (if f.stage.toNat < 5 then 10 else f.reason)
    ends (.fatalError cause die) 2 3 cause die ∧ ends .benalePanic 2 3 5 0xFFFF_FFFF ∧ ends .fireflyWatchdog 5 5 4 0xFFFF_FFFF ∧
    (f.power = .dumping → ∃ t, exec .fireflyWatchdog s = .next t ∧ t.firefly.power = .dumping ∧ t.firefly.lastDown = 5 ∧ t.firefly.dumpCause = 4 ∧ t.mem = s.mem) ∧
    (f.power = .dumping → ∃ t, exec .dumpDone s = .next t ∧ t.firefly.power = .on ∧ t.firefly.dumpValid = true ∧ t.firefly.stage = 0 ∧
      t.firefly.lastDown = f.lastDown ∧ t.firefly.reason = f.reason ∧ t.firefly.fails = f.fails) ∧
    (f.power = .on → ∃ t, exec .moduleReset s = .next t ∧ t.firefly.power = .on ∧ t.firefly.stage = 0 ∧ t.firefly.lastDown = 1 ∧
      t.firefly.log = [] ∧ t.firefly.reason = f.reason ∧ t.firefly.fails = f.fails ∧ t.firefly.dumpValid = f.dumpValid ∧ t.mem = s.mem) ∧
    (f.power = .on → ∃ t, exec .powerOff s = .next t ∧ t.firefly.power = .off ∧ t.firefly.lastDown = 0 ∧ t.firefly.timeUs = 0 ∧
      t.firefly.reason = f.reason ∧ t.firefly.fails = f.fails))

/-- R14, R19, R23, R24, R58, R59, R61. Health monitors: a thermal sensor takes the value, alarms from 95 °C on, sets the
launch hold of its die there, ends it below 90 °C everywhere and cuts the power at 105 °C; a droop monitor keeps the
lowest value until it is read, alarms below 0.52 V and stops the module below 0.50 V. HOSTATTN queues its code; the W1C
bits of the window are those of DUMPVALID and of the alarms. The host writes, through a function that answers, the
full-start request, HOSTATTN of the partition behind the function, and its MSI-X table, whose place is the model's choice
(log entry 51); no other offset. In minimal mode only function 0 of package 0 answers. Whom an alarm tells is the model's
choice (log entries 28, 51). -/
def Obligations.MonitorsAndAttention : Prop :=
  ∀ (s : State) (die : BitVec 3) (idx : BitVec 6) (j : BitVec 5) (v : BitVec 16) (part : BitVec 3) (value : BitVec 32) (offset : BitVec 16)
    (package : BitVec 1) (fn : BitVec 2) (k : Nat) (x : DWord),
    let f := s.firefly
    let sense (i : Instr) (k : Nat) (x : Sensor) (rest : State → Prop) : Prop := ∃ t, exec i s = .next t ∧ t.firefly.sensor die.toNat k = x ∧ t.mem = s.mem ∧ rest t
    let d := die.toNat
    let jn := 64 + j.toNat
    let hot := f.sensor d idx.toNat
    let dip := f.sensor d jn
    let low : Sensor := { valid := true, alarm := dip.alarm || decide (v.toNat < 520), value := if dip.valid ∧ dip.value.toNat ≤ v.toNat then dip.value else v }
    let bit : BitVec 8 := BitVec.ofNat 8 (2 ^ d)
    (f.power = .on → sense (.sensorSample die 0 idx v) idx.toNat { valid := true, alarm := hot.alarm || decide (95 * 16 ≤ v.toInt), value := v } (fun t =>
      (95 * 16 ≤ v.toInt → t.firefly.hold = f.hold ||| bit) ∧
      (v.toInt < 90 * 16 → (∀ k, k < 64 → k ≠ idx.toNat → (f.sensor d k).value.toInt < 90 * 16) → Sparse.wf Sensor.none f.sensors = true →
        t.firefly.hold = f.hold &&& ~~~bit) ∧
      (105 * 16 ≤ v.toInt → t.firefly.power = .cut ∧ t.firefly.lastDown = 4) ∧ (v.toInt < 105 * 16 → t.firefly.power = .on))) ∧
    (f.power = .stopped ∨ f.power = .dumping → 105 * 16 ≤ v.toInt → ∃ t, exec (.sensorSample die 0 idx v) s = .next t ∧ t.firefly.power = .cut ∧
      t.firefly.lastDown = 4) ∧
    (f.power = .on → j.toNat < 32 → v.toNat < 520 → 500 ≤ v.toNat →
      sense (.droopAlarm die j v) jn low (fun t => t.firefly.power = .on) ∧
      sense (.sensorSample die 1 (j.setWidth 6) v) jn low (fun t => t.firefly.power = .on)) ∧
    (f.power = .on → v.toNat < 500 → sense (.droopFatal die j v) jn low (fun t => t.firefly.power = (if f.dumpValid then .stopped else .dumping))) ∧
    (f.power = .on → 520 ≤ v.toNat → sense (.sensorSample die 1 (j.setWidth 6) v) jn low (fun t => t.firefly.power = .on ∧ t.cores = s.cores)) ∧
    (f.power = .on → idx.toNat < 16 → sense (.sensorSample die 2 idx v) (96 + idx.toNat)
      { f.sensor d (96 + idx.toNat) with valid := true, value := v } (fun t => t.firefly.power = .on)) ∧
    sense (.droopRead die j v) jn { dip with valid := true, value := v } (fun _ => True) ∧
    (value.getLsbD 0 = true → (s.partN part.toNat).state ≠ 0 → ∃ t, exec (.hostattn part value) s = .next t ∧
      let p := s.partN part.toNat
      let q := t.partN part.toNat
      (p.attn.length < 64 → q = { p with attn := p.attn ++ [value.extractLsb' 16 16] }) ∧ (64 ≤ p.attn.length → q = { p with attnDrop := true })) ∧
    (∀ c l, (s.partN part.toNat).attn = c :: l → ∃ t, exec (.hostattnCodeRead part) s = .next t ∧
      t.partN part.toNat = { s.partN part.toNat with attn := l, attnRead := c }) ∧
    exec (.dumpvalidRelease value) s = .next { s with firefly := { f with dumpValid := f.dumpValid && !value.getLsbD 14 } } ∧
    exec (.registerWrite .benale 0 (value.setWidth 64)) s = .next { s with firefly := { f with dumpValid := f.dumpValid && !value.getLsbD 14 } } ∧
    (value.getLsbD 22 = true → idx.toNat < 64 → Sparse.wf Sensor.none f.sensors = true →
      sense (.registerWrite .benale (BitVec.ofNat 16 (0x1000 + 0x200 * d + 4 * idx.toNat)) (value.setWidth 64)) idx.toNat { hot with alarm := false } (fun _ => True)) ∧
    (f.minimal = true → (s.answers package fn .bar0 = true ↔ package = 0 ∧ fn = 0)) ∧
    (∀ p, s.behind package fn = some p → p.port = 4 * package.toNat + fn.toNat ∧ p.wings ≠ 0 ∧
      (f.minimal = false → s.answers package fn .config = true ∧ s.answers package fn .bar0 = true ∧ s.answers package fn .bar2 = p.up)) ∧
    (s.answers package fn .bar0 = true → s.windowRead (.host package fn) 0 = f.bootstat.setWidth 64 ∧
      exec (.registerWrite (.host package fn) 8 (value.setWidth 64)) s = exec (.start value) s ∧
      ∀ p, s.behind package fn = some p → p.pnum < 8 →
        exec (.registerWrite (.host package fn) 0x10 (value.setWidth 64)) s = exec (.hostattn (BitVec.ofNat 3 p.pnum) value) s ∧
        (k < 64 → ∃ t, exec (.registerWrite (.host package fn) (BitVec.ofNat 16 (0x100 + 8 * k)) x) s = .next t ∧ t.mem = s.mem ∧
          ((t.partN p.pnum).msix.toList.getD (k / 2) 0).extractLsb' (64 * (k % 2)) 64 = x)) ∧
    ((s.answers package fn .bar0 = false ∨ offset ≠ 8 ∧ offset ≠ 0x10 ∧ (offset.toNat < 0x100 ∨ 0x300 ≤ offset.toNat)) →
      exec (.registerWrite (.host package fn) offset x) s = .next s) ∧
    (∀ p, exec (.registerWrite (.partitionOs p) offset (value.setWidth 64)) s = .next s)

/-! ## The frame of register syllables -/

namespace Sys2Proof.Certificates

/-- The scalar and predicate destinations of a register syllable. -/
def scalarDests : Instr → List SRegNo
  | .add _ rd .. | .sub _ rd .. | .mul _ rd .. | .mulh _ rd .. | .mulhu _ rd .. | .div _ rd .. | .divu _ rd .. | .rem _ rd .. | .remu _ rd ..
  | .and _ rd .. | .or _ rd .. | .xor _ rd .. | .andn _ rd .. | .shl _ rd .. | .shr _ rd .. | .sar _ rd .. | .rot _ rd .. | .min _ rd ..
  | .max _ rd .. | .minu _ rd .. | .maxu _ rd .. | .clz _ rd .. | .ctz _ rd .. | .popc _ rd .. | .mov _ rd .. | .addi _ rd .. | .andi _ rd ..
  | .ori _ rd .. | .xori _ rd .. | .shli _ rd .. | .shri _ rd .. | .sari _ rd .. | .li _ rd .. | .lih _ rd .. | .bext _ rd .. | .bins _ rd ..
  | .sel _ rd .. | .pcnt _ rd .. | .movs _ rd .. | .feat _ rd .. | .mstat _ rd => [rd]
  | .estat _ _ rd => [rd]
  | .tagx _ _ rs _ => [rs]
  | .getc _ sd _ => if sd.getLsbD 0 then [sd] else [sd, sd ||| 1]
  | .addd _ dd .. | .subd _ dd .. | .adddi _ dd .. | .shld _ dd .. | .tagd _ dd .. => [dd ++ 0#1, dd ++ 1#1]
  | _ => []

def predDests : Instr → List PNum
  | .cmp _ pd .. | .cmpi _ pd .. | .pand _ pd .. | .por _ pd .. | .pxor _ pd .. | .pnot _ pd .. | .pmov _ pd .. | .pany _ pd .. | .pall _ pd ..
  | .pset _ pd .. => [pd]
  | .vcmp _ _ _ pd .. | .vicmp _ _ _ pd .. => [pd]
  | .punpk .. => [1, 2, 3, 4, 5, 6, 7]
  | _ => []

/-- The first vector register that a register syllable writes. -/
def vectorDest : Instr → Option VNum
  | .vadd _ _ _ vd .. | .vsub _ _ _ vd .. | .vmul _ _ _ vd .. | .vdiv _ _ _ vd .. | .vfma _ _ _ vd .. | .vfms _ _ _ vd .. | .vfnma _ _ _ vd ..
  | .vsqrt _ _ _ vd .. | .vrsqrt _ _ _ vd .. | .vrcp _ _ _ vd .. | .vexp _ _ _ vd .. | .vexp2 _ _ _ vd .. | .vlog _ _ _ vd .. | .vlog2 _ _ _ vd ..
  | .vsin _ _ _ vd .. | .vcos _ _ _ vd .. | .vtanh _ _ _ vd .. | .vsigm _ _ _ vd .. | .vmin _ _ _ vd .. | .vmax _ _ _ vd .. | .vabs _ _ _ vd ..
  | .vneg _ _ _ vd .. | .vround _ _ _ vd .. | .vclamp _ _ _ vd .. | .vsel _ _ _ vd .. | .vcvt _ _ _ vd .. | .vqnt _ _ _ vd .. | .vscl _ _ _ vd ..
  | .vred _ _ _ vd .. | .vmscl _ _ _ vd .. | .viadd _ _ _ vd .. | .visub _ _ _ vd .. | .vimul _ _ _ vd .. | .vimin _ _ _ vd .. | .vimax _ _ _ vd ..
  | .vand _ _ _ vd .. | .vor _ _ _ vd .. | .vxor _ _ _ vd .. | .vnot _ _ _ vd .. | .vshl _ _ _ vd .. | .vshr _ _ _ vd .. | .vsar _ _ _ vd ..
  | .vbcast _ _ _ vd .. | .viota _ _ _ vd | .qrnd _ _ _ vd .. | .jget _ _ _ vd .. | .jscale _ _ _ vd .. => some vd
  | .vperm _ _ vd .. | .qst _ _ vd .. | .jseed _ _ vd .. | .jset _ _ vd .. | .xlg _ _ vd .. | .movv _ _ vd .. => some vd
  | .pack _ _ vd .. | .unpk _ _ vd .. => some vd
  | .ppack _ vd => some vd
  | _ => none

/-- The quire register that a register syllable writes. -/
def quireDest : Instr → Option QNum
  | .qclr _ _ q | .qneg _ _ q => some q
  | .qmac _ _ _ q .. | .qmsb _ _ _ q .. | .qadd _ _ _ q .. => some q
  | .qaddq _ _ q _ | .qmov _ _ q _ => some q
  | .qrnd _ _ _ _ q => some q
  | _ => none

/-- The syllables that only write registers. -/
def registerOnly (i : Instr) : Bool :=
  !(scalarDests i).isEmpty || !(predDests i).isEmpty || (vectorDest i).isSome || (quireDest i).isSome

/-- A result of a register syllable goes to its destination; vector results to the first eight registers from it at most, and the
flags to JF. -/
def reaches (i : Instr) : Landing → Prop
  | .scalar r _ _ => r ∈ scalarDests i ∧ r ≠ 0
  | .pred p _ _ => p ∈ predDests i ∧ p ≠ 0
  | .vector v _ _ _ _ => ∃ vd, vectorDest i = some vd ∧ (v - vd).toNat < 8
  | .scale v _ _ _ _ => match i with | .vqnt _ _ _ _ _ vs .. => v = vs | _ => False
  | .quires ops => ∃ q : QNum, quireDest i = some q ∧ ∀ x ∈ ops, x.1 / 128 = q.toNat
  | .flags _ => (vectorDest i).isSome
  | _ => False

end Sys2Proof.Certificates

/-- R124, R251, R277, R280. A syllable of the register classes whose bundle's faults have been judged changes nothing but what is in flight
and the hold latches: memory, every register, the program counter and the special registers read as before; what it adds to the flight goes
to its own destinations, and s0 and p0 receive nothing. -/
def Obligations.RegisterSyllablesLeaveTheRest : Prop :=
  ∀ (s t : State) (i : Instr), registerOnly i = true → s.issue.passed = true → s.issue.jo < 4 → exec i s = .next t →
    t = s.withCur { s.cur with flight := t.cur.flight, seq := t.cur.seq, latches := t.cur.latches } ∧
    (∀ f ∈ s.cur.flight, f ∈ t.cur.flight) ∧ (∀ f ∈ t.cur.flight, f ∈ s.cur.flight ∨ (s.cur.clk < f.land ∧ reaches i f.what))

/-! ## System registers, prefixes and result queues -/

/-- R144, R243, R245, R352, R353. GETC and FEAT give the register or feature word to a scalar, or to a pair for an even destination; SETC
writes, two cycles later, the bits that R144 lets the task write; EXT gives its bundle an immediate, and REP names the next repeat or ends. -/
def Obligations.SystemRegistersAndPrefixes : Prop :=
  ∀ (s : State) (h : Head) (r : SRegNo) (idx : BitVec 8) (n : BitVec 12) (value : BitVec 32) (cnt : BitVec 6) (str : Bool) (step : BitVec 28),
    let odd := r.getLsbD 0
    let x : DWord := if odd then (s.cur.s r).setWidth 64 else s.cur.d (BitVec.ofNat 4 (r.toNat / 2))
    let writable : DWord := match idx.toNat with
      | 0x00 => if s.cur.parked.isSome then BitVec.allOnes 64 else 0
      | 0x03 | 0x07 => BitVec.allOnes 64
      | 0x05 => 3 | 0x06 => 0x7_FFFF | 0x08 => 0x1FF_FFFF_FFFF | 0x09 => 1 | 0x0A => 0x0FFF_00F0_0000_0000 | 0x0E => 0xFF
      | 0x0F => 0x0000_FFF0_00FF_FF00 | _ => 0
    let mask : DWord := writable &&& (if odd then 0xFFFF_FFFF else BitVec.allOnes 64)
    let setc := Instr.setc h r idx
    (Issues s (.getc h r idx) [] → exec (.getc h r idx) s = .next (s.withCur
      (if odd then s.cur.pushS r ((s.sysValue idx.toNat).setWidth 32) false 2
       else s.cur.pushD (BitVec.ofNat 4 (r.toNat / 2)) (s.sysValue idx.toNat) false 2))) ∧
    (s.cur.parked = none → s.sysValue 0x04 = BitVec.ofNat 64 s.cur.clk) ∧
    (∀ p, s.cur.parked = some p → s.sysValue 0x04 = BitVec.ofNat 64 p.c) ∧
    (Issues s (.feat h r n) [] → exec (.feat h r n) s = .next (s.withCur (s.cur.pushS r (BitVec.ofNat 32 (s.feature n.toNat)) false 2))) ∧
    (Issues s setc [] → mask = 0 → exec setc s = .next s) ∧
    (Issues s setc [] → mask ≠ 0 → exec setc s = .next (s.withCur (s.cur.push 2 (.sysreg idx.toNat mask x)))) ∧
    (Issues s (.ext h value) [] → exec (.ext h value) s = .next { s with issue := { s.issue with ext := some value } }) ∧
    (∀ w, Issues s (.rep h cnt str step) [] → s.issue.word = some w →
      let j := (match s.cur.rep with | some q => q.j | none => 0) + 1
      exec (.rep h cnt str step) s = .next (s.withCur { s.cur with rep := if j ≤ cnt.toNat then some { word := w, j := j } else none }))

/-! ## Engine commands and waits -/

/-- R134, R184, R338 to R346. An engine command that raises no fault joins the open batch and waits for its start cycle, which is its offset
after this cycle, or 0 in handler mode; its operands are those of this cycle. One that owes an entry of a result queue takes its place.
ECLOSE, and EWAIT once few enough batches are open, close the batch; ESTAT counts. -/
def Obligations.EngineCommandsJoinTheirBatch : Prop :=
  ∀ (s : State) (h : Head) (eq rq : QNum) (start : BitVec 12) (dst src flag mask : DNum) (len line : SRegNo) (idx : VNum) (esz : BitVec 2)
    (lossy : Bool) (m : BitVec 4) (n : BitVec 8) (i : Instr),
    (s.issue.passed = true → s.acts i = true →
    let c := s.cur
    let size := (c.s len).toNat
    let w := match esz.toNat with | 0 => 1 | 1 => 2 | 2 => 4 | _ => 64
    let places : List Nat := (List.range size).map (fun l => ((c.v idx).lane l).toNat)
    let command (e : QNum) (cmd : Cmd) : Command :=
      { num := c.cmdSeq + 1, eq := e, start := if c.parked.isSome then 0 else c.clk + start.toNat, batch := c.openB.num, bundle := c.bundle,
        handler := c.parked.isSome, cmd := cmd, closed := false, owed := 0, begun := false, asked := false, pend := false, got := [], flag := none }
    let joins (u : State) (e : QNum) (cmd : Cmd) : State := u.withCur { u.cur with
      cmdSeq := c.cmdSeq + 1
      waiting := c.waiting ++ [command e cmd]
      openB := { c.openB with left := c.openB.left + 1, total := c.openB.total + 1 } }
    let place (parts : Nat) : QEntry :=
      { request := s.nextReq, owed := parts, ready := 0, handler := c.parked.isSome, kind := 2, lanes := BitVec.allOnes 128, value := 0, poison := 0, status := 0,
        engine := true }
    let owes (q : QNum) (parts : Nat) : State :=
      { s with
        nextReq := s.nextReq + 1
        issue := { s.issue with opened := s.issue.opened ++ [q.toNat] }
        cur := { c with rq := c.rq.set q.toNat (c.rq[q.toNat]'q.isLt ++ [place parts]) q.isLt } }
    (i = .cpy h eq start dst src len → exec i s = .next (joins s eq (.cpy (c.d dst) (c.d src) size))) ∧
    (i = .gth h eq start dst src idx len esz → exec i s = .next
      (if dst = 0 then joins (owes eq 1) eq (.gth 0 (c.d src) true places w s.nextReq) else joins s eq (.gth (c.d dst) (c.d src) false places w 0))) ∧
    (i = .sct h eq start dst src idx len esz → exec i s = .next (joins s eq (.sct (c.d dst) (c.d src) places w))) ∧
    (i = .wld h eq start src line len → exec i s = .next (joins s eq (.wld (c.d src) (c.s line).toNat size))) ∧
    (i = .rwr h eq start dst src len flag lossy mask → exec i s = .next
      (joins s eq (.rwr (c.d dst) (c.d src) size (c.d flag) lossy (if lossy then c.d mask else 0)))) ∧
    (i = .rwg h eq start dst src len flag lossy mask → exec i s = .next (joins s eq (.rwg (c.d dst) (c.d src) size (c.d flag)))) ∧
    (i = .rrd h eq start src rq len → exec i s = .next
      (joins (owes rq (if (c.d src).toNat / 2 ^ 60 = 5 then (size + 63) / 64 else 1)) eq (.rrd (c.d src) size rq s.nextReq))) ∧
    (i = .collGrp h eq start dst src len flag line → exec i s = .next (joins s eq (.coll (c.d dst) (c.d src) size (c.d flag) 0 (c.s line).toNat))) ∧
    (i = .collMod h eq start dst src len flag line → exec i s = .next (joins s eq (.coll (c.d dst) (c.d src) size (c.d flag) 1 0))) ∧
    (i = .collLossy h eq start dst src len flag line → exec i s = .next (joins s eq (.coll (c.d dst) (c.d src) size (c.d flag) 2 0))) ∧
    (i = .qfence h start m → exec i s = .next (joins s 0 (.qfence m)))) ∧
    (Issues s (.eclose h) [] → (s.issue.passed = true ∨ s.cur.mayClose = true) → exec (.eclose h) s = .next (s.withCur s.cur.closeBatch)) ∧
    (Issues s (.ewait h n) (s.failureTraps (.ewait h n) false) → s.cur.mayClose = true → s.cur.closeBatch.closedB.length ≤ n.toNat →
      exec (.ewait h n) s = .next (s.withCur s.cur.closeBatch)) ∧
    (Issues s (.estat h eq len) [] → ∃ v : Word, exec (.estat h eq len) s = .next (s.withCur (s.cur.pushS len v false 2)) ∧
      (v.extractLsb' 0 5).toNat = (s.cur.eqs[eq.toNat]'eq.isLt).length % 32 ∧
      (v.extractLsb' 11 8).toNat = min 255 s.cur.closedB.length ∧ (v.extractLsb' 19 8).toNat = min 255 s.cur.openB.total)

/-- R132, R133, R351. POP takes the oldest entry of its queue when that is poppable: value and poison to its destination,
the status to ESTAT; POP.F says in its predicate whether there was one, and POP.W waits where there will be one. R275,
R276. WAITGE and WAITEQ: on the own cluster the bundle leaves, with the next one four cycles later at the earliest, once
the word meets the condition at the start of a bank cycle from I + 4 on, and waits until then; elsewhere one watch goes to
the word's slice, and the bundle leaves once its reply has come. A bundle that waits keeps the word as it stands at the
start of the next bank cycle. A bundle that leaves changes nothing else. The cycles in which a word is tested are the
model's reading (log entry 34). -/
def Obligations.PopsAndWordWaits : Prop :=
  (∀ (s : State) (h : Head) (d : VNum) (q : QNum) (kind : BitVec 2) (pn : PNum) (e : QEntry) (l : List QEntry),
    let w := Instr.popW h d q kind
    let f := Instr.popF h d q kind pn
    let c := s.cur
    let rest : Ctx := { c with rq := c.rq.set q.toNat l q.isLt }
    let takes : Ctx := (match kind.toNat with
      | 0 => rest.pushS (d.setWidth 5) (e.value.setWidth 32) (e.poison.getLsbD 0) 1
      | 1 => rest.pushD (d.extractLsb' 1 4) (if e.poison.getLsbD 0 then 0 else e.value.setWidth 64) (e.poison.getLsbD 0) 1
      | _ => rest.pushV d 0xFF (e.lanes &&& c.guardLanes h) e.value e.poison 1).push 2 (.popped q e.status)
    (c.rq[q.toNat]'q.isLt = e :: l → e.owed = 0 → e.kind = kind.toNat → c.parked = none → e.ready ≤ c.clk →
      (Issues s w [] → exec w s = .next (s.withCur takes)) ∧
      (Issues s f [] → exec f s = .next (s.withCur (takes.pushP pn (BitVec.allOnes 128) (BitVec.allOnes 128) 1)))) ∧
    (c.poppable q = none → Issues s f [] → exec f s = .next (s.withCur (c.pushP pn (BitVec.allOnes 128) 0 1))) ∧
    (c.poppable q = none → c.rq[q.toNat]'q.isLt ≠ [] → c.clk < c.since + 2 ^ 20 → Issues s w [] →
      ∃ t, exec w s = .next t ∧ t.issue.stalled = true ∧ t.mem = s.mem ∧ t.cur.rq = c.rq ∧ t.cur.flight = c.flight) ∧
    (s.issue.passed = false → c.rq[q.toNat]'q.isLt = [] → s.acts w = true → ∃ t : Trap,
      causeCode t.cause ≤ causeCode .queueEmpty ∧ exec w s = .next (s.takeTrap 0 t))) ∧
  (∀ (s : State) (h : Head) (da : DNum) (off : BitVec 24) (sc : Scope) (rs : SRegNo) (i : Instr) (ge : Bool),
    (i = .waitge h da off sc rs ∧ ge = true ∨ i = .waiteq h da off sc rs ∧ ge = false) → Issues s i (s.waitTraps i da off rs) →
    let l := (s.placeAt da off 4 .wait ⟨0, 0, 4⟩).1
    let word : Word := BitVec.ofNat 32 (s.siteRead [] l.site l.off 4)
    let seen : Option Word := s.cur.wait.bind (·.seen)
    let holds (word : Word) : Bool := if ge then decide ((word - s.cur.s rs).toNat < 2 ^ 31) else word == s.cur.s rs
    let waits (t : State) : Prop := exec i s = .next t ∧ t.issue.stalled = true ∧ t.mem = s.mem ∧ t.cur.flight = s.cur.flight ∧ t.cur.clk = s.cur.clk
    let leaves : State := { s with issue := { s.issue with gap := if l.fixed then max s.issue.gap 4 else s.issue.gap } }
    (s.issue.passed = true → exec i s = .next leaves) ∧
    (∀ w n, s.cur.wait = some w → w.met = some n → exec i s = .next leaves) ∧
    (s.issue.passed = false → s.acquiring = false → (∀ w, s.cur.wait = some w → w.met = none) →
      (∀ x, l.fixed = true → seen = some x → holds x = true → s.cur.since + 4 ≤ s.cur.clk → exec i s = .next leaves) ∧
      (l.fixed = true → ((∀ x, seen = some x → holds x = false) ∨ s.cur.clk < s.cur.since + 4) → ∃ t w, waits t ∧ t.requests = s.requests ∧
        t.cur.wait = some w ∧ w.seen = some word) ∧
      (l.fixed = false → s.cur.wait.bind (·.watch) = none → ∃ t r w, waits t ∧ t.requests = s.requests ++ [r] ∧ r.addr = l.addr ∧
        r.ask = .wait ge (s.cur.s rs) ∧ t.cur.wait = some w ∧ w.watch = some r.id) ∧
      (l.fixed = false → (s.cur.wait.bind (·.watch)).isSome = true → ∃ t, waits t ∧ t.requests = s.requests)))

/-! ## Control cores, partitions and the dispatcher -/

/-- R77 to R79, R162, R171. DLAUNCH at S level submits the record at its address and answers status, field and handle; DEVQ pops the oldest event record to memory. At U level both are
illegal instructions; a misaligned address and one without a translation raise exceptions, and x0 stays zero. An address whose page lives at a peer is asked for there first. The core's exception entry
is the model's (log entry 3).
R97, R98, R101. A submission that is accepted appends one entry to the Hive under the next handle, which is never 0, and answers status 0; one that is refused appends none. -/
def Obligations.ControlCoresSubmitAndReadEvents : Prop :=
  (∀ (s : State) (rd rs1 : BitVec 5) (rec : BitVec 128) (l : List (BitVec 128)), s.hart < 32 →
    let c := s.coreN s.hart
    let a : DWord := if rs1 = 0 then 0 else c.xregs[rs1.toNat]'rs1.isLt
    let part := s.partOfWing s.hart
    let key := farKey s.hart (coreDie a) (coreOff a)
    let far (used : Bool) (k : Nat) : List (Nat × Option Nat) :=
      if used = true ∧ k = part then (s.partN k).far.filter (fun x => x.1 / 2 ^ 65 != s.hart) else (s.partN k).far
    let traps (i : Instr) (cause : Nat) (tval : DWord) (used : Bool) : Prop := ∃ t, exec i s = .next t ∧ t.mem = s.mem ∧
      (∀ k, k < 8 → t.partN k = { s.partN k with far := far used k }) ∧
      t.coreN s.hart = c.except cause tval
    let reads (t : State) (v : DWord) : Prop := (t.coreN s.hart).pc = c.pc + 4 ∧ ∀ r : BitVec 5, (t.coreN s.hart).xregs[r.toNat]'r.isLt =
      if r = rd ∧ rd ≠ 0 then v else c.xregs[r.toNat]'r.isLt
    let asks (i : Instr) (write : Nat) : Prop := ∃ t, exec i s = .next t ∧ t.mem = s.mem ∧ t.cores = s.cores ∧ t.parts = s.parts ∧
      ∃ r ∈ t.requests, r.uid = 0 ∧ r.sink = .record ∧ r.part = part ∧ r.home = some (globalPointer (coreDie a) (coreOff a)) ∧ r.swarm = 2 * s.hart + write
    let popped (t : State) : Prop := reads t (BitVec.ofNat 64 (min l.length 0xFFFF * 2 ^ 16 + 1)) ∧ (t.coreN s.hart).queue = l
    (c.priv = 0 → traps (.dlaunch rd rs1) 2 ((encodeRv (.dlaunch rd rs1)).setWidth 64) false ∧ traps (.devq rd rs1) 2 ((encodeRv (.devq rd rs1)).setWidth 64) false) ∧
    (c.priv ≠ 0 → a.toNat % 64 ≠ 0 → traps (.dlaunch rd rs1) 4 a false) ∧ (c.priv ≠ 0 → a.toNat % 16 ≠ 0 → traps (.devq rd rs1) 6 a false) ∧
    (c.priv ≠ 0 → a.toNat % 64 = 0 → s.coreRead a 64 = .denied → traps (.dlaunch rd rs1) (if c.virt then 21 else 13) a true) ∧
    (c.priv ≠ 0 → a.toNat % 64 = 0 → s.coreRead a 64 = .away → asks (.dlaunch rd rs1) 0) ∧
    (∀ p, s.coreAddr a false = some p → s.coreRead a 64 = .got (Memory.readNat s.mem p 64)) ∧
    (∀ x, c.priv ≠ 0 → a.toNat % 64 = 0 → s.coreRead a 64 = .got x → s.descsAway s.hart part (BitVec.ofNat 512 x) = [] →
      let r := (s.coreKeep a 64).submit part s.hart none (BitVec.ofNat 512 x)
      ∃ t, exec (.dlaunch rd rs1) s = .next t ∧ reads t (BitVec.ofNat 64 (r.2.status * 2 ^ 48 + r.2.field * 2 ^ 32 + r.2.handle)) ∧
        t.parts = r.1.parts ∧ t.mem = s.mem) ∧
    (c.priv ≠ 0 → a.toNat % 16 = 0 → c.queue = [] → ∃ t, exec (.devq rd rs1) s = .next t ∧ reads t 0 ∧ t.mem = s.mem) ∧
    (∀ p, c.priv ≠ 0 → a.toNat % 16 = 0 → c.queue = rec :: l → s.coreAddr a true = some p → s.mem.wf = true →
      (∀ m, (s.dieRec (coreDie a)).migOf part (coreOff a) = some m → (s.dieRec (coreDie a)).heldEntries < Config.holdQueueEntries) →
      ∃ t, exec (.devq rd rs1) s = .next t ∧ popped t ∧ Memory.readNat t.mem p 16 = rec.toNat ∧
        ∀ x, x < p ∨ p + 16 ≤ x → Memory.read t.mem x = Memory.read s.mem x) ∧
    (c.priv ≠ 0 → a.toNat % 16 = 0 → c.queue = rec :: l → s.coreAddr a true = none → s.coreFar a true = true →
      ((s.partN part).farAnswer (key true) = .away → asks (.devq rd rs1) 1) ∧
      (∀ x, (s.partN part).farAnswer (key true) = .got x → ∃ t, exec (.devq rd rs1) s = .next t ∧ popped t) ∧
      ((s.partN part).farAnswer (key true) = .denied → traps (.devq rd rs1) (if c.virt then 23 else 15) a true)) ∧
    (c.priv ≠ 0 → a.toNat % 16 = 0 → c.queue ≠ [] → s.coreAddr a true = none → s.coreFar a true = false →
      traps (.devq rd rs1) (if c.virt then 23 else 15) a true)) ∧
  (∀ (s : State) (part core : Nat) (parent : Option (Nat × Nat × Nat × Nat)) (rec : BitVec 512), part < 8 →
    let r := s.submit part core parent rec
    let p := s.partN part
    r.1.mem = s.mem ∧ (∀ k, k ≠ part → k < 8 → r.1.partN k = s.partN k) ∧
    (r.2.status ≠ 0 → (r.1.partN part).hive = p.hive ∧ (r.1.partN part).nextHandle = p.nextHandle ∧ r.2.handle = 0) ∧
    (r.2.status = 0 → r.2.handle = p.nextHandle ∧ ∃ l : Launch, (r.1.partN part).hive = p.hive ++ [l] ∧ l.handle = p.nextHandle ∧ l.record = rec ∧
      l.core = core ∧ l.next = 0 ∧ l.ended = 0 ∧ l.fault = none ∧ l.device = rec.toNat / 2 ^ 80 % 256 ∧ l.prio = rec.toNat / 2 ^ 88 % 256 ∧
      (r.1.partN part).nextHandle ≠ 0 ∧ ((p.nextHandle + 1) % 2 ^ 32 ≠ 0 → (r.1.partN part).nextHandle = (p.nextHandle + 1) % 2 ^ 32)))

/-- R85 to R89, R21. A partition reset drops its launches, images, contexts and accesses and scrubs its wings and those on
their way from it, also under a scrub of an earlier reset; once its wings are scrubbed it waits to boot. RELEASE takes a
wing whose core is offline and that holds no task out of its partition, and its scrub starts; ASSIGN gives a scrubbed wing
to a partition, whose dispatcher uses the wing's tiles from CORE_ONLINE on. Termite's units advance DONE and PHASE and
erase their tile, scratchpad or frame, and after the key slots the wing's scrub is done. What a partition reset leaves,
and which of two codes is answered, is the model's choice (log entries 29, 55). -/
def Obligations.PartitionsAndWings : Prop :=
  ∀ (s : State) (part : BitVec 3) (wing : BitVec 5) (frames : List (Nat × Nat)) (p : Partition),
    let n := part.toNat
    let w := wing.toNat
    let f := s.firefly
    let bit : BitVec 32 := BitVec.ofNat 32 (2 ^ w)
    let scrub (t : State) : BitVec 3 × BitVec 24 × BitVec 24 := t.firefly.scrub[w]'wing.isLt
    let afresh (t : State) : Prop := (scrub t).1 = 1 ∧ (scrub t).2.2 = 0 ∧ t.firefly.scrubDone.getLsbD w = false
    let zeroed (t : State) (lo hi : Nat) : Prop := ∀ x, Memory.read t.mem x = if lo ≤ x ∧ x < hi then 0 else Memory.read s.mem x
    ((s.partN n).state ≠ 0 → ∃ t, exec (.partitionReset part) s = .next t ∧ (t.partN n).state = 3 ∧ (t.partN n).hive = [] ∧
      (t.partN n).images = [] ∧ (t.partN n).wings = (s.partN n).wings ∧ (∀ c ∈ t.others, c.part ≠ n) ∧ (∀ r ∈ t.requests, r.part ≠ n) ∧ t.mem = s.mem ∧
      (∀ k, k < 8 → k ≠ n → t.partN k = s.partN k) ∧ ((∃ m ∈ f.moving, m.1 = w ∧ m.2.1 = n) → afresh t) ∧
      ((s.partN n).wings.getLsbD w = true → afresh t ∧ ((∀ m ∈ f.moving, m.1 ≠ w) → (scrub t).2.1 = 480) ∧ t.cores[w]'wing.isLt = Core.reset)) ∧
    ((s.partN n).state = 3 → (∀ k, k < 32 → (s.partN n).wings.getLsbD k = true → f.scrubDone.getLsbD k = true) →
      ∃ t, exec (.partitionReboot part) s = .next t ∧ t.partN n = { s.partN n with state := 1 } ∧ t.firefly = f ∧ t.mem = s.mem) ∧
    (s.holderOf w = some p → s.partN p.pnum = p → p.pnum < 8 → ∃ t, exec (.release wing frames) s = .next t ∧ t.mem = s.mem ∧
      ((s.coreN w).online = true → t.firefly.moveCode = .coreOnline ∧ t.parts = s.parts) ∧
      ((s.coreN w).online = false → (∀ c ∈ s.ctxs, c.run.resident = true → wingOf c.tile ≠ w ∧ clusterOf c.tile / 4 ≠ w) → 2 ≤ p.wingList.length →
        (∀ x ∈ frames, s.owns p x = true) → t.firefly.moveCode = .ok ∧ (t.partN p.pnum).wings = p.wings &&& ~~~bit ∧
        (t.partN p.pnum).tiled = p.tiled &&& ~~~bit ∧ (t.partN p.pnum).state = (if p.state = 2 ∨ p.state = 4 then 4 else p.state) ∧
        scrub t = (1, BitVec.ofNat 24 (480 + frameUnits frames), 0) ∧ t.firefly.scrubDone = f.scrubDone &&& ~~~bit ∧
        t.firefly.moving = f.moving ++ [(w, p.pnum, frames)])) ∧
    (∃ t, exec (.assign wing part) s = .next t ∧ t.mem = s.mem ∧
      (f.scrubDone.getLsbD w = false → t.firefly.moveCode = .scrubPending ∧ t.parts = s.parts) ∧
      (f.scrubDone.getLsbD w = true → (s.partN n).state ≠ 0 → 2 ≤ (s.partN n).hbm.getD (w / 4) 0 → s.holderOf w = none → t.firefly.moveCode = .ok ∧
        (t.partN n).wings = (s.partN n).wings ||| bit ∧ (t.partN n).tiled = (s.partN n).tiled) ∧
      (f.scrubDone.getLsbD w = true → (s.holderOf w).isSome = true → t.firefly.moveCode = .badTarget ∧ t.parts = s.parts)) ∧
    (s.holderOf w = some p → p.pnum < 8 → ∃ t, exec (.coreOnline wing) s = .next t ∧
      t.cores[w]'wing.isLt = (if (s.cores[w]'wing.isLt).online then s.cores[w]'wing.isLt else (s.cores[w]'wing.isLt).forGuest) ∧
      ((s.cores[w]'wing.isLt).online = false → (t.coreN w).online = true ∧ (t.coreN w).virt = true ∧ (t.coreN w).priv = 1) ∧
      (t.partN p.pnum).tiled = (s.partN p.pnum).tiled ||| bit ∧ t.mem = s.mem) ∧
    (∃ t, exec (.coreOffline wing) s = .next t ∧ t.cores[w]'wing.isLt = { s.cores[w]'wing.isLt with online := false } ∧ t.parts = s.parts) ∧
    (∀ done : Nat, (scrub s).1 = 1 ∨ (scrub s).1 = 2 ∨ (scrub s).1 = 3 → (scrub s).2.2.toNat = done → ∃ t, exec (.termiteUnit wing) s = .next t ∧
      scrub t = (if done + 1 < 224 then 1 else if done + 1 < 480 then 2 else if done + 1 < (scrub s).2.1.toNat then 3 else 4, (scrub s).2.1, BitVec.ofNat 24 (done + 1)) ∧
      (done < 224 → t.mem = s.mem ∧ (done % 7 = 6 → ∀ c ∈ t.ctxs, c.tile = 32 * w + done / 7 →
        c.run.resident = true ∨ c.run = .saved ∨ c = { Ctx.empty with uid := c.uid, tile := c.tile })) ∧
      (224 ≤ done → done < 480 → s.mem.wf = true →
        let lo := (Region.scratch (4 * w + (done - 224) / 64)).addr ((done - 224) % 64 * 2 ^ 16)
        zeroed t lo (lo + 2 ^ 16)) ∧
      (∀ m fr o, 480 ≤ done → s.mem.wf = true → f.moving.find? (fun m => m.1 == w) = some m → frameUnit m.2.2 (done - 480) = some (fr, o) →
        zeroed t (fr.1 + o) (fr.1 + o + min (2 ^ 16) (fr.2 - o)))) ∧
    ((scrub s).1 = 4 → ∃ t, exec (.termiteKeySlots wing) s = .next t ∧ scrub t = (5, (scrub s).2.1, (scrub s).2.2) ∧
      t.firefly.scrubDone = f.scrubDone ||| bit ∧ (∀ d ∈ t.dies.toList, ∀ k ∈ d.keys.toList, ∀ q, k ≠ .wing q w) ∧ (∀ m ∈ t.firefly.moving, m.1 ≠ w) ∧ t.mem = s.mem ∧
      (∀ m, f.moving.find? (fun m => m.1 == w) = some m → m.2.1 < 8 → (∀ y ∈ f.moving, y.1 ≠ w → y.2.1 ≠ m.2.1) →
        (t.partN m.2.1).state = if (s.partN m.2.1).state = 4 then 2 else (s.partN m.2.1).state))

/-- R90 to R93, R75, R67. VDCFG answers the first code that applies, or enables, changes or disables its device. A refill
gives each device its share of the period's tokens; with no debts and no pending work, a balance grows by its cap and
stays at most twice the cap. GRENZOR refuses an image with the code of its first failing check and loads another under the
next handle, with a free slot within the partition's share for every slot that its pairs want, where there is one; UNLOAD takes it out unless
a launch uses it. The handle, the place of the code and the order of the answers are the model's choice (log entries 4,
29, 52, 53). -/
def Obligations.DevicesAndImages : Prop :=
  ∀ (s : State) (part : BitVec 3) (vd weight quantum priomax enable off len : Nat) (sig : Bool) (handle : BitVec 64),
    let n := part.toNat
    let p := s.partN n
    let cfg := Instr.vdcfg part vd weight quantum priomax enable
    let code (i : Instr) (k : Nat) (f : State → Prop) : Prop := ∃ t, exec i s = .next t ∧ (t.partN n).lastCode = k ∧ f t
    let same (t : State) : Prop := (t.partN n).devices = p.devices
    let some_ : Prop := ∃ d ∈ p.devices, d.vd ≠ vd ∧ d.weightNext ≠ 0
    let others : Prop := weight ≠ 0 ∨ some_
    let up : Prop := p.state ≠ 0 ∧ p.state ≠ 3
    let ranged : Prop := vd ≤ 63 ∧ weight ≤ 65535 ∧ quantum ≤ 65535 ∧ priomax ≤ 7
    (p.state ≠ 0 → (63 < vd ∨ 65535 < weight ∨ 65535 < quantum ∨ 7 < priomax ∨ 1 < enable) → code cfg 3 same) ∧
    (p.state ≠ 0 → ranged → enable = 1 → quantum = 0 → code cfg 1 same) ∧
    (p.state ≠ 0 → ranged → enable = 0 → (∃ l ∈ p.hive, l.device = vd) → code cfg 5 same) ∧
    (p.state ≠ 0 → ranged → enable = 1 → quantum ≠ 0 → ¬others → code cfg 4 same) ∧
    (p.state ≠ 0 → ranged → enable = 1 → quantum ≠ 0 → others → p.dev vd = none → code cfg (if quantum < 52 then 2 else 0) (fun t =>
      ∃ d ∈ (t.partN n).devices, d.vd = vd ∧ d.weight = weight ∧ d.quantum = quantum ∧ d.priomax = priomax ∧ d.soft = decide (quantum < 52) ∧ d.balance = 0)) ∧
    (∀ e, p.state ≠ 0 → ranged → enable = 1 → quantum ≠ 0 → others → p.dev vd = some e → code cfg (if quantum < 52 then 2 else 0) (fun t =>
      { e with pending := some (weight, quantum, priomax, decide (quantum < 52)) } ∈ (t.partN n).devices)) ∧
    (p.state ≠ 0 → ranged → enable = 0 → (∀ l ∈ p.hive, l.device ≠ vd) → (∀ d ∈ p.devices, d.vd = vd) ∨ some_ → code cfg 0 (fun t =>
      (t.partN n).devices = (p.devices.filter (fun d => d.vd != vd)).map (fun d => { d with debts := d.debts.filter (fun x => x.lender != vd) }))) ∧
    (p.state ≠ 0 → ranged → enable = 0 → (∀ l ∈ p.hive, l.device ≠ vd) → (∃ d ∈ p.devices, d.vd ≠ vd) → ¬some_ → code cfg 4 same) ∧
    (p.state = 2 ∨ p.state = 4 → (∀ d ∈ p.devices, d.debts = [] ∧ d.pending = none ∧ p.busy d.vd = false) → ∃ t, exec (.refill part) s = .next t ∧ t.mem = s.mem ∧
      t.cycle = max s.cycle (p.bootAt + (p.refills + 1) * p.period * Config.cyclesPerUs) ∧
      (t.partN n).refills = p.refills + 1 ∧ (t.partN n).devices = p.devices.map (fun d =>
        let total := (p.devices.map (·.weight)).foldl (· + ·) 0
        let cap : Int := ((if total = 0 then 0 else (s.tilesOf p 0xFF).length * p.period * d.weight / total) * Config.cyclesPerUs : Nat)
        { d with balance := min d.balance cap + cap })) ∧
    (up → off + len ≤ p.hostwin * 2 ^ 28 →
      let k : Kimg := { mem := s.mem, base := (Region.host n).addr off, len := len }
      (∀ e, s.imageError n k sig = some e → e.1 < 256 → ∃ t, exec (.grenzorLoad part off len sig) s = .next t ∧ t.mem = s.mem ∧ (t.partN n).images = p.images ∧
        (t.partN n).loadResult.toNat % 256 = e.1) ∧
      (s.imageError n k sig = none →
        ∃ t slots, exec (.grenzorLoad part off len sig) s = .next t ∧ (t.partN n).nextImage = p.nextImage + 1 ∧ (t.partN n).slots = p.slots ++ slots ∧
          slots.map (fun x => (x.1, x.2.1)) = k.pairs (p.clusters 0xFF) ∧
          (∀ l x r, slots = l ++ x :: r →
            let free (k : Nat) : Prop := ∀ y ∈ slotLinks x.1 x.2.1 k, p.heldLink y = true ∧ y ∉ s.takenLinks ∧ ∀ z ∈ l, y ∉ slotLinks z.1 z.2.1 z.2.2
            (∃ k, k < 256 ∧ free k) → free x.2.2) ∧
          (t.partN n).loadResult.toNat % 256 = (if k.chosen.isSome then 0 else 1) ∧ ∃ i, (t.partN n).images = p.images ++ [i] ∧
          i.handle = BitVec.ofNat 64 p.nextImage ∧ i.entries.length = k.entryCount ∧ i.dlf = k.chosen.isNone)) ∧
    (up → ∃ t, exec (.unload part handle) s = .next t ∧ t.mem = s.mem ∧
      (p.imageOf handle = none → (t.partN n).loadResult.toNat % 256 = 0x1A ∧ (t.partN n).images = p.images) ∧
      ((p.imageOf handle).isSome = true → (∃ l ∈ p.hive, l.image = handle ∧ l.live = true) → (t.partN n).loadResult.toNat % 256 = 0x19 ∧
        (t.partN n).images = p.images) ∧
      ((p.imageOf handle).isSome = true → (∀ l ∈ p.hive, l.image = handle → l.live = false) → (t.partN n).loadResult.toNat % 256 = 2 ∧
        (t.partN n).images = p.images.filter (fun x => x.handle != handle)))

/-- R79, R100, R103, R105, R109, R171. With one device and one launch of single tasks that is ready, the selection of a
die starts its next task on the seat that the model finds: the state of the task at its first bundle is that of R105. When
every task of a launch has ended and its writes are visible, its completion flag is incremented, at the peer where its
page lives there, its record is posted to its core and it leaves the Hive. A kept record enters its queue once there is
room, which completes its launch. The order of partitions, what a flag that cannot be incremented does, and the seat, are
the model's choice (log entries 18, 20, 30, 45). -/
def Obligations.DispatchAndCompletion : Prop :=
  ∀ (s : State) (die : BitVec 3) (bases : List Nat) (p : Partition) (d : Device) (l : Launch) (i : ImageRec) (x : Seat) (part : BitVec 3) (wing : BitVec 5),
    (p ∈ s.parts.toList → (∀ q ∈ s.parts.toList, q.up = true → q = p) → p.up = true → p.devices = [d] → 0 < d.balance → p.hive = [l] → l.device = d.vd → l.prio < 8 →
      l.gang = false → (∀ k ∈ l.prereqs, k = 0) → l.die = 0xFF → l.next < l.tasks → (s.coreN l.core).kept = [] → (∀ c ∈ s.ctxs, c.run ≠ .saved) →
      p.imageOf l.image = some i → i.reserve ≤ s.hiveFree p → s.seat (needOf l i) (s.startTiles p die.toNat) bases = some x →
      ∃ t c, exec (.dispatchSelect die bases) s = .next t ∧ t.others = s.others ++ [c] ∧ t.cur = s.cur ∧ c.run = .restoring ∧ c.tile = x.tile ∧ c.slot = x.slot ∧
        c.pc = i.entries.getD l.entry 0 ∧ c.d 1 = l.args ∧ c.s 4 = BitVec.ofNat 32 (l.next % 2 ^ 16) ∧ c.s 5 = BitVec.ofNat 32 l.tasks ∧ c.s 6 = l.param ∧
        (∀ r : SRegNo, r.toNat < 2 ∨ (6 < r.toNat ∧ r.toNat < 30) → c.sreg r = SReg.zero) ∧ (∀ q : PNum, q ≠ 0 → c.p q = 0) ∧
        (∀ v : VNum, c.v v = VReg.zero) ∧ c.quires = [] ∧ c.accs = [] ∧ c.loops = [] ∧ c.flight = [] ∧ c.clk = 0 ∧ c.sys.tvec = 0 ∧ c.sys.jo = 0 ∧
        c.sys.tsm = 0 ∧ c.sys.lgdef = 0xFF ∧ c.sys.taskid = BitVec.ofNat 64 l.next ∧ c.sys.swarmid = BitVec.ofNat 64 l.handle) ∧
    (∀ k r rest, k = part.toNat → (s.partN k).hive = l :: rest → l.ended = l.tasks → l.core < 32 → (s.coreN l.core).kept = [] → (∀ y ∈ rest, y.handle ≠ l.handle) →
      l.handle < 2 ^ 32 → (s.coreN l.core).queue.length < Config.coreQueueRecords → (∀ q ∈ s.requests, q.part ≠ k ∨ q.swarm ≠ l.handle ∨ q.slice = none) →
      r = (match l.fault with
        | some f => eventRecord l.handle 2 f.2.2 l.device k l.faulted f.2.1
        | none => eventRecord l.handle 1 0 l.device k l.tasks 0) →
      let fd := l.cflag.toNat / 2 ^ 57 % 8
      let fo := l.cflag.toNat % 2 ^ 57
      (s.flagAway k l = true → ∃ t, exec (.swarmComplete part (BitVec.ofNat 32 l.handle)) s = .next t ∧ t.parts = s.parts ∧ t.cores = s.cores ∧ t.mem = s.mem ∧
        (s.settling k fd fo = false → ∃ q ∈ t.requests, q.uid = 0 ∧ q.sink = .record ∧ q.part = k ∧ q.home = some (globalPointer fd fo))) ∧
      (s.flagAway k l = false → ∃ t, exec (.swarmComplete part (BitVec.ofNat 32 l.handle)) s = .next t ∧ (t.partN k).hive = rest ∧
        (t.coreN l.core).queue = (if l.noEvent && l.fault.isNone then (s.coreN l.core).queue else (s.coreN l.core).queue ++ [r]) ∧
        (l.cflag = 0 → t.mem = s.mem) ∧
        (∀ b, l.cflag ≠ 0 → l.cflag.toNat / 2 ^ 60 = 0 → s.spot k fd fo 4 true true = .here [b, b + 1, b + 2, b + 3] → s.mem.wf = true →
          (∀ m, (s.dieRec fd).migOf k fo = some m → (s.dieRec fd).heldEntries < Config.holdQueueEntries) →
          Memory.readNat t.mem b 4 = (Memory.readNat s.mem b 4 + 1) % 2 ^ 32 ∧ ∀ y, y < b ∨ b + 4 ≤ y → Memory.read t.mem y = Memory.read s.mem y))) ∧
    (∀ r rest, (s.cores[wing.toNat]'wing.isLt).kept = r :: rest → (s.cores[wing.toNat]'wing.isLt).queue.length < Config.coreQueueRecords →
      ∃ t, exec (.eventPost wing) s = .next t ∧ (t.cores[wing.toNat]'wing.isLt).queue = (s.cores[wing.toNat]'wing.isLt).queue ++ [r] ∧
        (t.cores[wing.toNat]'wing.isLt).kept = rest ∧ t.mem = s.mem ∧
        (r.toNat / 2 ^ 32 % 256 = 1 ∨ r.toNat / 2 ^ 32 % 256 = 2 →
          ∀ y ∈ (t.partN (r.toNat / 2 ^ 56 % 8)).hive, y.handle ≠ r.toNat % 2 ^ 32))

/-! ## What happens to a context between its bundles -/

/-- R91, R107, R111, R112, R117, R133, R269. Pre-emption asks a context, with every member of its gang, softly or, where
its save area has room, hard; at its stop point, or 4,096 cycles on, its save begins, and when that ends its allocations
are copied. A tile whose bundle has waited long enough switches to its incoming context. A halted context goes on when it
is resumed; one that starts issues where no other does, and
one that was saved takes the tile from the other, for the ready context that has waited longest. A POP.W that has waited
2^20 cycles traps. When a save may end and how long it takes is the model's reading (log entries 19, 30). -/
def Obligations.PreemptionAndSwitches : Prop :=
  ∀ (s : State) (tile : BitVec 10) (slot : BitVec 2) (part : BitVec 3) (wings : BitVec 32) (c : Ctx) (d : Device),
    s.ctxAt tile.toNat slot.toNat = some c → s.ctxOf c.uid = some c →
    let becomes (i : Instr) (x : Ctx) : Prop := ∃ t, exec i s = .next t ∧ t.ctxOf c.uid = some x ∧ t.mem = s.mem
    let room (x : SaveSlot) : Prop := c.saveSlot = some x ∨ (c.saveSlot = none ∧ s.savePlan c = some x)
    let asks (i : Instr) : Prop :=
      (d.soft = true → (s.ctxs.map (·.uid)).Nodup → ∃ t, exec i s = .next t ∧ t.mem = s.mem ∧
        ∀ x ∈ s.together c, t.ctxOf x.uid = some { x with soft := true }) ∧
      (∀ x, d.soft = false → c.gang = false → room x → c.run = .issuing → c.hard = none →
        becomes i { c with hard := some s.cycle, askedAt := s.cycle, saveSlot := some x }) ∧
      (∀ x, d.soft = false → c.gang = false → room x → c.run = .ready ∨ c.run = .waiting ∨ c.run = .halted → c.parked = none →
        ∃ y, becomes i y ∧ y = { c with run := .saving, hard := none, boundary := false, wait := keptWait c.clk (c.wait.bind (·.arrived)),
                                        askedAt := s.cycle, saveSlot := some x, delay := y.delay, rep := y.rep }) ∧
      (d.soft = false → c.gang = false → c.saveSlot = none → s.savePlan c = none → becomes i c)
    let stops (i : Instr) : Prop := ∃ t, exec i s = .next t ∧ t.cur.uid = c.uid ∧ t.cur.run = .saving ∧ t.cur.hard = none ∧ t.cur.pc = c.pc ∧ t.cur.loops = c.loops
    let quantum := d.quantum * Config.cyclesPerUs
    let cl := clusterOf tile.toNat
    let v := s.passCluster cl s.cycle
    (s.deviceOf c = some d → c.run = .issuing → c.began + quantum ≤ c.module → d.balance ≤ 0 → (s.partN c.part).hasLender = false → asks (.quantumExpiry tile slot)) ∧
    (∀ m, s.deviceOf c = some d → c.stalledFrom = some m → m + quantum ≤ s.cycle → s.crowded (s.partN c.part) c.device = true → asks (.waitQuantumExpiry tile slot)) ∧
    (s.deviceOf c = some d → s.ctxs.filter (fun x => x.run.resident && x.part == part.toNat && wings.getLsbD (wingOf x.tile)) = [c] → asks (.preemptRequest part wings)) ∧
    (c.run = .issuing → (s.focus c.uid).stopDue = true → stops (.hardStop tile slot)) ∧
    (∀ m, c.run = .issuing → c.hard = some m → m + 4096 ≤ c.module → c.parked = none → (c.wait = none ∨ c.delay.isSome = true) → stops (.preempt4096Expiry tile slot)) ∧
    (c.run = .issuing → s.issuerOf tile.toNat = some c → (s.ctxs.map (·.uid)).Nodup → (s.focus c.uid).yieldDue = true → ∃ t, exec (.waitYield tile) s = .next t ∧
      t.cur.run = .issuing ∧ t.cur.tile = c.tile ∧ t.cur.uid ≠ c.uid ∧ ∃ x ∈ t.ctxs, x.uid = c.uid ∧ x.run = .waiting ∧ x.pc = c.pc) ∧
    (c.run = .halted → s.issuerOf tile.toNat = none → becomes (.debugResume tile slot) (c.restart s.cycle)) ∧
    (∀ x, c.run = .halted → s.issuerOf tile.toNat = some x → becomes (.debugResume tile slot) { c with run := .ready }) ∧
    (∀ e, v.ctxAt tile.toNat slot.toNat = some e → v.ctxOf e.uid = some e → e.run = .saving → v.mayFinishSave e = true → ∃ t, exec (.saveComplete tile slot) s = .next t ∧
      t.ctxOf e.uid = some { e with run := .saved, copies := e.allocs.map (fun a => (a.atag, savedCopy v.mem (clusterOf e.tile) a)) } ∧
      (e.saveSlot = none → t.mem = v.mem) ∧
      (∀ x, e.saveSlot = some x → v.mem.wf = true → ∀ y, y < v.saveBase e.part x.die → Memory.read t.mem y = Memory.read v.mem y)) ∧
    (c.run = .restoring → s.issuerOf tile.toNat = none → becomes (.restoreComplete tile slot)
      { c with run := .issuing, began := s.cycle, copies := [], latches := [], saveSlot := none, modBase := (s.cycle : Int) - (c.rate * c.clk : Nat) }) ∧
    (∀ x, c.run = .restoring → s.issuerOf tile.toNat = some x → c.copies = [] →
      becomes (.restoreComplete tile slot) { c with run := .ready, began := s.cycle, copies := [], latches := [], saveSlot := none }) ∧
    (∀ x, c.run = .restoring → s.issuerOf tile.toNat = some x → x.uid ≠ c.uid → (s.ctxs.map (·.uid)).Nodup → c.copies ≠ [] →
      ∃ t y, exec (.restoreComplete tile slot) s = .next t ∧ y ∈ s.ctxs ∧ t.cur.uid = y.uid ∧ t.cur.run = .issuing ∧ t.cur.pc = y.pc ∧
        (y = c ∨ (y.run = .ready ∧ y.tile = tile.toNat)) ∧ y.lastIssue ≤ c.lastIssue ∧
        ∀ z ∈ s.ctxs, z.run = .ready → z.tile = tile.toNat → y.lastIssue ≤ z.lastIssue) ∧
    (∀ i t, c.run = .issuing → c.wait.isSome = true → c.delay = none → ((s.focus c.uid).advance (max c.clk (c.since + 2 ^ 20))).emptyPop = some (i, t) → t.cause = .queueEmpty ∧
      exec (.popWTimeout tile slot) s = .next ({ ((s.focus c.uid).advance (max c.clk (c.since + 2 ^ 20))).takeTrap 0 t with issue := Issue.none }.chargeSince (s.focus c.uid).cur))

/-- R134, R159, R169, R171, R182 to R185, R339, R343. A command starts when TCLK passes its start cycle before the next bundle. The command whose turn has come in its queue begins its reads in the own
cluster, performs when its bytes are there, and when nothing failed or is still on its way it is complete: it is gone from every queue and its batch has one less. A copy within global memory moves its bytes
and no others. Its writes in the own cluster and its flag go through the ports, the others over the mesh. A reliable remote write whose source can be read closes: the port holds it under its next
identifier. That accesses of a command to the module's global memory perform when it completes is the model's choice (log entry 23). -/
def Obligations.EngineCommandsRun : Prop :=
  ∀ (s : State) (tile : BitVec 10) (slot : BitVec 2) (eq : QNum) (c : Ctx) (k : Command) (dst src flag mask : DWord) (len : Nat) (blocks : List (BitVec 512)),
    s.ctxAt tile.toNat slot.toNat = some c → s.cur = c →
    let n := (s.partN c.part).port
    let gone (t : State) : Prop := (∀ q : QNum, ∀ x ∈ t.cur.eqs[q.toNat]'q.isLt, x.num ≠ k.num) ∧
      (c.openB.num = k.batch → t.cur.openB.left = c.openB.left - 1)
    let turn : Prop := s.turn eq = some k ∧ c.flagDue eq = none ∧ ∀ q : QNum, ∀ x ∈ c.eqs[q.toNat]'q.isLt, x.num = k.num → x = k
    let u := s.beginReads k
    let j := u.commandNow k
    let there : Prop := j.closed = false ∧ j.pend = false ∧ j.owed = 0
    let cmd := Instr.engineCommandComplete tile slot eq
    let steady (p : DWord) : Prop := ∀ x, x < len → ((s.dieRec (dieOfPtr p)).cached c.part (offOfPtr p + x)).isSome = true
    (c.run = .issuing → c.parked = none → c.dlf = false → firstTimed c.waiting = some k → (c.waiting.map (·.num)).Nodup → k.start < max c.clk c.earliest →
      ∃ t, exec (.engineCommandStart tile slot) s = .next t ∧
      t.cur.clk = max c.clk (k.start + 1) ∧ (∀ x ∈ t.cur.waiting, x.num ≠ k.num) ∧ t.cur.sys.tvec = c.sys.tvec) ∧
    (turn → k.cmd.closes = false → s.settlingCmd k.cmd = false → k.cmd.empty = true → ∃ t, exec cmd s = .next t ∧ gone t ∧ t.mem = s.mem) ∧
    (∀ m, k.cmd = .qfence m → turn → there → ∃ t, exec cmd s = .next t ∧ gone t ∧ t.mem = s.mem) ∧
    (∀ site o m p l, turn → k.cmd.closes = false → s.settlingCmd k.cmd = false → k.cmd.empty = false → (∀ x y rq req, k.cmd = .rrd x y rq req → spaceOf x ≠ 5) → k.begun = false →
      s.fills k.cmd = [] → s.ownRuns k.cmd = (site, o, m, p) :: l → ∃ t a, exec cmd s = .next t ∧ t.mem = s.mem ∧ a ∈ t.cur.accesses ∧
        a.act = .take k.num o m p l ∧ a.site = site ∧ a.stamp = some s.cycle ∧ a.done = false) ∧
    (∀ as bs, k.cmd = .cpy dst src len → 0 < len → turn → there → s.settlingCmd k.cmd = false → spaceOf dst = 0 → spaceOf src = 0 →
      offOfPtr dst + len ≤ 2 ^ 57 → offOfPtr src + len ≤ 2 ^ 57 → s.spot c.part (dieOfPtr dst) (offOfPtr dst) len true false = .here as →
      s.spot c.part (dieOfPtr src) (offOfPtr src) len false false = .here bs → as.Nodup → steady dst → steady src →
      (∀ x, x < len → (s.dieRec (dieOfPtr dst)).migOf c.part (offOfPtr dst + x) = none) → s.mem.wf = true →
      ∃ t, exec cmd s = .next t ∧ gone t ∧ (∀ x, x < len → Memory.read t.mem (as.getD x 0) = Memory.read s.mem (bs.getD x 0)) ∧
        ∀ y, y ∉ as → Memory.read t.mem y = Memory.read s.mem y) ∧
    (∀ p l, k.cmd = .cpy dst src len → 0 < len → turn → there → s.settlingCmd k.cmd = false → (u.performCmd j).fails = [] → (u.performCmd j).puts = p :: l →
      ∃ t a, exec cmd s = .next t ∧ t.mem = (u.performCmd j).s.mem ∧ a ∈ t.cur.accesses ∧ a.act = .put k.num p l ∧ a.site = p.site ∧ a.done = false) ∧
    (∀ p skip, c.flagDue eq = some (k, p, skip) → (s.resolve p 0 4 4 .dest false).2 = [] →
      ((s.ownSite p).isSome = true → ∃ t a q, exec cmd s = .next t ∧ t.mem = s.mem ∧ a ∈ t.cur.accesses ∧ a.act = .put k.num q [] ∧ q.flag = true ∧ q.ptr = p) ∧
      (s.ownSite p = none → ∃ t, exec cmd s = .next t ∧ t.mem = s.mem ∧ ∀ h ∈ (s.resolve p 0 4 4 .dest false).1.holders, (skip = true ∧ h = (c.tile, c.slot)) ∨
        ∃ r ∈ t.requests, r.addr = p ∧ (r.tile, r.slot) = h ∧ r.ask = .atomic (.word 0 (s.resolve p 0 4 4 .dest false).1.off 4 .add 1) ∧ r.engine = some (k.eq.toNat, k.num))) ∧
    (k.cmd = .rwr dst src len flag false mask → dst.toNat / 2 ^ 60 = 5 → turn → there → n < 8 → (s.portN n).roomFor 1 = true → s.behindReads k = false →
      (s.portN n).hasLeft (dst.toNat / 2 ^ 52 % 256) = false → u.sourceBlocks j.got src len = .ok blocks → len < 2 ^ 32 → c.tile < 1024 →
      ∃ t o, exec (.transferClose tile slot eq) s = .next t ∧
        (t.portN n).outgoing = (s.portN n).outgoing ++ [o] ∧ (t.portN n).nextXfer = ((s.portN n).nextXfer + 1) % 4096 ∧ o.xfer = (s.portN n).nextXfer ∧
        o.dst = dst.toNat / 2 ^ 52 % 256 ∧ o.blocks = blocks ∧ o.lossy = false ∧ o.command = some (c.uid, k.eq.toNat, k.num) ∧ o.sentAt = none ∧
        (let r := Req.of o.payload; r.op = 1 ∧ r.target = dst.toNat % 2 ^ 52 ∧ r.flag = flag.toNat % 2 ^ 52 ∧ r.length = len ∧
          r.srctile = c.tile + k.eq.toNat * 2 ^ 10) ∧ t.mem = s.mem)

/-- R155, R157 to R159, R162, R172 to R174, R273, R274, R276, R369. A mesh access leaves in its pair's next slot and takes
the cycles of its route, joins the accesses of the task that it names in the cycle in which it arrives, and is answered
when it performs there; a global access performs at the die that owns it. One that has to come after an older access of
its context waits. A packet without a slot is discarded and counted. The word or barrier that a context waits for lets it
go on. R132, R159, R166, R167, R171, R276. A request that has been served comes back: the reply of a load fills its place
in the result queue, lanes without data being poisoned with its address in TINFO, and a denied write waits for a release.
That each of these is one event of the schedule is the model's choice (log entries 12, 14, 21, 33, 46, 48). -/
def Obligations.RequestsMoveAndRepliesArrive : Prop :=
  (∀ (s : State) (r : Request) (tile : BitVec 10) (slot : BitVec 2) (c d : Ctx),
    let a := clusterOf r.source
    let b := clusterOf r.tile
    let die := r.addr.toNat / 2 ^ 57 % 8
    let mesh : Prop := s.requestOf r.id = some r ∧ (r.space = 2 ∨ r.space = 4)
    let site := Site.alloc r.tile r.slot (r.addr.toNat / 2 ^ 48 % 32)
    let found (t : State) (x : Request) : Prop := t.requestOf r.id = some x
    let served (m : Nat) (data : List (Nat × Nat)) (denied : Bool) : Request := { r with stage := .served, readyAt := m, data := data, denied := denied }
    let becomes (i : Instr) (x : Ctx) : Prop := ∃ t, exec i s = .next t ∧ t.ctxOf c.uid = some x ∧ t.mem = s.mem
    let here : Prop := s.ctxAt tile.toNat slot.toNat = some c ∧ s.ctxOf c.uid = some c
    let late := max s.cycle r.readyAt
    let u := ((s.reach r.readyAt).keepAsk r.part die (r.addr.toNat % 2 ^ 57) r.ask).keepTile r.source r.part die (r.addr.toNat % 2 ^ 57)
    (mesh → r.stage = .queued → a ≠ b → ∀ m, nextSlot r.readyAt ((s.partN r.part).slotsOf a b) = some m → (s.partN r.part).forwards a b (m % 256) = true →
      ∃ t, exec (.meshSlot r.id) s = .next t ∧ found t { r with stage := .moving, readyAt := m + routeCycles a b } ∧ t.cycle = max s.cycle m ∧ t.mem = s.mem) ∧
    (mesh → r.stage = .served → a ≠ b → ∀ m, nextSlot r.readyAt ((s.partN r.part).slotsOf b a) = some m → (s.partN r.part).forwards b a (m % 256) = true →
      ∃ t, exec (.meshSlot r.id) s = .next t ∧ found t { r with stage := .replying, readyAt := m + routeCycles b a } ∧ t.mem = s.mem) ∧
    (mesh → r.stage = .queued → a ≠ b → ((s.partN r.part).slotsOf a b = [] ∨
        ∃ m, nextSlot r.readyAt ((s.partN r.part).slotsOf a b) = some m ∧ (s.partN r.part).forwards a b (m % 256) = false) →
      ∃ t, exec (.meshSlot r.id) s = .next t ∧ t.requestOf r.id = none ∧ t.mem = s.mem) ∧
    (mesh → r.stage = .moving → s.mayServe r = true → s.meshTask r = some d → s.ctxOf d.uid = some d → d.hasArrival r.id = false → r.ask.isWait = false →
      ∃ t e x, exec (.remoteAccessArrival r.id) s = .next t ∧ t.cycle = late ∧ t.mem = s.mem ∧ found t r ∧ t.ctxOf d.uid = some e ∧ x ∈ e.accesses ∧
        x.act = .arrival r.id r.ask ∧ x.site = site ∧ x.stamp = some late ∧ x.done = false) ∧
    (∀ q, mesh → r.stage = .moving → s.mayServe r = false → exec (.remoteAccessArrival r.id) s = .next q → q = s) ∧
    (∀ m, s.requestOf r.id = some r →
      (∀ ps, r.ask = .load ps → let t := s.serveArrival site m r.id r.ask
        t.mem = s.mem ∧ found t (served m (ps.map (fun p => (p.lane, s.siteRead r.shadow site p.off p.size))) false)) ∧
      (∀ p, r.ask = .store [p] → let t := s.serveArrival site m r.id r.ask
        found t (served m [] false) ∧ ∀ x, s.mem.wf = true → x ∉ s.siteAddrs site p.off p.size → Memory.read t.mem x = Memory.read s.mem x)) ∧
    (s.requestOf r.id = some r → r.space = 0 → r.stage = .queued → s.mayServe r = true → (r.ask.runs.all (fun x => !s.settling r.part die x.1 && !s.settling r.part die (x.1 + x.2 - 1))) = true →
      s.merging (mergeAgent r.id) r.part die r.ask.runs = false →
      ∃ t, exec (.memsideAccess r.id) s = .next t ∧
      (∀ p as, r.ask = .load [p] → u.spot r.part die p.off p.size false false = .here as → t.mem = s.mem ∧
        found t (served late [(p.lane, natOfBytes (as.map (fun x => Memory.read s.mem x)))] false)) ∧
      (∀ p, r.ask = .load [p] → u.spot r.part die p.off p.size false false = .denied → t.mem = s.mem ∧ found t (served late [] true)) ∧
      (∀ p as, r.ask = .store [p] → p.off % 4096 + p.size ≤ 4096 → u.spot r.part die p.off p.size true false = .here as → s.mem.wf = true → as.Nodup →
        (∀ m, (s.dieRec die).migOf r.part p.off = some m → (s.dieRec die).heldEntries < Config.holdQueueEntries) →
        found t (served late [] false) ∧ (∀ x, x < p.size → (Memory.read t.mem (as.getD x 0)).toNat = p.value / 256 ^ x % 256) ∧
        ∀ x, x ∉ as → Memory.read t.mem x = Memory.read s.mem x)) ∧
    (here → c.run = .waiting → c.wait.bind (·.watch) = none → (s.lookAt c.uid).ownWaitHolds = true → becomes (.waitConditionMet tile slot) { c with run := .ready }) ∧
    (∀ w, here → c.run = .issuing → c.wait = some w → w.watch = none → c.delay = none → (s.lookAt c.uid).ownWaitHolds = true → w.since + 4 ≤ c.clk →
      becomes (.waitConditionMet tile slot) { c with wait := some { w with met := some c.clk } }) ∧
    (here → c.run = .waiting → c.wait.bind (·.watch) = none → (s.lookAt c.uid).releaseOver = true → becomes (.waitConditionMet tile slot) { c with run := .ready }) ∧
    (∀ g n m, here → s.barGroup c = some g → c.arrivedAt = some n → s.genDone c g n = some m →
      (c.run = .waiting → becomes (.barLeave tile slot) { c with run := .ready }) ∧
      (∀ x w, c.run = .issuing → c.wait = some w → (s.withCur c).groupScope g = some x → m + (if x ≤ 1 then 4 else if x = 2 then 12 else if x = 3 then 40 else 72) ≤ c.module →
        becomes (.barLeave tile slot) { c with wait := some { w with leaving := true } }))) ∧
  (∀ (s : State) (r : Request) (c : Ctx) (k : QNum) (req bits : Nat) (signed : Bool) (land slice : Nat) (e : QEntry) (l : List QEntry) (ps : List Piece),
    s.requestOf r.id = some r → s.ctxOf r.uid = some c → c.run ≠ .saved → r.uid ≠ 0 → r.engine = none → r.home = none →
    (r.space = 0 ∧ r.stage = .served ∨ (r.space = 2 ∨ r.space = 4) ∧ r.stage = .replying) →
    (r.ask = .load ps → r.sink = .queue k req signed bits land → c.rq[k.toNat]'k.isLt = e :: l → e.request = req → (∀ y ∈ l, y.request ≠ req) →
      ∃ t d x, exec (.replyArrival r.id) s = .next t ∧ t.requestOf r.id = none ∧ t.ctxOf r.uid = some d ∧ d.rq[k.toNat]'k.isLt = x :: l ∧ x.owed = e.owed - 1 ∧
        x.request = req ∧ x.kind = e.kind ∧ x.lanes = e.lanes ∧ t.mem = s.mem ∧ t.cycle = max s.cycle r.readyAt ∧
        (∀ j, j < 128 → (x.poison.getLsbD j = true ↔ e.poison.getLsbD j = true ∨ (e.lanes.getLsbD j = true ∧ (∃ p ∈ ps, p.lane = j) ∧ ∀ y ∈ r.data, y.1 ≠ j))) ∧
        d.sys.tinfo = (if c.parked = none ∧ ∃ p ∈ ps, p.lane < 128 ∧ ∀ y ∈ r.data, y.1 ≠ p.lane then r.addr else c.sys.tinfo)) ∧
    (∀ parts, r.ask = .store parts → r.sink = .discard → r.slice = some slice → ∃ t d, exec (.storeAck r.id) s = .next t ∧ t.requestOf r.id = none ∧ t.ctxOf r.uid = some d ∧
      d.denied = (if r.denied then c.denied ++ [(r.addr, slice)] else c.denied) ∧ d.sregs = c.sregs ∧ t.mem = s.mem))

/-- R165, R168 to R170. An invalidation drops the range's translations from the die. A migration is refused as busy or
bad, or begins with an empty hold queue; its copy ends; its switch puts the target into the leaf, clears MIG, drops the
translations of the page and answers 0. A pin that has run out is cleared. The order of refusals and the moment of the
copy are the model's choice (log entry 24). -/
def Obligations.MigrationsMovePages : Prop :=
  ∀ (s : State) (part die : BitVec 3) (lo hi va level : Nat) (tier : BitVec 2) (frame : BitVec 36) (m : Migration),
    let p := part.toNat
    let d := die.toNat
    let r := s.dieRec d
    let mig := Instr.migrate part die va level tier frame
    let answers (k : Nat) : Prop := ∃ t, exec mig s = .next t ∧ (t.dieRec d).result = k ∧ (t.dieRec d).migs = r.migs ∧ t.mem = s.mem
    ((∀ q ∈ s.requests, q.forwardedIn p d lo hi = false) → ∃ t, exec (.tlbInvalidate part die lo hi) s = .next t ∧ t.mem = s.mem ∧
      (t.dieRec d).tlb = r.tlb.filter (fun x => x.1 != p || x.2.outside lo hi) ∧ ∀ k, k < 8 → k ≠ d → t.dieRec k = s.dieRec k) ∧
    (s.leafOf p d va = none → answers 4) ∧
    (∀ x e a sh b, s.leafOf p d va = some (e, a, sh) → pageLevels[level - 1]? = some (sh, b) → r.migOf p va = some x → answers 3) ∧
    (∀ e a sh b, s.leafOf p d va = some (e, a, sh) → pageLevels[level - 1]? = some (sh, b) → r.migOf p va = none → va % 2 ^ sh ≠ 0 → answers 4) ∧
    (∀ e a sh b, s.leafOf p d va = some (e, a, sh) → pageLevels[level - 1]? = some (sh, b) → 0 < level → r.migOf p va = none → va % 2 ^ sh = 0 →
      s.targetOk p d (leafWith e tier frame) (2 ^ sh) = true → s.placed p d e (2 ^ sh) = true → pteTier e ≠ 2 → tier ≠ 2 → s.recentMoves p d va = [] →
      ∃ t x, exec mig s = .next t ∧ (t.dieRec d).migs = r.migs ++ [x] ∧ x.part = p ∧ x.va = va ∧ x.size = 2 ^ sh ∧ x.leafAt = a ∧ x.queue = [] ∧ x.copied = false ∧
        x.owed = 0 ∧ x.target = leafWith e tier frame) ∧
    (r.move p va = some m → m.owed = 0 → m.queue = [] → ∃ t, exec (.migrationCopyDone part die va) s = .next t ∧ t.mem = s.mem ∧
      ∃ x, (t.dieRec d).move p va = some x ∧ x.copied = true ∧ x.queue = [] ∧ x.target = m.target) ∧
    (r.move p va = some m → m.copied = true → m.queue = [] → m.owed = 0 → (∀ q ∈ s.requests, q.movesWith d m = true → q.unknown = false) → s.mem.wf = true → ∃ t, exec (.migrationSwitch part die va) s = .next t ∧
      (t.dieRec d).move p va = none ∧ (t.dieRec d).result = 0 ∧ (t.dieRec d).moves = r.moves ++ [(p, va, s.cycle)] ∧
      (∀ x ∈ (t.dieRec d).tlb, x.1 = p → x.2.lo + x.2.size ≤ va ∨ va + m.size ≤ x.2.lo) ∧
      (∀ y, y < m.leafAt ∨ m.leafAt + 8 ≤ y → Memory.read t.mem y = Memory.read s.mem y) ∧
      (let e : DWord := BitVec.ofNat 64 (Memory.readNat t.mem m.leafAt 8); pteTier e = pteTier m.target ∧ pteFrame e = pteFrame m.target ∧ e.getLsbD 56 = false)) ∧
    (∀ e a sh until_, r.pins.find? (fun x => x.1 == p && x.2.1 == va && decide (x.2.2 ≤ s.cycle)) = some (p, va, until_) → s.leafOf p d va = some (e, a, sh) → s.mem.wf = true →
      ∃ t, exec (.pinExpiry part die va) s = .next t ∧ (∀ x ∈ (t.dieRec d).pins, ¬(x.1 = p ∧ x.2.1 = va)) ∧
        (BitVec.ofNat 64 (Memory.readNat t.mem a 8) : DWord) = e &&& ~~~((2 : DWord) ^ 55))

/-! ## The optical fabric -/

/-- R30, R32, R36, R38 to R40, R46, R48, R49, R53 to R56. A window follows a window, and no meeting carries more than 226
flits. A sequenced flit that checks under the expected number is accepted and goes to its place, one that checks under no
seed is discarded and a NAK is owed. NAK, ACK and credits act on the pair. A change of the down-map that the port's own
count bears out is told to every peer and takes effect in the second rotor cycle on. A request without a reply is sent
again up to three times. When a peer's port is reset or the peer leaves, what hangs on it ends, and a request from before
its leaving that comes later is dropped. R51 to R54, R57, R311,
R370. A grant, a recall and its acknowledgement that the kernel hands over are sent and kept; at the importer a grant is
recorded without its base, a recall is seen, and at the exporter an acknowledgement ends the grant, whose frames are free
6,250 ns later, and every watch under it is denied. FABTEST and QCFG are written at privileged level, but for their
reserved bits. Which flit of a port goes first, and from which number a pair counts, is the model's choice, and so are
fields that no rule gives (log entries 5, 31, 32, 55). -/
def Obligations.PortsPairsAndGrants : Prop :=
  (∀ (s : State) (port : BitVec 3) (peer : BitVec 8) (head : DWord) (payload : BitVec 512) (flit : BitVec 608) (seq : BitVec 31) (blocks : Nat) (meeting : BitVec 8) (down : Bool)
    (xfer : BitVec 12) (block : BitVec 20) (o : Outgoing),
    let n := port.toNat
    let b := peer.toNat
    let p := s.portN n
    let q := p.pair b
    let ports (i : Instr) (f : State → Port → Prop) : Prop := ∃ t, exec i s = .next t ∧ t.mem = s.mem ∧ f t (t.portN n)
    let listens : Prop := (s.portPart n).isSome = true ∧ b ≠ s.ownModule ∧ (s.ownModule ^^^ b) % 4 = s.window % 4
    let same (x y : Pair) : Prop := x.kept = y.kept ∧ x.credit = y.credit ∧ x.sendS = y.sendS
    let meet := s.ownModule ^^^ b
    let far := b ^^^ meeting.toNat
    let key := min b far * 256 + meeting.toNat
    (∃ t, exec .windowStart s = .next t ∧ t.window = s.window + 1 ∧ t.mem = s.mem ∧ ∀ k, k < 8 → (s.portPart k = none → t.portN k = s.portN k) ∧
      ((s.portPart k).isSome = true → ∀ y ∈ (t.portN k).wire, y.count ≤ 226)) ∧
    (listens → headClean head = true → headType head ∈ [1, 2, 4, 6] → headDst head = s.ownModule → headSrc head = b ∨ (p.pair (headSrc head)).left = none →
      (headType head = 1 → (p.pair (headSrc head)).madeBefore payload = false) → (headType head = 2 → headXfer head ∉ (p.pair (headSrc head)).stale) →
      ports (.flitReceive port peer (flitOf head payload (seqSeed q.expectS))) (fun t r =>
      r.inbox = p.inbox ++ [(s.window, head, payload)] ∧ (r.pair b).expectS = (q.expectS + 1) % 2 ^ 31 ∧ (r.pair b).nak = false ∧ (r.pair b).left = none ∧
      (r.pair b).heard = true ∧ same (r.pair b) q ∧ t.present = s.present)) ∧
    (listens → headClean head = true → headType head = 1 → headDst head = s.ownModule → headSrc head = b → q.madeBefore payload = true →
      ports (.flitReceive port peer (flitOf head payload (seqSeed q.expectS))) (fun _ r => (∀ x ∈ r.inbox, x ∈ p.inbox) ∧ headXfer head ∈ (r.pair b).stale ∧
        (r.pair b).expectS = (q.expectS + 1) % 2 ^ 31)) ∧
    (listens → flitChecks flit (seqSeed q.expectS) = false → flitChecks flit lossySeed = false → flitChecks flit controlSeed = false → ports (.flitReceive port peer flit) (fun _ r =>
      r.inbox = p.inbox ∧ (r.pair b).nak = true ∧ (r.pair b).expectS = q.expectS ∧ (q.nak = true → r = p) ∧
      (q.nak = false → p.sent meet = none → (r.pair b).control = q.control ++ [(0, q.expectS)]) ∧
      (∀ y, q.nak = false → p.sent meet = some y → y.count < 226 → ∃ z ∈ r.wire, z.meet = meet ∧ z.first = controlFlit s.ownModule b (0, q.expectS) :: y.first))) ∧
    ((∃ k ∈ q.kept, k.1 = seq.toNat) → ports (.nak port peer seq) (fun _ r => (r.pair b).resend = some seq.toNat ∧ same (r.pair b) q)) ∧
    ((∃ k ∈ q.kept, k.1 = seq.toNat) → ports (.ack port peer seq) (fun _ r => (r.pair b).kept = q.kept.dropWhile (fun k => k.1 != seq.toNat))) ∧
    (seq.toNat = q.sendS → (∀ k ∈ q.kept, k.1 ≠ seq.toNat) → ports (.ack port peer seq) (fun _ r => (r.pair b).kept = [])) ∧
    ports (.creditReturn port peer blocks) (fun _ r => (r.pair b).credit = min 768 (q.credit + blocks)) ∧
    (p.seesDown key ≠ down → p.bearsOut s.ownModule b far down = true → ports (.downMapUpdate port peer meeting down) (fun _ r => r.down = p.down ∧
      r.pendingDown = p.pendingDown ++ [(key, down, (s.window / 4 + 2) * 4)] ∧
      r.pairs = p.pairs.map (fun x => { x with control := x.control ++ [(5, 2 * key + (if down then 1 else 0))] }))) ∧
    (p.seesDown key = down ∨ (b = s.ownModule ∧ down = true ∧ (p.pair far).silent < 3) → exec (.downMapUpdate port peer meeting down) s = .next s) ∧
    (∀ k w, p.pendingDown = [(k, down, w)] → w ≤ s.window → ports (.downMapEffect port) (fun _ r => r.pendingDown = [] ∧ (k ∈ r.down ↔ down = true) ∧
      ∀ x, x ≠ k → (x ∈ r.down ↔ x ∈ p.down))) ∧
    (∀ v, p.outgoing = [o] → o.xfer = xfer.toNat → ((Req.of o.payload).op = 3 ∨ (Req.of o.payload).op = 4) → o.sentAt = some v → v + 12 ≤ s.window →
      (o.resends < 3 → ports (.resendTimeout port xfer) (fun _ r => r.outgoing = [{ o with resends := o.resends + 1, sentAt := none }] ∧
        r.waiting = p.waiting ++ o.flits s.ownModule (s.window + 1))) ∧
      (∀ id x, 3 ≤ o.resends → o.command = none → o.request = some id → s.requestOf id = some x → x.id = id → ports (.resendTimeout port xfer) (fun t r => r.outgoing = [] ∧
        t.requestOf id = some { x with stage := .served, denied := true, data := [], status := if x.home.isSome then 0 else 2 }))) ∧
    ports (.portResetNotice port peer) (fun _ r => r.imported = p.imported.filter (fun g => g.peer != b) ∧ (r.pair b).nextTag = 0 ∧ (r.pair b).highest = none ∧ (r.pair b).cache = [] ∧
      (∀ g ∈ r.exported, g.peer = b → g.freeAt.isSome = true) ∧ (∀ x ∈ r.incoming, x.src ≠ b) ∧ (∀ x ∈ r.watches, x.src ≠ b)) ∧
    (q.left = none → ports (.peerLeave port peer) (fun t r => (r.pair b).left = some s.window ∧ (∀ x ∈ r.outgoing, x.dst ≠ b) ∧ (∀ x ∈ r.incoming, x.src ≠ b) ∧
      (∀ x ∈ r.inbox, headSrc x.2.1 ≠ b) ∧ (∀ g ∈ r.exported, g.peer = b → g.recalled = true → g.freeAt = none → g.lapse.isSome = true) ∧ t.present = s.present ∧
      ∀ y, s.portPart n = some y → ∀ x ∈ t.requests, x.part = y.pnum → x.space = 5 → x.stage = .queued → x.addr.toNat / 2 ^ 52 % 256 ≠ b)) ∧
    ports (.recallAutoAck port peer) (fun _ r => ∀ g ∈ r.exported, ∀ w, g.peer = b → g.lapse = some w → w ≤ s.window → g.freeAt.isSome = true) ∧
    (∀ src, src = BitVec.ofNat 8 s.ownModule → s.ownModule < 256 → p.outgoing = [o] → o.xfer = xfer.toNat → ports (.discardNotice port src xfer block 2) (fun _ r => r.outgoing = [o] ∧
      ∃ xs, r.waiting = p.waiting ++ xs ∧ ∀ x ∈ xs, headType x.head = 2 ∧ headBlock x.head = block.toNat))) ∧
  (∀ (s : State) (port : BitVec 3) (peer : BitVec 8) (record : BitVec 512) (head : DWord) (w : Nat) (rest : List (Nat × DWord × BitVec 512)) (tile : BitVec 10) (value : BitVec 32) (wide : BitVec 64),
    let n := port.toNat
    let b := peer.toNat
    let p := s.portN n
    let g := GrantMsg.of record
    let ports (i : Instr) (f : Port → Prop) : Prop := ∃ t, exec i s = .next t ∧ t.mem = s.mem ∧ f (t.portN n)
    let sent (r : Port) (x : BitVec 512) : Prop := ∃ y, r.waiting = p.waiting ++ [y] ∧ y.dst = b ∧ y.payload = x ∧ headType y.head = 6 ∧
      r.kernel = p.kernel.drop (p.kernel.length - 4095) ++ [(p.kernelNumber, b, x)]
    let from_ := headSrc head
    ((s.portPart n).isSome = true → g.kind = 1 → (p.exported.filter (fun x => x.freeAt.isNone)).length < 4096 → ports (.grantHandoff port peer record) (fun r => sent r (hideBase record) ∧
      ∃ x, r.exported = p.exported ++ [x] ∧ x.gid = g.gid ∧ x.rights = BitVec.ofNat 8 g.rights ∧ x.woff = g.woff ∧ x.len = g.len ∧ x.fbase = BitVec.ofNat 64 g.fbase ∧ x.peer = b ∧
        x.recalled = false ∧ x.freeAt = none)) ∧
    ((s.portPart n).isSome = true → g.kind = 2 → ports (.grantHandoff port peer record) (fun r => sent r record ∧ r.exported.length = p.exported.length ∧
      ∀ x ∈ r.exported, x.gid = g.gid → x.peer = b → x.recalled = true)) ∧
    ((s.portPart n).isSome = true → g.kind = 3 → ports (.grantHandoff port peer record) (fun r => sent r record ∧ ∀ x ∈ r.imported, x.gid = g.gid → x.peer ≠ b)) ∧
    (p.inbox = (w, head, record) :: rest → headType head = 6 → g.sound = true →
      (g.kind = 1 → ports (.grant port) (fun r => r.inbox = rest ∧ ∃ x ∈ r.imported, x.gid = g.gid ∧ x.peer = from_ ∧ x.woff = g.woff ∧ x.len = g.len ∧ x.fbase = 0 ∧ x.recalled = false)) ∧
      (g.kind = 2 → ports (.grantRecall port) (fun r => r.inbox = rest ∧ ∀ x ∈ r.imported, x.gid = g.gid → x.peer = from_ → x.recalled = true)) ∧
      (∀ y, g.kind = 3 → p.exported = [y] → y.gid = g.gid → y.peer = from_ → y.freeAt = none → ports (.recallAck port) (fun r => r.inbox = rest ∧
        r.exported = [{ y with freeAt := some (s.window + 5) }] ∧ r.watches = p.watches.filter (fun h => !y.covers h)))) ∧
    (p.inbox = (w, head, record) :: rest → headType head = 6 → g.sound = false → ports (.grant port) (fun r => r.inbox = rest ∧ r.imported = p.imported)) ∧
    (∃ t, exec (.fabtestArm tile value) s = .next t ∧ (value &&& 0x800F_FFFF ≠ 0 → (t.tileRec tile.toNat).fabtest = value &&& 0x800F_FFFF) ∧ t.mem = s.mem ∧ t.cur = s.cur) ∧
    (∃ t, exec (.qcfgArm tile wide) s = .next t ∧ (wide.getLsbD 23 = true → (t.tileRec tile.toNat).qcfg = wide &&& (if wide.getLsbD 22 then 0xFF_87FF else 0xFF_FFFF)) ∧ t.mem = s.mem ∧ t.cur = s.cur))

/-- R42 to R45, R50, R53, R185, R371. Writes that reach a port: a request opens its transfer at the places that its grants
give it, denied where its rights or translations fail; a block lands or is held; once every block is here and the source
queue's turn has come the flag is incremented and a reliable write is answered; the blocks of a lossy transfer that has
passed its deadline are lost; held lossy blocks expire; a store write is answered at once. Identifiers and what is denied
are in part the model's reading (log entries 32, 55). -/
def Obligations.WritesReachThePort : Prop :=
  ∀ (s : State) (port : BitVec 3) (p : Partition) (head head2 : DWord) (payload payload2 : BitVec 512) (w w2 : Nat) (rest : List (Nat × DWord × BitVec 512)) (i : Incoming) (src : BitVec 8) (xfer : BitVec 12),
    s.portPart port.toNat = some p →
    let n := port.toNat
    let q := s.portN n
    let r := Req.of payload
    let from_ := headSrc head
    let id := headXfer head
    let j := headBlock head
    let ports (e : Instr) (f : State → Port → Prop) : Prop := ∃ t, exec e s = .next t ∧ f t (t.portN n)
    let answered (y : Port) (src xfer : Nat) (status : Byte) : Prop :=
      y.waiting = q.waiting ++ [replyFlit s.ownModule src xfer (s.window + 1) (Config.replyPayload 0 status 0)]
    let opens (lossy : Bool) (t : State) (y : Port) : Prop := t.mem = s.mem ∧ y.inbox = rest ∧
      let sites := s.writeSites n p.pnum from_ r lossy
      let ok := sites.isSome
      y.transfer from_ id = some { src := from_, xfer := id, payload := payload, lossy := lossy, arrived := [], denied := !ok,
                                   data := (sites.map (·.1)).getD 0, flag := (sites.map (·.2.1)).getD 0, mask := (sites.map (·.2.2)).getD 0 } ∧
      (if lossy || !ok then answered y from_ id (if ok then 0 else 2) else y.waiting = q.waiting)
    let room (a : Nat) : Prop := ∀ m, (s.dieRec (dieAt a)).migOf p.pnum (offAt a) = some m → (s.dieRec (dieAt a)).heldEntries < Config.holdQueueEntries
    let lands (t : State) (a len value : Nat) : Prop := ∀ as, offAt a % 4096 + len ≤ 4096 →
      (s.exportKeep p.pnum a len).spot p.pnum (dieAt a) (offAt a) len true false = .here as → as.Nodup → s.mem.wf = true → room a →
      (∀ x, x < len → (Memory.read t.mem (as.getD x 0)).toNat = value / 256 ^ x % 256) ∧ ∀ x, x ∉ as → Memory.read t.mem x = Memory.read s.mem x
    (q.inbox = (w, head, payload) :: rest → headType head = 1 → (∀ h ∈ q.held, ¬(h.1 = from_ ∧ h.2.1 = id)) →
      (r.op = 1 → r.flag ≠ 2 ^ 64 - 1 → ports (.remoteWriteRequest port) (opens false)) ∧
      (r.op = 2 → windowStart w ≤ r.close + 6250 → ports (.lossyWriteRequest port) (opens true))) ∧
    (∀ lossy sites, s.writeSites n p.pnum from_ r lossy = some sites → s.reachable n p.pnum from_ r.target r.length (if lossy then 10 else 2) true false = some sites.1 ∧
      (r.flag ≠ 2 ^ 64 - 1 → s.reachable n p.pnum from_ r.flag 4 2 true true = some sites.2.1)) ∧
    (q.inbox = (w, head, payload) :: rest → (headType head = 2 ∨ headType head = 3) → (∀ y ∈ rest, flitKey y ≠ (from_, id)) →
      (q.transfer from_ id = none → ports (.dataBlockArrival port) (fun t y => t.mem = s.mem ∧ y.inbox = rest ∧
        y.held = q.held ++ [(from_, id, j, headType head == 3, payload, w)])) ∧
      (q.transfer from_ id = some i → i.lossy = false → j ∉ i.arrived → j < (Req.of i.payload).blocks → s.landWaits p.pnum i j = false →
        ports (.dataBlockArrival port) (fun t y => y.inbox = rest ∧ y.transfer from_ id = some { i with arrived := i.arrived ++ [j] } ∧
          (i.denied = true → t.mem = s.mem) ∧ (i.denied = false → lands t (i.data + 64 * j) (min 64 ((Req.of i.payload).length - 64 * j)) payload.toNat)))) ∧
    (q.transfer src.toNat xfer.toNat = some i → i.open = [] → q.nextFlag i.source = (Req.of i.payload).qseq % 64 → i.lossy = false → s.exportBusy (exportAgent n i.key) p.pnum = false →
      (∀ as, i.denied = false → p.exportFailed (exportAgent n i.key) = false → s.exportWaits (exportAgent n i.key + 1) p.pnum i.flag 4 = false → s.spot p.pnum (dieAt i.flag) (offAt i.flag) 4 true true = .here as →
        as.Nodup → as.length = 4 → s.mem.wf = true → room i.flag → ports (.flagIncrement port src xfer) (fun t y =>
          natOfBytes (as.map (fun x => Memory.read t.mem x)) = (natOfBytes (as.map (fun x => Memory.read s.mem x)) + 1) % 2 ^ 32 ∧
          (∀ x, x ∉ as → Memory.read t.mem x = Memory.read s.mem x) ∧ (∀ x ∈ y.incoming, x ≠ i) ∧ y.nextFlag i.source = ((Req.of i.payload).qseq + 1) % 64 ∧ answered y i.src i.xfer 0)) ∧
      (i.denied = true → ports (.flagIncrement port src xfer) (fun t y => t.mem = s.mem ∧ (∀ x ∈ y.incoming, x ≠ i) ∧
        y.nextFlag i.source = ((Req.of i.payload).qseq + 1) % 64 ∧ y.waiting = q.waiting))) ∧
    (q.transfer src.toNat xfer.toNat = some i → i.lossy = true → (Req.of i.payload).close + 6250 < windowStart (s.window + 1) →
      i.denied = true ∨ ((∀ d, d < 8 → (s.dieRec d).migs = []) ∧ (∀ x ∈ s.requests, x.uid = 0 → x.swarm < 2 * firstMerge) ∧
        ∀ x ∈ (s.partN p.pnum).far, x.1 < 2 ^ 65 * firstMerge) → ports (.lossyDeadline port src xfer) (fun t y =>
      (∃ j, y.transfer src.toNat xfer.toNat = some j ∧ j.open = []) ∧ (i.denied = true → t.mem = s.mem))) ∧
    ports (.heldBlockExpiry port src xfer) (fun t y => t.mem = s.mem ∧ ∀ h, h ∈ y.held ↔ h ∈ q.held ∧
      ¬(h.1 = src.toNat ∧ h.2.1 = xfer.toNat ∧ h.2.2.2.1 = true ∧ h.2.2.2.2.2 + 5 ≤ s.window)) ∧
    (q.inbox = (w, head, payload) :: (w2, head2, payload2) :: rest → headType head = 1 → r.op = 1 → r.flag = 2 ^ 64 - 1 → headType head2 = 2 → headSrc head2 = from_ → headXfer head2 = id →
      s.exportBusy (exportAgent n (from_, id)) p.pnum = false → (∀ y ∈ p.far, y.1 / 2 ^ 65 ≠ exportAgent n (from_, id)) →
      (s.reachable n p.pnum from_ r.target r.length 2 true false = none → ports (.storeWrite port) (fun t y => y.inbox = rest ∧ t.mem = s.mem ∧ answered y from_ id 2)) ∧
      (∀ a as, s.reachable n p.pnum from_ r.target r.length 2 true false = some a → s.exportWaits 0 p.pnum a r.length = false → offAt a % 4096 + r.length ≤ 4096 →
        (s.exportKeep p.pnum a r.length).spot p.pnum (dieAt a) (offAt a) r.length true false = .here as →
        ports (.storeWrite port) (fun t y => y.inbox = rest ∧ answered y from_ id 0 ∧ lands t a r.length payload2.toNat)))

/-- R37, R42, R43, R47, R48, R50, R171, R276, R370. Loads, atomics and watches that reach a port are answered: with the
bytes; with the old value, once for each tag, from the cache or as REPLAYED; with the word when the watch's test holds;
and with DENIED where rights or translations fail. What lives at a further peer is asked for there first. A completion or
verdict ends its transfer at the source, a denied one as a failure of its command. The place of data in a reply payload is
a function without a body (log entry 17); that what lives at a further peer is forwarded, and that a denial comes before
the reply cache, is the model's reading (log entries 22, 55). -/
def Obligations.LoadsAtomicsAndWatchesAreAnswered : Prop :=
  ∀ (s : State) (port : BitVec 3) (p : Partition) (head : DWord) (payload : BitVec 512) (w : Nat) (rest : List (Nat × DWord × BitVec 512)) (h : HeldWatch) (o : Outgoing) (c : Ctx),
    s.portPart port.toNat = some p →
    let n := port.toNat
    let q := s.portN n
    let r := Req.of payload
    let from_ := headSrc head
    let id := headXfer head
    let who := exportAgent n (from_, id)
    let ports (e : Instr) (f : State → Port → Prop) : Prop := ∃ t, exec e s = .next t ∧ f t (t.portN n)
    let answered (y : Port) (src xfer : Nat) (data : BitVec 512) (status : Byte) (number : Nat) : Prop :=
      y.waiting = q.waiting ++ [replyFlit s.ownModule src xfer (s.window + 1) (Config.replyPayload data status (BitVec.ofNat 16 number))]
    let value (as : List Nat) : Nat := natOfBytes (as.map (fun x => Memory.read s.mem x))
    let first : Prop := q.inbox = (w, head, payload) :: rest ∧ headType head = 1
    let spot (len rights : Nat) (write atomic : Bool) : Option Nat := s.reachable n p.pnum from_ r.target len rights write atomic
    let fresh : Prop := (∀ x ∈ (q.pair from_).cache, x.1 ≠ r.tag)
    (∀ agent a len as, pagesOf a len = [(a, len)] → s.spot p.pnum (dieAt a) (offAt a) len false false = .here as → s.exportRead agent p.pnum a len = .got (value as)) ∧
    (first → r.op = 3 → ports (.remoteLoad port) (fun t y => t.mem = s.mem ∧
      (∀ a v, spot r.length 1 false false = some a → s.exportRead who p.pnum a r.length = .got v → y.inbox = rest ∧ answered y from_ id (BitVec.ofNat 512 v) 0 0) ∧
      (∀ a, spot r.length 1 false false = some a → s.exportRead who p.pnum a r.length = .denied → y.inbox = rest ∧ answered y from_ id 0 2 0) ∧
      (∀ a, spot r.length 1 false false = some a → s.exportRead who p.pnum a r.length = .away → y.inbox = q.inbox ∧ y.waiting = q.waiting) ∧
      (spot r.length 1 false false = none → y.inbox = rest ∧ answered y from_ id 0 2 0))) ∧
    (first → r.op = 4 → r.aop = 1 → r.length = 4 →
      (spot 4 4 true true = none → ports (.remoteAtomic port) (fun t y => y.inbox = rest ∧ t.mem = s.mem ∧ answered y from_ id 0 2 0 ∧
        (newerTag r.tag (q.pair from_).highest = true → (y.pair from_).highest = some r.tag))) ∧
      (∀ a, spot 4 4 true true = some a →
        (∀ d st, (q.pair from_).cache.find? (fun x => x.1 == r.tag) = some (r.tag, d, st) → ports (.remoteAtomic port) (fun t y => y.inbox = rest ∧ t.mem = s.mem ∧ answered y from_ id d st 0)) ∧
        (∀ v, fresh → newerTag r.tag (q.pair from_).highest = false → s.exportRead who p.pnum a 4 = .got v →
          ports (.remoteAtomic port) (fun t y => y.inbox = rest ∧ t.mem = s.mem ∧ answered y from_ id (BitVec.ofNat 512 v) 1 0)) ∧
        (∀ as, fresh → newerTag r.tag (q.pair from_).highest = true → s.exportWaits who p.pnum a 4 = false → s.spot p.pnum (dieAt a) (offAt a) 4 true true = .here as → as.Nodup → as.length = 4 →
          s.mem.wf = true → (∀ m, (s.dieRec (dieAt a)).migOf p.pnum (offAt a) = some m → (s.dieRec (dieAt a)).heldEntries < Config.holdQueueEntries) →
          ports (.remoteAtomic port) (fun t y => y.inbox = rest ∧ answered y from_ id (BitVec.ofNat 512 (value as)) 0 0 ∧ (y.pair from_).highest = some r.tag ∧
            natOfBytes (as.map (fun x => Memory.read t.mem x)) = (value as + r.opa) % 2 ^ 32 ∧ ∀ x, x ∉ as → Memory.read t.mem x = Memory.read s.mem x)))) ∧
    (first → r.op = 5 → ports (.watch port) (fun t y => t.mem = s.mem ∧ y.inbox = rest ∧
      ((spot 4 1 false false).isSome = true → y.waiting = q.waiting ∧ y.watches = q.watches.filter (fun x => x.src != from_ || x.srctile != r.srctile) ++ [⟨from_, r.srctile, id, payload⟩]) ∧
      (spot 4 1 false false = none → answered y from_ id 0 2 r.tag ∧ y.watches = q.watches))) ∧
    (∀ a v, let x := Req.of h.payload; q.watches = [h] → h.src < 256 → h.srctile < 2 ^ 16 → s.reachable n p.pnum h.src x.target 4 1 false false = some a →
      s.exportRead (exportAgent n (h.src, h.xfer)) p.pnum a 4 = .got v → v < 2 ^ 32 →
      (if x.opb % 2 = 0 then (v + 2 ^ 32 - x.opa % 2 ^ 32) % 2 ^ 32 < 2 ^ 31 else v = x.opa % 2 ^ 32) →
      ports (.watchSatisfied port (BitVec.ofNat 8 h.src) (BitVec.ofNat 16 h.srctile)) (fun t y => t.mem = s.mem ∧ y.watches = [] ∧ answered y h.src h.xfer (BitVec.ofNat 512 v) 0 x.tag)) ∧
    (∀ uid eq num, q.inbox = (w, head, payload) :: rest → headType head = 4 → q.outgoing = [o] → o.xfer = id → o.dst = from_ → o.command = some (uid, eq, num) → s.ctxOf uid = some c → c.run ≠ .saved →
      ((Req.of o.payload).op = 1 → ports (.completionReply port) (fun t y => t.mem = s.mem ∧ y.inbox = rest ∧ y.outgoing = [] ∧ ∃ d, t.ctxOf uid = some d ∧
        d.failures.length = c.failures.length + (if Config.replyStatus payload = 2 then 1 else 0) ∧ d.verdicts = c.verdicts ∧
        (∀ k, c.command num = some k → k.closed = true → k.owed = 1 → k.flag = none → ∀ e : QNum, ∀ x ∈ d.eqs[e.toNat]'e.isLt, x.num ≠ num))) ∧
      ((Req.of o.payload).op = 2 → o.left = 0 → ports (.verdict port) (fun t y => t.mem = s.mem ∧ y.inbox = rest ∧ y.outgoing = [] ∧ ∃ d, t.ctxOf uid = some d ∧
        d.failures.length = c.failures.length + (if Config.replyStatus payload = 2 then 1 else 0) ∧ d.verdicts = c.verdicts - 1)))

/-! ## The whole machine -/

/-- The model's invariant of memory: its list of bytes stays in canonical form, so that equal memories are equal lists,
whatever the step does. What an unlisted byte reads as is the model's choice (log entry 1). -/
def Obligations.StepKeepsMemoryCanonical : Prop :=
  ∀ s t : State, step s = .next t → s.mem.wf = true → t.mem.wf = true

/-- R19, R21 to R23, R37, R48, R55, R98, R162, R169, R232, R260. What the manual says of the module after reset: no stage
has run, no partition has booted, no wing counts as scrubbed, no sensor has a value, no scrub or dump is under way,
nothing runs, waits or is in flight, ports number transfers and tags from 0, every meeting is up, no translation is
cached, the first handle is 1; scalar register 0 reads 0 and predicate 0 reads true; and memory lists nothing, in
canonical form. The counts of module cycles, windows, contexts, requests and free values, and every value for which the
manual states none, are the model's choice (log entry 2). -/
def Obligations.ResetState : Prop :=
  let s := State.reset
  let f := s.firefly
  f.power = .on ∧ f.stage = 0 ∧ f.partOk = 0 ∧ f.scrubDone = 0 ∧ f.minimal = false ∧ f.hold = 0 ∧ f.log = [] ∧
  (∀ d k, f.sensor d k = Sensor.none) ∧ (∀ w (h : w < 32), f.scrub[w] = (0, 0, 0)) ∧
  (∀ n, n < 8 → (s.partN n).state = 0 ∧ (s.partN n).hive = [] ∧ (s.partN n).images = [] ∧ (s.partN n).devices = [] ∧ (s.partN n).nextHandle = 1 ∧ (s.partN n).period = 1000) ∧
  (∀ n b, n < 8 → (s.portN n).nextXfer = 0 ∧ (s.portN n).outgoing = [] ∧ (s.portN n).incoming = [] ∧ (s.portN n).watches = [] ∧ (s.portN n).exported = [] ∧ (s.portN n).imported = [] ∧
    (s.portN n).down = [] ∧ ((s.portN n).pair b).nextTag = 0 ∧ ((s.portN n).pair b).highest = none ∧ ((s.portN n).pair b).cache = [] ∧ ((s.portN n).pair b).kept = []) ∧
  (∀ d, d < 8 → (s.dieRec d).tlb = [] ∧ (s.dieRec d).migs = [] ∧ (s.dieRec d).pins = []) ∧
  (∀ t, (s.tileRec t).qcfg = 0 ∧ (s.tileRec t).fabtest = 0) ∧ s.requests = [] ∧ s.others = [] ∧ s.cur.run = .ended ∧ s.cycle = 0 ∧ s.window = 0 ∧
  s.cur.s 0 = 0 ∧ s.cur.p 0 = BitVec.allOnes 128 ∧
  s.mem = [] ∧ s.mem.wf = true
end

