-- ==== Sys2Proof/Laws/PerInstr.lean ====
section
/-!
SUPPORT. The family Encodable, for every operation: the fields that the encoder writes for a syllable fill its 64 bits, and each value fits the
width that R235 to R245 give it, so that no bit of an operand is lost (R228).
-/
namespace Sys2Proof.Laws.Encodable
open Sys2Proof Sys2Proof.Machine

/-- Fields of n bits in all, each value within its width. -/
def Fits : Nat → List (Nat × Nat) → Prop
  | n, [] => n = 0
  | n, x :: l => x.1 ≤ n ∧ x.2 < 2 ^ x.1 ∧ Fits (n - x.1) l

/-- The fields of an operation that is a syllable fit. -/
def Statement (i : Instr) : Prop := ∀ l, fieldsOf i = some l → Fits 64 l

/-- By its list of fields. -/
theorem of_fields {i : Instr} {l : List (Nat × Nat)} (h : fieldsOf i = some l) (hl : Fits 64 l) : Statement i := by
  intro m hm
  rw [h] at hm
  cases hm
  exact hl

/-- An operation without an encoding. -/
theorem of_none {i : Instr} (h : fieldsOf i = none) : Statement i := by
  intro m hm
  rw [h] at hm
  cases hm

/-- A flag is one bit. -/
theorem flag_lt (b : Bool) : b.toNat < 2 ^ 1 := by cases b <;> decide

/-- One field more. -/
theorem Fits.cons {n w v : Nat} {l : List (Nat × Nat)} (hw : w ≤ n) (hv : v < 2 ^ w) (hl : Fits (n - w) l) : Fits n ((w, v) :: l) := ⟨hw, hv, hl⟩

/-- The head takes 20 bits (R228). -/
theorem Fits.head {l : List (Nat × Nat)} (h : Head) {cls opc : Nat} (hc : cls < 2 ^ 3) (ho : opc < 2 ^ 8) (hl : Fits 44 l) : Fits 64 (headFields h cls opc ++ l) :=
  .cons (by decide) (flag_lt _) (.cons (by decide) hc (.cons (by decide) (BitVec.isLt _) (.cons (by decide) (flag_lt _) (.cons (by decide) ho
    (.cons (by decide) (BitVec.isLt _) (.cons (by decide) (flag_lt _) hl))))))

theorem layS1_fits (h : Head) (opc : Nat) (rd ra rb : SRegNo) (ho : opc < 2 ^ 8) : Fits 64 (layS1 h opc rd ra rb) :=
  .head h (by decide) ho (.cons (by decide) (BitVec.isLt _) (.cons (by decide) (BitVec.isLt _) (.cons (by decide) (BitVec.isLt _) (.cons (by decide) (by decide) rfl))))

theorem layS2_fits (h : Head) (opc : Nat) (rd ra : SRegNo) (ho : opc < 2 ^ 8) : Fits 64 (layS2 h opc rd ra) :=
  .head h (by decide) ho (.cons (by decide) (BitVec.isLt _) (.cons (by decide) (BitVec.isLt _) (.cons (by decide) (by decide) rfl)))

theorem layS3_fits (h : Head) (opc : Nat) (rd ra : SRegNo) (imm : BitVec 24) (ho : opc < 2 ^ 8) : Fits 64 (layS3 h opc rd ra imm) :=
  .head h (by decide) ho (.cons (by decide) (BitVec.isLt _) (.cons (by decide) (BitVec.isLt _) (.cons (by decide) (BitVec.isLt _) (.cons (by decide) (by decide) rfl))))

theorem layS4_fits (h : Head) (opc : Nat) (rd : SRegNo) (imm : BitVec 24) (ho : opc < 2 ^ 8) : Fits 64 (layS4 h opc rd imm) :=
  .head h (by decide) ho (.cons (by decide) (BitVec.isLt _) (.cons (by decide) (by decide) (.cons (by decide) (BitVec.isLt _) (.cons (by decide) (by decide) rfl))))

theorem layS5_fits (h : Head) (opc : Nat) (rd ra : SRegNo) (pos len : BitVec 5) (ho : opc < 2 ^ 8) : Fits 64 (layS5 h opc rd ra pos len) :=
  .head h (by decide) ho (.cons (by decide) (BitVec.isLt _) (.cons (by decide) (BitVec.isLt _) (.cons (by decide) (BitVec.isLt _) (.cons (by decide) (BitVec.isLt _) (.cons (by decide) (by decide) rfl)))))

theorem layS6_fits (h : Head) (opc : Nat) (rd ra rb : SRegNo) (ps : PNum) (ho : opc < 2 ^ 8) : Fits 64 (layS6 h opc rd ra rb ps) :=
  .head h (by decide) ho (.cons (by decide) (BitVec.isLt _) (.cons (by decide) (BitVec.isLt _) (.cons (by decide) (BitVec.isLt _) (.cons (by decide) (BitVec.isLt _) (.cons (by decide) (by decide) rfl)))))

theorem layS7_fits (h : Head) (opc : Nat) (pd : PNum) (ra rb : SRegNo) (cond : Cond) (ho : opc < 2 ^ 8) : Fits 64 (layS7 h opc pd ra rb cond) :=
  .head h (by decide) ho (.cons (by decide) (BitVec.isLt _) (.cons (by decide) (BitVec.isLt _) (.cons (by decide) (BitVec.isLt _) (.cons (by decide) (BitVec.isLt _) (.cons (by decide) (by decide) rfl)))))

theorem layS8_fits (h : Head) (opc : Nat) (pd : PNum) (ra : SRegNo) (cond : Cond) (imm : BitVec 24) (ho : opc < 2 ^ 8) : Fits 64 (layS8 h opc pd ra cond imm) :=
  .head h (by decide) ho (.cons (by decide) (BitVec.isLt _) (.cons (by decide) (BitVec.isLt _) (.cons (by decide) (BitVec.isLt _) (.cons (by decide) (BitVec.isLt _) (.cons (by decide) (by decide) rfl)))))

theorem layS9_fits (h : Head) (opc : Nat) (dd da db : DNum) (ho : opc < 2 ^ 8) : Fits 64 (layS9 h opc dd da db) :=
  .head h (by decide) ho (.cons (by decide) (BitVec.isLt _) (.cons (by decide) (BitVec.isLt _) (.cons (by decide) (BitVec.isLt _) (.cons (by decide) (by decide) rfl))))

theorem layS10_fits (h : Head) (opc : Nat) (dd da : DNum) (imm : BitVec 24) (ho : opc < 2 ^ 8) : Fits 64 (layS10 h opc dd da imm) :=
  .head h (by decide) ho (.cons (by decide) (BitVec.isLt _) (.cons (by decide) (BitVec.isLt _) (.cons (by decide) (BitVec.isLt _) (.cons (by decide) (by decide) rfl))))

theorem layS11_fits (h : Head) (opc : Nat) (dd da : DNum) (rb : SRegNo) (ho : opc < 2 ^ 8) : Fits 64 (layS11 h opc dd da rb) :=
  .head h (by decide) ho (.cons (by decide) (BitVec.isLt _) (.cons (by decide) (BitVec.isLt _) (.cons (by decide) (BitVec.isLt _) (.cons (by decide) (by decide) rfl))))

theorem layS12_fits (h : Head) (opc : Nat) (dd da : DNum) (rs : SRegNo) (fld : BitVec 3) (ho : opc < 2 ^ 8) : Fits 64 (layS12 h opc dd da rs fld) :=
  .head h (by decide) ho (.cons (by decide) (BitVec.isLt _) (.cons (by decide) (BitVec.isLt _) (.cons (by decide) (BitVec.isLt _) (.cons (by decide) (BitVec.isLt _) (.cons (by decide) (by decide) rfl)))))

theorem layS13_fits (h : Head) (opc : Nat) (da : DNum) (rs : SRegNo) (fld : BitVec 3) (ho : opc < 2 ^ 8) : Fits 64 (layS13 h opc da rs fld) :=
  .head h (by decide) ho (.cons (by decide) (by decide) (.cons (by decide) (BitVec.isLt _) (.cons (by decide) (BitVec.isLt _) (.cons (by decide) (BitVec.isLt _) (.cons (by decide) (by decide) (.cons (by decide) (by decide) rfl))))))

theorem layS14_fits (h : Head) (opc : Nat) (pd pa pb : PNum) (ho : opc < 2 ^ 8) : Fits 64 (layS14 h opc pd pa pb) :=
  .head h (by decide) ho (.cons (by decide) (BitVec.isLt _) (.cons (by decide) (BitVec.isLt _) (.cons (by decide) (BitVec.isLt _) (.cons (by decide) (by decide) rfl))))

theorem layS15_fits (h : Head) (opc : Nat) (pd pa : PNum) (ho : opc < 2 ^ 8) : Fits 64 (layS15 h opc pd pa) :=
  .head h (by decide) ho (.cons (by decide) (BitVec.isLt _) (.cons (by decide) (BitVec.isLt _) (.cons (by decide) (by decide) rfl)))

theorem layS16_fits (h : Head) (opc : Nat) (pd : PNum) (lgm : Lgm) (ho : opc < 2 ^ 8) : Fits 64 (layS16 h opc pd lgm) :=
  .head h (by decide) ho (.cons (by decide) (BitVec.isLt _) (.cons (by decide) (BitVec.isLt _) (.cons (by decide) (by decide) rfl)))

theorem layS17_fits (h : Head) (opc : Nat) (rd : SRegNo) (pa : PNum) (ho : opc < 2 ^ 8) : Fits 64 (layS17 h opc rd pa) :=
  .head h (by decide) ho (.cons (by decide) (BitVec.isLt _) (.cons (by decide) (BitVec.isLt _) (.cons (by decide) (by decide) rfl)))

theorem layX1_fits (h : Head) (opc : Nat) (vd : VNum) (ho : opc < 2 ^ 8) : Fits 64 (layX1 h opc vd) :=
  .head h (by decide) ho (.cons (by decide) (by decide) (.cons (by decide) (BitVec.isLt _) (.cons (by decide) (by decide) rfl)))

theorem layX2_fits (h : Head) (opc : Nat) (va : VNum) (ho : opc < 2 ^ 8) : Fits 64 (layX2 h opc va) :=
  .head h (by decide) ho (.cons (by decide) (by decide) (.cons (by decide) (BitVec.isLt _) (.cons (by decide) (by decide) rfl)))

theorem layB1_fits (h : Head) (opc : Nat) (ho : opc < 2 ^ 8) : Fits 64 (layB1 h opc) :=
  .head h (by decide) ho (.cons (by decide) (by decide) rfl)

theorem layB2_fits (h : Head) (opc : Nat) (disp : BitVec 30) (ho : opc < 2 ^ 8) : Fits 64 (layB2 h opc disp) :=
  .head h (by decide) ho (.cons (by decide) (by decide) (.cons (by decide) (BitVec.isLt _) rfl))

theorem layB3_fits (h : Head) (opc : Nat) (ra rb : SRegNo) (cond : Cond) (disp : BitVec 30) (ho : opc < 2 ^ 8) : Fits 64 (layB3 h opc ra rb cond disp) :=
  .head h (by decide) ho (.cons (by decide) (BitVec.isLt _) (.cons (by decide) (BitVec.isLt _) (.cons (by decide) (BitVec.isLt _) (.cons (by decide) (BitVec.isLt _) rfl))))

theorem layB4_fits (h : Head) (opc : Nat) (ra : SRegNo) (disp : BitVec 30) (ho : opc < 2 ^ 8) : Fits 64 (layB4 h opc ra disp) :=
  .head h (by decide) ho (.cons (by decide) (BitVec.isLt _) (.cons (by decide) (by decide) (.cons (by decide) (BitVec.isLt _) rfl)))

theorem layB5_fits (h : Head) (opc : Nat) (da : DNum) (ho : opc < 2 ^ 8) : Fits 64 (layB5 h opc da) :=
  .head h (by decide) ho (.cons (by decide) (BitVec.isLt _) (.cons (by decide) (by decide) rfl))

theorem layB6_fits (h : Head) (opc : Nat) (count : BitVec 20) (endDisp : BitVec 24) (ho : opc < 2 ^ 8) : Fits 64 (layB6 h opc count endDisp) :=
  .head h (by decide) ho (.cons (by decide) (BitVec.isLt _) (.cons (by decide) (BitVec.isLt _) rfl))

theorem layB7_fits (h : Head) (opc : Nat) (ra : SRegNo) (endDisp : BitVec 24) (ho : opc < 2 ^ 8) : Fits 64 (layB7 h opc ra endDisp) :=
  .head h (by decide) ho (.cons (by decide) (BitVec.isLt _) (.cons (by decide) (by decide) (.cons (by decide) (BitVec.isLt _) rfl)))

theorem layB8_fits (h : Head) (opc : Nat) (imm : BitVec 16) (ho : opc < 2 ^ 8) : Fits 64 (layB8 h opc imm) :=
  .head h (by decide) ho (.cons (by decide) (by decide) (.cons (by decide) (BitVec.isLt _) rfl))

theorem layB9_fits (h : Head) (opc : Nat) (keepq : Bool) (entry : BitVec 8) (ho : opc < 2 ^ 8) : Fits 64 (layB9 h opc keepq entry) :=
  .head h (by decide) ho (.cons (by decide) (by decide) (.cons (by decide) (flag_lt _) (.cons (by decide) (BitVec.isLt _) rfl)))

theorem layB10_fits (h : Head) (opc : Nat) (rd : SRegNo) (da : DNum) (ho : opc < 2 ^ 8) : Fits 64 (layB10 h opc rd da) :=
  .head h (by decide) ho (.cons (by decide) (BitVec.isLt _) (.cons (by decide) (BitVec.isLt _) (.cons (by decide) (by decide) rfl)))

theorem layB11_fits (h : Head) (opc : Nat) (gidx : BitVec 8) (ho : opc < 2 ^ 8) : Fits 64 (layB11 h opc gidx) :=
  .head h (by decide) ho (.cons (by decide) (by decide) (.cons (by decide) (BitVec.isLt _) rfl))

theorem layL1_fits (h : Head) (opc : Nat) (da : DNum) (off : BitVec 24) (scope : Scope) (rs : SRegNo) (ho : opc < 2 ^ 8) : Fits 64 (layL1 h opc da off scope rs) :=
  .head h (by decide) ho (.cons (by decide) (BitVec.isLt _) (.cons (by decide) (BitVec.isLt _) (.cons (by decide) (BitVec.isLt _) (.cons (by decide) (BitVec.isLt _) (.cons (by decide) (by decide) rfl)))))

theorem layV1_fits (h : Head) (opc : Nat) (lgm : Lgm) (fmt : Fmt) (vd va vb : VNum) (ha hb : Bool) (ho : opc < 2 ^ 8) : Fits 64 (layV1 h opc lgm fmt vd va vb ha hb) :=
  .head h (by decide) ho (.cons (by decide) (BitVec.isLt _) (.cons (by decide) (BitVec.isLt _) (.cons (by decide) (BitVec.isLt _) (.cons (by decide) (BitVec.isLt _) (.cons (by decide) (BitVec.isLt _) (.cons (by decide) (by decide) (.cons (by decide) (flag_lt _) (.cons (by decide) (flag_lt _) (.cons (by decide) (by decide) rfl)))))))))

theorem layV2_fits (h : Head) (opc : Nat) (lgm : Lgm) (fmt : Fmt) (vd va vb vc : VNum) (ha hb hc : Bool) (ho : opc < 2 ^ 8) : Fits 64 (layV2 h opc lgm fmt vd va vb vc ha hb hc) :=
  .head h (by decide) ho (.cons (by decide) (BitVec.isLt _) (.cons (by decide) (BitVec.isLt _) (.cons (by decide) (BitVec.isLt _) (.cons (by decide) (BitVec.isLt _) (.cons (by decide) (BitVec.isLt _) (.cons (by decide) (BitVec.isLt _) (.cons (by decide) (flag_lt _) (.cons (by decide) (flag_lt _) (.cons (by decide) (flag_lt _) (.cons (by decide) (by decide) rfl))))))))))

theorem layV3_fits (h : Head) (opc : Nat) (lgm : Lgm) (fmt : Fmt) (vd va : VNum) (ha : Bool) (ho : opc < 2 ^ 8) : Fits 64 (layV3 h opc lgm fmt vd va ha) :=
  .head h (by decide) ho (.cons (by decide) (BitVec.isLt _) (.cons (by decide) (BitVec.isLt _) (.cons (by decide) (BitVec.isLt _) (.cons (by decide) (BitVec.isLt _) (.cons (by decide) (by decide) (.cons (by decide) (flag_lt _) (.cons (by decide) (by decide) rfl)))))))

theorem layV4_fits (h : Head) (opc : Nat) (lgm : Lgm) (fmt : Fmt) (pd : PNum) (va vb : VNum) (ha hb : Bool) (cond : Cond) (ho : opc < 2 ^ 8) : Fits 64 (layV4 h opc lgm fmt pd va vb ha hb cond) :=
  .head h (by decide) ho (.cons (by decide) (BitVec.isLt _) (.cons (by decide) (BitVec.isLt _) (.cons (by decide) (by decide) (.cons (by decide) (BitVec.isLt _) (.cons (by decide) (BitVec.isLt _) (.cons (by decide) (BitVec.isLt _) (.cons (by decide) (by decide) (.cons (by decide) (flag_lt _) (.cons (by decide) (flag_lt _) (.cons (by decide) (by decide) (.cons (by decide) (BitVec.isLt _) rfl)))))))))))

theorem layV5_fits (h : Head) (opc : Nat) (lgm : Lgm) (fmt : Fmt) (vd va vb : VNum) (ha hb : Bool) (ps : PNum) (ho : opc < 2 ^ 8) : Fits 64 (layV5 h opc lgm fmt vd va vb ha hb ps) :=
  .head h (by decide) ho (.cons (by decide) (BitVec.isLt _) (.cons (by decide) (BitVec.isLt _) (.cons (by decide) (BitVec.isLt _) (.cons (by decide) (BitVec.isLt _) (.cons (by decide) (BitVec.isLt _) (.cons (by decide) (by decide) (.cons (by decide) (flag_lt _) (.cons (by decide) (flag_lt _) (.cons (by decide) (by decide) (.cons (by decide) (BitVec.isLt _) rfl))))))))))

theorem layV6_fits (h : Head) (opc : Nat) (lgm : Lgm) (fmt : Fmt) (vd va vs : VNum) (scaled : Bool) (other : BitVec 4) (ha hb : Bool) (kind : BitVec 3) (sel : BitVec 2) (ho : opc < 2 ^ 8) : Fits 64 (layV6 h opc lgm fmt vd va vs scaled other ha hb kind sel) :=
  .head h (by decide) ho (.cons (by decide) (BitVec.isLt _) (.cons (by decide) (BitVec.isLt _) (.cons (by decide) (BitVec.isLt _) (.cons (by decide) (BitVec.isLt _) (.cons (by decide) (BitVec.isLt _) (.cons (by decide) (flag_lt _) (.cons (by decide) (by decide) (.cons (by decide) (BitVec.isLt _) (.cons (by decide) (flag_lt _) (.cons (by decide) (flag_lt _) (.cons (by decide) (by decide) (.cons (by decide) (BitVec.isLt _) (.cons (by decide) (BitVec.isLt _) rfl)))))))))))))

theorem layV7_fits (h : Head) (opc : Nat) (lgm : Lgm) (fmt : Fmt) (vd va vs : VNum) (src : BitVec 4) (ha : Bool) (sel : BitVec 2) (ho : opc < 2 ^ 8) : Fits 64 (layV7 h opc lgm fmt vd va vs src ha sel) :=
  .head h (by decide) ho (.cons (by decide) (BitVec.isLt _) (.cons (by decide) (BitVec.isLt _) (.cons (by decide) (BitVec.isLt _) (.cons (by decide) (BitVec.isLt _) (.cons (by decide) (BitVec.isLt _) (.cons (by decide) (by decide) (.cons (by decide) (BitVec.isLt _) (.cons (by decide) (flag_lt _) (.cons (by decide) (by decide) (.cons (by decide) (BitVec.isLt _) rfl))))))))))

theorem layV8_fits (h : Head) (opc : Nat) (lgm : Lgm) (fmt : Fmt) (vd va vs : VNum) (ha hb : Bool) (sel : BitVec 2) (ho : opc < 2 ^ 8) : Fits 64 (layV8 h opc lgm fmt vd va vs ha hb sel) :=
  .head h (by decide) ho (.cons (by decide) (BitVec.isLt _) (.cons (by decide) (BitVec.isLt _) (.cons (by decide) (BitVec.isLt _) (.cons (by decide) (BitVec.isLt _) (.cons (by decide) (BitVec.isLt _) (.cons (by decide) (by decide) (.cons (by decide) (flag_lt _) (.cons (by decide) (flag_lt _) (.cons (by decide) (by decide) (.cons (by decide) (BitVec.isLt _) rfl))))))))))

theorem layV9_fits (h : Head) (opc : Nat) (lgm : Lgm) (fmt : Fmt) (vd : VNum) (dn dm : DNum) (k : SRegNo) (ho : opc < 2 ^ 8) : Fits 64 (layV9 h opc lgm fmt vd dn dm k) :=
  .head h (by decide) ho (.cons (by decide) (BitVec.isLt _) (.cons (by decide) (BitVec.isLt _) (.cons (by decide) (BitVec.isLt _) (.cons (by decide) (by decide) (.cons (by decide) (BitVec.isLt _) (.cons (by decide) (by decide) (.cons (by decide) (BitVec.isLt _) (.cons (by decide) (by decide) (.cons (by decide) (BitVec.isLt _) (.cons (by decide) (by decide) rfl))))))))))

theorem layV10_fits (h : Head) (opc : Nat) (lgm : Lgm) (fmt : Fmt) (vd va vb : VNum) (k : SRegNo) (ha hb : Bool) (ho : opc < 2 ^ 8) : Fits 64 (layV10 h opc lgm fmt vd va vb k ha hb) :=
  .head h (by decide) ho (.cons (by decide) (BitVec.isLt _) (.cons (by decide) (BitVec.isLt _) (.cons (by decide) (BitVec.isLt _) (.cons (by decide) (BitVec.isLt _) (.cons (by decide) (BitVec.isLt _) (.cons (by decide) (by decide) (.cons (by decide) (BitVec.isLt _) (.cons (by decide) (flag_lt _) (.cons (by decide) (flag_lt _) (.cons (by decide) (by decide) rfl))))))))))

theorem layV11_fits (h : Head) (opc : Nat) (lgm : Lgm) (vd va vb : VNum) (ha hb : Bool) (ho : opc < 2 ^ 8) : Fits 64 (layV11 h opc lgm vd va vb ha hb) :=
  .head h (by decide) ho (.cons (by decide) (BitVec.isLt _) (.cons (by decide) (by decide) (.cons (by decide) (BitVec.isLt _) (.cons (by decide) (BitVec.isLt _) (.cons (by decide) (BitVec.isLt _) (.cons (by decide) (by decide) (.cons (by decide) (flag_lt _) (.cons (by decide) (flag_lt _) (.cons (by decide) (by decide) rfl)))))))))

theorem layV12_fits (h : Head) (opc : Nat) (lgm : Lgm) (fmt : Fmt) (vd : VNum) (sa : SRegNo) (ho : opc < 2 ^ 8) : Fits 64 (layV12 h opc lgm fmt vd sa) :=
  .head h (by decide) ho (.cons (by decide) (BitVec.isLt _) (.cons (by decide) (BitVec.isLt _) (.cons (by decide) (BitVec.isLt _) (.cons (by decide) (by decide) (.cons (by decide) (BitVec.isLt _) (.cons (by decide) (by decide) rfl))))))

theorem layV13_fits (h : Head) (opc : Nat) (lgm : Lgm) (fmt : Fmt) (vd : VNum) (ho : opc < 2 ^ 8) : Fits 64 (layV13 h opc lgm fmt vd) :=
  .head h (by decide) ho (.cons (by decide) (BitVec.isLt _) (.cons (by decide) (BitVec.isLt _) (.cons (by decide) (BitVec.isLt _) (.cons (by decide) (by decide) rfl))))

theorem layV14_fits (h : Head) (opc : Nat) (lgm : Lgm) (q : QNum) (ho : opc < 2 ^ 8) : Fits 64 (layV14 h opc lgm q) :=
  .head h (by decide) ho (.cons (by decide) (BitVec.isLt _) (.cons (by decide) (by decide) (.cons (by decide) (BitVec.isLt _) (.cons (by decide) (by decide) rfl))))

theorem layV15_fits (h : Head) (opc : Nat) (lgm : Lgm) (fmt : Fmt) (q : QNum) (va vb : VNum) (ha hb : Bool) (ho : opc < 2 ^ 8) : Fits 64 (layV15 h opc lgm fmt q va vb ha hb) :=
  .head h (by decide) ho (.cons (by decide) (BitVec.isLt _) (.cons (by decide) (BitVec.isLt _) (.cons (by decide) (by decide) (.cons (by decide) (BitVec.isLt _) (.cons (by decide) (BitVec.isLt _) (.cons (by decide) (BitVec.isLt _) (.cons (by decide) (by decide) (.cons (by decide) (flag_lt _) (.cons (by decide) (flag_lt _) (.cons (by decide) (by decide) rfl))))))))))

theorem layV16_fits (h : Head) (opc : Nat) (lgm : Lgm) (fmt : Fmt) (q : QNum) (va : VNum) (ha : Bool) (ho : opc < 2 ^ 8) : Fits 64 (layV16 h opc lgm fmt q va ha) :=
  .head h (by decide) ho (.cons (by decide) (BitVec.isLt _) (.cons (by decide) (BitVec.isLt _) (.cons (by decide) (by decide) (.cons (by decide) (BitVec.isLt _) (.cons (by decide) (BitVec.isLt _) (.cons (by decide) (by decide) (.cons (by decide) (flag_lt _) (.cons (by decide) (by decide) rfl))))))))

theorem layV17_fits (h : Head) (opc : Nat) (lgm : Lgm) (qd qa : QNum) (ho : opc < 2 ^ 8) : Fits 64 (layV17 h opc lgm qd qa) :=
  .head h (by decide) ho (.cons (by decide) (BitVec.isLt _) (.cons (by decide) (by decide) (.cons (by decide) (BitVec.isLt _) (.cons (by decide) (by decide) (.cons (by decide) (BitVec.isLt _) (.cons (by decide) (by decide) rfl))))))

theorem layV18_fits (h : Head) (opc : Nat) (lgm : Lgm) (fmt : Fmt) (vd : VNum) (q : QNum) (ho : opc < 2 ^ 8) : Fits 64 (layV18 h opc lgm fmt vd q) :=
  .head h (by decide) ho (.cons (by decide) (BitVec.isLt _) (.cons (by decide) (BitVec.isLt _) (.cons (by decide) (BitVec.isLt _) (.cons (by decide) (by decide) (.cons (by decide) (BitVec.isLt _) (.cons (by decide) (by decide) rfl))))))

theorem layV19_fits (h : Head) (opc : Nat) (lgm : Lgm) (vd : VNum) (q : QNum) (hi : Bool) (ho : opc < 2 ^ 8) : Fits 64 (layV19 h opc lgm vd q hi) :=
  .head h (by decide) ho (.cons (by decide) (BitVec.isLt _) (.cons (by decide) (by decide) (.cons (by decide) (BitVec.isLt _) (.cons (by decide) (by decide) (.cons (by decide) (BitVec.isLt _) (.cons (by decide) (by decide) (.cons (by decide) (flag_lt _) rfl)))))))

theorem layV20_fits (h : Head) (opc : Nat) (lgm : Lgm) (fmt : Fmt) (vd va : VNum) (ha fact : Bool) (ci : BitVec 2) (ho : opc < 2 ^ 8) : Fits 64 (layV20 h opc lgm fmt vd va ha fact ci) :=
  .head h (by decide) ho (.cons (by decide) (BitVec.isLt _) (.cons (by decide) (BitVec.isLt _) (.cons (by decide) (BitVec.isLt _) (.cons (by decide) (BitVec.isLt _) (.cons (by decide) (by decide) (.cons (by decide) (flag_lt _) (.cons (by decide) (by decide) (.cons (by decide) (flag_lt _) (.cons (by decide) (BitVec.isLt _) rfl)))))))))

theorem layV21_fits (h : Head) (opc : Nat) (lgm : Lgm) (vd va : VNum) (ha : Bool) (ci : BitVec 2) (ho : opc < 2 ^ 8) : Fits 64 (layV21 h opc lgm vd va ha ci) :=
  .head h (by decide) ho (.cons (by decide) (BitVec.isLt _) (.cons (by decide) (by decide) (.cons (by decide) (BitVec.isLt _) (.cons (by decide) (BitVec.isLt _) (.cons (by decide) (by decide) (.cons (by decide) (flag_lt _) (.cons (by decide) (by decide) (.cons (by decide) (BitVec.isLt _) rfl))))))))

theorem layM1_fits (h : Head) (opc : Nat) (lgm : Lgm) (va : VNum) (ho : opc < 2 ^ 8) : Fits 64 (layM1 h opc lgm va) :=
  .head h (by decide) ho (.cons (by decide) (BitVec.isLt _) (.cons (by decide) (by decide) (.cons (by decide) (BitVec.isLt _) (.cons (by decide) (by decide) rfl))))

theorem layM2_fits (h : Head) (opc : Nat) (ho : opc < 2 ^ 8) : Fits 64 (layM2 h opc) :=
  .head h (by decide) ho (.cons (by decide) (by decide) rfl)

theorem layM3_fits (h : Head) (opc : Nat) (fmt : Fmt) (wl : BitVec 11) (ho : opc < 2 ^ 8) : Fits 64 (layM3 h opc fmt wl) :=
  .head h (by decide) ho (.cons (by decide) (by decide) (.cons (by decide) (BitVec.isLt _) (.cons (by decide) (by decide) (.cons (by decide) (BitVec.isLt _) (.cons (by decide) (by decide) rfl)))))

theorem layM4_fits (h : Head) (opc : Nat) (lgm : Lgm) (fmt : Fmt) (vd : VNum) (row : BitVec 5) (ho : opc < 2 ^ 8) : Fits 64 (layM4 h opc lgm fmt vd row) :=
  .head h (by decide) ho (.cons (by decide) (BitVec.isLt _) (.cons (by decide) (BitVec.isLt _) (.cons (by decide) (BitVec.isLt _) (.cons (by decide) (BitVec.isLt _) (.cons (by decide) (by decide) rfl)))))

theorem layM5_fits (h : Head) (opc : Nat) (row : BitVec 5) (all : Bool) (ho : opc < 2 ^ 8) : Fits 64 (layM5 h opc row all) :=
  .head h (by decide) ho (.cons (by decide) (by decide) (.cons (by decide) (BitVec.isLt _) (.cons (by decide) (by decide) (.cons (by decide) (flag_lt _) (.cons (by decide) (by decide) rfl)))))

theorem layM6_fits (h : Head) (opc : Nat) (row : BitVec 5) (da : DNum) (all : Bool) (ho : opc < 2 ^ 8) : Fits 64 (layM6 h opc row da all) :=
  .head h (by decide) ho (.cons (by decide) (by decide) (.cons (by decide) (BitVec.isLt _) (.cons (by decide) (BitVec.isLt _) (.cons (by decide) (by decide) (.cons (by decide) (flag_lt _) (.cons (by decide) (by decide) rfl))))))

theorem layM7_fits (h : Head) (opc : Nat) (sd : SRegNo) (ho : opc < 2 ^ 8) : Fits 64 (layM7 h opc sd) :=
  .head h (by decide) ho (.cons (by decide) (by decide) (.cons (by decide) (BitVec.isLt _) (.cons (by decide) (by decide) rfl)))

theorem layL2_fits (h : Head) (opc : Nat) (da : DNum) (off : BitVec 24) (width : BitVec 2) (sx : Bool) (data : VNum) (q : Bool) (ho : opc < 2 ^ 8) : Fits 64 (layL2 h opc da off width sx data q) :=
  .head h (by decide) ho (.cons (by decide) (BitVec.isLt _) (.cons (by decide) (BitVec.isLt _) (.cons (by decide) (by decide) (.cons (by decide) (BitVec.isLt _) (.cons (by decide) (flag_lt _) (.cons (by decide) (by decide) (.cons (by decide) (BitVec.isLt _) (.cons (by decide) (flag_lt _) (.cons (by decide) (by decide) rfl)))))))))

theorem layL3_fits (h : Head) (opc : Nat) (da : DNum) (off : BitVec 24) (width : BitVec 2) (data : VNum) (ho : opc < 2 ^ 8) : Fits 64 (layL3 h opc da off width data) :=
  .head h (by decide) ho (.cons (by decide) (BitVec.isLt _) (.cons (by decide) (BitVec.isLt _) (.cons (by decide) (by decide) (.cons (by decide) (BitVec.isLt _) (.cons (by decide) (by decide) (.cons (by decide) (BitVec.isLt _) (.cons (by decide) (by decide) rfl)))))))

theorem layL4_fits (h : Head) (opc : Nat) (da : DNum) (off : BitVec 24) (lgm : Lgm) (data : VNum) (q : Bool) (ho : opc < 2 ^ 8) : Fits 64 (layL4 h opc da off lgm data q) :=
  .head h (by decide) ho (.cons (by decide) (BitVec.isLt _) (.cons (by decide) (BitVec.isLt _) (.cons (by decide) (BitVec.isLt _) (.cons (by decide) (BitVec.isLt _) (.cons (by decide) (flag_lt _) (.cons (by decide) (by decide) rfl))))))

theorem layL5_fits (h : Head) (opc : Nat) (da : DNum) (off : BitVec 24) (lgm : Lgm) (data : VNum) (ho : opc < 2 ^ 8) : Fits 64 (layL5 h opc da off lgm data) :=
  .head h (by decide) ho (.cons (by decide) (BitVec.isLt _) (.cons (by decide) (BitVec.isLt _) (.cons (by decide) (BitVec.isLt _) (.cons (by decide) (BitVec.isLt _) (.cons (by decide) (by decide) rfl)))))

theorem layL6_fits (h : Head) (opc : Nat) (da : DNum) (off : BitVec 24) (stride : SRegNo) (ew : BitVec 2) (data : VNum) (q : Bool) (ho : opc < 2 ^ 8) : Fits 64 (layL6 h opc da off stride ew data q) :=
  .head h (by decide) ho (.cons (by decide) (BitVec.isLt _) (.cons (by decide) (BitVec.isLt _) (.cons (by decide) (BitVec.isLt _) (.cons (by decide) (BitVec.isLt _) (.cons (by decide) (BitVec.isLt _) (.cons (by decide) (flag_lt _) (.cons (by decide) (by decide) rfl)))))))

theorem layL7_fits (h : Head) (opc : Nat) (da : DNum) (off : BitVec 24) (stride : SRegNo) (ew : BitVec 2) (data : VNum) (ho : opc < 2 ^ 8) : Fits 64 (layL7 h opc da off stride ew data) :=
  .head h (by decide) ho (.cons (by decide) (BitVec.isLt _) (.cons (by decide) (BitVec.isLt _) (.cons (by decide) (BitVec.isLt _) (.cons (by decide) (BitVec.isLt _) (.cons (by decide) (BitVec.isLt _) (.cons (by decide) (by decide) rfl))))))

theorem layL8_fits (h : Head) (opc : Nat) (da : DNum) (off : BitVec 24) (lgm : Lgm) (q : QNum) (ho : opc < 2 ^ 8) : Fits 64 (layL8 h opc da off lgm q) :=
  .head h (by decide) ho (.cons (by decide) (BitVec.isLt _) (.cons (by decide) (BitVec.isLt _) (.cons (by decide) (BitVec.isLt _) (.cons (by decide) (by decide) (.cons (by decide) (BitVec.isLt _) (.cons (by decide) (by decide) rfl))))))

theorem layL9_fits (h : Head) (opc : Nat) (da : DNum) (off : BitVec 24) (scope : Scope) (width : BitVec 2) (data : VNum) (q : Bool) (ho : opc < 2 ^ 8) : Fits 64 (layL9 h opc da off scope width data q) :=
  .head h (by decide) ho (.cons (by decide) (BitVec.isLt _) (.cons (by decide) (BitVec.isLt _) (.cons (by decide) (BitVec.isLt _) (.cons (by decide) (BitVec.isLt _) (.cons (by decide) (by decide) (.cons (by decide) (BitVec.isLt _) (.cons (by decide) (flag_lt _) (.cons (by decide) (by decide) rfl))))))))

theorem layL10_fits (h : Head) (opc : Nat) (da : DNum) (off : BitVec 24) (scope : Scope) (width : BitVec 2) (data : VNum) (ho : opc < 2 ^ 8) : Fits 64 (layL10 h opc da off scope width data) :=
  .head h (by decide) ho (.cons (by decide) (BitVec.isLt _) (.cons (by decide) (BitVec.isLt _) (.cons (by decide) (BitVec.isLt _) (.cons (by decide) (BitVec.isLt _) (.cons (by decide) (by decide) (.cons (by decide) (BitVec.isLt _) (.cons (by decide) (by decide) rfl)))))))

theorem layL11_fits (h : Head) (opc : Nat) (da : DNum) (off : BitVec 24) (rd rs : SRegNo) (q : Bool) (ho : opc < 2 ^ 8) : Fits 64 (layL11 h opc da off rd rs q) :=
  .head h (by decide) ho (.cons (by decide) (BitVec.isLt _) (.cons (by decide) (BitVec.isLt _) (.cons (by decide) (BitVec.isLt _) (.cons (by decide) (BitVec.isLt _) (.cons (by decide) (by decide) (.cons (by decide) (flag_lt _) (.cons (by decide) (by decide) rfl)))))))

theorem layL12_fits (h : Head) (opc : Nat) (da : DNum) (off : BitVec 24) (rd rs : SRegNo) (q : Bool) (ho : opc < 2 ^ 8) : Fits 64 (layL12 h opc da off rd rs q) :=
  .head h (by decide) ho (.cons (by decide) (BitVec.isLt _) (.cons (by decide) (BitVec.isLt _) (.cons (by decide) (BitVec.isLt _) (.cons (by decide) (BitVec.isLt _) (.cons (by decide) (by decide) (.cons (by decide) (flag_lt _) (.cons (by decide) (by decide) rfl)))))))

theorem layL13_fits (h : Head) (opc : Nat) (da : DNum) (off : BitVec 24) (rd rs : SRegNo) (q : Bool) (ho : opc < 2 ^ 8) : Fits 64 (layL13 h opc da off rd rs q) :=
  .head h (by decide) ho (.cons (by decide) (BitVec.isLt _) (.cons (by decide) (BitVec.isLt _) (.cons (by decide) (BitVec.isLt _) (.cons (by decide) (BitVec.isLt _) (.cons (by decide) (by decide) (.cons (by decide) (flag_lt _) (.cons (by decide) (by decide) rfl)))))))

theorem layL14_fits (h : Head) (opc : Nat) (da : DNum) (off : BitVec 24) (rd rs : SRegNo) (q : Bool) (ho : opc < 2 ^ 8) : Fits 64 (layL14 h opc da off rd rs q) :=
  .head h (by decide) ho (.cons (by decide) (BitVec.isLt _) (.cons (by decide) (BitVec.isLt _) (.cons (by decide) (BitVec.isLt _) (.cons (by decide) (BitVec.isLt _) (.cons (by decide) (by decide) (.cons (by decide) (flag_lt _) (.cons (by decide) (by decide) rfl)))))))

theorem layL15_fits (h : Head) (opc : Nat) (da : DNum) (off : BitVec 24) (rd rs : SRegNo) (q : Bool) (ho : opc < 2 ^ 8) : Fits 64 (layL15 h opc da off rd rs q) :=
  .head h (by decide) ho (.cons (by decide) (BitVec.isLt _) (.cons (by decide) (BitVec.isLt _) (.cons (by decide) (BitVec.isLt _) (.cons (by decide) (BitVec.isLt _) (.cons (by decide) (by decide) (.cons (by decide) (flag_lt _) (.cons (by decide) (by decide) rfl)))))))

theorem layL16_fits (h : Head) (opc : Nat) (da : DNum) (off : BitVec 24) (rd rs : SRegNo) (q : Bool) (ho : opc < 2 ^ 8) : Fits 64 (layL16 h opc da off rd rs q) :=
  .head h (by decide) ho (.cons (by decide) (BitVec.isLt _) (.cons (by decide) (BitVec.isLt _) (.cons (by decide) (BitVec.isLt _) (.cons (by decide) (BitVec.isLt _) (.cons (by decide) (by decide) (.cons (by decide) (flag_lt _) (.cons (by decide) (by decide) rfl)))))))

theorem layL17_fits (h : Head) (opc : Nat) (da : DNum) (off : BitVec 24) (rd rs : SRegNo) (q : Bool) (ho : opc < 2 ^ 8) : Fits 64 (layL17 h opc da off rd rs q) :=
  .head h (by decide) ho (.cons (by decide) (BitVec.isLt _) (.cons (by decide) (BitVec.isLt _) (.cons (by decide) (BitVec.isLt _) (.cons (by decide) (BitVec.isLt _) (.cons (by decide) (by decide) (.cons (by decide) (flag_lt _) (.cons (by decide) (by decide) rfl)))))))

theorem layL18_fits (h : Head) (opc : Nat) (da : DNum) (off : BitVec 24) (rd rs : SRegNo) (q : Bool) (ho : opc < 2 ^ 8) : Fits 64 (layL18 h opc da off rd rs q) :=
  .head h (by decide) ho (.cons (by decide) (BitVec.isLt _) (.cons (by decide) (BitVec.isLt _) (.cons (by decide) (BitVec.isLt _) (.cons (by decide) (BitVec.isLt _) (.cons (by decide) (by decide) (.cons (by decide) (flag_lt _) (.cons (by decide) (by decide) rfl)))))))

theorem layL19_fits (h : Head) (opc : Nat) (da : DNum) (off : BitVec 24) (rd rs : SRegNo) (q wide : Bool) (ho : opc < 2 ^ 8) : Fits 64 (layL19 h opc da off rd rs q wide) :=
  .head h (by decide) ho (.cons (by decide) (BitVec.isLt _) (.cons (by decide) (BitVec.isLt _) (.cons (by decide) (BitVec.isLt _) (.cons (by decide) (BitVec.isLt _) (.cons (by decide) (by decide) (.cons (by decide) (flag_lt _) (.cons (by decide) (flag_lt _) rfl)))))))

theorem layL20_fits (h : Head) (opc : Nat) (da : DNum) (off : BitVec 24) (q : QNum) (ho : opc < 2 ^ 8) : Fits 64 (layL20 h opc da off q) :=
  .head h (by decide) ho (.cons (by decide) (BitVec.isLt _) (.cons (by decide) (BitVec.isLt _) (.cons (by decide) (by decide) (.cons (by decide) (BitVec.isLt _) (.cons (by decide) (by decide) (.cons (by decide) (by decide) rfl))))))

theorem layL21_fits (h : Head) (opc : Nat) (da : DNum) (off : BitVec 24) (rd rs : SRegNo) (fmt : Fmt) (q : Bool) (ho : opc < 2 ^ 8) : Fits 64 (layL21 h opc da off rd rs fmt q) :=
  .head h (by decide) ho (.cons (by decide) (BitVec.isLt _) (.cons (by decide) (BitVec.isLt _) (.cons (by decide) (BitVec.isLt _) (.cons (by decide) (BitVec.isLt _) (.cons (by decide) (BitVec.isLt _) (.cons (by decide) (flag_lt _) (.cons (by decide) (by decide) rfl)))))))

theorem layL22_fits (h : Head) (opc : Nat) (da : DNum) (off : BitVec 24) (rd rc rn : SRegNo) (q : Bool) (ho : opc < 2 ^ 8) : Fits 64 (layL22 h opc da off rd rc rn q) :=
  .head h (by decide) ho (.cons (by decide) (BitVec.isLt _) (.cons (by decide) (BitVec.isLt _) (.cons (by decide) (BitVec.isLt _) (.cons (by decide) (BitVec.isLt _) (.cons (by decide) (BitVec.isLt _) (.cons (by decide) (flag_lt _) rfl))))))

theorem layL23_fits (h : Head) (opc : Nat) (scope : Scope) (ho : opc < 2 ^ 8) : Fits 64 (layL23 h opc scope) :=
  .head h (by decide) ho (.cons (by decide) (by decide) (.cons (by decide) (BitVec.isLt _) (.cons (by decide) (by decide) rfl)))

theorem layL24_fits (h : Head) (opc : Nat) (ho : opc < 2 ^ 8) : Fits 64 (layL24 h opc) :=
  .head h (by decide) ho (.cons (by decide) (by decide) rfl)

theorem layL25_fits (h : Head) (opc : Nat) (da : DNum) (off : BitVec 24) (ho : opc < 2 ^ 8) : Fits 64 (layL25 h opc da off) :=
  .head h (by decide) ho (.cons (by decide) (BitVec.isLt _) (.cons (by decide) (BitVec.isLt _) (.cons (by decide) (by decide) rfl)))

theorem layE1_fits (h : Head) (opc : Nat) (eq : QNum) (start : BitVec 12) (dst src : DNum) (len : SRegNo) (ho : opc < 2 ^ 8) : Fits 64 (layE1 h opc eq start dst src len) :=
  .head h (by decide) ho (.cons (by decide) (BitVec.isLt _) (.cons (by decide) (BitVec.isLt _) (.cons (by decide) (BitVec.isLt _) (.cons (by decide) (BitVec.isLt _) (.cons (by decide) (BitVec.isLt _) (.cons (by decide) (by decide) rfl))))))

theorem layE2_fits (h : Head) (opc : Nat) (eq : QNum) (start : BitVec 12) (dst base : DNum) (idx : VNum) (count : SRegNo) (esz : BitVec 2) (ho : opc < 2 ^ 8) : Fits 64 (layE2 h opc eq start dst base idx count esz) :=
  .head h (by decide) ho (.cons (by decide) (BitVec.isLt _) (.cons (by decide) (BitVec.isLt _) (.cons (by decide) (BitVec.isLt _) (.cons (by decide) (BitVec.isLt _) (.cons (by decide) (BitVec.isLt _) (.cons (by decide) (BitVec.isLt _) (.cons (by decide) (BitVec.isLt _) (.cons (by decide) (by decide) rfl))))))))

theorem layE3_fits (h : Head) (opc : Nat) (eq : QNum) (start : BitVec 12) (src : DNum) (line count : SRegNo) (ho : opc < 2 ^ 8) : Fits 64 (layE3 h opc eq start src line count) :=
  .head h (by decide) ho (.cons (by decide) (BitVec.isLt _) (.cons (by decide) (BitVec.isLt _) (.cons (by decide) (BitVec.isLt _) (.cons (by decide) (BitVec.isLt _) (.cons (by decide) (BitVec.isLt _) (.cons (by decide) (by decide) rfl))))))

theorem layE4_fits (h : Head) (opc : Nat) (eq : QNum) (start : BitVec 12) (dst src : DNum) (len : SRegNo) (flag : DNum) (lossy : Bool) (mask : DNum) (ho : opc < 2 ^ 8) : Fits 64 (layE4 h opc eq start dst src len flag lossy mask) :=
  .head h (by decide) ho (.cons (by decide) (BitVec.isLt _) (.cons (by decide) (BitVec.isLt _) (.cons (by decide) (BitVec.isLt _) (.cons (by decide) (BitVec.isLt _) (.cons (by decide) (BitVec.isLt _) (.cons (by decide) (BitVec.isLt _) (.cons (by decide) (flag_lt _) (.cons (by decide) (BitVec.isLt _) (.cons (by decide) (by decide) rfl)))))))))

theorem layE5_fits (h : Head) (opc : Nat) (eq : QNum) (start : BitVec 12) (src : DNum) (rq : QNum) (len : SRegNo) (ho : opc < 2 ^ 8) : Fits 64 (layE5 h opc eq start src rq len) :=
  .head h (by decide) ho (.cons (by decide) (BitVec.isLt _) (.cons (by decide) (BitVec.isLt _) (.cons (by decide) (BitVec.isLt _) (.cons (by decide) (BitVec.isLt _) (.cons (by decide) (BitVec.isLt _) (.cons (by decide) (by decide) rfl))))))

theorem layE6_fits (h : Head) (opc : Nat) (eq : QNum) (start : BitVec 12) (dst src : DNum) (len : SRegNo) (flag : DNum) (grp : SRegNo) (ho : opc < 2 ^ 8) : Fits 64 (layE6 h opc eq start dst src len flag grp) :=
  .head h (by decide) ho (.cons (by decide) (BitVec.isLt _) (.cons (by decide) (BitVec.isLt _) (.cons (by decide) (BitVec.isLt _) (.cons (by decide) (BitVec.isLt _) (.cons (by decide) (BitVec.isLt _) (.cons (by decide) (BitVec.isLt _) (.cons (by decide) (by decide) (.cons (by decide) (BitVec.isLt _) (.cons (by decide) (by decide) rfl)))))))))

theorem layE7_fits (h : Head) (opc : Nat) (eq : QNum) (start : BitVec 12) (dst src : DNum) (len : SRegNo) (flag : DNum) (grp : SRegNo) (ho : opc < 2 ^ 8) : Fits 64 (layE7 h opc eq start dst src len flag grp) :=
  .head h (by decide) ho (.cons (by decide) (BitVec.isLt _) (.cons (by decide) (BitVec.isLt _) (.cons (by decide) (BitVec.isLt _) (.cons (by decide) (BitVec.isLt _) (.cons (by decide) (BitVec.isLt _) (.cons (by decide) (BitVec.isLt _) (.cons (by decide) (by decide) (.cons (by decide) (BitVec.isLt _) (.cons (by decide) (by decide) rfl)))))))))

theorem layE8_fits (h : Head) (opc : Nat) (eq : QNum) (start : BitVec 12) (dst src : DNum) (len : SRegNo) (flag : DNum) (grp : SRegNo) (ho : opc < 2 ^ 8) : Fits 64 (layE8 h opc eq start dst src len flag grp) :=
  .head h (by decide) ho (.cons (by decide) (BitVec.isLt _) (.cons (by decide) (BitVec.isLt _) (.cons (by decide) (BitVec.isLt _) (.cons (by decide) (BitVec.isLt _) (.cons (by decide) (BitVec.isLt _) (.cons (by decide) (BitVec.isLt _) (.cons (by decide) (by decide) (.cons (by decide) (BitVec.isLt _) (.cons (by decide) (by decide) rfl)))))))))

theorem layE9_fits (h : Head) (opc : Nat) (start : BitVec 12) (qmask : BitVec 4) (ho : opc < 2 ^ 8) : Fits 64 (layE9 h opc start qmask) :=
  .head h (by decide) ho (.cons (by decide) (by decide) (.cons (by decide) (BitVec.isLt _) (.cons (by decide) (BitVec.isLt _) (.cons (by decide) (by decide) rfl))))

theorem layE10_fits (h : Head) (opc : Nat) (ho : opc < 2 ^ 8) : Fits 64 (layE10 h opc) :=
  .head h (by decide) ho (.cons (by decide) (by decide) rfl)

theorem layE11_fits (h : Head) (opc : Nat) (n : BitVec 8) (ho : opc < 2 ^ 8) : Fits 64 (layE11 h opc n) :=
  .head h (by decide) ho (.cons (by decide) (by decide) (.cons (by decide) (BitVec.isLt _) (.cons (by decide) (by decide) rfl)))

theorem layE12_fits (h : Head) (opc : Nat) (eq : QNum) (rd : SRegNo) (ho : opc < 2 ^ 8) : Fits 64 (layE12 h opc eq rd) :=
  .head h (by decide) ho (.cons (by decide) (BitVec.isLt _) (.cons (by decide) (by decide) (.cons (by decide) (BitVec.isLt _) (.cons (by decide) (by decide) rfl))))

theorem layX3_fits (h : Head) (opc : Nat) (d : VNum) (rq : QNum) (kind : BitVec 2) (ho : opc < 2 ^ 8) : Fits 64 (layX3 h opc d rq kind) :=
  .head h (by decide) ho (.cons (by decide) (by decide) (.cons (by decide) (BitVec.isLt _) (.cons (by decide) (by decide) (.cons (by decide) (BitVec.isLt _) (.cons (by decide) (BitVec.isLt _) (.cons (by decide) (by decide) rfl))))))

theorem layX4_fits (h : Head) (opc : Nat) (d : VNum) (rq : QNum) (kind : BitVec 2) (pn : PNum) (ho : opc < 2 ^ 8) : Fits 64 (layX4 h opc d rq kind pn) :=
  .head h (by decide) ho (.cons (by decide) (by decide) (.cons (by decide) (BitVec.isLt _) (.cons (by decide) (by decide) (.cons (by decide) (BitVec.isLt _) (.cons (by decide) (BitVec.isLt _) (.cons (by decide) (BitVec.isLt _) (.cons (by decide) (by decide) (.cons (by decide) (by decide) rfl))))))))

theorem layX5_fits (h : Head) (opc : Nat) (fmt : Fmt) (vd va vb : VNum) (src : BitVec 4) (ho : opc < 2 ^ 8) : Fits 64 (layX5 h opc fmt vd va vb src) :=
  .head h (by decide) ho (.cons (by decide) (by decide) (.cons (by decide) (BitVec.isLt _) (.cons (by decide) (BitVec.isLt _) (.cons (by decide) (BitVec.isLt _) (.cons (by decide) (BitVec.isLt _) (.cons (by decide) (by decide) (.cons (by decide) (BitVec.isLt _) rfl)))))))

theorem layX6_fits (h : Head) (opc : Nat) (fmt : Fmt) (vd va vs : VNum) (sel : BitVec 2) (scaled : Bool) (src : BitVec 4) (ho : opc < 2 ^ 8) : Fits 64 (layX6 h opc fmt vd va vs sel scaled src) :=
  .head h (by decide) ho (.cons (by decide) (by decide) (.cons (by decide) (BitVec.isLt _) (.cons (by decide) (BitVec.isLt _) (.cons (by decide) (BitVec.isLt _) (.cons (by decide) (BitVec.isLt _) (.cons (by decide) (BitVec.isLt _) (.cons (by decide) (by decide) (.cons (by decide) (flag_lt _) (.cons (by decide) (BitVec.isLt _) rfl)))))))))

theorem layX7_fits (h : Head) (opc : Nat) (lgm : Lgm) (vd va : VNum) (bcast : Bool) (rot : BitVec 3) (ho : opc < 2 ^ 8) : Fits 64 (layX7 h opc lgm vd va bcast rot) :=
  .head h (by decide) ho (.cons (by decide) (BitVec.isLt _) (.cons (by decide) (by decide) (.cons (by decide) (BitVec.isLt _) (.cons (by decide) (BitVec.isLt _) (.cons (by decide) (by decide) (.cons (by decide) (flag_lt _) (.cons (by decide) (BitVec.isLt _) rfl)))))))

theorem layX8_fits (h : Head) (opc : Nat) (lgm : Lgm) (va : VNum) (ho : opc < 2 ^ 8) : Fits 64 (layX8 h opc lgm va) :=
  .head h (by decide) ho (.cons (by decide) (BitVec.isLt _) (.cons (by decide) (by decide) (.cons (by decide) (BitVec.isLt _) (.cons (by decide) (by decide) rfl))))

theorem layX9_fits (h : Head) (opc : Nat) (lgm : Lgm) (vd va : VNum) (ho : opc < 2 ^ 8) : Fits 64 (layX9 h opc lgm vd va) :=
  .head h (by decide) ho (.cons (by decide) (BitVec.isLt _) (.cons (by decide) (by decide) (.cons (by decide) (BitVec.isLt _) (.cons (by decide) (BitVec.isLt _) (.cons (by decide) (by decide) rfl)))))

theorem layX10_fits (h : Head) (opc : Nat) (sd : SRegNo) (va : VNum) (lane : BitVec 7) (ho : opc < 2 ^ 8) : Fits 64 (layX10 h opc sd va lane) :=
  .head h (by decide) ho (.cons (by decide) (by decide) (.cons (by decide) (BitVec.isLt _) (.cons (by decide) (BitVec.isLt _) (.cons (by decide) (by decide) (.cons (by decide) (BitVec.isLt _) rfl)))))

theorem layX11_fits (h : Head) (opc : Nat) (sd : SRegNo) (idx : BitVec 8) (ho : opc < 2 ^ 8) : Fits 64 (layX11 h opc sd idx) :=
  .head h (by decide) ho (.cons (by decide) (by decide) (.cons (by decide) (BitVec.isLt _) (.cons (by decide) (by decide) (.cons (by decide) (BitVec.isLt _) rfl))))

theorem layX12_fits (h : Head) (opc : Nat) (sa : SRegNo) (idx : BitVec 8) (ho : opc < 2 ^ 8) : Fits 64 (layX12 h opc sa idx) :=
  .head h (by decide) ho (.cons (by decide) (by decide) (.cons (by decide) (BitVec.isLt _) (.cons (by decide) (by decide) (.cons (by decide) (BitVec.isLt _) rfl))))

theorem layX13_fits (h : Head) (opc : Nat) (sd : SRegNo) (n : BitVec 12) (ho : opc < 2 ^ 8) : Fits 64 (layX13 h opc sd n) :=
  .head h (by decide) ho (.cons (by decide) (by decide) (.cons (by decide) (BitVec.isLt _) (.cons (by decide) (by decide) (.cons (by decide) (BitVec.isLt _) rfl))))

theorem layP1_fits (h : Head) (opc : Nat) (cnt : BitVec 6) (str : Bool) (step : BitVec 28) (ho : opc < 2 ^ 8) : Fits 64 (layP1 h opc cnt str step) :=
  .head h (by decide) ho (.cons (by decide) (BitVec.isLt _) (.cons (by decide) (flag_lt _) (.cons (by decide) (by decide) (.cons (by decide) (BitVec.isLt _) (.cons (by decide) (by decide) rfl)))))

theorem layP2_fits (h : Head) (opc : Nat) (value : BitVec 32) (ho : opc < 2 ^ 8) : Fits 64 (layP2 h opc value) :=
  .head h (by decide) ho (.cons (by decide) (BitVec.isLt _) (.cons (by decide) (by decide) rfl))

theorem add (h : Head) (rd ra rb : SRegNo) : Statement (.add h rd ra rb) := of_fields rfl (layS1_fits h 0x00 rd ra rb (by decide))
theorem sub (h : Head) (rd ra rb : SRegNo) : Statement (.sub h rd ra rb) := of_fields rfl (layS1_fits h 0x01 rd ra rb (by decide))
theorem mul (h : Head) (rd ra rb : SRegNo) : Statement (.mul h rd ra rb) := of_fields rfl (layS1_fits h 0x02 rd ra rb (by decide))
theorem mulh (h : Head) (rd ra rb : SRegNo) : Statement (.mulh h rd ra rb) := of_fields rfl (layS1_fits h 0x03 rd ra rb (by decide))
theorem mulhu (h : Head) (rd ra rb : SRegNo) : Statement (.mulhu h rd ra rb) := of_fields rfl (layS1_fits h 0x04 rd ra rb (by decide))
theorem div (h : Head) (rd ra rb : SRegNo) : Statement (.div h rd ra rb) := of_fields rfl (layS1_fits h 0x05 rd ra rb (by decide))
theorem divu (h : Head) (rd ra rb : SRegNo) : Statement (.divu h rd ra rb) := of_fields rfl (layS1_fits h 0x06 rd ra rb (by decide))
theorem rem (h : Head) (rd ra rb : SRegNo) : Statement (.rem h rd ra rb) := of_fields rfl (layS1_fits h 0x07 rd ra rb (by decide))
theorem remu (h : Head) (rd ra rb : SRegNo) : Statement (.remu h rd ra rb) := of_fields rfl (layS1_fits h 0x08 rd ra rb (by decide))
theorem and (h : Head) (rd ra rb : SRegNo) : Statement (.and h rd ra rb) := of_fields rfl (layS1_fits h 0x09 rd ra rb (by decide))
theorem or (h : Head) (rd ra rb : SRegNo) : Statement (.or h rd ra rb) := of_fields rfl (layS1_fits h 0x0A rd ra rb (by decide))
theorem xor (h : Head) (rd ra rb : SRegNo) : Statement (.xor h rd ra rb) := of_fields rfl (layS1_fits h 0x0B rd ra rb (by decide))
theorem andn (h : Head) (rd ra rb : SRegNo) : Statement (.andn h rd ra rb) := of_fields rfl (layS1_fits h 0x0C rd ra rb (by decide))
theorem shl (h : Head) (rd ra rb : SRegNo) : Statement (.shl h rd ra rb) := of_fields rfl (layS1_fits h 0x0D rd ra rb (by decide))
theorem shr (h : Head) (rd ra rb : SRegNo) : Statement (.shr h rd ra rb) := of_fields rfl (layS1_fits h 0x0E rd ra rb (by decide))
theorem sar (h : Head) (rd ra rb : SRegNo) : Statement (.sar h rd ra rb) := of_fields rfl (layS1_fits h 0x0F rd ra rb (by decide))
theorem rot (h : Head) (rd ra rb : SRegNo) : Statement (.rot h rd ra rb) := of_fields rfl (layS1_fits h 0x10 rd ra rb (by decide))
theorem min (h : Head) (rd ra rb : SRegNo) : Statement (.min h rd ra rb) := of_fields rfl (layS1_fits h 0x11 rd ra rb (by decide))
theorem max (h : Head) (rd ra rb : SRegNo) : Statement (.max h rd ra rb) := of_fields rfl (layS1_fits h 0x12 rd ra rb (by decide))
theorem minu (h : Head) (rd ra rb : SRegNo) : Statement (.minu h rd ra rb) := of_fields rfl (layS1_fits h 0x13 rd ra rb (by decide))
theorem maxu (h : Head) (rd ra rb : SRegNo) : Statement (.maxu h rd ra rb) := of_fields rfl (layS1_fits h 0x14 rd ra rb (by decide))
theorem clz (h : Head) (rd ra : SRegNo) : Statement (.clz h rd ra) := of_fields rfl (layS2_fits h 0x18 rd ra (by decide))
theorem ctz (h : Head) (rd ra : SRegNo) : Statement (.ctz h rd ra) := of_fields rfl (layS2_fits h 0x19 rd ra (by decide))
theorem popc (h : Head) (rd ra : SRegNo) : Statement (.popc h rd ra) := of_fields rfl (layS2_fits h 0x1A rd ra (by decide))
theorem mov (h : Head) (rd ra : SRegNo) : Statement (.mov h rd ra) := of_fields rfl (layS2_fits h 0x1B rd ra (by decide))
theorem addi (h : Head) (rd ra : SRegNo) (imm : BitVec 24) : Statement (.addi h rd ra imm) := of_fields rfl (layS3_fits h 0x20 rd ra imm (by decide))
theorem andi (h : Head) (rd ra : SRegNo) (imm : BitVec 24) : Statement (.andi h rd ra imm) := of_fields rfl (layS3_fits h 0x21 rd ra imm (by decide))
theorem ori (h : Head) (rd ra : SRegNo) (imm : BitVec 24) : Statement (.ori h rd ra imm) := of_fields rfl (layS3_fits h 0x22 rd ra imm (by decide))
theorem xori (h : Head) (rd ra : SRegNo) (imm : BitVec 24) : Statement (.xori h rd ra imm) := of_fields rfl (layS3_fits h 0x23 rd ra imm (by decide))
theorem shli (h : Head) (rd ra : SRegNo) (imm : BitVec 24) : Statement (.shli h rd ra imm) := of_fields rfl (layS3_fits h 0x24 rd ra imm (by decide))
theorem shri (h : Head) (rd ra : SRegNo) (imm : BitVec 24) : Statement (.shri h rd ra imm) := of_fields rfl (layS3_fits h 0x25 rd ra imm (by decide))
theorem sari (h : Head) (rd ra : SRegNo) (imm : BitVec 24) : Statement (.sari h rd ra imm) := of_fields rfl (layS3_fits h 0x26 rd ra imm (by decide))
theorem li (h : Head) (rd : SRegNo) (imm : BitVec 24) : Statement (.li h rd imm) := of_fields rfl (layS4_fits h 0x27 rd imm (by decide))
theorem lih (h : Head) (rd : SRegNo) (imm : BitVec 24) : Statement (.lih h rd imm) := of_fields rfl (layS4_fits h 0x28 rd imm (by decide))
theorem bext (h : Head) (rd ra : SRegNo) (pos len : BitVec 5) : Statement (.bext h rd ra pos len) := of_fields rfl (layS5_fits h 0x2C rd ra pos len (by decide))
theorem bins (h : Head) (rd ra : SRegNo) (pos len : BitVec 5) : Statement (.bins h rd ra pos len) := of_fields rfl (layS5_fits h 0x2D rd ra pos len (by decide))
theorem sel (h : Head) (rd ra rb : SRegNo) (ps : PNum) : Statement (.sel h rd ra rb ps) := of_fields rfl (layS6_fits h 0x2E rd ra rb ps (by decide))
theorem cmp (h : Head) (pd : PNum) (ra rb : SRegNo) (cond : Cond) : Statement (.cmp h pd ra rb cond) := of_fields rfl (layS7_fits h 0x30 pd ra rb cond (by decide))
theorem cmpi (h : Head) (pd : PNum) (ra : SRegNo) (cond : Cond) (imm : BitVec 24) : Statement (.cmpi h pd ra cond imm) := of_fields rfl (layS8_fits h 0x31 pd ra cond imm (by decide))
theorem addd (h : Head) (dd da db : DNum) : Statement (.addd h dd da db) := of_fields rfl (layS9_fits h 0x38 dd da db (by decide))
theorem subd (h : Head) (dd da db : DNum) : Statement (.subd h dd da db) := of_fields rfl (layS9_fits h 0x39 dd da db (by decide))
theorem adddi (h : Head) (dd da : DNum) (imm : BitVec 24) : Statement (.adddi h dd da imm) := of_fields rfl (layS10_fits h 0x3A dd da imm (by decide))
theorem shld (h : Head) (dd da : DNum) (rb : SRegNo) : Statement (.shld h dd da rb) := of_fields rfl (layS11_fits h 0x3B dd da rb (by decide))
theorem tagd (h : Head) (dd da : DNum) (rs : SRegNo) (fld : BitVec 3) : Statement (.tagd h dd da rs fld) := of_fields rfl (layS12_fits h 0x3C dd da rs fld (by decide))
theorem tagx (h : Head) (da : DNum) (rs : SRegNo) (fld : BitVec 3) : Statement (.tagx h da rs fld) := of_fields rfl (layS13_fits h 0x3C da rs fld (by decide))
theorem pand (h : Head) (pd pa pb : PNum) : Statement (.pand h pd pa pb) := of_fields rfl (layS14_fits h 0x40 pd pa pb (by decide))
theorem por (h : Head) (pd pa pb : PNum) : Statement (.por h pd pa pb) := of_fields rfl (layS14_fits h 0x41 pd pa pb (by decide))
theorem pxor (h : Head) (pd pa pb : PNum) : Statement (.pxor h pd pa pb) := of_fields rfl (layS14_fits h 0x42 pd pa pb (by decide))
theorem pnot (h : Head) (pd pa : PNum) : Statement (.pnot h pd pa) := of_fields rfl (layS15_fits h 0x43 pd pa (by decide))
theorem pmov (h : Head) (pd pa : PNum) : Statement (.pmov h pd pa) := of_fields rfl (layS15_fits h 0x44 pd pa (by decide))
theorem pany (h : Head) (pd pa : PNum) : Statement (.pany h pd pa) := of_fields rfl (layS15_fits h 0x45 pd pa (by decide))
theorem pall (h : Head) (pd pa : PNum) : Statement (.pall h pd pa) := of_fields rfl (layS15_fits h 0x46 pd pa (by decide))
theorem pset (h : Head) (pd : PNum) (lgm : Lgm) : Statement (.pset h pd lgm) := of_fields rfl (layS16_fits h 0x47 pd lgm (by decide))
theorem pcnt (h : Head) (rd : SRegNo) (pa : PNum) : Statement (.pcnt h rd pa) := of_fields rfl (layS17_fits h 0x48 rd pa (by decide))
theorem ppack (h : Head) (vd : VNum) : Statement (.ppack h vd) := of_fields rfl (layX1_fits h 0x0A vd (by decide))
theorem punpk (h : Head) (va : VNum) : Statement (.punpk h va) := of_fields rfl (layX2_fits h 0x0B va (by decide))
theorem nopb (h : Head) : Statement (.nopb h) := of_fields rfl (layB1_fits h 0x00 (by decide))
theorem br (h : Head) (disp : BitVec 30) : Statement (.br h disp) := of_fields rfl (layB2_fits h 0x01 disp (by decide))
theorem brc (h : Head) (ra rb : SRegNo) (cond : Cond) (disp : BitVec 30) : Statement (.brc h ra rb cond disp) := of_fields rfl (layB3_fits h 0x02 ra rb cond disp (by decide))
theorem brz (h : Head) (ra : SRegNo) (disp : BitVec 30) : Statement (.brz h ra disp) := of_fields rfl (layB4_fits h 0x03 ra disp (by decide))
theorem jmp (h : Head) (da : DNum) : Statement (.jmp h da) := of_fields rfl (layB5_fits h 0x04 da (by decide))
theorem call (h : Head) (disp : BitVec 30) : Statement (.call h disp) := of_fields rfl (layB2_fits h 0x05 disp (by decide))
theorem callr (h : Head) (da : DNum) : Statement (.callr h da) := of_fields rfl (layB5_fits h 0x06 da (by decide))
theorem ret (h : Head) : Statement (.ret h) := of_fields rfl (layB1_fits h 0x07 (by decide))
theorem loop (h : Head) (count : BitVec 20) (endDisp : BitVec 24) : Statement (.loop h count endDisp) := of_fields rfl (layB6_fits h 0x08 count endDisp (by decide))
theorem loopr (h : Head) (ra : SRegNo) (endDisp : BitVec 24) : Statement (.loopr h ra endDisp) := of_fields rfl (layB7_fits h 0x09 ra endDisp (by decide))
theorem lbrk (h : Head) : Statement (.lbrk h) := of_fields rfl (layB1_fits h 0x0A (by decide))
theorem trap (h : Head) (imm : BitVec 16) : Statement (.trap h imm) := of_fields rfl (layB8_fits h 0x10 imm (by decide))
theorem sysc (h : Head) (imm : BitVec 16) : Statement (.sysc h imm) := of_fields rfl (layB8_fits h 0x11 imm (by decide))
theorem eret (h : Head) : Statement (.eret h) := of_fields rfl (layB1_fits h 0x12 (by decide))
theorem halt (h : Head) : Statement (.halt h) := of_fields rfl (layB1_fits h 0xFF (by decide))
theorem exit (h : Head) : Statement (.exit h) := of_fields rfl (layB1_fits h 0x18 (by decide))
theorem exits (h : Head) (keepq : Bool) (entry : BitVec 8) : Statement (.exits h keepq entry) := of_fields rfl (layB9_fits h 0x19 keepq entry (by decide))
theorem spawn (h : Head) (rd : SRegNo) (da : DNum) : Statement (.spawn h rd da) := of_fields rfl (layB10_fits h 0x1A rd da (by decide))
theorem bar (h : Head) (gidx : BitVec 8) : Statement (.bar h gidx) := of_fields rfl (layB11_fits h 0x1B gidx (by decide))
theorem waitge (h : Head) (da : DNum) (off : BitVec 24) (scope : Scope) (rs : SRegNo) : Statement (.waitge h da off scope rs) := of_fields rfl (layL1_fits h 0x10 da off scope rs (by decide))
theorem waiteq (h : Head) (da : DNum) (off : BitVec 24) (scope : Scope) (rs : SRegNo) : Statement (.waiteq h da off scope rs) := of_fields rfl (layL1_fits h 0x11 da off scope rs (by decide))
theorem vadd (h : Head) (lgm : Lgm) (fmt : Fmt) (vd va vb : VNum) (ha hb : Bool) : Statement (.vadd h lgm fmt vd va vb ha hb) := of_fields rfl (layV1_fits h 0x00 lgm fmt vd va vb ha hb (by decide))
theorem vsub (h : Head) (lgm : Lgm) (fmt : Fmt) (vd va vb : VNum) (ha hb : Bool) : Statement (.vsub h lgm fmt vd va vb ha hb) := of_fields rfl (layV1_fits h 0x01 lgm fmt vd va vb ha hb (by decide))
theorem vmul (h : Head) (lgm : Lgm) (fmt : Fmt) (vd va vb : VNum) (ha hb : Bool) : Statement (.vmul h lgm fmt vd va vb ha hb) := of_fields rfl (layV1_fits h 0x02 lgm fmt vd va vb ha hb (by decide))
theorem vdiv (h : Head) (lgm : Lgm) (fmt : Fmt) (vd va vb : VNum) (ha hb : Bool) : Statement (.vdiv h lgm fmt vd va vb ha hb) := of_fields rfl (layV1_fits h 0x06 lgm fmt vd va vb ha hb (by decide))
theorem vfma (h : Head) (lgm : Lgm) (fmt : Fmt) (vd va vb vc : VNum) (ha hb hc : Bool) : Statement (.vfma h lgm fmt vd va vb vc ha hb hc) := of_fields rfl (layV2_fits h 0x03 lgm fmt vd va vb vc ha hb hc (by decide))
theorem vfms (h : Head) (lgm : Lgm) (fmt : Fmt) (vd va vb vc : VNum) (ha hb hc : Bool) : Statement (.vfms h lgm fmt vd va vb vc ha hb hc) := of_fields rfl (layV2_fits h 0x04 lgm fmt vd va vb vc ha hb hc (by decide))
theorem vfnma (h : Head) (lgm : Lgm) (fmt : Fmt) (vd va vb vc : VNum) (ha hb hc : Bool) : Statement (.vfnma h lgm fmt vd va vb vc ha hb hc) := of_fields rfl (layV2_fits h 0x05 lgm fmt vd va vb vc ha hb hc (by decide))
theorem vsqrt (h : Head) (lgm : Lgm) (fmt : Fmt) (vd va : VNum) (ha : Bool) : Statement (.vsqrt h lgm fmt vd va ha) := of_fields rfl (layV3_fits h 0x08 lgm fmt vd va ha (by decide))
theorem vrsqrt (h : Head) (lgm : Lgm) (fmt : Fmt) (vd va : VNum) (ha : Bool) : Statement (.vrsqrt h lgm fmt vd va ha) := of_fields rfl (layV3_fits h 0x09 lgm fmt vd va ha (by decide))
theorem vrcp (h : Head) (lgm : Lgm) (fmt : Fmt) (vd va : VNum) (ha : Bool) : Statement (.vrcp h lgm fmt vd va ha) := of_fields rfl (layV3_fits h 0x0A lgm fmt vd va ha (by decide))
theorem vexp (h : Head) (lgm : Lgm) (fmt : Fmt) (vd va : VNum) (ha : Bool) : Statement (.vexp h lgm fmt vd va ha) := of_fields rfl (layV3_fits h 0x0B lgm fmt vd va ha (by decide))
theorem vexp2 (h : Head) (lgm : Lgm) (fmt : Fmt) (vd va : VNum) (ha : Bool) : Statement (.vexp2 h lgm fmt vd va ha) := of_fields rfl (layV3_fits h 0x0C lgm fmt vd va ha (by decide))
theorem vlog (h : Head) (lgm : Lgm) (fmt : Fmt) (vd va : VNum) (ha : Bool) : Statement (.vlog h lgm fmt vd va ha) := of_fields rfl (layV3_fits h 0x0D lgm fmt vd va ha (by decide))
theorem vlog2 (h : Head) (lgm : Lgm) (fmt : Fmt) (vd va : VNum) (ha : Bool) : Statement (.vlog2 h lgm fmt vd va ha) := of_fields rfl (layV3_fits h 0x0E lgm fmt vd va ha (by decide))
theorem vsin (h : Head) (lgm : Lgm) (fmt : Fmt) (vd va : VNum) (ha : Bool) : Statement (.vsin h lgm fmt vd va ha) := of_fields rfl (layV3_fits h 0x0F lgm fmt vd va ha (by decide))
theorem vcos (h : Head) (lgm : Lgm) (fmt : Fmt) (vd va : VNum) (ha : Bool) : Statement (.vcos h lgm fmt vd va ha) := of_fields rfl (layV3_fits h 0x10 lgm fmt vd va ha (by decide))
theorem vtanh (h : Head) (lgm : Lgm) (fmt : Fmt) (vd va : VNum) (ha : Bool) : Statement (.vtanh h lgm fmt vd va ha) := of_fields rfl (layV3_fits h 0x11 lgm fmt vd va ha (by decide))
theorem vsigm (h : Head) (lgm : Lgm) (fmt : Fmt) (vd va : VNum) (ha : Bool) : Statement (.vsigm h lgm fmt vd va ha) := of_fields rfl (layV3_fits h 0x12 lgm fmt vd va ha (by decide))
theorem vmin (h : Head) (lgm : Lgm) (fmt : Fmt) (vd va vb : VNum) (ha hb : Bool) : Statement (.vmin h lgm fmt vd va vb ha hb) := of_fields rfl (layV1_fits h 0x14 lgm fmt vd va vb ha hb (by decide))
theorem vmax (h : Head) (lgm : Lgm) (fmt : Fmt) (vd va vb : VNum) (ha hb : Bool) : Statement (.vmax h lgm fmt vd va vb ha hb) := of_fields rfl (layV1_fits h 0x15 lgm fmt vd va vb ha hb (by decide))
theorem vabs (h : Head) (lgm : Lgm) (fmt : Fmt) (vd va : VNum) (ha : Bool) : Statement (.vabs h lgm fmt vd va ha) := of_fields rfl (layV3_fits h 0x16 lgm fmt vd va ha (by decide))
theorem vneg (h : Head) (lgm : Lgm) (fmt : Fmt) (vd va : VNum) (ha : Bool) : Statement (.vneg h lgm fmt vd va ha) := of_fields rfl (layV3_fits h 0x17 lgm fmt vd va ha (by decide))
theorem vround (h : Head) (lgm : Lgm) (fmt : Fmt) (vd va : VNum) (ha : Bool) : Statement (.vround h lgm fmt vd va ha) := of_fields rfl (layV3_fits h 0x1B lgm fmt vd va ha (by decide))
theorem vclamp (h : Head) (lgm : Lgm) (fmt : Fmt) (vd va vb vc : VNum) (ha hb hc : Bool) : Statement (.vclamp h lgm fmt vd va vb vc ha hb hc) := of_fields rfl (layV2_fits h 0x1A lgm fmt vd va vb vc ha hb hc (by decide))
theorem vcmp (h : Head) (lgm : Lgm) (fmt : Fmt) (pd : PNum) (va vb : VNum) (ha hb : Bool) (cond : Cond) : Statement (.vcmp h lgm fmt pd va vb ha hb cond) := of_fields rfl (layV4_fits h 0x18 lgm fmt pd va vb ha hb cond (by decide))
theorem vsel (h : Head) (lgm : Lgm) (fmt : Fmt) (vd va vb : VNum) (ha hb : Bool) (ps : PNum) : Statement (.vsel h lgm fmt vd va vb ha hb ps) := of_fields rfl (layV5_fits h 0x19 lgm fmt vd va vb ha hb ps (by decide))
theorem vcvt (h : Head) (lgm : Lgm) (fmt : Fmt) (vd va vs : VNum) (scaled : Bool) (other : BitVec 4) (ha hb : Bool) (kind : BitVec 3) (sel : BitVec 2) : Statement (.vcvt h lgm fmt vd va vs scaled other ha hb kind sel) := of_fields rfl (layV6_fits h 0x20 lgm fmt vd va vs scaled other ha hb kind sel (by decide))
theorem vqnt (h : Head) (lgm : Lgm) (fmt : Fmt) (vd va vs : VNum) (src : BitVec 4) (ha : Bool) (sel : BitVec 2) : Statement (.vqnt h lgm fmt vd va vs src ha sel) := of_fields rfl (layV7_fits h 0x21 lgm fmt vd va vs src ha sel (by decide))
theorem vscl (h : Head) (lgm : Lgm) (fmt : Fmt) (vd va vs : VNum) (ha hb : Bool) (sel : BitVec 2) : Statement (.vscl h lgm fmt vd va vs ha hb sel) := of_fields rfl (layV8_fits h 0x22 lgm fmt vd va vs ha hb sel (by decide))
theorem vred (h : Head) (lgm : Lgm) (fmt : Fmt) (vd va : VNum) (ha : Bool) : Statement (.vred h lgm fmt vd va ha) := of_fields rfl (layV3_fits h 0x23 lgm fmt vd va ha (by decide))
theorem vmred (h : Head) (lgm : Lgm) (fmt : Fmt) (vd : VNum) (dn dm : DNum) (k : SRegNo) : Statement (.vmred h lgm fmt vd dn dm k) := of_fields rfl (layV9_fits h 0x24 lgm fmt vd dn dm k (by decide))
theorem vmscl (h : Head) (lgm : Lgm) (fmt : Fmt) (vd va vb : VNum) (k : SRegNo) (ha hb : Bool) : Statement (.vmscl h lgm fmt vd va vb k ha hb) := of_fields rfl (layV10_fits h 0x25 lgm fmt vd va vb k ha hb (by decide))
theorem viadd (h : Head) (lgm : Lgm) (fmt : Fmt) (vd va vb : VNum) (ha hb : Bool) : Statement (.viadd h lgm fmt vd va vb ha hb) := of_fields rfl (layV1_fits h 0x40 lgm fmt vd va vb ha hb (by decide))
theorem visub (h : Head) (lgm : Lgm) (fmt : Fmt) (vd va vb : VNum) (ha hb : Bool) : Statement (.visub h lgm fmt vd va vb ha hb) := of_fields rfl (layV1_fits h 0x41 lgm fmt vd va vb ha hb (by decide))
theorem vimul (h : Head) (lgm : Lgm) (fmt : Fmt) (vd va vb : VNum) (ha hb : Bool) : Statement (.vimul h lgm fmt vd va vb ha hb) := of_fields rfl (layV1_fits h 0x42 lgm fmt vd va vb ha hb (by decide))
theorem vimin (h : Head) (lgm : Lgm) (fmt : Fmt) (vd va vb : VNum) (ha hb : Bool) : Statement (.vimin h lgm fmt vd va vb ha hb) := of_fields rfl (layV1_fits h 0x43 lgm fmt vd va vb ha hb (by decide))
theorem vimax (h : Head) (lgm : Lgm) (fmt : Fmt) (vd va vb : VNum) (ha hb : Bool) : Statement (.vimax h lgm fmt vd va vb ha hb) := of_fields rfl (layV1_fits h 0x44 lgm fmt vd va vb ha hb (by decide))
theorem vand (h : Head) (lgm : Lgm) (fmt : Fmt) (vd va vb : VNum) (ha hb : Bool) : Statement (.vand h lgm fmt vd va vb ha hb) := of_fields rfl (layV1_fits h 0x45 lgm fmt vd va vb ha hb (by decide))
theorem vor (h : Head) (lgm : Lgm) (fmt : Fmt) (vd va vb : VNum) (ha hb : Bool) : Statement (.vor h lgm fmt vd va vb ha hb) := of_fields rfl (layV1_fits h 0x46 lgm fmt vd va vb ha hb (by decide))
theorem vxor (h : Head) (lgm : Lgm) (fmt : Fmt) (vd va vb : VNum) (ha hb : Bool) : Statement (.vxor h lgm fmt vd va vb ha hb) := of_fields rfl (layV1_fits h 0x47 lgm fmt vd va vb ha hb (by decide))
theorem vnot (h : Head) (lgm : Lgm) (fmt : Fmt) (vd va : VNum) (ha : Bool) : Statement (.vnot h lgm fmt vd va ha) := of_fields rfl (layV3_fits h 0x48 lgm fmt vd va ha (by decide))
theorem vshl (h : Head) (lgm : Lgm) (fmt : Fmt) (vd va vb : VNum) (ha hb : Bool) : Statement (.vshl h lgm fmt vd va vb ha hb) := of_fields rfl (layV1_fits h 0x49 lgm fmt vd va vb ha hb (by decide))
theorem vshr (h : Head) (lgm : Lgm) (fmt : Fmt) (vd va vb : VNum) (ha hb : Bool) : Statement (.vshr h lgm fmt vd va vb ha hb) := of_fields rfl (layV1_fits h 0x4A lgm fmt vd va vb ha hb (by decide))
theorem vsar (h : Head) (lgm : Lgm) (fmt : Fmt) (vd va vb : VNum) (ha hb : Bool) : Statement (.vsar h lgm fmt vd va vb ha hb) := of_fields rfl (layV1_fits h 0x4B lgm fmt vd va vb ha hb (by decide))
theorem vicmp (h : Head) (lgm : Lgm) (fmt : Fmt) (pd : PNum) (va vb : VNum) (ha hb : Bool) (cond : Cond) : Statement (.vicmp h lgm fmt pd va vb ha hb cond) := of_fields rfl (layV4_fits h 0x4C lgm fmt pd va vb ha hb cond (by decide))
theorem vperm (h : Head) (lgm : Lgm) (vd va vb : VNum) (ha hb : Bool) : Statement (.vperm h lgm vd va vb ha hb) := of_fields rfl (layV11_fits h 0x4D lgm vd va vb ha hb (by decide))
theorem vbcast (h : Head) (lgm : Lgm) (fmt : Fmt) (vd : VNum) (sa : SRegNo) : Statement (.vbcast h lgm fmt vd sa) := of_fields rfl (layV12_fits h 0x4E lgm fmt vd sa (by decide))
theorem viota (h : Head) (lgm : Lgm) (fmt : Fmt) (vd : VNum) : Statement (.viota h lgm fmt vd) := of_fields rfl (layV13_fits h 0x4F lgm fmt vd (by decide))
theorem qclr (h : Head) (lgm : Lgm) (q : QNum) : Statement (.qclr h lgm q) := of_fields rfl (layV14_fits h 0x60 lgm q (by decide))
theorem qmac (h : Head) (lgm : Lgm) (fmt : Fmt) (q : QNum) (va vb : VNum) (ha hb : Bool) : Statement (.qmac h lgm fmt q va vb ha hb) := of_fields rfl (layV15_fits h 0x61 lgm fmt q va vb ha hb (by decide))
theorem qmsb (h : Head) (lgm : Lgm) (fmt : Fmt) (q : QNum) (va vb : VNum) (ha hb : Bool) : Statement (.qmsb h lgm fmt q va vb ha hb) := of_fields rfl (layV15_fits h 0x62 lgm fmt q va vb ha hb (by decide))
theorem qadd (h : Head) (lgm : Lgm) (fmt : Fmt) (q : QNum) (va : VNum) (ha : Bool) : Statement (.qadd h lgm fmt q va ha) := of_fields rfl (layV16_fits h 0x63 lgm fmt q va ha (by decide))
theorem qaddq (h : Head) (lgm : Lgm) (qd qa : QNum) : Statement (.qaddq h lgm qd qa) := of_fields rfl (layV17_fits h 0x64 lgm qd qa (by decide))
theorem qrnd (h : Head) (lgm : Lgm) (fmt : Fmt) (vd : VNum) (q : QNum) : Statement (.qrnd h lgm fmt vd q) := of_fields rfl (layV18_fits h 0x65 lgm fmt vd q (by decide))
theorem qneg (h : Head) (lgm : Lgm) (q : QNum) : Statement (.qneg h lgm q) := of_fields rfl (layV14_fits h 0x66 lgm q (by decide))
theorem qst (h : Head) (lgm : Lgm) (vd : VNum) (q : QNum) (hi : Bool) : Statement (.qst h lgm vd q hi) := of_fields rfl (layV19_fits h 0x67 lgm vd q hi (by decide))
theorem qmov (h : Head) (lgm : Lgm) (qd qa : QNum) : Statement (.qmov h lgm qd qa) := of_fields rfl (layV17_fits h 0x68 lgm qd qa (by decide))
theorem jseed (h : Head) (lgm : Lgm) (vd va vb : VNum) (ha hb : Bool) : Statement (.jseed h lgm vd va vb ha hb) := of_fields rfl (layV11_fits h 0x70 lgm vd va vb ha hb (by decide))
theorem jget (h : Head) (lgm : Lgm) (fmt : Fmt) (vd va : VNum) (ha fact : Bool) (ci : BitVec 2) : Statement (.jget h lgm fmt vd va ha fact ci) := of_fields rfl (layV20_fits h 0x71 lgm fmt vd va ha fact ci (by decide))
theorem jset (h : Head) (lgm : Lgm) (vd va : VNum) (ha : Bool) (ci : BitVec 2) : Statement (.jset h lgm vd va ha ci) := of_fields rfl (layV21_fits h 0x72 lgm vd va ha ci (by decide))
theorem jscale (h : Head) (lgm : Lgm) (fmt : Fmt) (vd va vt : VNum) (ha hb : Bool) : Statement (.jscale h lgm fmt vd va vt ha hb) := of_fields rfl (layV1_fits h 0x73 lgm fmt vd va vt ha hb (by decide))
theorem mpush (h : Head) (lgm : Lgm) (va : VNum) : Statement (.mpush h lgm va) := of_fields rfl (layM1_fits h 0x00 lgm va (by decide))
theorem mshift (h : Head) : Statement (.mshift h) := of_fields rfl (layM2_fits h 0x01 (by decide))
theorem macc (h : Head) (fmt : Fmt) (wl : BitVec 11) : Statement (.macc h fmt wl) := of_fields rfl (layM3_fits h 0x02 fmt wl (by decide))
theorem mdrain (h : Head) (lgm : Lgm) (fmt : Fmt) (vd : VNum) (row : BitVec 5) : Statement (.mdrain h lgm fmt vd row) := of_fields rfl (layM4_fits h 0x03 lgm fmt vd row (by decide))
theorem mclr (h : Head) (row : BitVec 5) (all : Bool) : Statement (.mclr h row all) := of_fields rfl (layM5_fits h 0x04 row all (by decide))
theorem mspill (h : Head) (row : BitVec 5) (da : DNum) (all : Bool) : Statement (.mspill h row da all) := of_fields rfl (layM6_fits h 0x05 row da all (by decide))
theorem mfill (h : Head) (row : BitVec 5) (da : DNum) (all : Bool) : Statement (.mfill h row da all) := of_fields rfl (layM6_fits h 0x06 row da all (by decide))
theorem mstat (h : Head) (sd : SRegNo) : Statement (.mstat h sd) := of_fields rfl (layM7_fits h 0x07 sd (by decide))
theorem ld (h : Head) (da : DNum) (off : BitVec 24) (width : BitVec 2) (sx : Bool) (data : VNum) (q : Bool) : Statement (.ld h da off width sx data q) := of_fields rfl (layL2_fits h 0x00 da off width sx data q (by decide))
theorem st (h : Head) (da : DNum) (off : BitVec 24) (width : BitVec 2) (data : VNum) : Statement (.st h da off width data) := of_fields rfl (layL3_fits h 0x01 da off width data (by decide))
theorem ldv (h : Head) (da : DNum) (off : BitVec 24) (lgm : Lgm) (data : VNum) (q : Bool) : Statement (.ldv h da off lgm data q) := of_fields rfl (layL4_fits h 0x02 da off lgm data q (by decide))
theorem stv (h : Head) (da : DNum) (off : BitVec 24) (lgm : Lgm) (data : VNum) : Statement (.stv h da off lgm data) := of_fields rfl (layL5_fits h 0x03 da off lgm data (by decide))
theorem ldvs (h : Head) (da : DNum) (off : BitVec 24) (stride : SRegNo) (ew : BitVec 2) (data : VNum) (q : Bool) : Statement (.ldvs h da off stride ew data q) := of_fields rfl (layL6_fits h 0x04 da off stride ew data q (by decide))
theorem stvs (h : Head) (da : DNum) (off : BitVec 24) (stride : SRegNo) (ew : BitVec 2) (data : VNum) : Statement (.stvs h da off stride ew data) := of_fields rfl (layL7_fits h 0x05 da off stride ew data (by decide))
theorem ldq (h : Head) (da : DNum) (off : BitVec 24) (lgm : Lgm) (q : QNum) : Statement (.ldq h da off lgm q) := of_fields rfl (layL8_fits h 0x06 da off lgm q (by decide))
theorem stq (h : Head) (da : DNum) (off : BitVec 24) (lgm : Lgm) (q : QNum) : Statement (.stq h da off lgm q) := of_fields rfl (layL8_fits h 0x07 da off lgm q (by decide))
theorem lda (h : Head) (da : DNum) (off : BitVec 24) (scope : Scope) (width : BitVec 2) (data : VNum) (q : Bool) : Statement (.lda h da off scope width data q) := of_fields rfl (layL9_fits h 0x08 da off scope width data q (by decide))
theorem stl (h : Head) (da : DNum) (off : BitVec 24) (scope : Scope) (width : BitVec 2) (data : VNum) : Statement (.stl h da off scope width data) := of_fields rfl (layL10_fits h 0x09 da off scope width data (by decide))
theorem amoAdd (h : Head) (da : DNum) (off : BitVec 24) (rd rs : SRegNo) (q : Bool) : Statement (.amoAdd h da off rd rs q) := of_fields rfl (layL11_fits h 0x0A da off rd rs q (by decide))
theorem amoAnd (h : Head) (da : DNum) (off : BitVec 24) (rd rs : SRegNo) (q : Bool) : Statement (.amoAnd h da off rd rs q) := of_fields rfl (layL12_fits h 0x0A da off rd rs q (by decide))
theorem amoOr (h : Head) (da : DNum) (off : BitVec 24) (rd rs : SRegNo) (q : Bool) : Statement (.amoOr h da off rd rs q) := of_fields rfl (layL13_fits h 0x0A da off rd rs q (by decide))
theorem amoXor (h : Head) (da : DNum) (off : BitVec 24) (rd rs : SRegNo) (q : Bool) : Statement (.amoXor h da off rd rs q) := of_fields rfl (layL14_fits h 0x0A da off rd rs q (by decide))
theorem amoMin (h : Head) (da : DNum) (off : BitVec 24) (rd rs : SRegNo) (q : Bool) : Statement (.amoMin h da off rd rs q) := of_fields rfl (layL15_fits h 0x0A da off rd rs q (by decide))
theorem amoMax (h : Head) (da : DNum) (off : BitVec 24) (rd rs : SRegNo) (q : Bool) : Statement (.amoMax h da off rd rs q) := of_fields rfl (layL16_fits h 0x0A da off rd rs q (by decide))
theorem amoMaxu (h : Head) (da : DNum) (off : BitVec 24) (rd rs : SRegNo) (q : Bool) : Statement (.amoMaxu h da off rd rs q) := of_fields rfl (layL17_fits h 0x0A da off rd rs q (by decide))
theorem amoMinu (h : Head) (da : DNum) (off : BitVec 24) (rd rs : SRegNo) (q : Bool) : Statement (.amoMinu h da off rd rs q) := of_fields rfl (layL18_fits h 0x0A da off rd rs q (by decide))
theorem amoXchg (h : Head) (da : DNum) (off : BitVec 24) (rd rs : SRegNo) (q wide : Bool) : Statement (.amoXchg h da off rd rs q wide) := of_fields rfl (layL19_fits h 0x0A da off rd rs q wide (by decide))
theorem amoQadd (h : Head) (da : DNum) (off : BitVec 24) (q : QNum) : Statement (.amoQadd h da off q) := of_fields rfl (layL20_fits h 0x0A da off q (by decide))
theorem amoPadd (h : Head) (da : DNum) (off : BitVec 24) (rd rs : SRegNo) (fmt : Fmt) (q : Bool) : Statement (.amoPadd h da off rd rs fmt q) := of_fields rfl (layL21_fits h 0x0B da off rd rs fmt q (by decide))
theorem amocas (h : Head) (da : DNum) (off : BitVec 24) (rd rc rn : SRegNo) (q : Bool) : Statement (.amocas h da off rd rc rn q) := of_fields rfl (layL22_fits h 0x0C da off rd rc rn q (by decide))
theorem amocasD (h : Head) (da : DNum) (off : BitVec 24) (rd rc rn : SRegNo) (q : Bool) : Statement (.amocasD h da off rd rc rn q) := of_fields rfl (layL22_fits h 0x0D da off rd rc rn q (by decide))
theorem fence (h : Head) (scope : Scope) : Statement (.fence h scope) := of_fields rfl (layL23_fits h 0x18 scope (by decide))
theorem drain (h : Head) : Statement (.drain h) := of_fields rfl (layL24_fits h 0x19 (by decide))
theorem pref (h : Head) (da : DNum) (off : BitVec 24) : Statement (.pref h da off) := of_fields rfl (layL25_fits h 0x1A da off (by decide))
theorem cpy (h : Head) (eq : QNum) (start : BitVec 12) (dst src : DNum) (len : SRegNo) : Statement (.cpy h eq start dst src len) := of_fields rfl (layE1_fits h 0x00 eq start dst src len (by decide))
theorem gth (h : Head) (eq : QNum) (start : BitVec 12) (dst base : DNum) (idx : VNum) (count : SRegNo) (esz : BitVec 2) : Statement (.gth h eq start dst base idx count esz) := of_fields rfl (layE2_fits h 0x01 eq start dst base idx count esz (by decide))
theorem sct (h : Head) (eq : QNum) (start : BitVec 12) (dst base : DNum) (idx : VNum) (count : SRegNo) (esz : BitVec 2) : Statement (.sct h eq start dst base idx count esz) := of_fields rfl (layE2_fits h 0x02 eq start dst base idx count esz (by decide))
theorem wld (h : Head) (eq : QNum) (start : BitVec 12) (src : DNum) (line count : SRegNo) : Statement (.wld h eq start src line count) := of_fields rfl (layE3_fits h 0x03 eq start src line count (by decide))
theorem rwr (h : Head) (eq : QNum) (start : BitVec 12) (dst src : DNum) (len : SRegNo) (flag : DNum) (lossy : Bool) (mask : DNum) : Statement (.rwr h eq start dst src len flag lossy mask) := of_fields rfl (layE4_fits h 0x04 eq start dst src len flag lossy mask (by decide))
theorem rwg (h : Head) (eq : QNum) (start : BitVec 12) (dst src : DNum) (len : SRegNo) (flag : DNum) (lossy : Bool) (mask : DNum) : Statement (.rwg h eq start dst src len flag lossy mask) := of_fields rfl (layE4_fits h 0x05 eq start dst src len flag lossy mask (by decide))
theorem rrd (h : Head) (eq : QNum) (start : BitVec 12) (src : DNum) (rq : QNum) (len : SRegNo) : Statement (.rrd h eq start src rq len) := of_fields rfl (layE5_fits h 0x06 eq start src rq len (by decide))
theorem collGrp (h : Head) (eq : QNum) (start : BitVec 12) (dst src : DNum) (len : SRegNo) (flag : DNum) (grp : SRegNo) : Statement (.collGrp h eq start dst src len flag grp) := of_fields rfl (layE6_fits h 0x07 eq start dst src len flag grp (by decide))
theorem collMod (h : Head) (eq : QNum) (start : BitVec 12) (dst src : DNum) (len : SRegNo) (flag : DNum) (grp : SRegNo) : Statement (.collMod h eq start dst src len flag grp) := of_fields rfl (layE7_fits h 0x07 eq start dst src len flag grp (by decide))
theorem collLossy (h : Head) (eq : QNum) (start : BitVec 12) (dst src : DNum) (len : SRegNo) (flag : DNum) (grp : SRegNo) : Statement (.collLossy h eq start dst src len flag grp) := of_fields rfl (layE8_fits h 0x07 eq start dst src len flag grp (by decide))
theorem qfence (h : Head) (start : BitVec 12) (qmask : BitVec 4) : Statement (.qfence h start qmask) := of_fields rfl (layE9_fits h 0x08 start qmask (by decide))
theorem eclose (h : Head) : Statement (.eclose h) := of_fields rfl (layE10_fits h 0x10 (by decide))
theorem ewait (h : Head) (n : BitVec 8) : Statement (.ewait h n) := of_fields rfl (layE11_fits h 0x11 n (by decide))
theorem estat (h : Head) (eq : QNum) (rd : SRegNo) : Statement (.estat h eq rd) := of_fields rfl (layE12_fits h 0x12 eq rd (by decide))
theorem popW (h : Head) (d : VNum) (rq : QNum) (kind : BitVec 2) : Statement (.popW h d rq kind) := of_fields rfl (layX3_fits h 0x00 d rq kind (by decide))
theorem popF (h : Head) (d : VNum) (rq : QNum) (kind : BitVec 2) (pn : PNum) : Statement (.popF h d rq kind pn) := of_fields rfl (layX4_fits h 0x00 d rq kind pn (by decide))
theorem pack (h : Head) (fmt : Fmt) (vd va vb : VNum) (src : BitVec 4) : Statement (.pack h fmt vd va vb src) := of_fields rfl (layX5_fits h 0x01 fmt vd va vb src (by decide))
theorem unpk (h : Head) (fmt : Fmt) (vd va vs : VNum) (sel : BitVec 2) (scaled : Bool) (src : BitVec 4) : Statement (.unpk h fmt vd va vs sel scaled src) := of_fields rfl (layX6_fits h 0x02 fmt vd va vs sel scaled src (by decide))
theorem xlg (h : Head) (lgm : Lgm) (vd va : VNum) (bcast : Bool) (rot : BitVec 3) : Statement (.xlg h lgm vd va bcast rot) := of_fields rfl (layX7_fits h 0x03 lgm vd va bcast rot (by decide))
theorem chk (h : Head) (lgm : Lgm) (va : VNum) : Statement (.chk h lgm va) := of_fields rfl (layX8_fits h 0x04 lgm va (by decide))
theorem movv (h : Head) (lgm : Lgm) (vd va : VNum) : Statement (.movv h lgm vd va) := of_fields rfl (layX9_fits h 0x05 lgm vd va (by decide))
theorem movs (h : Head) (sd : SRegNo) (va : VNum) (lane : BitVec 7) : Statement (.movs h sd va lane) := of_fields rfl (layX10_fits h 0x06 sd va lane (by decide))
theorem getc (h : Head) (sd : SRegNo) (idx : BitVec 8) : Statement (.getc h sd idx) := of_fields rfl (layX11_fits h 0x07 sd idx (by decide))
theorem setc (h : Head) (sa : SRegNo) (idx : BitVec 8) : Statement (.setc h sa idx) := of_fields rfl (layX12_fits h 0x08 sa idx (by decide))
theorem feat (h : Head) (sd : SRegNo) (n : BitVec 12) : Statement (.feat h sd n) := of_fields rfl (layX13_fits h 0x09 sd n (by decide))
theorem rep (h : Head) (cnt : BitVec 6) (str : Bool) (step : BitVec 28) : Statement (.rep h cnt str step) := of_fields rfl (layP1_fits h 0x00 cnt str step (by decide))
theorem ext (h : Head) (value : BitVec 32) : Statement (.ext h value) := of_fields rfl (layP2_fits h 0x01 value (by decide))
theorem dlaunch (rd rs1 : BitVec 5) : Statement (.dlaunch rd rs1) := of_none rfl
theorem devq (rd rs1 : BitVec 5) : Statement (.devq rd rs1) := of_none rfl
theorem moduleStart (failing : Option BootFailure) (fwDigest benaleDigest : BitVec 512) (defects : List (Nat × Defects)) (process : Vector (BitVec 16) 128) (parts : List PartConfig) : Statement (.moduleStart failing fwDigest benaleDigest defects process parts) := of_none rfl
theorem stageTimeLimit : Statement (.stageTimeLimit) := of_none rfl
theorem imageCheckRequest (part : BitVec 3) (digest : BitVec 512) (verdict : BitVec 2) : Statement (.imageCheckRequest part digest verdict) := of_none rfl
theorem attestationLogRequest (nonce : BitVec 256) : Statement (.attestationLogRequest nonce) := of_none rfl
theorem bootComplete : Statement (.bootComplete) := of_none rfl
theorem start (value : BitVec 32) : Statement (.start value) := of_none rfl
theorem hostattn (part : BitVec 3) (value : BitVec 32) : Statement (.hostattn part value) := of_none rfl
theorem dumpvalidRelease (value : BitVec 32) : Statement (.dumpvalidRelease value) := of_none rfl
theorem registerWrite (agent : MgmtAgent) (offset : BitVec 16) (value : BitVec 64) : Statement (.registerWrite agent offset value) := of_none rfl
theorem droopRead (die : BitVec 3) (j : BitVec 5) (present : BitVec 16) : Statement (.droopRead die j present) := of_none rfl
theorem sensorSample (die : BitVec 3) (kind : BitVec 2) (idx : BitVec 6) (value : BitVec 16) : Statement (.sensorSample die kind idx value) := of_none rfl
theorem droopAlarm (die : BitVec 3) (j : BitVec 5) (mv : BitVec 16) : Statement (.droopAlarm die j mv) := of_none rfl
theorem droopFatal (die : BitVec 3) (j : BitVec 5) (mv : BitVec 16) : Statement (.droopFatal die j mv) := of_none rfl
theorem fatalError (cause die : BitVec 32) : Statement (.fatalError cause die) := of_none rfl
theorem benalePanic : Statement (.benalePanic) := of_none rfl
theorem fireflyWatchdog : Statement (.fireflyWatchdog) := of_none rfl
theorem dumpDone : Statement (.dumpDone) := of_none rfl
theorem moduleReset : Statement (.moduleReset) := of_none rfl
theorem powerOff : Statement (.powerOff) := of_none rfl
theorem grenzorLoad (part : BitVec 3) (off len : Nat) (demandSig : Bool) : Statement (.grenzorLoad part off len demandSig) := of_none rfl
theorem unload (part : BitVec 3) (handle : BitVec 64) : Statement (.unload part handle) := of_none rfl
theorem partitionReset (part : BitVec 3) : Statement (.partitionReset part) := of_none rfl
theorem partitionReboot (part : BitVec 3) : Statement (.partitionReboot part) := of_none rfl
theorem release (wing : BitVec 5) (frames : List (Nat × Nat)) : Statement (.release wing frames) := of_none rfl
theorem assign (wing : BitVec 5) (part : BitVec 3) : Statement (.assign wing part) := of_none rfl
theorem coreOnline (wing : BitVec 5) : Statement (.coreOnline wing) := of_none rfl
theorem coreOffline (wing : BitVec 5) : Statement (.coreOffline wing) := of_none rfl
theorem termiteUnit (wing : BitVec 5) : Statement (.termiteUnit wing) := of_none rfl
theorem termiteKeySlots (wing : BitVec 5) : Statement (.termiteKeySlots wing) := of_none rfl
theorem vdcfg (part : BitVec 3) (vd weight quantum priomax enable : Nat) : Statement (.vdcfg part vd weight quantum priomax enable) := of_none rfl
theorem refill (part : BitVec 3) : Statement (.refill part) := of_none rfl
theorem dispatchSelect (die : BitVec 3) (bases : List Nat) : Statement (.dispatchSelect die bases) := of_none rfl
theorem swarmComplete (part : BitVec 3) (handle : BitVec 32) : Statement (.swarmComplete part handle) := of_none rfl
theorem eventPost (wing : BitVec 5) : Statement (.eventPost wing) := of_none rfl
theorem quantumExpiry (tile : BitVec 10) (slot : BitVec 2) : Statement (.quantumExpiry tile slot) := of_none rfl
theorem waitQuantumExpiry (tile : BitVec 10) (slot : BitVec 2) : Statement (.waitQuantumExpiry tile slot) := of_none rfl
theorem preemptRequest (part : BitVec 3) (wings : BitVec 32) : Statement (.preemptRequest part wings) := of_none rfl
theorem hardStop (tile : BitVec 10) (slot : BitVec 2) : Statement (.hardStop tile slot) := of_none rfl
theorem preempt4096Expiry (tile : BitVec 10) (slot : BitVec 2) : Statement (.preempt4096Expiry tile slot) := of_none rfl
theorem waitYield (tile : BitVec 10) : Statement (.waitYield tile) := of_none rfl
theorem debugResume (tile : BitVec 10) (slot : BitVec 2) : Statement (.debugResume tile slot) := of_none rfl
theorem engineCommandStart (tile : BitVec 10) (slot : BitVec 2) : Statement (.engineCommandStart tile slot) := of_none rfl
theorem engineCommandComplete (tile : BitVec 10) (slot eq : BitVec 2) : Statement (.engineCommandComplete tile slot eq) := of_none rfl
theorem transferClose (tile : BitVec 10) (slot eq : BitVec 2) : Statement (.transferClose tile slot eq) := of_none rfl
theorem replyArrival (id : Nat) : Statement (.replyArrival id) := of_none rfl
theorem storeAck (id : Nat) : Statement (.storeAck id) := of_none rfl
theorem waitConditionMet (tile : BitVec 10) (slot : BitVec 2) : Statement (.waitConditionMet tile slot) := of_none rfl
theorem barLeave (tile : BitVec 10) (slot : BitVec 2) : Statement (.barLeave tile slot) := of_none rfl
theorem remoteAccessArrival (id : Nat) : Statement (.remoteAccessArrival id) := of_none rfl
theorem memsideAccess (id : Nat) : Statement (.memsideAccess id) := of_none rfl
theorem tlbInvalidate (part : BitVec 3) (die : BitVec 3) (lo hi : Nat) : Statement (.tlbInvalidate part die lo hi) := of_none rfl
theorem migrate (part : BitVec 3) (die : BitVec 3) (va level : Nat) (tier : BitVec 2) (frame : BitVec 36) : Statement (.migrate part die va level tier frame) := of_none rfl
theorem migrationCopyDone (part : BitVec 3) (die : BitVec 3) (va : Nat) : Statement (.migrationCopyDone part die va) := of_none rfl
theorem migrationSwitch (part : BitVec 3) (die : BitVec 3) (va : Nat) : Statement (.migrationSwitch part die va) := of_none rfl
theorem pinExpiry (part : BitVec 3) (die : BitVec 3) (va : Nat) : Statement (.pinExpiry part die va) := of_none rfl
theorem windowStart : Statement (.windowStart) := of_none rfl
theorem flitReceive (port : BitVec 3) (peer : BitVec 8) (flit : BitVec 608) : Statement (.flitReceive port peer flit) := of_none rfl
theorem nak (port : BitVec 3) (peer : BitVec 8) (seq : BitVec 31) : Statement (.nak port peer seq) := of_none rfl
theorem ack (port : BitVec 3) (peer : BitVec 8) (seq : BitVec 31) : Statement (.ack port peer seq) := of_none rfl
theorem creditReturn (port : BitVec 3) (peer : BitVec 8) (blocks : Nat) : Statement (.creditReturn port peer blocks) := of_none rfl
theorem downMapUpdate (port : BitVec 3) (owner : BitVec 8) (meeting : BitVec 8) (down : Bool) : Statement (.downMapUpdate port owner meeting down) := of_none rfl
theorem downMapEffect (port : BitVec 3) : Statement (.downMapEffect port) := of_none rfl
theorem portResetNotice (port : BitVec 3) (peer : BitVec 8) : Statement (.portResetNotice port peer) := of_none rfl
theorem discardNotice (port : BitVec 3) (src : BitVec 8) (xfer : BitVec 12) (block : BitVec 20) (type : BitVec 4) : Statement (.discardNotice port src xfer block type) := of_none rfl
theorem remoteWriteRequest (port : BitVec 3) : Statement (.remoteWriteRequest port) := of_none rfl
theorem lossyWriteRequest (port : BitVec 3) : Statement (.lossyWriteRequest port) := of_none rfl
theorem dataBlockArrival (port : BitVec 3) : Statement (.dataBlockArrival port) := of_none rfl
theorem flagIncrement (port : BitVec 3) (src : BitVec 8) (xfer : BitVec 12) : Statement (.flagIncrement port src xfer) := of_none rfl
theorem lossyDeadline (port : BitVec 3) (src : BitVec 8) (xfer : BitVec 12) : Statement (.lossyDeadline port src xfer) := of_none rfl
theorem heldBlockExpiry (port : BitVec 3) (src : BitVec 8) (xfer : BitVec 12) : Statement (.heldBlockExpiry port src xfer) := of_none rfl
theorem storeWrite (port : BitVec 3) : Statement (.storeWrite port) := of_none rfl
theorem remoteLoad (port : BitVec 3) : Statement (.remoteLoad port) := of_none rfl
theorem remoteAtomic (port : BitVec 3) : Statement (.remoteAtomic port) := of_none rfl
theorem watch (port : BitVec 3) : Statement (.watch port) := of_none rfl
theorem watchSatisfied (port : BitVec 3) (src : BitVec 8) (srctile : BitVec 16) : Statement (.watchSatisfied port src srctile) := of_none rfl
theorem completionReply (port : BitVec 3) : Statement (.completionReply port) := of_none rfl
theorem verdict (port : BitVec 3) : Statement (.verdict port) := of_none rfl
theorem resendTimeout (port : BitVec 3) (xfer : BitVec 12) : Statement (.resendTimeout port xfer) := of_none rfl
theorem peerLeave (port : BitVec 3) (peer : BitVec 8) : Statement (.peerLeave port peer) := of_none rfl
theorem recallAutoAck (port : BitVec 3) (peer : BitVec 8) : Statement (.recallAutoAck port peer) := of_none rfl
theorem grantHandoff (port : BitVec 3) (importer : BitVec 8) (record : BitVec 512) : Statement (.grantHandoff port importer record) := of_none rfl
theorem grant (port : BitVec 3) : Statement (.grant port) := of_none rfl
theorem grantRecall (port : BitVec 3) : Statement (.grantRecall port) := of_none rfl
theorem recallAck (port : BitVec 3) : Statement (.recallAck port) := of_none rfl
theorem fabtestArm (tile : BitVec 10) (value : BitVec 32) : Statement (.fabtestArm tile value) := of_none rfl
theorem qcfgArm (tile : BitVec 10) (value : BitVec 64) : Statement (.qcfgArm tile value) := of_none rfl
theorem popWTimeout (tile : BitVec 10) (slot : BitVec 2) : Statement (.popWTimeout tile slot) := of_none rfl
theorem saveComplete (tile : BitVec 10) (slot : BitVec 2) : Statement (.saveComplete tile slot) := of_none rfl
theorem restoreComplete (tile : BitVec 10) (slot : BitVec 2) : Statement (.restoreComplete tile slot) := of_none rfl
theorem meshSlot (id : Nat) : Statement (.meshSlot id) := of_none rfl
theorem hostattnCodeRead (part : BitVec 3) : Statement (.hostattnCodeRead part) := of_none rfl

end Sys2Proof.Laws.Encodable
end

