-- ==== Sys2Proof/Laws/Encoding.lean ====
section
/-!
SUPPORT. Reading the fields of an encoded syllable back (R228): a list of fields that fit is a mixed-radix number, and each field stands in it at the
sum of the widths that follow.
-/
namespace Sys2Proof.Laws.Encodable
open Sys2Proof Sys2Proof.Machine

/-- The bits that a list of fields takes. -/
def width (l : List (Nat × Nat)) : Nat := (l.map (·.1)).sum

theorem foldl_packFields (l : List (Nat × Nat)) (a : Nat) :
    l.foldl (fun a p => a * 2 ^ p.1 + p.2) a = a * 2 ^ width l + packFields l := by
  induction l generalizing a with
  | nil => simp [width, packFields]
  | cons x l ih =>
    have h : packFields (x :: l) = x.2 * 2 ^ width l + packFields l := by
      unfold packFields
      rw [List.foldl_cons, Nat.zero_mul, Nat.zero_add]
      exact ih x.2
    have hw : width (x :: l) = x.1 + width l := by simp [width]
    rw [List.foldl_cons, ih, h, hw, Nat.pow_add, Nat.add_mul, ← Nat.mul_assoc, Nat.add_assoc]

theorem packFields_cons (w v : Nat) (l : List (Nat × Nat)) : packFields ((w, v) :: l) = v * 2 ^ width l + packFields l := by
  have := foldl_packFields l v
  simpa [packFields] using this

theorem Fits.width_eq : ∀ {n : Nat} {l : List (Nat × Nat)}, Fits n l → width l = n
  | n, [], h => by simpa [width, Fits] using h.symm
  | n, x :: l, ⟨hw, _, hl⟩ => by
    have := Fits.width_eq hl
    simp only [width, List.map_cons, List.sum_cons] at *
    omega

theorem Fits.packFields_lt : ∀ {n : Nat} {l : List (Nat × Nat)}, Fits n l → packFields l < 2 ^ n
  | n, [], _ => by simp [packFields, Nat.two_pow_pos]
  | n, (w, v) :: l, ⟨hw, hv, hl⟩ => by
    have ih := Fits.packFields_lt hl
    have hn : 2 ^ n = 2 ^ w * 2 ^ (n - w) := by rw [← Nat.pow_add]; congr 1; simp at hw; omega
    rw [packFields_cons, hl.width_eq, hn]
    have h1 : (v + 1) * 2 ^ (n - w) ≤ 2 ^ w * 2 ^ (n - w) := Nat.mul_le_mul_right _ hv
    rw [Nat.add_mul, Nat.one_mul] at h1
    exact Nat.lt_of_lt_of_le (Nat.add_lt_add_left ih _) h1

/-- A field of a list that fits stands above the widths that follow it. -/
theorem fld_packFields : ∀ {n : Nat} (l m : List (Nat × Nat)) {w v : Nat}, Fits n (l ++ (w, v) :: m) → fld (packFields (l ++ (w, v) :: m)) (width m) w = v
  | n, [], m, w, v, ⟨hw, hv, hm⟩ => by
    have hlt : packFields m < 2 ^ width m := by rw [hm.width_eq]; exact hm.packFields_lt
    have hd : (v * 2 ^ width m + packFields m) / 2 ^ width m = v := by
      rw [Nat.add_comm, Nat.add_mul_div_right _ _ (Nat.two_pow_pos _), Nat.div_eq_of_lt hlt, Nat.zero_add]
    simp only [List.nil_append, packFields_cons, fld, hd]
    exact Nat.mod_eq_of_lt hv
  | n, (a, b) :: l, m, w, v, ⟨ha, hb, hl⟩ => by
    have ih := fld_packFields l m hl
    have hw : width (l ++ (w, v) :: m) = width l + (w + width m) := by simp [width, List.sum_append]
    rw [List.cons_append, packFields_cons, hw]
    simp only [fld] at ih ⊢
    have e : b * 2 ^ (width l + (w + width m)) = 2 ^ width m * (2 ^ w * (b * 2 ^ width l)) := by
      rw [Nat.pow_add, Nat.pow_add]
      ac_rfl
    rw [e, Nat.mul_add_div (Nat.two_pow_pos _), Nat.mul_add_mod]
    exact ih

/-- The word of a syllable is the number of its fields. -/
theorem encode_toNat {i : Instr} {l : List (Nat × Nat)} (h : fieldsOf i = some l) (hl : Fits 64 l) : (encode i).toNat = packFields l := by
  have := hl.packFields_lt
  simp only [encode, h, BitVec.toNat_ofNat]
  exact Nat.mod_eq_of_lt this

end Sys2Proof.Laws.Encodable
end

