-- ==== Sys2Proof/Laws/Issue.lean ====
section
/-!
SUPPORT. What the issue of a syllable does, once for every syllable: no fault and it has its effect, its guard fails and
nothing happens, or its lowest fault is taken.
-/
namespace Sys2Proof.Machine
open Sys2Proof

/-- Faults of a syllable's own join the others only when it acts. -/
theorem State.faults_append (s : State) (i : Instr) (own : List Trap) :
    s.faults i own = s.faults i [] ++ (if s.acts i then own else []) := by
  unfold State.faults
  by_cases h : s.acts i = true <;> simp [h]

theorem State.faults_nil_iff (s : State) (i : Instr) (own : List Trap) :
    s.faults i own = [] ↔ s.faults i [] = [] ∧ (s.acts i = true → own = []) := by
  rw [State.faults_append]
  by_cases h : s.acts i <;> simp [h]

/-- A trap is found whenever there is one. -/
theorem lowestTrap_none : ∀ {l : List Trap}, lowestTrap l = none ↔ l = []
  | [] => by simp [lowestTrap]
  | t :: l => by
    unfold lowestTrap
    split
    · simp
    · split <;> simp

/-- The trap that is taken is one of those found. -/
theorem lowestTrap_mem : ∀ {l : List Trap} {t : Trap}, lowestTrap l = some t → t ∈ l
  | [], _, h => by simp [lowestTrap] at h
  | u :: l, t, h => by
    unfold lowestTrap at h
    split at h
    · cases h; simp
    · rename_i v hv
      split at h <;> cases h
      · exact List.mem_cons_of_mem _ (lowestTrap_mem hv)
      · simp

/-- No trap found has a lower cause code than the one that is taken (R140). -/
theorem lowestTrap_le : ∀ {l : List Trap} {t : Trap}, lowestTrap l = some t → ∀ u ∈ l, causeCode t.cause ≤ causeCode u.cause
  | [], _, h => by simp [lowestTrap] at h
  | v :: l, t, h => by
    unfold lowestTrap at h
    split at h
    · rename_i hn
      cases h
      rw [lowestTrap_none] at hn
      simp [hn]
    · rename_i w hw
      have ih := lowestTrap_le hw
      split at h <;> cases h <;> rename_i hb <;> intro u hu <;> rw [List.mem_cons] at hu <;> rcases hu with rfl | hu
      · simp only [Trap.before, Bool.or_eq_true, decide_eq_true_eq, Bool.and_eq_true, beq_iff_eq] at hb
        rcases hb with hb | ⟨hb, _⟩
        · omega
        · exact Nat.le_of_eq (congrArg causeCode hb)
      · exact ih u hu
      · exact Nat.le_refl _
      · have := ih u hu
        simp only [Trap.before, Bool.or_eq_true, decide_eq_true_eq, Bool.and_eq_true, beq_iff_eq, not_or] at hb
        omega

/-- A syllable without a fault has its effect when it acts, and else none (R230). -/
theorem State.issueWith_clear {s : State} {i : Instr} {own : List Trap} (h : s.issue.passed = true ∨ s.faults i own = [])
    (onTrap : Trap → State → State) (eff : State → State) :
    s.issueWith i own onTrap eff = .next (if s.acts i then eff s else s) := by
  unfold State.issueWith
  rcases h with h | h <;> simp [h, lowestTrap]

theorem State.issueOp_clear {s : State} {i : Instr} {own : List Trap} (h : s.issue.passed = true ∨ s.faults i own = [])
    (eff : State → State) : s.issueOp i own eff = .next (if s.acts i then eff s else s) :=
  State.issueWith_clear h _ eff

/-- A syllable with a fault takes the lowest (R140). -/
theorem State.issueWith_fault {s : State} {i : Instr} {own : List Trap} (hp : s.issue.passed = false) (h : s.faults i own ≠ [])
    (onTrap : Trap → State → State) (eff : State → State) :
    ∃ t, lowestTrap (s.faults i own) = some t ∧ s.issueWith i own onTrap eff = .next ((onTrap t s).takeTrap 0 t) := by
  unfold State.issueWith
  cases h' : lowestTrap (s.faults i own) with
  | none => exact absurd (lowestTrap_none.mp h') h
  | some t => exact ⟨t, rfl, by simp [hp]⟩

/-- A condition that holds holds nothing back. -/
theorem State.holdUntil_true {s : State} (yields : Bool) {cond : Bool} (h : s.issue.passed = true ∨ cond = true)
    (eff : State → State) : s.holdUntil yields cond eff = eff s := by
  unfold State.holdUntil
  rcases h with h | h <;> simp [h]

/-- A V syllable without a fault has its effect, and its sources load their latches. -/
theorem State.issueV_clear {s : State} {i : Instr} {own : List Trap} (h : s.issue.passed = true ∨ s.faults i own = [])
    (ha : s.acts i = true) (eff : State → State) :
    s.issueV i own eff = .next ((eff s).withCur { (eff s).cur with
      latches := (s.cur.loadLatches s.issue.jo (s.groups i) (shapeOf i).srcs).latches }) := by
  unfold State.issueV
  rw [State.issueOp_clear h]
  simp [ha]

/-- An access that no LDA reply holds back has its effect. -/
theorem State.issueAccess_clear {s : State} {i : Instr} {own : List Trap} (h : s.issue.passed = true ∨ s.faults i own = [])
    (hq : s.issue.passed = true ∨ s.acquiring = false) (ha : s.acts i = true) (eff : State → State) :
    s.issueAccess i own eff = .next (eff s) := by
  unfold State.issueAccess
  rw [State.issueOp_clear h, if_pos ha, State.holdUntil_true]
  rcases hq with hq | hq
  · exact .inl hq
  · exact .inr (by simp [hq])


end Sys2Proof.Machine
end

