-- ==== Sys2Proof/Laws/Memory.lean ====
section
/-!
SUPPORT. Maps in canonical form, and memory: reads after writes, and that every operation that writes memory keeps the
canonical form.
-/
namespace Sys2Proof.Machine
open Sys2Proof

/-! ## Maps -/

section
variable {α : Type} [DecidableEq α] (d : α)

/-- A map whose keys lie above a bound has canonical form above any lower bound. -/
theorem Sparse.wfFrom_weaken {lo : Option Nat} {l : Nat} (hl : ∀ x, lo = some x → x ≤ l) :
    ∀ {m : Sparse α}, Sparse.wfFrom d (some l) m = true → Sparse.wfFrom d lo m = true := by
  intro m h
  cases m with
  | nil => cases lo <;> rfl
  | cons e m =>
    obtain ⟨k, v⟩ := e
    cases lo with
    | none => simp only [Sparse.wfFrom, Bool.and_eq_true, decide_eq_true_eq] at h ⊢; exact ⟨⟨trivial, h.1.2⟩, h.2⟩
    | some x =>
      have := hl x rfl
      simp only [Sparse.wfFrom, Bool.and_eq_true, decide_eq_true_eq] at h ⊢
      exact ⟨⟨by omega, h.1.2⟩, h.2⟩

/-- Writing keeps the canonical form. -/
theorem Sparse.wfFrom_set (a : Nat) (x : α) : ∀ (lo : Option Nat) (m : Sparse α), (∀ l, lo = some l → l < a) →
    Sparse.wfFrom d lo m = true → Sparse.wfFrom d lo (Sparse.set d m a x) = true := by
  intro lo m
  induction m generalizing lo with
  | nil =>
    intro hl _
    by_cases hx : x = d
    · simp [Sparse.set, hx, Sparse.wfFrom]
    · cases lo <;> simp [Sparse.set, hx, Sparse.wfFrom]
      exact hl _ rfl
  | cons e m ih =>
    obtain ⟨k, v⟩ := e
    intro hl h
    have hkv : v ≠ d ∧ Sparse.wfFrom d (some k) m = true := by
      cases lo <;> simp only [Sparse.wfFrom, Bool.and_eq_true, decide_eq_true_eq] at h <;> exact ⟨h.1.2, h.2⟩
    by_cases hak : a < k
    · by_cases hx : x = d
      · simpa [Sparse.set, hak, hx] using h
      · cases lo <;> simp [Sparse.set, hak, hx, Sparse.wfFrom, hkv.1, hkv.2]
        exact hl _ rfl
    · by_cases hk : a = k
      · subst hk
        by_cases hx : x = d
        · have := Sparse.wfFrom_weaken d (lo := lo) (fun y hy => Nat.le_of_lt (hl y hy)) hkv.2
          simpa [Sparse.set, hx] using this
        · cases lo <;> simp [Sparse.set, hx, Sparse.wfFrom, hkv.2]
          exact hl _ rfl
      · have hm := ih (some k) (fun l h => by cases h; omega) hkv.2
        cases lo with
        | none => simp [Sparse.set, hak, hk, Sparse.wfFrom, hkv.1, hm]
        | some l =>
          simp only [Sparse.wfFrom, Bool.and_eq_true, decide_eq_true_eq] at h
          simp [Sparse.set, hak, hk, Sparse.wfFrom, hkv.1, hm, h.1.1]

theorem Sparse.wf_set {m : Sparse α} (h : Sparse.wf d m = true) (a : Nat) (x : α) : Sparse.wf d (Sparse.set d m a x) = true :=
  Sparse.wfFrom_set d a x none m (fun _ h => nomatch h) h

/-- A key below every key of a map reads as unlisted. -/
theorem Sparse.get_below {m : Sparse α} {l a : Nat} (h : Sparse.wfFrom d (some l) m = true) (ha : a ≤ l) : Sparse.get d m a = d := by
  cases m with
  | nil => rfl
  | cons e m =>
    obtain ⟨k, v⟩ := e
    simp only [Sparse.wfFrom, Bool.and_eq_true, decide_eq_true_eq] at h
    have h1 : k ≠ a := by omega
    have h2 : a < k := by omega
    simp [Sparse.get, h1, h2]

theorem Sparse.get_setFrom (a b : Nat) (x : α) : ∀ (lo : Option Nat) (m : Sparse α), Sparse.wfFrom d lo m = true →
    Sparse.get d (Sparse.set d m a x) b = if b = a then x else Sparse.get d m b := by
  intro lo m
  induction m generalizing lo with
  | nil =>
    intro _
    by_cases hx : x = d <;> by_cases hb : b = a <;> simp [Sparse.set, Sparse.get, hx, hb]
    intro h; exact absurd h.symm hb
  | cons e m ih =>
    obtain ⟨k, v⟩ := e
    intro h
    have hkv : v ≠ d ∧ Sparse.wfFrom d (some k) m = true := by
      cases lo <;> simp only [Sparse.wfFrom, Bool.and_eq_true, decide_eq_true_eq] at h <;> exact ⟨h.1.2, h.2⟩
    have hr := ih (some k) hkv.2
    by_cases hak : a < k
    · by_cases hx : x = d
      · by_cases hb : b = a
        · subst hb
          have : k ≠ b := by omega
          simp [Sparse.set, hak, hx, Sparse.get, this]
        · simp [Sparse.set, hak, hx, hb]
      · by_cases hb : b = a
        · simp [Sparse.set, hak, hx, Sparse.get, hb]
        · by_cases hlt : b < a
          · have h1 : ¬a = b := by omega
            have h2 : ¬k = b := by omega
            have h3 : b < k := by omega
            simp [Sparse.set, hak, hx, Sparse.get, hb, hlt, h1, h2, h3]
          · have h1 : ¬a = b := by omega
            simp [Sparse.set, hak, hx, Sparse.get, hb, hlt, h1]
    · by_cases hk : a = k
      · subst hk
        by_cases hx : x = d
        · by_cases hb : b = a
          · subst hb; simp [Sparse.set, hx, Sparse.get_below d hkv.2 (Nat.le_refl _)]
          · have h1 : ¬a = b := fun h => hb h.symm
            by_cases hlt : b < a
            · simp [Sparse.set, hx, Sparse.get, hb, h1, hlt, Sparse.get_below d hkv.2 (Nat.le_of_lt hlt)]
            · simp [Sparse.set, hx, Sparse.get, hb, h1, hlt]
        · by_cases hb : b = a
          · simp [Sparse.set, hx, Sparse.get, hb]
          · have h1 : ¬a = b := fun h => hb h.symm
            simp [Sparse.set, hx, Sparse.get, hb, h1]
      · by_cases hb : b = a
        · subst hb
          have h1 : ¬k = b := fun h => hk h.symm
          simp [Sparse.set, hak, hk, Sparse.get, h1, hr]
        · by_cases hkb : k = b
          · subst hkb; simp [Sparse.set, hak, hk, Sparse.get, hb]
          · simp [Sparse.set, hak, hk, Sparse.get, hkb, hr, hb]

theorem Sparse.get_set {m : Sparse α} (h : Sparse.wf d m = true) (a b : Nat) (x : α) :
    Sparse.get d (Sparse.set d m a x) b = if b = a then x else Sparse.get d m b :=
  Sparse.get_setFrom d a b x none m h

end

/-! ## Bytes of memory -/

theorem Memory.wf_nil : Memory.wf [] = true := rfl

theorem Memory.wf_write {m : Memory} (h : m.wf = true) (a : Nat) (b : Byte) : (m.write a b).wf = true := Sparse.wf_set _ h a b

theorem Memory.read_write {m : Memory} (h : m.wf = true) (a b : Nat) (x : Byte) :
    (m.write a x).read b = if b = a then x else m.read b := Sparse.get_set _ h a b x

theorem Memory.wf_writeNat (n : Nat) : ∀ {m : Memory} (_ : m.wf = true) (a x : Nat), (m.writeNat a n x).wf = true := by
  induction n with
  | zero => intro m h a x; exact h
  | succ n ih => intro m h a x; exact ih (Memory.wf_write h _ _) _ _

/-- A write of n bytes leaves every other byte alone. -/
theorem Memory.read_writeNat (n : Nat) : ∀ {m : Memory} (_ : m.wf = true) (a x b : Nat), (b < a ∨ a + n ≤ b) →
    (m.writeNat a n x).read b = m.read b := by
  induction n with
  | zero => intro m h a x b _; rfl
  | succ n ih =>
    intro m h a x b hb
    rw [Memory.writeNat, ih (Memory.wf_write h _ _) _ _ _ (by omega), Memory.read_write h, if_neg (by omega)]

theorem Memory.wf_writeBytes : ∀ (l : List Byte) {m : Memory} (_ : m.wf = true) (a : Nat), (m.writeBytes a l).wf = true
  | [], _, h, _ => h
  | _ :: l, _, h, _ => Memory.wf_writeBytes l (Memory.wf_write h _ _) _

theorem wf_writeAddrs (skip : List Nat) : ∀ (l : List Nat) {m : Memory} (_ : m.wf = true) (x : Nat),
    (writeAddrs m skip l x).wf = true
  | [], _, h, _ => h
  | p :: l, m, h, x => by
    unfold writeAddrs
    split
    · exact wf_writeAddrs skip l h _
    · exact wf_writeAddrs skip l (Memory.wf_write h _ _) _

/-- A write at physical addresses leaves every other byte alone. -/
theorem read_writeAddrs (skip : List Nat) (b : Nat) : ∀ (l : List Nat) {m : Memory} (_ : m.wf = true) (x : Nat), b ∉ l →
    (writeAddrs m skip l x).read b = m.read b
  | [], _, _, _, _ => rfl
  | p :: l, m, h, x, hb => by
    rw [List.mem_cons, not_or] at hb
    unfold writeAddrs
    split
    · exact read_writeAddrs skip b l h _ hb.2
    · rw [read_writeAddrs skip b l (Memory.wf_write h _ _) _ hb.2, Memory.read_write h, if_neg hb.1]

/-! ## Sites -/

/-- A write at a site changes memory at its physical bytes, and only in an allocation. -/
theorem State.siteWrite_mem (s : State) (skip : List Nat) (site : Site) (off size value : Nat) :
    (s.siteWrite skip site off size value).mem =
      (match site with | .alloc .. => writeAddrs s.mem skip (s.siteAddrs site off size) value | _ => s.mem) := by
  cases site <;> rfl

theorem State.siteWrite_wf {s : State} (h : s.mem.wf = true) (skip : List Nat) (site : Site) (off size value : Nat) :
    (s.siteWrite skip site off size value).mem.wf = true := by
  rw [State.siteWrite_mem]
  split
  · exact wf_writeAddrs _ _ h _
  · exact h

theorem State.siteAtomVia_wf {s : State} (h : s.mem.wf = true) (shadow : List (Nat × Byte)) (skip : List Nat) (site : Site) (a : Atom) :
    (s.siteAtomVia shadow skip site a).1.mem.wf = true := by
  cases a <;> exact State.siteWrite_wf h _ _ _ _ _

theorem State.siteAtom_wf {s : State} (h : s.mem.wf = true) (site : Site) (a : Atom) : (s.siteAtom site a).1.mem.wf = true :=
  State.siteAtomVia_wf h _ _ site a

theorem State.siteAtoms_wf (site : Site) : ∀ (l : List Atom) {s : State} (_ : s.mem.wf = true) (acc : List (Nat × Nat)),
    (s.siteAtoms site l acc).1.mem.wf = true
  | [], _, h, _ => h
  | _ :: l, _, h, _ => State.siteAtoms_wf site l (State.siteAtom_wf h site _) _

/-! ## Accesses -/

theorem State.foldl_siteWrite_wf (skip : List Nat) (site : Site) : ∀ (parts : List Part) {s : State} (_ : s.mem.wf = true),
    (parts.foldl (fun t p => t.siteWrite skip site p.off p.size p.value) s).mem.wf = true
  | [], _, h => h
  | _ :: l, _, h => State.foldl_siteWrite_wf skip site l (State.siteWrite_wf h _ _ _ _ _)

@[simp] theorem State.landWith_mem (s : State) (w : Landing) (owed : Option DWord) : (s.landWith w owed).1.mem = s.mem := by
  unfold State.landWith; simp only []; split <;> rfl

@[simp] theorem State.endLanding_mem (s : State) (owed : Option DWord) : (s.endLanding owed).mem = s.mem := by
  unfold State.endLanding; split <;> rfl

@[simp] theorem State.land_mem (s : State) (w : Landing) : (s.land w).mem = s.mem := by
  show ((s.landWith w none).1.endLanding (s.landWith w none).2).mem = s.mem
  rw [State.endLanding_mem, State.landWith_mem]

@[simp] theorem State.unshadow_mem (s : State) (own : Option Nat) (ws : List Nat) : (s.unshadow own ws).mem = s.mem := by
  unfold State.unshadow; split <;> rfl

theorem State.foldl_land_mem (l : List Flight) (s : State) : (l.foldl (fun t f => t.land f.what) s).mem = s.mem := by
  induction l generalizing s with
  | nil => rfl
  | cons f l ih => rw [List.foldl_cons, ih, State.land_mem]

/-- What an access brings to its context leaves memory alone. -/
@[simp] theorem State.bring_mem (s : State) (a : Access) (f : Ctx → Ctx) : (s.bring a f).mem = s.mem := by
  unfold State.bring
  split
  · rfl
  · exact State.foldl_land_mem _ _

@[simp] theorem State.fillLine_mem (s : State) (a : Access) (cmd line off : Nat) (ptr : DWord) : (s.fillLine a cmd line off ptr).mem = s.mem := by
  unfold State.fillLine; split <;> rfl

theorem State.serveArrival_wf {s : State} (h : s.mem.wf = true) (site : Site) (cycle req : Nat) (ask : Ask) :
    (s.serveArrival site cycle req ask).mem.wf = true := by
  unfold State.serveArrival
  split
  · exact h
  · split
    · exact h
    · exact State.foldl_siteWrite_wf _ site _ h
    · exact State.siteAtomVia_wf h _ _ site _
    · exact h

theorem State.putRun_wf {s : State} (h : s.mem.wf = true) (a : Access) (cmd : Nat) (p : Put) (rest : List Put) :
    (s.putRun a cmd p rest).mem.wf = true := by
  unfold State.putRun
  show (State.mem (if _ then _ else _)).wf = true
  split
  · exact h
  · split
    · exact State.siteAtom_wf h _ _
    · exact State.siteWrite_wf h _ _ _ _ _

/-- Bytes copied from another memory keep the canonical form. -/
theorem wf_copyAddrs (src : Memory) : ∀ (as : List Nat) {m : Memory} (_ : m.wf = true), (copyAddrs src as m).wf = true
  | [], _, h => h
  | a :: l, _, h => wf_copyAddrs src l (Memory.wf_write h a _)

@[simp] theorem State.peekRuns_mem (s : State) (site : Site) (runs : List (Nat × Nat)) : (s.peekRuns site runs).mem = s.mem := rfl

@[simp] theorem State.outrun_mem (s : State) (a : Access) (ws : List Nat) : (s.outrun a ws).mem = s.mem := rfl

theorem State.perform_wf {s : State} (h : s.mem.wf = true) (a : Access) : (s.perform a).mem.wf = true := by
  unfold State.perform
  split
  · rw [State.bring_mem]; exact h
  · exact State.foldl_siteWrite_wf _ _ _ h
  · rw [State.bring_mem]; exact wf_copyAddrs _ _ h
  · rw [State.bring_mem]; exact h
  · rw [State.fillLine_mem]; exact h
  · exact h
  · exact State.serveArrival_wf h _ _ _ _
  · exact h
  · exact State.putRun_wf h _ _ _ _
  · split <;> exact h

theorem State.performHere_wf {s : State} (h : s.mem.wf = true) (a : Access) : (s.performHere a).mem.wf = true := by
  unfold State.performHere
  split
  · exact h
  · dsimp only
    split
    · exact State.perform_wf (by rw [State.unshadow_mem]; exact h) a
    · exact State.perform_wf (by rw [State.outrun_mem, State.unshadow_mem]; exact h) a

@[simp] theorem State.lookAt_mem (s : State) (uid : Nat) : (s.lookAt uid).mem = s.mem := by
  unfold State.lookAt; split
  · rfl
  · split <;> rfl

theorem State.performDue_wf (cl m : Nat) : ∀ (n : Nat) {s : State} (_ : s.mem.wf = true), (s.performDue cl m n).mem.wf = true
  | 0, _, h => h
  | n + 1, s, h => by
    unfold State.performDue
    split
    · exact h
    · exact State.performDue_wf cl m n (by rw [State.lookAt_mem]; exact State.performHere_wf (by rw [State.lookAt_mem]; exact h) _)

/-- The accesses of a cluster keep the canonical form of memory. -/
theorem State.passCluster_wf {s : State} (h : s.mem.wf = true) (cl m : Nat) : (s.passCluster cl m).mem.wf = true :=
  State.performDue_wf _ _ _ h

theorem State.performTo_wf {s : State} (h : s.mem.wf = true) (t : Nat) : (s.performTo t).mem.wf = true :=
  State.passCluster_wf h _ _

theorem State.finishAccesses_wf {s : State} (h : s.mem.wf = true) : s.finishAccesses.mem.wf = true := by
  unfold State.finishAccesses
  split
  · exact h
  · exact State.passCluster_wf h _ _

/-! ## Landing, traps and the clock -/

@[simp] theorem State.landList_mem (t : Nat) : ∀ (l : List Flight) (s : State) (k : Nat) (owed : Option DWord), (s.landList t k owed l).mem = s.mem
  | [], s, _, owed => State.endLanding_mem s owed
  | f :: l, s, k, owed => by
    unfold State.landList
    split
    · rw [State.landList_mem t l, State.landWith_mem]
      split
      · rfl
      · exact State.endLanding_mem s owed
    · exact State.endLanding_mem s owed

@[simp] theorem State.landTo_mem (s : State) (t : Nat) : (s.landTo t).mem = s.mem := State.landList_mem _ _ _ _ _

theorem State.runTo_wf {s : State} (h : s.mem.wf = true) (t : Nat) : (s.runTo t).mem.wf = true := by
  show ((s.performTo t).landTo t).mem.wf = true
  rw [State.landTo_mem]
  exact State.performTo_wf h t

/-- A stop leaves memory alone (R113, R114). -/
@[simp] theorem State.stop_mem (s : State) : s.stop.mem = s.mem := State.landList_mem _ _ _ _ _

@[simp] theorem State.barrierDone_mem (s : State) (c : Ctx) (g : Nat) : (s.barrierDone c g).mem = s.mem := by
  unfold State.barrierDone
  split
  · rfl
  · simp only []; split
    · rfl
    · unfold State.mapPart; split <;> rfl

/-- The end of a task changes memory by the accesses that it has issued (R114). -/
theorem State.endTask_mem (s : State) (code : Option Nat) : (s.endTask code).mem = s.finishAccesses.mem := by
  have base : ∀ (f : Partition → Partition), (s.finishAccesses.mapPart s.finishAccesses.cur.part f).mem = s.finishAccesses.mem := by
    intro f; unfold State.mapPart; split <;> rfl
  have fold : ∀ (l : List (Nat × BitVec 1024)) (c : Ctx) (t : State),
      (l.foldl (fun t x => t.barrierDone c x.1) t).mem = t.mem := by
    intro l c
    induction l with
    | nil => intro t; rfl
    | cons x l ih => intro t; rw [List.foldl_cons, ih, State.barrierDone_mem]
  unfold State.endTask
  simp only []
  split
  · exact base _
  · rw [fold]; exact base _

theorem State.endTask_wf {s : State} (h : s.mem.wf = true) (code : Option Nat) : (s.endTask code).mem.wf = true := by
  rw [State.endTask_mem]; exact State.finishAccesses_wf h

/-- Taking a trap keeps the canonical form of memory. -/
theorem State.takeTrap_wf {s : State} (h : s.mem.wf = true) (d : Nat) (t : Trap) : (s.takeTrap d t).mem.wf = true := by
  unfold State.takeTrap
  simp only []
  split
  · exact State.endTask_wf (by show s.stop.mem.wf = true; rw [State.stop_mem]; exact h) _
  · show s.stop.mem.wf = true; rw [State.stop_mem]; exact h

theorem State.returnFrom_mem (s : State) (p : Parked) : (s.returnFrom p).mem = s.mem := rfl

end Sys2Proof.Machine
end

