-- ==== Sys2Proof/Laws/Records.lean ====
section
/-!
SUPPORT. The records of partitions, control cores, ports, dies, tiles and contexts: reading one after one has been replaced, and what such a
replacement leaves.
-/
namespace Sys2Proof.Machine
open Sys2Proof

/-! ## Core -/

@[simp] theorem State.mapCore_cur (s : State) (n : Nat) (f : Core → Core) : (s.mapCore n f).cur = s.cur := by
  unfold State.mapCore; split <;> rfl
@[simp] theorem State.mapCore_others (s : State) (n : Nat) (f : Core → Core) : (s.mapCore n f).others = s.others := by
  unfold State.mapCore; split <;> rfl
@[simp] theorem State.mapCore_mem (s : State) (n : Nat) (f : Core → Core) : (s.mapCore n f).mem = s.mem := by
  unfold State.mapCore; split <;> rfl
@[simp] theorem State.mapCore_tiles (s : State) (n : Nat) (f : Core → Core) : (s.mapCore n f).tiles = s.tiles := by
  unfold State.mapCore; split <;> rfl
@[simp] theorem State.mapCore_requests (s : State) (n : Nat) (f : Core → Core) : (s.mapCore n f).requests = s.requests := by
  unfold State.mapCore; split <;> rfl
@[simp] theorem State.mapCore_nextReq (s : State) (n : Nat) (f : Core → Core) : (s.mapCore n f).nextReq = s.nextReq := by
  unfold State.mapCore; split <;> rfl
@[simp] theorem State.mapCore_nextUid (s : State) (n : Nat) (f : Core → Core) : (s.mapCore n f).nextUid = s.nextUid := by
  unfold State.mapCore; split <;> rfl
@[simp] theorem State.mapCore_firefly (s : State) (n : Nat) (f : Core → Core) : (s.mapCore n f).firefly = s.firefly := by
  unfold State.mapCore; split <;> rfl
@[simp] theorem State.mapCore_parts (s : State) (n : Nat) (f : Core → Core) : (s.mapCore n f).parts = s.parts := by
  unfold State.mapCore; split <;> rfl
@[simp] theorem State.mapCore_hart (s : State) (n : Nat) (f : Core → Core) : (s.mapCore n f).hart = s.hart := by
  unfold State.mapCore; split <;> rfl
@[simp] theorem State.mapCore_units (s : State) (n : Nat) (f : Core → Core) : (s.mapCore n f).units = s.units := by
  unfold State.mapCore; split <;> rfl
@[simp] theorem State.mapCore_degraded (s : State) (n : Nat) (f : Core → Core) : (s.mapCore n f).degraded = s.degraded := by
  unfold State.mapCore; split <;> rfl
@[simp] theorem State.mapCore_fused (s : State) (n : Nat) (f : Core → Core) : (s.mapCore n f).fused = s.fused := by
  unfold State.mapCore; split <;> rfl
@[simp] theorem State.mapCore_dies (s : State) (n : Nat) (f : Core → Core) : (s.mapCore n f).dies = s.dies := by
  unfold State.mapCore; split <;> rfl
@[simp] theorem State.mapCore_ports (s : State) (n : Nat) (f : Core → Core) : (s.mapCore n f).ports = s.ports := by
  unfold State.mapCore; split <;> rfl
@[simp] theorem State.mapCore_window (s : State) (n : Nat) (f : Core → Core) : (s.mapCore n f).window = s.window := by
  unfold State.mapCore; split <;> rfl
@[simp] theorem State.mapCore_ownModule (s : State) (n : Nat) (f : Core → Core) : (s.mapCore n f).ownModule = s.ownModule := by
  unfold State.mapCore; split <;> rfl
@[simp] theorem State.mapCore_present (s : State) (n : Nat) (f : Core → Core) : (s.mapCore n f).present = s.present := by
  unfold State.mapCore; split <;> rfl
@[simp] theorem State.mapCore_cycle (s : State) (n : Nat) (f : Core → Core) : (s.mapCore n f).cycle = s.cycle := by
  unfold State.mapCore; split <;> rfl
@[simp] theorem State.mapCore_fresh (s : State) (n : Nat) (f : Core → Core) : (s.mapCore n f).fresh = s.fresh := by
  unfold State.mapCore; split <;> rfl
@[simp] theorem State.mapCore_issue (s : State) (n : Nat) (f : Core → Core) : (s.mapCore n f).issue = s.issue := by
  unfold State.mapCore; split <;> rfl
@[simp] theorem State.mapCore_sched (s : State) (n : Nat) (f : Core → Core) : (s.mapCore n f).sched = s.sched := by
  unfold State.mapCore; split <;> rfl

@[simp] theorem State.coreN_mapCore_self (s : State) {n : Nat} (f : Core → Core) (h : n < 32) : (s.mapCore n f).coreN n = f (s.coreN n) := by
  simp [State.coreN, State.mapCore, h]

/-- Another one is as before. -/
theorem State.coreN_mapCore_ne (s : State) {n k : Nat} (f : Core → Core) (h : k ≠ n) (hk : k < 32) : (s.mapCore n f).coreN k = s.coreN k := by
  unfold State.coreN State.mapCore
  by_cases hn : n < 32 <;> simp [hn, hk, Ne.symm h]

/-! ## Port -/

@[simp] theorem State.mapPort_cur (s : State) (n : Nat) (f : Port → Port) : (s.mapPort n f).cur = s.cur := by
  unfold State.mapPort; split <;> rfl
@[simp] theorem State.mapPort_others (s : State) (n : Nat) (f : Port → Port) : (s.mapPort n f).others = s.others := by
  unfold State.mapPort; split <;> rfl
@[simp] theorem State.mapPort_mem (s : State) (n : Nat) (f : Port → Port) : (s.mapPort n f).mem = s.mem := by
  unfold State.mapPort; split <;> rfl
@[simp] theorem State.mapPort_tiles (s : State) (n : Nat) (f : Port → Port) : (s.mapPort n f).tiles = s.tiles := by
  unfold State.mapPort; split <;> rfl
@[simp] theorem State.mapPort_requests (s : State) (n : Nat) (f : Port → Port) : (s.mapPort n f).requests = s.requests := by
  unfold State.mapPort; split <;> rfl
@[simp] theorem State.mapPort_nextReq (s : State) (n : Nat) (f : Port → Port) : (s.mapPort n f).nextReq = s.nextReq := by
  unfold State.mapPort; split <;> rfl
@[simp] theorem State.mapPort_nextUid (s : State) (n : Nat) (f : Port → Port) : (s.mapPort n f).nextUid = s.nextUid := by
  unfold State.mapPort; split <;> rfl
@[simp] theorem State.mapPort_firefly (s : State) (n : Nat) (f : Port → Port) : (s.mapPort n f).firefly = s.firefly := by
  unfold State.mapPort; split <;> rfl
@[simp] theorem State.mapPort_parts (s : State) (n : Nat) (f : Port → Port) : (s.mapPort n f).parts = s.parts := by
  unfold State.mapPort; split <;> rfl
@[simp] theorem State.mapPort_cores (s : State) (n : Nat) (f : Port → Port) : (s.mapPort n f).cores = s.cores := by
  unfold State.mapPort; split <;> rfl
@[simp] theorem State.mapPort_hart (s : State) (n : Nat) (f : Port → Port) : (s.mapPort n f).hart = s.hart := by
  unfold State.mapPort; split <;> rfl
@[simp] theorem State.mapPort_units (s : State) (n : Nat) (f : Port → Port) : (s.mapPort n f).units = s.units := by
  unfold State.mapPort; split <;> rfl
@[simp] theorem State.mapPort_degraded (s : State) (n : Nat) (f : Port → Port) : (s.mapPort n f).degraded = s.degraded := by
  unfold State.mapPort; split <;> rfl
@[simp] theorem State.mapPort_fused (s : State) (n : Nat) (f : Port → Port) : (s.mapPort n f).fused = s.fused := by
  unfold State.mapPort; split <;> rfl
@[simp] theorem State.mapPort_dies (s : State) (n : Nat) (f : Port → Port) : (s.mapPort n f).dies = s.dies := by
  unfold State.mapPort; split <;> rfl
@[simp] theorem State.mapPort_window (s : State) (n : Nat) (f : Port → Port) : (s.mapPort n f).window = s.window := by
  unfold State.mapPort; split <;> rfl
@[simp] theorem State.mapPort_ownModule (s : State) (n : Nat) (f : Port → Port) : (s.mapPort n f).ownModule = s.ownModule := by
  unfold State.mapPort; split <;> rfl
@[simp] theorem State.mapPort_present (s : State) (n : Nat) (f : Port → Port) : (s.mapPort n f).present = s.present := by
  unfold State.mapPort; split <;> rfl
@[simp] theorem State.mapPort_cycle (s : State) (n : Nat) (f : Port → Port) : (s.mapPort n f).cycle = s.cycle := by
  unfold State.mapPort; split <;> rfl
@[simp] theorem State.mapPort_fresh (s : State) (n : Nat) (f : Port → Port) : (s.mapPort n f).fresh = s.fresh := by
  unfold State.mapPort; split <;> rfl
@[simp] theorem State.mapPort_issue (s : State) (n : Nat) (f : Port → Port) : (s.mapPort n f).issue = s.issue := by
  unfold State.mapPort; split <;> rfl
@[simp] theorem State.mapPort_sched (s : State) (n : Nat) (f : Port → Port) : (s.mapPort n f).sched = s.sched := by
  unfold State.mapPort; split <;> rfl

@[simp] theorem State.portN_mapPort_self (s : State) {n : Nat} (f : Port → Port) (h : n < 8) : (s.mapPort n f).portN n = f (s.portN n) := by
  simp [State.portN, State.mapPort, h]

/-- Another one is as before. -/
theorem State.portN_mapPort_ne (s : State) {n k : Nat} (f : Port → Port) (h : k ≠ n) (hk : k < 8) : (s.mapPort n f).portN k = s.portN k := by
  unfold State.portN State.mapPort
  by_cases hn : n < 8 <;> simp [hn, hk, Ne.symm h]

/-! ## DieRec -/

@[simp] theorem State.mapDie_cur (s : State) (n : Nat) (f : DieRec → DieRec) : (s.mapDie n f).cur = s.cur := by
  unfold State.mapDie; split <;> rfl
@[simp] theorem State.mapDie_others (s : State) (n : Nat) (f : DieRec → DieRec) : (s.mapDie n f).others = s.others := by
  unfold State.mapDie; split <;> rfl
@[simp] theorem State.mapDie_mem (s : State) (n : Nat) (f : DieRec → DieRec) : (s.mapDie n f).mem = s.mem := by
  unfold State.mapDie; split <;> rfl
@[simp] theorem State.mapDie_tiles (s : State) (n : Nat) (f : DieRec → DieRec) : (s.mapDie n f).tiles = s.tiles := by
  unfold State.mapDie; split <;> rfl
@[simp] theorem State.mapDie_requests (s : State) (n : Nat) (f : DieRec → DieRec) : (s.mapDie n f).requests = s.requests := by
  unfold State.mapDie; split <;> rfl
@[simp] theorem State.mapDie_nextReq (s : State) (n : Nat) (f : DieRec → DieRec) : (s.mapDie n f).nextReq = s.nextReq := by
  unfold State.mapDie; split <;> rfl
@[simp] theorem State.mapDie_nextUid (s : State) (n : Nat) (f : DieRec → DieRec) : (s.mapDie n f).nextUid = s.nextUid := by
  unfold State.mapDie; split <;> rfl
@[simp] theorem State.mapDie_firefly (s : State) (n : Nat) (f : DieRec → DieRec) : (s.mapDie n f).firefly = s.firefly := by
  unfold State.mapDie; split <;> rfl
@[simp] theorem State.mapDie_parts (s : State) (n : Nat) (f : DieRec → DieRec) : (s.mapDie n f).parts = s.parts := by
  unfold State.mapDie; split <;> rfl
@[simp] theorem State.mapDie_cores (s : State) (n : Nat) (f : DieRec → DieRec) : (s.mapDie n f).cores = s.cores := by
  unfold State.mapDie; split <;> rfl
@[simp] theorem State.mapDie_hart (s : State) (n : Nat) (f : DieRec → DieRec) : (s.mapDie n f).hart = s.hart := by
  unfold State.mapDie; split <;> rfl
@[simp] theorem State.mapDie_units (s : State) (n : Nat) (f : DieRec → DieRec) : (s.mapDie n f).units = s.units := by
  unfold State.mapDie; split <;> rfl
@[simp] theorem State.mapDie_degraded (s : State) (n : Nat) (f : DieRec → DieRec) : (s.mapDie n f).degraded = s.degraded := by
  unfold State.mapDie; split <;> rfl
@[simp] theorem State.mapDie_fused (s : State) (n : Nat) (f : DieRec → DieRec) : (s.mapDie n f).fused = s.fused := by
  unfold State.mapDie; split <;> rfl
@[simp] theorem State.mapDie_ports (s : State) (n : Nat) (f : DieRec → DieRec) : (s.mapDie n f).ports = s.ports := by
  unfold State.mapDie; split <;> rfl
@[simp] theorem State.mapDie_window (s : State) (n : Nat) (f : DieRec → DieRec) : (s.mapDie n f).window = s.window := by
  unfold State.mapDie; split <;> rfl
@[simp] theorem State.mapDie_ownModule (s : State) (n : Nat) (f : DieRec → DieRec) : (s.mapDie n f).ownModule = s.ownModule := by
  unfold State.mapDie; split <;> rfl
@[simp] theorem State.mapDie_present (s : State) (n : Nat) (f : DieRec → DieRec) : (s.mapDie n f).present = s.present := by
  unfold State.mapDie; split <;> rfl
@[simp] theorem State.mapDie_cycle (s : State) (n : Nat) (f : DieRec → DieRec) : (s.mapDie n f).cycle = s.cycle := by
  unfold State.mapDie; split <;> rfl
@[simp] theorem State.mapDie_fresh (s : State) (n : Nat) (f : DieRec → DieRec) : (s.mapDie n f).fresh = s.fresh := by
  unfold State.mapDie; split <;> rfl
@[simp] theorem State.mapDie_issue (s : State) (n : Nat) (f : DieRec → DieRec) : (s.mapDie n f).issue = s.issue := by
  unfold State.mapDie; split <;> rfl
@[simp] theorem State.mapDie_sched (s : State) (n : Nat) (f : DieRec → DieRec) : (s.mapDie n f).sched = s.sched := by
  unfold State.mapDie; split <;> rfl

@[simp] theorem State.dieRec_mapDie_self (s : State) {n : Nat} (f : DieRec → DieRec) (h : n < 8) : (s.mapDie n f).dieRec n = f (s.dieRec n) := by
  simp [State.dieRec, State.mapDie, h]

/-- Another one is as before. -/
theorem State.dieRec_mapDie_ne (s : State) {n k : Nat} (f : DieRec → DieRec) (h : k ≠ n) (hk : k < 8) : (s.mapDie n f).dieRec k = s.dieRec k := by
  unfold State.dieRec State.mapDie
  by_cases hn : n < 8 <;> simp [hn, hk, Ne.symm h]

/-! ## Partition -/


@[simp] theorem State.partN_mapPart_self (s : State) {n : Nat} (f : Partition → Partition) (h : n < 8) : (s.mapPart n f).partN n = f (s.partN n) := by
  simp [State.partN, State.mapPart, h]

/-- Another one is as before. -/
theorem State.partN_mapPart_ne (s : State) {n k : Nat} (f : Partition → Partition) (h : k ≠ n) (hk : k < 8) : (s.mapPart n f).partN k = s.partN k := by
  unfold State.partN State.mapPart
  by_cases hn : n < 8 <;> simp [hn, hk, Ne.symm h]

/-! ## Tiles and contexts -/

@[simp] theorem State.tileRec_setTile_self {s : State} (h : Sparse.wf TileRec.reset s.tiles = true) (t : Nat) (r : TileRec) : (s.setTile t r).tileRec t = r := by
  simp [State.tileRec, State.setTile, Sparse.get_set _ h]

theorem State.tileRec_setTile_ne {s : State} (h : Sparse.wf TileRec.reset s.tiles = true) {t u : Nat} (r : TileRec) (hu : u ≠ t) :
    (s.setTile t r).tileRec u = s.tileRec u := by
  simp [State.tileRec, State.setTile, Sparse.get_set _ h, hu]

@[simp] theorem State.mapCtx_ctxs (s : State) (uid : Nat) (f : Ctx → Ctx) :
    (s.mapCtx uid f).ctxs = s.ctxs.map (fun c => if c.uid = uid then f c else c) := rfl

@[simp] theorem State.mapCtx_mem (s : State) (uid : Nat) (f : Ctx → Ctx) : (s.mapCtx uid f).mem = s.mem := rfl
@[simp] theorem State.mapCtx_parts (s : State) (uid : Nat) (f : Ctx → Ctx) : (s.mapCtx uid f).parts = s.parts := rfl
@[simp] theorem State.mapCtx_requests (s : State) (uid : Nat) (f : Ctx → Ctx) : (s.mapCtx uid f).requests = s.requests := rfl

/-- The context of a number after it has been replaced by one of the same number. -/
theorem State.ctxOf_mapCtx_self {s : State} {uid : Nat} {f : Ctx → Ctx} (hf : ∀ c, (f c).uid = c.uid) : (s.mapCtx uid f).ctxOf uid = (s.ctxOf uid).map f := by
  unfold State.ctxOf
  rw [State.mapCtx_ctxs]
  induction s.ctxs with
  | nil => rfl
  | cons c l ih =>
    simp only [List.map_cons, List.find?_cons]
    by_cases h : c.uid = uid
    · simp [h, hf]
    · rw [if_neg h, beq_eq_false_iff_ne.mpr h]
      exact ih

/-- The model already looks at the context in view. -/
@[simp] theorem State.focus_cur (s : State) : s.focus s.cur.uid = s := by simp [State.focus]

end Sys2Proof.Machine
end

