-- ==== Sys2Proof/Safety.lean ====
section
/-!
DEFINITION. What a safe step is: one that ends in a next state. Tile faults are traps of the machine itself and lead to a
next state (06_tile R140 to R143); a step that ends otherwise finds no agent that could move (R16, R19, R24, R25).
-/
namespace Sys2Proof
open Sys2Proof.Machine

/-- The step of a state ends in a next state. -/
def Safe (s : State) : Prop := ∃ t, step s = .next t

/-- n steps from a state all end in a next state. -/
def SafeFor : Nat → State → Prop
  | 0, _ => True
  | n + 1, s => ∃ t, step s = .next t ∧ SafeFor n t

end Sys2Proof
end

