-- ==== Sys2Proof/Tests/Slice0.lean ====
section
/-!
SUPPORT. Tests: terms that WellFormed refuses, words written out from the spec's encoding, a few steps with results worked out from the
rules, and for each statement a state and operands that meet its hypotheses.
-/
namespace Sys2Proof.Tests
open Sys2Proof Sys2Proof.Machine Sys2Proof.Certificates

-- One theorem at a time: the tests together would otherwise hold a thread each.
set_option Elab.async false

/-! ## Small states -/

/-- L 1, STALL 5, O 0, PRED 3, PSNS 1 (R228). -/
def someHead : Head := { last := true, stall := 5, old := false, pred := 3, psns := true }

/-- The head of a prefix (R230, R243). -/
def prefixHead : Head := { last := false, stall := 0, old := false, pred := 0, psns := false }

/-- A syllable alone in its bundle, without a guard. -/
def plain : Head := { last := true, stall := 0, old := false, pred := 0, psns := false }

/-- Every lane of a vector register holding one word. -/
def lanesOf (w : Nat) : VReg := { bits := BitVec.ofNat 4096 (w * ((2 ^ 4096 - 1) / (2 ^ 32 - 1))), poison := 0 }

/-- The scalars of a small context: s5 is 7, s6 is -2, s7 is poisoned; d5 points to the task's own allocation 2, d6 to the weight buffer, d7 to the
allocation but poisoned, d8 to global address 0x80 on die 0, d9 to allocation 2 of the task on tile 8 of the swarm, d10 to module 3; s22 holds P = 2 and
stride 8, s24 is 64, s26 is 8, s28 is 3. -/
def someScalar : Nat → SReg
  | 5 => ⟨7, false⟩ | 6 => ⟨0xFFFFFFFE, false⟩ | 7 => ⟨9, true⟩
  | 10 => ⟨0, false⟩ | 11 => ⟨0x1FE20000, false⟩
  | 12 => ⟨0, false⟩ | 13 => ⟨0x30000000, false⟩
  | 14 => ⟨0, true⟩ | 15 => ⟨0x1FE20000, false⟩
  | 16 => ⟨0x80, false⟩
  | 18 => ⟨0, false⟩ | 19 => ⟨0x20220000, false⟩
  | 20 => ⟨0, false⟩ | 21 => ⟨0x50300000, false⟩
  | 22 => ⟨0x00080002, false⟩ | 24 => ⟨64, false⟩ | 26 => ⟨8, false⟩ | 28 => ⟨3, false⟩
  | _ => ⟨0, false⟩

/-- A context that issues on tile 0 with those scalars: v8 and v40 hold 1.0 of T32 in every lane, v10 NaR, v11 a poisoned lane 0, v12 the number 3. -/
def someCtx : Ctx :=
  { Ctx.empty with
    uid := 1
    run := .issuing
    regs := 64
    array := true
    allocs := [⟨2, 0, 1200, 0⟩]
    sregs := Vector.ofFn (fun i => someScalar i.val)
    vregs := ((((Ctx.empty.vregs.set 8 (lanesOf 0x40000000)).set 40 (lanesOf 0x40000000)).set 10 (lanesOf 0x80000000)).set 11
      { bits := 0, poison := 1 }).set 12 (lanesOf 3) }

/-- A state that looks at that context, whose bundle is being tried. -/
def s0 : State := { State.reset with cur := someCtx }

/-- The same with the bundle's faults judged. -/
def s1 : State := { s0 with issue := { Issue.none with passed := true } }

/-- Whether a syllable issues with its effect (R140, R230, R277). -/
def issues (s : State) (i : Instr) : Bool := (s.issue.passed || s.faults i [] == []) && s.acts i

/-- The syllables of a list issue. -/
theorem issues_of {s : State} {l : List Instr} (h : l.all (issues s) = true) : ∀ i ∈ l, Issues s i [] := by
  intro i hi
  have := List.all_eq_true.1 h i hi
  simp only [issues, Bool.and_eq_true, Bool.or_eq_true, beq_iff_eq] at this
  exact this

/-- An answer that succeeds. -/
theorem ok_of {ε α : Type} {e : Except ε α} {a : α} (h : e.toOption = some a) : e = .ok a := by
  cases e <;> simp_all [Except.toOption]

/-- A syllable with checks of its own issues. -/
theorem issues_own {s : State} {i : Instr} {own : List Trap} (h : ((s.issue.passed || s.faults i own == []) && s.acts i) = true) : Issues s i own := by
  simpa only [Issues, Bool.and_eq_true, Bool.or_eq_true, beq_iff_eq] using h


/-! ## Ill-formed terms, one for each check -/

/-- PRED 0 with PSNS 1, which R230 reserves. -/
def badGuard : Head := { last := true, stall := 0, old := false, pred := 0, psns := true }
/-- O set. -/
def oldHead : Head := { last := true, stall := 0, old := true, pred := 0, psns := false }

theorem smoke_heads_ill_formed :
    ([.add badGuard 3 5 6, .li oldHead 3 1, .br oldHead 1, .drain oldHead, .qclr oldHead 1 0, .popW oldHead 3 0 0,
      .ext plain 1, .ext { prefixHead with pred := 2 } 1, .ext { prefixHead with old := true } 1, .rep { prefixHead with pred := 1 } 1 false 0].map
        Instr.wf).all (· == false) = true := by decide +kernel

theorem smoke_scalar_fields_ill_formed :
    ([.shli plain 3 5 32, .shri plain 3 5 32, .sari plain 3 5 32, .lih plain 3 0x10000, .bext plain 3 5 1 31, .bins plain 3 5 16 16, .cmp plain 1 5 6 10,
      .cmpi plain 1 5 10 0, .tagd plain 2 3 5 7, .tagx plain 2 5 7, .brc plain 5 6 10 1, .loop plain 0 1, .loop plain 1 0, .loopr plain 5 0xFFFFFF,
      .spawn plain 5 6, .waitge plain 5 0 6 5, .waiteq plain 5 0 6 5].map Instr.wf).all (· == false) = true := by decide +kernel

theorem smoke_vector_fields_ill_formed :
    ([.vadd plain 0 3 4 8 9 false false, .vfma plain 0 12 4 8 9 10 false false false, .vsqrt plain 0 3 4 8 false, .vcmp plain 0 1 1 8 9 false false 6,
      .vcmp plain 0 3 1 8 9 false false 0, .vcvt plain 0 1 4 8 0 false 0 false false 7 0, .vcvt plain 0 1 4 8 9 true 0 false false 3 0,
      .vcvt plain 0 1 4 8 9 false 0 false false 0 0, .vcvt plain 0 1 4 8 0 false 1 false false 1 0, .vcvt plain 0 1 4 8 0 false 2 false false 5 0,
      .vcvt plain 0 3 4 8 0 false 1 false false 0 0, .vcvt plain 0 12 4 8 0 false 0 false false 1 0, .vqnt plain 0 3 4 8 9 1 false 0,
      .vqnt plain 0 1 4 8 9 4 false 0, .vqnt plain 0 4 4 8 4 1 false 0, .viadd plain 0 1 4 8 9 false false, .vicmp plain 0 0 1 8 9 false false 10,
      .vbcast plain 0 2 4 5, .viota plain 0 5 4, .qmac plain 0 3 1 8 9 false false, .qrnd plain 0 12 4 1, .jget plain 0 3 4 8 false false 0].map
        Instr.wf).all (· == false) = true := by decide +kernel

theorem smoke_matrix_and_memory_fields_ill_formed :
    ([.mpush plain 3 8, .mpush plain 1 9, .mdrain plain 1 12 4 0, .mdrain plain 3 1 4 0, .mclr plain 1 true, .mspill plain 1 5 true, .mfill plain 1 5 true,
      .ld plain 5 0 2 true 4 false, .ld plain 5 0 2 false 32 false, .ld plain 5 0 2 false 4 true, .ld plain 5 0 3 false 5 false, .st plain 5 0 3 5,
      .st plain 5 0 2 32, .ldv plain 5 0 0 4 true, .ldvs plain 5 0 6 3 4 false, .stvs plain 5 0 6 3 4, .lda plain 5 0 1 1 4 false, .lda plain 5 0 6 2 4 false,
      .stl plain 5 0 1 1 4, .stl plain 5 0 6 2 4, .amoAdd plain 5 0 4 6 true, .amoXchg plain 5 0 4 7 false true, .amoPadd plain 5 0 4 6 3 false,
      .amocas plain 5 0 4 6 8 true, .amocasD plain 5 0 4 6 9 false, .fence plain 6].map Instr.wf).all (· == false) = true := by decide +kernel

theorem smoke_engine_and_slot_fields_ill_formed :
    ([.rwr plain 0 0 5 6 7 8 false 9, .rwg plain 0 0 5 6 7 8 false 9, .qfence plain 0 1, .popW plain 3 0 3, .popW plain 3 0 1, .popF plain 32 0 0 1,
      .pack plain 0 4 8 9 0, .pack plain 5 4 8 9 8, .unpk plain 12 4 8 0 0 false 12, .unpk plain 1 4 8 9 0 false 5, .chk plain 0 32, .getc plain 3 0x12,
      .setc plain 3 0x12].map Instr.wf).all (· == false) = true := by decide +kernel


/-! ## Words written out from the encodings (R228 to R245; R77) decode to the syllable they stand for -/

/-- Words of class S, written out from the bit ranges of R228 and R235 to R245. -/
def scalarWords : List (Nat × Instr) := [
  (0x8A007B34E0000000, .add someHead 22 13 7),
  (0x8A017B34E0000000, .sub someHead 22 13 7),
  (0x8A027B34E0000000, .mul someHead 22 13 7),
  (0x8A037B34E0000000, .mulh someHead 22 13 7),
  (0x8A047B34E0000000, .mulhu someHead 22 13 7),
  (0x8A057B34E0000000, .div someHead 22 13 7),
  (0x8A067B34E0000000, .divu someHead 22 13 7),
  (0x8A077B34E0000000, .rem someHead 22 13 7),
  (0x8A087B34E0000000, .remu someHead 22 13 7),
  (0x8A097B34E0000000, .and someHead 22 13 7),
  (0x8A0A7B34E0000000, .or someHead 22 13 7),
  (0x8A0B7B34E0000000, .xor someHead 22 13 7),
  (0x8A0C7B34E0000000, .andn someHead 22 13 7),
  (0x8A0D7B34E0000000, .shl someHead 22 13 7),
  (0x8A0E7B34E0000000, .shr someHead 22 13 7),
  (0x8A0F7B34E0000000, .sar someHead 22 13 7),
  (0x8A107B34E0000000, .rot someHead 22 13 7),
  (0x8A117B34E0000000, .min someHead 22 13 7),
  (0x8A127B34E0000000, .max someHead 22 13 7),
  (0x8A137B34E0000000, .minu someHead 22 13 7),
  (0x8A147B34E0000000, .maxu someHead 22 13 7),
  (0x8A187B3400000000, .clz someHead 22 13),
  (0x8A197B3400000000, .ctz someHead 22 13),
  (0x8A1A7B3400000000, .popc someHead 22 13),
  (0x8A1B7B3400000000, .mov someHead 22 13),
  (0x8A207B342AF37800, .addi someHead 22 13 703710),
  (0x8A217B342AF37800, .andi someHead 22 13 703710),
  (0x8A227B342AF37800, .ori someHead 22 13 703710),
  (0x8A237B342AF37800, .xori someHead 22 13 703710),
  (0x8A247B3400007400, .shli someHead 22 13 29),
  (0x8A257B3400000C00, .shri someHead 22 13 3),
  (0x8A267B3400007C00, .sari someHead 22 13 31),
  (0x8A277B002AF37800, .li someHead 22 703710),
  (0x8A287B0002FBBC00, .lih someHead 22 48879),
  (0x8A2C7B352E000000, .bext someHead 22 13 9 14),
  (0x8A2D7B352E000000, .bins someHead 22 13 9 14),
  (0x8A2E7B34F4000000, .sel someHead 22 13 7 5),
  (0x8A3076D3A0000000, .cmp someHead 3 13 7 4),
  (0x8A3176D40ABCDE00, .cmpi someHead 3 13 4 703710),
  (0x8A387B6D00000000, .addd someHead 11 6 13),
  (0x8A397B6D00000000, .subd someHead 11 6 13),
  (0x8A3A7B60ABCDE000, .adddi someHead 11 6 703710),
  (0x8A3B7B6380000000, .shld someHead 11 6 7),
  (0x8A3C7B6920000000, .tagd someHead 11 6 18 2),
  (0x8A3C706928000000, .tagx someHead 6 18 2),
  (0x8A40779000000000, .pand someHead 3 6 2),
  (0x8A41779000000000, .por someHead 3 6 2),
  (0x8A42779000000000, .pxor someHead 3 6 2),
  (0x8A43778000000000, .pnot someHead 3 6),
  (0x8A44778000000000, .pmov someHead 3 6),
  (0x8A45778000000000, .pany someHead 3 6),
  (0x8A46778000000000, .pall someHead 3 6),
  (0x8A4776B400000000, .pset someHead 3 90),
  (0x8A487B6000000000, .pcnt someHead 22 6)]

theorem test_decode_scalar_words : ∀ x ∈ scalarWords, decodeTableWord 64 x.1 = some x.2 := by decide

/-- Words of class B, written out from the bit ranges of R228 and R235 to R245. -/
def branchWords : List (Nat × Instr) := [
  (0x9A00700000000000, .nopb someHead),
  (0x9A01700002ABCDE1, .br someHead 44813793),
  (0x9A02769D02ABCDE1, .brc someHead 13 7 4 44813793),
  (0x9A03768002ABCDE1, .brz someHead 13 44813793),
  (0x9A04760000000000, .jmp someHead 6),
  (0x9A05700002ABCDE1, .call someHead 44813793),
  (0x9A06760000000000, .callr someHead 6),
  (0x9A07700000000000, .ret someHead),
  (0x9A08712345001234, .loop someHead 74565 4660),
  (0x9A09768000001234, .loopr someHead 13 4660),
  (0x9A0A700000000000, .lbrk someHead),
  (0x9A1070000000BEEF, .trap someHead 48879),
  (0x9A11700000001234, .sysc someHead 4660),
  (0x9A12700000000000, .eret someHead),
  (0x9AFF700000000000, .halt someHead),
  (0x9A18700000000000, .exit someHead),
  (0x9A19700000000125, .exits someHead true 37),
  (0x9A1A7B3000000000, .spawn someHead 22 6),
  (0x9A1B7000000000B3, .bar someHead 179)]

theorem test_decode_branch_words : ∀ x ∈ branchWords, decodeTableWord 64 x.1 = some x.2 := by decide

/-- Words of class V, written out from the bit ranges of R228 and R235 to R245. -/
def vectorWords : List (Nat × Instr) := [
  (0xAA0075A8956CC080, .vadd someHead 90 8 37 22 51 true false),
  (0xAA0175A8956CC080, .vsub someHead 90 8 37 22 51 true false),
  (0xAA0275A8956CC080, .vmul someHead 90 8 37 22 51 true false),
  (0xAA0675A8956CC080, .vdiv someHead 90 8 37 22 51 true false),
  (0xAA0375A8956CCCA0, .vfma someHead 90 8 37 22 51 12 true false true),
  (0xAA0475A8956CCCA0, .vfms someHead 90 8 37 22 51 12 true false true),
  (0xAA0575A8956CCCA0, .vfnma someHead 90 8 37 22 51 12 true false true),
  (0xAA0875A895600080, .vsqrt someHead 90 8 37 22 true),
  (0xAA0975A895600080, .vrsqrt someHead 90 8 37 22 true),
  (0xAA0A75A895600080, .vrcp someHead 90 8 37 22 true),
  (0xAA0B75A895600080, .vexp someHead 90 8 37 22 true),
  (0xAA0C75A895600080, .vexp2 someHead 90 8 37 22 true),
  (0xAA0D75A895600080, .vlog someHead 90 8 37 22 true),
  (0xAA0E75A895600080, .vlog2 someHead 90 8 37 22 true),
  (0xAA0F75A895600080, .vsin someHead 90 8 37 22 true),
  (0xAA1075A895600080, .vcos someHead 90 8 37 22 true),
  (0xAA1175A895600080, .vtanh someHead 90 8 37 22 true),
  (0xAA1275A895600080, .vsigm someHead 90 8 37 22 true),
  (0xAA1475A8956CC080, .vmin someHead 90 8 37 22 51 true false),
  (0xAA1575A8956CC080, .vmax someHead 90 8 37 22 51 true false),
  (0xAA1675A895600080, .vabs someHead 90 8 37 22 true),
  (0xAA1775A895600080, .vneg someHead 90 8 37 22 true),
  (0xAA1B75A895600080, .vround someHead 90 8 37 22 true),
  (0xAA1A75A8956CCCA0, .vclamp someHead 90 8 37 22 51 12 true false true),
  (0xAA1875A80D6CC044, .vcmp someHead 90 8 3 22 51 false true 4),
  (0xAA1975A8956CC085, .vsel someHead 90 8 37 22 51 true false 5),
  (0xAA2075A8956B2582, .vcvt someHead 90 8 37 22 44 true 5 true false 0 2),
  (0xAA2175A8956B0982, .vqnt someHead 90 8 37 22 44 9 true 2),
  (0xAA2275A8956B0082, .vscl someHead 90 8 37 22 44 true false 2),
  (0xAA2375A895600080, .vred someHead 90 8 37 22 true),
  (0xAA2475A894531300, .vmred someHead 90 8 37 5 12 19),
  (0xAA2575A8956CD380, .vmscl someHead 90 8 37 22 51 19 true false),
  (0xAA4075A8956CC080, .viadd someHead 90 8 37 22 51 true false),
  (0xAA4175A8956CC080, .visub someHead 90 8 37 22 51 true false),
  (0xAA4275A8956CC080, .vimul someHead 90 8 37 22 51 true false),
  (0xAA4375A8956CC080, .vimin someHead 90 8 37 22 51 true false),
  (0xAA4475A8956CC080, .vimax someHead 90 8 37 22 51 true false),
  (0xAA4575A8956CC080, .vand someHead 90 8 37 22 51 true false),
  (0xAA4675A8956CC080, .vor someHead 90 8 37 22 51 true false),
  (0xAA4775A8956CC080, .vxor someHead 90 8 37 22 51 true false),
  (0xAA4875A895600080, .vnot someHead 90 8 37 22 true),
  (0xAA4975A8956CC080, .vshl someHead 90 8 37 22 51 true false),
  (0xAA4A75A8956CC080, .vshr someHead 90 8 37 22 51 true false),
  (0xAA4B75A8956CC080, .vsar someHead 90 8 37 22 51 true false),
  (0xAA4C75A80D6CC084, .vicmp someHead 90 8 3 22 51 true false 4),
  (0xAA4D75A0956CC080, .vperm someHead 90 37 22 51 true false),
  (0xAA4E75A495100000, .vbcast someHead 90 4 37 17),
  (0xAA4F75A894000000, .viota someHead 90 8 37),
  (0xAA6075A008000000, .qclr someHead 90 2),
  (0xAA6175A8096CC080, .qmac someHead 90 8 2 22 51 true false),
  (0xAA6275A8096CC080, .qmsb someHead 90 8 2 22 51 true false),
  (0xAA6375A809600080, .qadd someHead 90 8 2 22 true),
  (0xAA6475A004200000, .qaddq someHead 90 1 2),
  (0xAA6575A894200000, .qrnd someHead 90 8 37 2),
  (0xAA6675A008000000, .qneg someHead 90 2),
  (0xAA6775A094200001, .qst someHead 90 37 2 true),
  (0xAA6875A004200000, .qmov someHead 90 1 2),
  (0xAA7075A0956CC080, .jseed someHead 90 37 22 51 true false),
  (0xAA7175A895600086, .jget someHead 90 8 37 22 true true 2),
  (0xAA7275A095600082, .jset someHead 90 37 22 true 2),
  (0xAA7375A895674080, .jscale someHead 90 8 37 22 29 true false)]

theorem test_decode_vector_words : ∀ x ∈ vectorWords, decodeTableWord 64 x.1 = some x.2 := by decide

/-- Words of class M, written out from the bit ranges of R228 and R235 to R245. -/
def matrixWords : List (Nat × Instr) := [
  (0xBA00710058000000, .mpush someHead 16 22),
  (0xBA01700000000000, .mshift someHead),
  (0xBA027008000168C0, .macc someHead 8 1443),
  (0xBA03710496A00000, .mdrain someHead 16 4 37 21),
  (0xBA04700002A00000, .mclr someHead 21 false),
  (0xBA05700002AC0000, .mspill someHead 21 6 false),
  (0xBA067000000C0020, .mfill someHead 0 6 true),
  (0xBA0770006C000000, .mstat someHead 27)]

theorem test_decode_matrix_words : ∀ x ∈ matrixWords, decodeTableWord 64 x.1 = some x.2 := by decide

/-- Words of class L, written out from the bit ranges of R228 and R235 to R245. -/
def accessWords : List (Nat × Instr) := [
  (0xCA1076FFF4C87200, .waitge someHead 6 16774344 3 18),
  (0xCA1176FFF4C87200, .waiteq someHead 6 16774344 3 18),
  (0xCA0076FFF4C80C68, .ld someHead 6 16774344 1 true 26 false),
  (0xCA0176FFF4C81878, .st someHead 6 16774344 3 30),
  (0xCA0276FFF4C85A0E, .ldv someHead 6 16774344 90 3 true),
  (0xCA0376FFF4C85A68, .stv someHead 6 16774344 90 26),
  (0xCA0476FFF4C8BAD0, .ldvs someHead 6 16774344 23 1 26 false),
  (0xCA0576FFF4C8BAD0, .stvs someHead 6 16774344 23 1 26),
  (0xCA0676FFF4C85A08, .ldq someHead 6 16774344 90 2),
  (0xCA0776FFF4C85A08, .stq someHead 6 16774344 90 2),
  (0xCA0876FFF4C87868, .lda someHead 6 16774344 3 3 26 false),
  (0xCA0976FFF4C8707C, .stl someHead 6 16774344 3 2 31),
  (0xCA0A76FFF4C8B484, .amoAdd someHead 6 16774344 22 18 false),
  (0xCA0A76FFF4C8B488, .amoAnd someHead 6 16774344 22 18 false),
  (0xCA0A76FFF4C8B48C, .amoOr someHead 6 16774344 22 18 false),
  (0xCA0A76FFF4C8B490, .amoXor someHead 6 16774344 22 18 false),
  (0xCA0A76FFF4C8B494, .amoMin someHead 6 16774344 22 18 false),
  (0xCA0A76FFF4C8B498, .amoMax someHead 6 16774344 22 18 false),
  (0xCA0A76FFF4C8B49C, .amoMaxu someHead 6 16774344 22 18 false),
  (0xCA0A76FFF4C8B4B0, .amoMinu someHead 6 16774344 22 18 false),
  (0xCA0A76FFF4C8B4A1, .amoXchg someHead 6 16774344 22 18 false true),
  (0xCA0A76FFF4C8002C, .amoQadd someHead 6 16774344 0),
  (0xCA0B76FFF4C81C96, .amoPadd someHead 6 16774344 3 18 5 true),
  (0xCA0C76FFF4C8B3A8, .amocas someHead 6 16774344 22 14 20 false),
  (0xCA0D76FFF4C8B3A8, .amocasD someHead 6 16774344 22 14 20 false),
  (0xCA18700000006000, .fence someHead 3),
  (0xCA19700000000000, .drain someHead),
  (0xCA1A76FFF4C80000, .pref someHead 6 16774344)]

theorem test_decode_access_words : ∀ x ∈ accessWords, decodeTableWord 64 x.1 = some x.2 := by decide

/-- Words of class E, written out from the bit ranges of R228 and R235 to R245. -/
def engineWords : List (Nat × Instr) := [
  (0xDA007AAF26660000, .cpy someHead 2 2748 9 9 19),
  (0xDA017AAF25B47600, .gth someHead 2 2748 9 6 52 14 3),
  (0xDA027AAF25B47600, .sct someHead 2 2748 9 6 52 14 3),
  (0xDA037AAF296E0000, .wld someHead 2 2748 10 11 14),
  (0xDA047AAF25679700, .rwr someHead 2 2748 9 5 19 12 true 7),
  (0xDA057AAF25678000, .rwg someHead 2 2748 9 5 19 12 false 0),
  (0xDA067AAF16980000, .rrd someHead 2 2748 5 2 19),
  (0xDA077AAF25678190, .collGrp someHead 2 2748 9 5 19 12 25),
  (0xDA077AAF25678390, .collMod someHead 2 2748 9 5 19 12 25),
  (0xDA077AAF25678590, .collLossy someHead 2 2748 9 5 19 12 25),
  (0xDA0872AF34000000, .qfence someHead 2748 13),
  (0xDA10700000000000, .eclose someHead),
  (0xDA11700029C00000, .ewait someHead 167),
  (0xDA1278002C000000, .estat someHead 2 22)]

theorem test_decode_engine_words : ∀ x ∈ engineWords, decodeTableWord 64 x.1 = some x.2 := by decide

/-- Words of class X, written out from the bit ranges of R228 and R235 to R245. -/
def exchangeWords : List (Nat × Instr) := [
  (0xEA0A700094000000, .ppack someHead 37),
  (0xEA0B700001600000, .punpk someHead 22),
  (0xEA007000D4002800, .popW someHead 53 2 2),
  (0xEA00700054002281, .popF someHead 21 2 0 5),
  (0xEA017009956CC005, .pack someHead 9 37 22 51 5),
  (0xEA027005956B2019, .unpk someHead 5 37 22 44 2 true 9),
  (0xEA0375A09560000E, .xlg someHead 90 37 22 true 6),
  (0xEA0475A001600000, .chk someHead 90 22),
  (0xEA0575A095600000, .movv someHead 90 37 22),
  (0xEA0670006D600065, .movs someHead 27 22 101),
  (0xEA0770006C000011, .getc someHead 27 17),
  (0xEA0870000110000E, .setc someHead 17 14),
  (0xEA0970006C000A75, .feat someHead 27 2677)]

theorem test_decode_exchange_words : ∀ x ∈ exchangeWords, decodeTableWord 64 x.1 = some x.2 := by decide

/-- Words of class P, written out from the bit ranges of R228 and R235 to R245. -/
def prefixesWords : List (Nat × Instr) := [
  (0x70000A6ABCDEF100, .rep prefixHead 41 true 180150001),
  (0x70010DEADBEEF000, .ext prefixHead 3735928559)]

theorem test_decode_prefixes_words : ∀ x ∈ prefixesWords, decodeTableWord 64 x.1 = some x.2 := by decide


/-- DLAUNCH with rd 11 and rs1 5, DEVQ with rd 10 and rs1 0 (R77: opcode 0x0B, funct3 0 and 1), and the manual's two examples. -/
theorem decode_core_words : decodeTableWord 32 0x0002_858B = some (.dlaunch 11 5) ∧ decodeTableWord 32 0x0000_150B = some (.devq 10 0) ∧
    decodeTableWord 32 0x0005_850B = some (.dlaunch 10 11) ∧ decodeTableWord 32 0x0006_150B = some (.devq 10 12) := by decide +kernel

/-- Words that the manual's examples write out (R295, R305, R317, R343, R350, R356). -/
theorem decode_example_words :
    [decodeTableWord 64 0xA018_00F5_0C73_4002, decodeTableWord 64 0xA021_0FF9_5047_8102, decodeTableWord 64 0xC000_0600_0000_1006, decodeTableWord 64 0xD004_0400_211D_2000,
      decodeTableWord 64 0xE000_0000_3000_1101, decodeTableWord 64 0xE007_0000_2400_0004] =
    [some (.vcmp plain 0x0F 5 3 7 13 false false 2), some (.vqnt plain 0xFF 9 20 4 30 1 false 2), some (.ld plain 6 0 2 false 1 true),
      some (.rwr plain 1 0 8 4 14 9 false 0), some (.popF plain 12 1 0 2), some (.getc plain 9 4)] := by decide +kernel

/-- A well-formed syllable, and the decoder gives back what the encoder writes. -/
theorem meets_DecodeOfEncodeIsTheSyllable :
    isSyllable (.vfma someHead 0xFF 11 63 62 61 60 true false true) = true ∧ (Instr.vfma someHead 0xFF 11 63 62 61 60 true false true).wf = true := by decide +kernel

/-! ## Hypotheses of the statements about scalars are met -/

theorem meets_ScalarForms :
    (∀ i ∈ [.add plain 3 5 6, .sub plain 3 5 6, .mul plain 3 5 6, .mulh plain 3 5 6, .mulhu plain 3 5 6, .div plain 3 5 6, .divu plain 3 5 6,
      .rem plain 3 5 6, .remu plain 3 5 6, .and plain 3 5 6, .or plain 3 5 6, .xor plain 3 5 6, .andn plain 3 5 6, .shl plain 3 5 6, .shr plain 3 5 6,
      .sar plain 3 5 6, .rot plain 3 5 6, .min plain 3 5 6, .max plain 3 5 6, .minu plain 3 5 6, .maxu plain 0 5 6, .clz plain 3 0, .ctz plain 3 0,
      .popc plain 3 5, .mov plain 3 7, .addi plain 3 5 9, .andi plain 3 5 9, .ori plain 3 5 9, .xori plain 3 5 9, .shli plain 3 5 31, .shri plain 3 5 31,
      .sari plain 3 6 31, .li plain 3 9, .lih plain 3 0xFFFF, .bext plain 3 5 0 31, .bins plain 3 5 0 31, .sel plain 3 5 6 1], Issues s0 i []) ∧
    ((s0.cur.s 0).toNat < 2 ^ (32 - 32) ∧ (s0.cur.s 6).toNat < 2 ^ (32 - 0) ∧ 2 ^ (31 - 0) ≤ (s0.cur.s 6).toNat) ∧
    ((s0.cur.s 0).toNat % 2 ^ 32 = 0 ∧ (s0.cur.s 5).toNat % 2 ^ 0 = 0 ∧ (s0.cur.s 5).getLsbD 0 = true) ∧
    (∀ k, k < 32 → (7 : Word).getLsbD k = if (0 : BitVec 5).toNat ≤ k ∧ k < (0 : BitVec 5).toNat + (31 : BitVec 5).toNat + 1 then (s0.cur.s 5).getLsbD (k - (0 : BitVec 5).toNat)
      else (s0.cur.s 3).getLsbD k) :=
  ⟨issues_of (by decide), by decide, by decide, by decide⟩

theorem meets_ComparesAndPredicateForms :
    (∀ i ∈ [.cmp plain 2 5 6 9, .cmpi plain 2 5 0 3, .cmp plain 2 5 7 0, .cmpi plain 2 7 0 3, .pand plain 2 0 1, .por plain 2 0 1, .pxor plain 0 0 1,
      .pnot plain 2 0, .pmov plain 2 0, .pany plain 2 1, .pall plain 2 0, .pset plain 2 0, .pset plain 2 0x81, .pcnt plain 3 0, .ppack plain 4, .punpk plain 4], Issues s0 i []) ∧
    s0.cur.sp 5 = false ∧ s0.cur.sp 6 = false ∧ s0.cur.sp 7 = true ∧ s0.issue.passed = false ∧ (s0.cur.v 4).poison &&& s0.cur.guardLanes plain = 0 ∧
    (∀ l, l < 128 → (BitVec.allOnes 128).getLsbD l = (if (0 : Lgm) = 0 then s0.issue.lgdef else 0).getLsbD (l / 16)) :=
  ⟨issues_of (by decide), by decide, by decide, by decide, by decide, by decide, by decide⟩

theorem meets_PairForms :
    (∀ i ∈ [.addd plain 2 3 1, .subd plain 0 3 1, .adddi plain 2 3 9, .shld plain 2 3 5, .tagd plain 2 3 5 6, .tagx plain 3 4 0], Issues s0 i []) ∧
    (∀ k, k < 64 → (0x0070_0000_FFFF_FFFE : DWord).getLsbD k = if 52 ≤ k ∧ k < 60 then (s0.cur.s 5).getLsbD (k - 52) else (0xFFFF_FFFE : DWord).getLsbD k) ∧
    s0.cur.d 3 = 0xFFFF_FFFE :=
  ⟨issues_of (by decide), by decide, by decide⟩

/-- The results of an ADD and a MUL in flight. -/
def s2 : State := s0.withCur ((s0.cur.pushS 3 1 false 1).pushS 4 2 true 3)

theorem meets_ScalarResultLands :
    List.Pairwise (fun f g => g.before f = false) s2.cur.flight ∧ (∀ f ∈ s2.cur.flight, f.seq < s2.cur.seq) ∧ s2.cur.flight.length = 2 := by decide

/-! ## Hypotheses of the statements about steps, faults and control are met -/

/-- A launch of one task whose handle is 5, with barrier group 3 complete up to generation 2. -/
def someLaunch : Launch :=
  { handle := 5, record := 0, device := 0, prio := 0, next := 1, ended := 0, faulted := 0, fault := none, core := 0, byTask := none,
    groups := [(3, 1)], gang := false, placed := true, barDone := [(3, 2, 10)] }

/-- An image with two entries. -/
def someImage : ImageRec :=
  { handle := 9, regs := 32, det := false, checked := false, scratch := 64, stack := 64, groups := 1, reserve := 0, allocs := 0,
    entries := [0x40, 0x80], dlf := false, base := 0x40, size := 0x80, data := []
    lin := [], names := [] }

/-- A running partition with that launch and image, in which a debugger may stop tasks. -/
def somePart : Partition :=
  { Partition.down 0 with
    state := 2, wings := 1, hbm := [2, 0, 0, 0, 0, 0, 0, 0], hive := [someLaunch], images := [someImage], groupTable := [(5, 3, 1)], debug := true, tiled := 1
    devices := [{ vd := 0, weight := 1, quantum := 1, priomax := 0, soft := false, balance := 0, debts := [], pending := none }] }

/-- Its task, on tile 0, about to issue the bundle at 0x40; s2 and s3 hold 0x40. -/
def taskCtx : Ctx :=
  { someCtx with
    pc := 0x40, image := 9, sregs := someCtx.sregs.set 2 { value := 0x40, poison := false }
    sys := { SysRegs.zero with swarmid := 5, grps := 0x8003, tvec := 0 } }

/-- The module while that task runs; the syllable at 0x40 is ADDI s5, s4, -12. -/
def run0 : State :=
  { State.reset with cur := taskCtx, parts := State.reset.parts.set 0 somePart }.withFetchWord 64 0x8020_0293_FFFF_D000

/-- The same with the faults of its bundle judged. -/
def run1 : State := { run0 with issue := { Issue.none with passed := true } }

theorem meets_FailedGuardHasNoEffect :
    isSyllable (.add { plain with pred := 1 } 3 5 6) = true ∧ s0.faults (.add { plain with pred := 1 } 3 5 6) [] = [] ∧
    s0.acts (.add { plain with pred := 1 } 3 5 6) = false := by decide +kernel

theorem meets_FaultsTakeTheirTraps :
    (isSyllable (.tagx plain 3 4 7) = true ∧ s0.issue.passed = false ∧ Cause.reservedField ∈ staticFaults (.tagx plain 3 4 7)) ∧
    (6 ≤ (List.replicate 6 (⟨1, 0, 8⟩ : LoopEntry)).length ∧ s0.cur.loops = []) ∧
    (∃ e l, [(⟨1, 0, 0x40⟩ : LoopEntry)] = e :: l ∧ run0.cur.pc = e.stop) := ⟨by decide +kernel, by decide +kernel, _, _, rfl, rfl⟩

/-- A task with a trap handler, and the same in its handler. -/
def trap0 : State := run0.withCur { run0.cur with sys := { run0.cur.sys with tvec := 0x80 } }
def trap1 : State :=
  trap0.withCur { trap0.cur with
    sys := { trap0.cur.sys with tpc := 0x40, tcause := 0x10F }
    parked := some { c := 20, d := 1, tpc := 0x40, pending := [], depth := 0, rep := none, arrived := none, floor := 0 } }

theorem meets_TrapsEnterTheHandlerOrEndTheTask :
    (trap0.cur.parked = none ∧ trap0.stop.cur.sys.tvec ≠ 0) ∧ run0.stop.cur.sys.tvec = 0 ∧ trap1.stop.cur.parked.isSome = true ∧
    trap1.stop.launchOf trap1.stop.cur = some someLaunch ∧ trap1.stop.cur.part < 8 := by decide +kernel

/-- The module after its supplies were cut. -/
def dark : State := { State.reset with firefly := { State.reset.firefly with power := .cut } }

/-- The core of wing 0 at S level, with a record in its event queue and the interrupt of that queue enabled (R79). -/
def intr0 : State :=
  { State.reset with
    hart := 0
    cores := State.reset.cores.set 0 { (State.reset.coreN 0).setCsr csrMie (bitsAt [16]) with online := true, priv := 1, queue := [0] } }

theorem meets_StepRunsEventsAndControlCores :
    (isEvent .windowStart = true ∧ { s0 with sched := [.event .windowStart] }.firefly.power = .on ∧ actsHalted (.sensorSample 0 0 0 0) = true ∧
      { dark with sched := [.event .windowStart] }.firefly.power ≠ .on ∧ actsHalted .windowStart = false ∧
      { dark with sched := [.tile 0] }.sched = [.tile 0]) ∧
    (let s := State.reset.withFetchWord 32 0x0002_858B
     let t : State := { s with sched := [], hart := 0 }
     s.sched = [.core 0] ∧ s.firefly.power = .on ∧ t.core.online = true ∧ t.coreAwaits = false ∧ t.interruptDue 0 = none ∧ t.core.pc.toNat % 4096 ≠ 4094 ∧
     t.fetchView.coreAddr t.core.pc false = some 0) ∧
    decodeRv (BitVec.ofNat 32 (Memory.readNat (State.reset.withFetchWord 32 0x0002_858B).mem 0 4)) = .ok (.dlaunch 11 5) ∧
    (intr0.core.online = true ∧ intr0.coreAwaits = false ∧ intr0.interruptDue 0 = some (.machine, 16)) ∧
    (0x0010_0093 : BitVec 32).extractLsb' 0 2 = 3 ∧ (decodeRv 0x0010_0093).toOption = none :=
  ⟨by decide +kernel, by decide +kernel, ok_of (by decide +kernel), by decide +kernel, by decide +kernel⟩

theorem meets_StepRunsTheSyllableAtThePc :
    let s := run0
    let i := Instr.addi plain 5 4 (-12)
    let w : DWord := 0x8020_0293_FFFF_D000
    let e0 := s.advance s.cur.earliestCycle
    let e := e0.keepCode 1
    let p := e.advance e.cur.clk
    let is := instrsOf (stepped p.cur (joOf p.cur.sys.jo) [w])
    let n := (p.openBanks (joOf p.cur.sys.jo) (p.cur.sys.lgdef.setWidth 8) is e.cur.clk).advance e.cur.clk
    let go := (n.withCur { n.cur with delay := none, wait := n.cur.wait.map (fun x => { x with
      since := n.cur.clk, jo := joOf p.cur.sys.jo, lgdef := p.cur.sys.lgdef.setWidth 8 }) }).openBundle
        (joOf p.cur.sys.jo) (p.cur.sys.lgdef.setWidth 8) 1
    let y := go.atSyl none { pos := 0, word := w, instr := i }
    let q := { y with issue := { y.issue with passed := true } }
    (s.sched = [] ∧ s.firefly.power = .on ∧ s.issuerOf s.cur.tile = some s.cur ∧ s.stopDue = false ∧ s.yieldDue = false ∧ s.cur.wait = none ∧ s.cur.delay = none) ∧
    e0.fetch e0.cur.pc = .ok [w] ∧ (e.cur.delay = none ∧ e.cur.stallOf [w] = 0 ∧
      p.delays (joOf p.cur.sys.jo) (p.cur.sys.lgdef.setWidth 8) is = 0 ∧
      n.cur.late = [] ∧ n.cur.rep = none ∧ bundleFlaws (p.cur.sys.lgdef.setWidth 8) [w] = [] ∧ decodeLoose w = some i) ∧
    ∃ t0 t, exec i y = .next t0 ∧ t0.issue.trapped = none ∧ t0.issue.stalled = false ∧
      go.floored (joOf p.cur.sys.jo) (p.cur.sys.lgdef.setWidth 8) [i] = false ∧ exec i q = .next t := by
  refine ⟨by decide +kernel, ok_of (by decide +kernel), by decide +kernel, _, _, rfl, by decide +kernel, by decide +kernel, by decide +kernel, rfl⟩

theorem meets_TransfersGoToTheirTargets :
    (∀ i ∈ [.nopb plain, .br plain 5, .brc plain 5 6 0 5, .brz plain 0 5, .brz plain 5 5, .jmp plain 1, .call plain 5, .callr plain 1, .ret plain], Issues run0 i []) ∧
    run0.cur.sp 5 = false ∧ run0.cur.sp 6 = false ∧ run0.cur.sp 0 = false ∧ run0.cur.dp 1 = false ∧ run0.cur.sp 1 = false :=
  ⟨issues_of (by decide +kernel), by decide +kernel⟩

/-- A bundle that has issued: a transfer to 0x20 is taken from within two loops, of which the outer one holds 0x20. -/
def taken : State :=
  { run0.withCur { run0.cur with loops := [⟨2, 0x30, 0x50⟩, ⟨3, 0x20, 0x60⟩] } with issue := { Issue.none with target := some 0x20 } }

theorem meets_LoopStackOfABundle :
    (taken.issue.ended = false ∧ taken.issue.target = some 0x20 ∧ taken.issue.gap = 1 ∧ taken.cur.loops = [⟨2, 0x30, 0x50⟩] ++ [⟨3, 0x20, 0x60⟩] ∧
      (∀ e ∈ [(⟨2, 0x30, 0x50⟩ : LoopEntry)], ¬(e.start.toNat ≤ (0x20 : DWord).toNat ∧ (0x20 : DWord).toNat ≤ e.stop.toNat)) ∧
      (∀ e ∈ [(⟨3, 0x20, 0x60⟩ : LoopEntry)].head?, e.start.toNat ≤ (0x20 : DWord).toNat ∧ (0x20 : DWord).toNat ≤ e.stop.toNat)) ∧
    (run0.issue.ended = false ∧ run0.issue.target = none ∧ run0.issue.gap = 1 ∧ run0.cur.rep = none ∧
      (∀ x ∈ [(⟨1, 0, 0x40⟩ : LoopEntry)], x.stop = run0.cur.pc ∧ x.count ≤ 1) ∧ (⟨2, 0, 0x48⟩ : LoopEntry).stop ≠ run0.cur.pc ∧
      (⟨2, 0x20, 0x40⟩ : LoopEntry).stop = run0.cur.pc ∧ 1 < (⟨2, 0x20, 0x40⟩ : LoopEntry).count) := by decide +kernel

theorem meets_HardwareLoops :
    (∀ i ∈ [.loop plain 1 1, .loop plain 0xFFFFF 0x7FFFFF, .loopr plain 5 1, .loopr plain 0 8], Issues run0 i []) ∧ run0.cur.sp 5 = false ∧ run0.cur.s 5 ≠ 0 ∧
    run0.cur.sp 0 = false ∧ run0.cur.s 0 = 0 ∧ run0.fetch (run0.issue.addr + BitVec.ofNat 64 (8 * run0.issue.pos) + (8 : BitVec 24).signExtend 64 * 8) = .ok [0x8020_0293_FFFF_D000] ∧ [(0x8020_0293_FFFF_D000 : DWord)] ≠ [] ∧
    (let s := run0.withCur { run0.cur with loops := [⟨2, 0x38, 0x40⟩] }
     (∀ i ∈ [.lbrk plain], Issues s i []) ∧ s.cur.loops = [⟨2, 0x38, 0x40⟩] ∧ (s.withCur { s.cur with loops := [] }).fetch 0x40 = .ok [0x8020_0293_FFFF_D000]) :=
  ⟨issues_of (by decide +kernel), by decide +kernel, by decide +kernel, by decide +kernel, by decide +kernel, ok_of (by decide +kernel), by decide,
    issues_of (by decide +kernel), by decide +kernel, ok_of (by decide +kernel)⟩

theorem meets_SystemCallsAndReturns :
    run0.finishBundle.cur.late = [] ∧ (∀ i ∈ [.trap plain 0xFFFF, .sysc plain 0], Issues run0 i []) ∧ (∀ i ∈ [.eret plain], Issues trap1 i []) ∧
    trap1.cur.parked = some { c := 20, d := 1, tpc := 0x40, pending := [], depth := 0, rep := none, arrived := none, floor := 0 } ∧ trap1.cur.flight = [] ∧ trap1.cur.unfinishedHere trap1.cur.clk = [] :=
  ⟨by decide +kernel, issues_of (by decide +kernel), issues_of (by decide +kernel), by decide +kernel⟩

theorem meets_ExitsEndTheEntryAndHaltStops :
    run0.complete = true ∧ (Issues run0 (.exit plain) (run0.exitTraps (.exit plain)) ∧ run0.settle.cur.parked = none) ∧
    (trap1.complete = true ∧ Issues trap1 (.exit plain) (trap1.exitTraps (.exit plain)) ∧ trap1.settle.cur.parked ≠ none) ∧
    (Issues run0 (.exits plain false 1) (trapIf (false && !run0.cur.array) (run0.synTrap (.exits plain false 1) .access) ++
      run0.exitTraps (.exits plain false 1)) ∧ run0.settle.cur.parked = none ∧ run0.settle.imageOf run0.settle.cur = some someImage ∧ run0.settle.launchOf run0.settle.cur = some someLaunch) ∧
    Issues run0 (.halt plain) [] := by
  refine ⟨by decide +kernel, ⟨⟨.inr (by decide +kernel), by decide +kernel⟩, by decide +kernel⟩, ⟨by decide +kernel, ⟨.inr (by decide +kernel), by decide +kernel⟩, by decide +kernel⟩, ⟨⟨.inr (by decide +kernel), by decide +kernel⟩, by decide +kernel⟩, .inr (by decide +kernel), by decide +kernel⟩

theorem meets_SpawnAndBarriers :
    (let q0 := run0.withCur { run0.cur with clk := 4000, wait := some ⟨0, 0, 0xFF, none, false, none, none, false, none, false, false⟩ }
      let r := q0.resolve (q0.cur.d 1) 0 64 64 .load false
      let v := q0.clearTsm moduleSlices
      q0.issue.passed = false ∧ q0.acts (.spawn plain 2 1) = true ∧ q0.faults (.spawn plain 2 1) [] = [] ∧ q0.cur.dp 1 = false ∧ r.2 = [] ∧
      r.1.space = 0 ∧ q0.deniedTraps (.spawn plain 2 1) moduleSlices = [] ∧ q0.released 4 moduleSlices = true ∧ q0.spawnAway r.1 = false ∧
      q0.launchRecord r.1 ≠ .denied ∧ (v.keepRun v.cur.part r.1.die r.1.off 64).launchRecord r.1 ≠ .denied ∧
      (v.keepRun v.cur.part r.1.die r.1.off 64).launchRecord r.1 ≠ .away ∧
      (v.launchOf v.cur).isSome = true) ∧
    (run0.acts (.bar plain 3) = true ∧ run0.faults (.bar plain 3) [] = [] ∧ namesGroup run0.cur.sys.grps 3 = true ∧ run0.groupScope 3 = some 1) ∧
    (run0.issue.passed = false ∧ run0.cur.arrivedAt = none ∧ run0.deniedTraps (.bar plain 3) (run0.fenceBits 1) = [] ∧
      (run0.withCur { run0.cur with clk := 40 }).released 1 (run0.fenceBits 1) = true) ∧
    (let s := run0.withCur { run0.cur with clk := 14, wait := some ⟨0, 0, 0xFF, some 2, false, none, none, false, none, false, false⟩ }
     s.cur.arrivedAt = some 2 ∧ s.launchOf s.cur = some someLaunch ∧ (3, 2, 10) ∈ someLaunch.barDone ∧ 10 + 4 ≤ s.cur.module) := by decide +kernel

/-! ## Hypotheses of the statements about vectors are met -/

/-- The first state at order 3. -/
def s3 : State := { s0 with issue := { Issue.none with jo := 3 }, cur := { someCtx with sys := { SysRegs.zero with jo := 3 } } }

theorem meets_PositArithmeticOfEveryOrder :
    (∀ s ∈ [s0, s3], ∀ i ∈ [.vadd plain 0xFF 1 4 8 12 false false, .vsub plain 0xFF 1 4 8 12 false false, .vmul plain 0xFF 5 4 8 12 false false,
      .vfma plain 0xFF 1 4 8 12 16 false false false, .vfms plain 0x01 8 4 8 12 16 false false false, .vfnma plain 0 11 4 8 12 16 false false false,
      .vdiv plain 0xFF 1 4 8 12 false false, .vdiv plain 0xFF 5 4 8 12 false false], Issues s i []) ∧
    none ∈ values s0 (.vadd plain 0xFF 1 4 10 8 false false) 0 1 5 0 ∧ number (values s0 (.vdiv plain 0xFF 1 4 8 4 false false) 1 1 5 0) 0 = 0 ∧
    number (values s0 (.vdiv plain 0xFF 1 4 8 8 false false) 1 1 5 0) 0 = 2 ^ 120 := by
  refine ⟨?_, by decide +kernel⟩
  intro s hs
  simp only [List.mem_cons, List.not_mem_nil, or_false] at hs
  rcases hs with rfl | rfl <;> exact issues_of (by decide +kernel)

theorem meets_SpecialFunctionsOfEveryOrder :
    (∀ i ∈ [.vsqrt plain 0xFF 1 4 8 false, .vrsqrt plain 0xFF 5 4 8 false, .vrcp plain 0xFF 1 4 8 false, .vexp plain 0xFF 1 4 8 false, .vexp2 plain 0xFF 1 4 8 false,
      .vlog plain 0xFF 1 4 8 false, .vlog2 plain 0xFF 1 4 8 false, .vsin plain 0xFF 1 4 8 false, .vcos plain 0xFF 1 4 8 false, .vtanh plain 0xFF 1 4 8 false,
      .vsigm plain 0xFF 1 4 8 false], Issues s3 i []) ∧
    (1 ≤ 1 ∧ 1 ≤ 1) ∧ 0 < ([2 ^ 120, 5] : List Int).getD 0 0 ∧ ([0, 5] : List Int).getD 0 0 = 0 ∧ ([-3, 5] : List Int).getD 0 0 < 0 :=
  ⟨issues_of (by decide +kernel), by decide⟩

theorem meets_CoefficientZeroOfTheFunctions :
    (2 : Fmt) ≠ 3 ∧ none ∈ [(none : Fx), some 5] ∧ 1 ≤ 3 ∧ ([-3] : List Int).getD 0 0 < 0 ∧ ([] : List Int).getD 0 0 = 0 ∧ 0 < ([7 * 2 ^ 118] : List Int).getD 0 0 ∧
    ([2 ^ 120] : List Int).getD 0 0 = 1 * 2 ^ 120 ∧ ([-(2 ^ 120)] : List Int).getD 0 0 = -1 * 2 ^ 120 ∧ ([2 ^ 117] : List Int).getD 0 0 = 2 ^ 117 ∧
    0 < (5 : Nat) := by decide

/-- An enclosure that the first working precision settles. -/
theorem settles_of {f : Nat → Encl} {n e : Nat} (h : ((f 192).round n e).isSome = true) : Settles f n e := ⟨0, by decide, h⟩

theorem meets_SpecialFunctionsRoundTheRealValue :
    ((1 : Fmt) ≠ 3 ∧ (2 ^ 121 : Int).natAbs ≤ 2 ^ 240 ∧ (3 * 2 ^ 119 : Int) ≠ 0 ∧ 0 < (3 * 2 ^ 119 : Int) ∧ (3 * 2 ^ 119 : Int) ≠ 2 ^ 120 ∧
      (∀ m : Int, (3 * 2 ^ 119 : Int) ≠ m * 2 ^ 120) ∧ (∀ m : Nat, (3 * 2 ^ 119 : Int) ≠ 2 ^ m)) ∧
    (Settles (expOf false (3 * 2 ^ 119)) 32 1 ∧ Settles (expOf true (3 * 2 ^ 119)) 32 1 ∧ Settles (logOf (3 * 2 ^ 119)) 32 1 ∧ Settles (log2Of (3 * 2 ^ 119)) 32 1) ∧
    (Settles (sinOf 0 (3 * 2 ^ 119)) 32 1 ∧ Settles (sinOf 1 (3 * 2 ^ 119)) 32 1 ∧ Settles (tanhOf (3 * 2 ^ 119)) 32 1 ∧ Settles (sigmOf (3 * 2 ^ 119)) 32 1) ∧
    (Settles (timesLn2 1 3) 32 1 ∧ Settles (overLn2 1 1 3) 32 1 ∧ fmtWidth 1 = 32 ∧ fmtEs 1 = 1) := by
  refine ⟨⟨by decide, by decide, by decide, by decide, by decide, fun m h => by omega, fun m h => ?_⟩, ?_, ?_, ?_⟩
  · have h3 : 3 ∣ (2 : Nat) ^ m := ⟨2 ^ 119, by exact_mod_cast h.symm⟩
    exact absurd (Nat.Prime.dvd_of_dvd_pow Nat.prime_three h3) (by decide)
  all_goals and_intros <;> first | exact settles_of (by decide +kernel) | rfl

theorem meets_RoundingToPosits :
    (1 < 2 ^ fmtWidth 2 ∧ decodePat 1 (fmtWidth 2) (fmtEs 2) = some 1 ∧ (2 : Fmt) ≠ 3) ∧
    (0 < 3 ∧ 0 < 2 ∧ (1 : Fmt) ≠ 3 ∧ 3 < 2 * 2 ^ ((fmtWidth 1 - 2) * 2 ^ fmtEs 1) ∧ 2 < 3 * 2 ^ ((fmtWidth 1 - 2) * 2 ^ fmtEs 1) ∧
      1 < (roundRat 3 2 (fmtWidth 1) (fmtEs 1)).pat ∧ (roundRat 3 2 (fmtWidth 1) (fmtEs 1)).pat < 2 ^ (fmtWidth 1 - 1) - 1) ∧
    (1 * 2 ^ ((fmtWidth 1 - 2) * 2 ^ fmtEs 1) ≤ 2 ^ 200 ∧ 1 * 2 ^ ((fmtWidth 1 - 2) * 2 ^ fmtEs 1) ≤ 2 ^ 120) := by
  decide +kernel

theorem meets_SelectionsSignsAndCompares :
    (∀ i ∈ [.vmin plain 0xFF 1 4 8 12 false false, .vmax plain 0xFF 1 4 8 12 false false, .vneg plain 0xFF 1 4 8 false, .vabs plain 0xFF 1 4 8 false,
      .vclamp plain 0xFF 1 4 8 10 12 false false false, .vround plain 0xFF 1 4 8 false, .vsel plain 0xFF 1 4 8 12 false false 0,
      .vcmp plain 0xFF 1 2 8 12 false false 5, .vicmp plain 0xFF 0 2 8 12 false false 9], Issues s0 i []) ∧
    ((values s0 (.vround plain 0xFF 1 4 8 false) 0 1 0 0).getD 0 none = some (2 ^ 120) ∧ 2 * ((2 ^ 120 : Int) - 1 * 2 ^ 120).natAbs ≤ 2 ^ 120) ∧
    (2 * ((2 ^ 119 : Int) - 0 * 2 ^ 120).natAbs = 2 ^ 120 ∧ (0 : Int) % 2 = 0) ∧
    (values s0 (.vround plain 0xFF 1 4 10 false) 0 1 0 0).getD 0 none = none :=
  ⟨issues_of (by decide +kernel), by decide +kernel⟩

theorem meets_ConversionsOfEveryKind :
    (∀ i ∈ [.vcvt plain 0xFF 1 4 8 0 false 5 false false 0 0, .vcvt plain 0xFF 1 4 12 16 true 12 false false 0 3, .vcvt plain 0xFF 1 4 8 0 false 0 false false 1 0,
      .vcvt plain 0xFF 5 4 8 12 true 0 false false 2 1, .vcvt plain 0xFF 1 4 8 0 false 0 false false 3 0, .vcvt plain 0xFF 5 4 8 0 false 0 false false 4 0,
      .vcvt plain 0xFF 1 4 8 12 true 1 false false 5 0, .vcvt plain 0xFF 1 4 8 0 false 0 false false 6 0], Issues s0 i []) ∧
    s0.badT6 (.vcvt plain 0xFF 1 4 8 0 false 5 false false 0 0) plain 5 = false ∧ s0.badT6 (.vcvt plain 0xFF 1 4 12 16 true 12 false false 0 3) plain 12 = false :=
  ⟨issues_of (by decide +kernel), by decide +kernel⟩

theorem meets_QuantisationAndPacking :
    (∀ i ∈ [.vqnt plain 0xFF 1 4 8 16 1 false 0, .vqnt plain 0xFF 9 4 8 16 1 false 3, .vqnt plain 0xFF 14 4 8 16 5 false 0, .pack plain 5 4 8 12 1, .pack plain 14 4 8 12 9,
      .unpk plain 1 4 8 0 0 false 5, .unpk plain 1 4 12 16 3 true 12, .unpk plain 1 4 8 0 0 false 14], Issues s0 i []) ∧
    s0.badT6 (.unpk plain 1 4 12 16 3 true 12) plain 12 = false ∧
    (2 ^ 120 ≤ (2 ^ 120 : Int).natAbs ∧ (2 ^ 120 : Int).natAbs < 2 ^ (120 + 1)) :=
  ⟨issues_of (by decide +kernel), by decide +kernel⟩

theorem meets_ScalingAndMaskedRescale :
    (∀ i ∈ [.vscl plain 0xFF 1 4 8 12 false false 3, .vmscl plain 0xFF 1 4 8 12 5 false false, .vmscl plain 0xFF 1 4 8 12 0 false false], Issues s0 i []) :=
  issues_of (by decide +kernel)

theorem meets_LaneGroupReduction :
    Issues s3 (.vred plain 0x81 1 4 8 false) [] ∧ none ∈ values s0 (.vred plain 0x81 1 4 10 false) 0 1 0 0 :=
  ⟨issues_of (l := [.vred plain 0x81 1 4 8 false]) (by decide +kernel) _ (by simp), by decide +kernel⟩

theorem meets_MaskedReductionFromMemory :
    Issues s0 (.vmred plain 0xFF 1 4 5 5 22) [] ∧ s0.reduceTraps (.vmred plain 0xFF 1 4 5 5 22) 5 5 22 = [] ∧ Unheld s0 ∧
    s0.activeLanes (.vmred plain 0xFF 1 4 5 5 22) plain ≠ 0 :=
  ⟨issues_of (l := [.vmred plain 0xFF 1 4 5 5 22]) (by decide +kernel) _ (by simp), by decide +kernel, .inr (by decide +kernel), by decide +kernel⟩

/-- The whole register file poisoned nowhere but lane 0 of v11, and v43 its shadow without the poison: the two differ in lane group 0. -/
def shadow0 : State := s0.withCur { s0.cur with sys := { s0.cur.sys with chkm := 2 } }

theorem meets_IntegerVectorForms :
    ∀ i ∈ [.viadd plain 0xFF 0 4 8 12 false false, .visub plain 0xFF 4 4 8 12 false false, .vimul plain 0xFF 8 4 8 12 false false, .vimin plain 0xFF 0 4 8 12 false false,
      .vimax plain 0xFF 0 4 8 12 false false, .vand plain 0xFF 0 4 8 12 false false, .vor plain 0xFF 0 4 8 12 false false, .vxor plain 0xFF 0 4 8 12 false false,
      .vnot plain 0xFF 8 4 8 false, .vshl plain 0xFF 0 4 8 12 false false, .vshr plain 0xFF 4 4 8 12 false false, .vsar plain 0xFF 8 4 8 12 false false,
      .vbcast plain 0xFF 8 4 7, .viota plain 0xFF 8 4], Issues s0 i [] :=
  issues_of (by decide +kernel)

theorem meets_PermutationsMovesAndShadowCheck :
    (∀ i ∈ [.vperm plain 0xFF 4 11 12 false false, .xlg plain 0xFF 4 11 false 7, .xlg plain 0x80 4 11 true 0, .movv plain 0 4 11, .movs plain 3 11 127], Issues s0 i []) ∧
    (∀ i ∈ [.chk plain 0xFF 8, .chk plain 0xFF 11], Issues shadow0 i []) ∧
    ((List.range 128).all (fun l => laneWord (shadow0.cur.v 8).bits l == laneWord (shadow0.cur.v 40).bits l &&
      (shadow0.cur.v 8).poison.getLsbD l == (shadow0.cur.v 40).poison.getLsbD l) = true) ∧
    ((shadow0.activeLanes (.chk plain 0xFF 11) plain).getLsbD 0 = true ∧ (shadow0.cur.v 11).poison.getLsbD 0 ≠ (shadow0.cur.v 43).poison.getLsbD 0) :=
  ⟨issues_of (by decide +kernel), issues_of (by decide +kernel), by decide +kernel⟩

theorem meets_JetForms :
    (∀ i ∈ [.jseed plain 0xFF 4 8 12 false false, .jget plain 0xFF 1 20 8 false false 3, .jget plain 0xFF 1 20 8 false true 3, .jset plain 0xFF 4 8 false 3,
      .jscale plain 0xFF 1 4 8 12 false false], Issues s3 i []) ∧ s3.issue.jo ≤ 3 ∧ (3 : BitVec 2).toNat ≤ s3.issue.jo ∧
    (∀ i ∈ [.jget plain 0xFF 1 20 8 false false 0, .jget plain 0xFF 1 20 8 false true 0], Issues s0 i []) ∧ (0 : BitVec 2).toNat ≤ s0.issue.jo :=
  ⟨issues_of (by decide +kernel), by decide, by decide, issues_of (by decide +kernel), by decide⟩

theorem meets_QuireSyllables :
    (∀ i ∈ [.qclr plain 0xFF 3, .qmac plain 0xFF 1 0 8 12 false false, .qmsb plain 0xFF 9 1 8 12 false false, .qadd plain 0xFF 5 2 8 false, .qneg plain 0xFF 3,
      .qmov plain 0xFF 3 0, .qaddq plain 0xFF 3 0], Issues s0 i []) ∧ Quire.zero.value ≠ quireNar ∧ Quire.poisoned.value ≠ quireNar :=
  ⟨issues_of (by decide +kernel), by decide +kernel⟩

theorem meets_QuireRoundingAndStatus :
    ∀ i ∈ [.qrnd plain 0xFF 1 4 3, .qrnd plain 0x01 11 4 0, .qst plain 0xFF 4 3 true, .qst plain 0xFF 4 3 false], Issues s0 i [] := issues_of (by decide +kernel)

theorem meets_StagingClearAndMatrixStatus :
    (7 < 8 ∧ (0x80 : Lgm) = BitVec.ofNat 8 (2 ^ 7)) ∧
    (∀ i ∈ [.mpush plain 0x80 8, .mshift plain, .mclr plain 31 false, .mclr plain 0 true, .mstat plain 3], Issues s0 i []) :=
  ⟨by decide, issues_of (by decide +kernel)⟩

/-- Weight line 2,047 is coded and its record is one that a beat refuses: method 6. -/
def coded0 : State :=
  s0.withCur { s0.cur with weights := [(2047, 0x60)], sys := { s0.cur.sys with mstat := 0x0FFF_0000_0000_0000 } }

theorem meets_BeatAccumulatesEveryProduct :
    ((s0.cur.beatWeights 1 0).map (fun x => (x.1, x.2.length)) = some (1, 32 * (1 * fmtElems 1))) ∧ (∀ i ∈ [.macc plain 1 0, .macc plain 9 2047], Issues s0 i []) ∧
    ((2047 : BitVec 11).toNat < 2048 - s0.cur.sys.mstat.toNat / 2 ^ 48 % 4096) ∧
    (coded0.issue.passed = false ∧ coded0.acts (.macc plain 1 2047) = true ∧ 2048 - coded0.cur.sys.mstat.toNat / 2 ^ 48 % 4096 ≤ (2047 : BitVec 11).toNat ∧
      6 ≤ (coded0.cur.line 2047).toNat / 16 % 16) :=
  ⟨by decide +kernel, issues_of (by decide +kernel), by decide +kernel, by decide +kernel⟩

theorem meets_DrainSpillAndFill :
    (∀ i ∈ [.mdrain plain 0x80 1 4 31, .mdrain plain 0x01 5 5 0], Issues s0 i []) ∧ (fmtWidth 1 = 32 ∧ fmtWidth 5 = 16) ∧
    (∀ all ∈ [true, false], let sp := Instr.mspill plain 0 5 all
      let ls := s0.baseLoc 5 0 .store
      s0.faults sp (s0.poisonIf sp (s0.cur.dp 5) ++ (if s0.cur.dp 5 then [] else s0.spillTraps sp 5 all .store ++
        trapIf (decide (2 < ls.space)) (s0.addrTrap sp ls.addr .access))) = [] ∧ s0.acts sp = true ∧ ls.fixed = true) ∧
    (∀ all ∈ [true, false], ∀ da ∈ [(5 : DNum), 7], let fi := Instr.mfill plain 0 da all
      s0.faults fi (if s0.cur.dp da then [] else s0.spillTraps fi da all .own) = [] ∧ s0.acts fi = true ∧ s0.cur.dp da = (da == 7)) ∧ Unheld s0 :=
  ⟨issues_of (by decide +kernel), by decide, by decide +kernel, by decide +kernel, .inr (by decide +kernel)⟩

/-- The same task in a gang with a mate on tile 8, so that d9 points to the mate's allocation. -/
def gang0 : State :=
  { s0 with
    cur := { s0.cur with gang := true, sys := { SysRegs.zero with swarmid := 5 } }
    others := [{ s0.cur with uid := 2, tile := 8, gang := true, run := .issuing, sys := { SysRegs.zero with swarmid := 5, taskid := 1 } }]
    parts := s0.parts.set 0 { somePart with hive := [{ someLaunch with gang := true }] } }

theorem meets_DrainSpillAndFill_elsewhere :
    let sp := Instr.mspill plain 31 9 false
    let ls := gang0.baseLoc 9 0 .store
    gang0.faults sp (gang0.poisonIf sp (gang0.cur.dp 9) ++ (if gang0.cur.dp 9 then [] else gang0.spillTraps sp 9 false .store ++
      trapIf (decide (2 < ls.space)) (gang0.addrTrap sp ls.addr .access))) = [] ∧ gang0.acts sp = true ∧ Unheld gang0 ∧ ls.fixed = false :=
  ⟨by decide +kernel, by decide +kernel, .inr (by decide +kernel), by decide +kernel⟩

/-! ## Hypotheses of the statements about accesses are met -/

/-- The task with its launch: d5, d7 and d9 reach allocations, d8 global memory on die 0 whose translation the tile holds. -/
def mem0 : State :=
  { s0 with
    cur := { s0.cur with sys := { SysRegs.zero with swarmid := 5 } }
    parts := s0.parts.set 0 somePart
    tiles := Sparse.set { qcfg := 0, fabtest := 0, tlb := [] } [] 0 { qcfg := 0, fabtest := 0, tlb := [flatEntry 0x80] } }

theorem meets_LoadsReadTheirPlaces_scalar :
    Unheld mem0 ∧
    (∀ da ∈ [(5 : DNum), 7, 8], ∀ q ∈ [true, false], ∀ width ∈ [(2 : BitVec 2), 3],
      (∀ i ∈ [Instr.ld plain da 8 width false 2 q], ((mem0.faults i (mem0.loadTraps i da 8 (2 ^ width.toNat) .load (Kind.load == .load && width == 2)
        (if q then some 2 else none) [⟨0, 0, 2 ^ width.toNat⟩]) == []) && mem0.acts i) = (q || da != 8)) ∧ mem0.cur.dp da = (da == 7)) ∧
    (∀ da ∈ [(5 : DNum), 7], ∀ i ∈ [Instr.lda plain da 8 1 2 2 true], ((mem0.faults i (mem0.loadTraps i da 8 4 .acquire (Kind.acquire == .load && (2 : BitVec 2) == 2)
        (some 2) [⟨0, 0, 4⟩]) == []) && mem0.acts i) = true) :=
  ⟨.inr (by decide +kernel), by decide +kernel, by decide +kernel⟩

theorem meets_LoadsReadTheirPlaces_lanes :
    (∀ da ∈ [(5 : DNum), 7], ∀ q ∈ [true, false], let v := Instr.ldv plain da 64 0xFF 2 q
      (issues mem0 v && (mem0.loadTraps v da 64 64 .load false (if q then some 2 else none) (blockReach (mem0.activeLanes v plain)) == [])) = true) ∧
    (∀ da ∈ [(5 : DNum), 7], ∀ q ∈ [true, false], let v := Instr.ldvs plain da 0 26 1 2 q
      (issues mem0 v && (mem0.loadTraps v da 0 2 .load false (if q then some 2 else none) (mem0.stridedReach (mem0.activeLanes v plain) 26 1) == [])) = true ∧
        mem0.cur.sp 26 = false) ∧
    (issues mem0 (.ldvs plain 5 0 7 1 2 false) = true ∧ mem0.cur.sp 7 = true) ∧
    (∀ da ∈ [(5 : DNum), 7], let v := Instr.ldq plain da 8 0xFF 3
      (issues mem0 v && ((if mem0.cur.dp da then [] else mem0.reachTraps v da 8 8 .own false (laneReach (mem0.activeLanes v plain) 72 72)) == [])) = true) ∧
    ([[(⟨0, 8, 4⟩ : Piece)]].flatten ≠ [] ∧ (1 : QNum) ≠ 2 ∧ (mem0.baseLoc 5 0 .load).fixed = true ∧ (mem0.baseLoc 8 0 .load).fixed = false) := by
  decide +kernel

theorem meets_StoresWriteTheirPlaces :
    (Unheld mem0 ∧ mem0.cur.dp 5 = false ∧ mem0.cur.dp 8 = false) ∧
    (∀ da ∈ [(5 : DNum), 8], Issues mem0 (.st plain da 8 3 10) (mem0.storeTraps (.st plain da 8 3 10) da 8 3 10 .store)) ∧
    (let stl := Instr.stl plain 5 8 1 2 5
     let bits := ((mem0.placeAt 5 8 4 .release ⟨0, 0, 4⟩).1).bits (1 : Scope).toNat
     Issues mem0 stl (mem0.storeTraps stl 5 8 2 5 .release ++ mem0.deniedTraps stl bits) ∧
     (mem0.withCur { mem0.cur with clk := 40 }).released (1 : Scope).toNat bits = true) ∧
    (let v := Instr.stv plain 5 64 0xFF 8
     Issues mem0 v (mem0.poisonIf v (mem0.activeLanes v plain != 0 && (mem0.cur.v 8).poison &&& mem0.activeLanes v plain != 0) ++
        mem0.reachTraps v 5 64 64 .store false (blockReach (mem0.activeLanes v plain)))) ∧
    (let vs := Instr.stvs plain 5 64 26 2 8
     Issues mem0 vs (mem0.poisonIf vs (mem0.activeLanes vs plain != 0 && ((mem0.cur.dp 5 || mem0.cur.sp 26) || (mem0.cur.v 8).poison &&& mem0.activeLanes vs plain != 0)) ++
        (if mem0.cur.dp 5 || mem0.cur.sp 26 then [] else mem0.reachTraps vs 5 64 1 .store false (mem0.stridedReach (mem0.activeLanes vs plain) 26 2)))) ∧
    (let sq := Instr.stq plain 5 8 0xFF 3
     Issues mem0 sq (mem0.reachTraps sq 5 8 8 .store false (laneReach (mem0.activeLanes sq plain) 72 72) ++
        trapIf (mem0.activeLanes sq plain != 0 && (mem0.baseLoc 5 8 .store).space == 3) (mem0.addrTrap sq (mem0.baseLoc 5 8 .store).addr .access))) ∧
    ([[(⟨8, 4, 7⟩ : Part)]].flatten ≠ [] ∧ (mem0.baseLoc 5 8 .store).fixed = true ∧ (mem0.baseLoc 8 8 .store).fixed = false ∧
      (mem0.baseLoc 8 8 .store).space ≠ 4) := by
  refine ⟨⟨.inr (by decide +kernel), by decide +kernel⟩, ?_, ⟨issues_own (by decide +kernel), by decide +kernel⟩, issues_own (by decide +kernel), issues_own (by decide +kernel),
    issues_own (by decide +kernel), by decide +kernel⟩
  intro da hd
  simp only [List.mem_cons, List.not_mem_nil, or_false] at hd
  rcases hd with rfl | rfl <;> exact issues_own (by decide +kernel)

/-- A store of two overlapping parts that is due in the task's own allocation. -/
def due0 : Access :=
  { cycle := 4, seq := 0, bundle := 0, site := .alloc 0 0 2, act := .store [⟨8, 4, 0x11223344⟩, ⟨10, 1, 0x55⟩], shadow := [], skip := [], done := false,
    stamp := none, acquire := false, strong := false, handler := false }

theorem meets_PerformedAccessesInTheirBanks :
    (s0.mem.wf = true ∧ (s0.siteAddrs due0.site 8 4).length = 4 ∧ (s0.siteAddrs due0.site 8 4).Nodup ∧ (s0.siteAddrs due0.site 8 4)[0]? = some (128 * 2 ^ 60 + 8) ∧
      128 * 2 ^ 60 + 8 ∉ s0.siteAddrs due0.site 10 1 ∧ 128 * 2 ^ 60 + 8 ∉ due0.skip) ∧
    ((s0.siteAddrs (.alloc 0 0 2) 16 8).length = 8 ∧ (s0.siteAddrs (.alloc 0 0 2) 16 8).Nodup ∧ fmtWidth 5 = 8 * 2 ∧ fmtWidth 1 = 8 * 4) := by
  decide +kernel

theorem meets_SwizzleIsABijectionOfEachRow : 0 < 6 ∧ 6 < 7 ∧ swizzle 6 2048 = 2048 + 512 := by decide +kernel

theorem meets_AtomicsReachTheirWords :
    Unheld mem0 ∧
    (∀ x ∈ ([(.amoAdd plain 5 8 3 5 false, 4, false, true), (.amoAnd plain 5 8 3 5 true, 4, false, true), (.amoOr plain 5 8 0 5 false, 4, false, true),
        (.amoXor plain 5 8 3 5 false, 4, false, true), (.amoMin plain 5 8 3 5 false, 4, false, true), (.amoMax plain 5 8 3 5 false, 4, false, true),
        (.amoMaxu plain 5 8 3 5 false, 4, false, true), (.amoMinu plain 5 8 3 5 false, 4, false, false), (.amoXchg plain 5 8 3 5 false false, 4, false, true),
        (.amoXchg plain 5 8 2 24 false true, 8, false, true), (.amoPadd plain 5 8 3 5 5 false, 2, false, true), (.amocas plain 5 8 3 5 6 false, 4, false, true),
        (.amocasD plain 5 8 2 24 26 false, 8, false, true)] : List (Instr × Nat × Bool × Bool)),
      ((mem0.faults x.1 (mem0.atomicTraps x.1 5 8 x.2.1 x.2.2.1 x.2.2.2 (if x.1 = .amoOr plain 5 8 0 5 false then 0 else if x.2.1 = 8 then 2 else 3)
        (x.1 == .amoAnd plain 5 8 3 5 true)) == []) && mem0.acts x.1) = true) ∧
    (let qadd := Instr.amoQadd plain 5 8 3
     Issues mem0 qadd (mem0.poisonIf qadd (mem0.activeLanes qadd plain != 0 && mem0.cur.dp 5) ++
        (if mem0.cur.dp 5 then [] else mem0.reachTraps qadd 5 8 8 .atomic false (laneReach (mem0.activeLanes qadd plain) 72 72)))) ∧
    ([Atom.word 0 8 4 .add 5] ≠ [] ∧ (mem0.placeAt 5 8 4 .atomic ⟨0, 0, 4⟩).1.fixed = true ∧ (mem0.placeAt 8 8 4 .atomic ⟨0, 0, 4⟩).1.fixed = false ∧
      (some 2 : Option QNum) ≠ some 1) :=
  ⟨.inr (by decide +kernel), by decide +kernel, issues_own (by decide +kernel), by decide +kernel⟩

theorem meets_FencesAndPrefetches :
    (Issues mem0 (.fence plain 5) (mem0.deniedTraps (.fence plain 5) (mem0.fenceBits 5)) ∧ mem0.issue.passed = false ∧
      mem0.released (5 : Scope).toNat (mem0.fenceBits 5) = false ∧ (mem0.withCur { mem0.cur with clk := 400, wait := some ⟨0, 0, 0xFF, none, false, none, none, false, none, false, false⟩ }).released (5 : Scope).toNat (mem0.fenceBits 5) = true) ∧
    (Issues mem0 (.drain plain) (mem0.deniedTraps (.drain plain) allSlices) ∧ mem0.quiet = true) ∧ (Issues mem0 (.pref plain 8 64) [] ∧ mem0.cur.dp 8 = false) :=
  ⟨⟨issues_own (by decide +kernel), by decide +kernel⟩, ⟨issues_own (by decide +kernel), by decide +kernel⟩, issues_own (by decide +kernel), by decide +kernel⟩

theorem meets_FaultsTakeTheirTraps_misaligned :
    (mem0.issue.passed = false ∧ mem0.cur.dp 5 = false) ∧
    (∀ i ∈ [Instr.ld plain 5 7 3 false 2 false, .st plain 5 7 3 2, .lda plain 5 7 1 3 2 true, .stl plain 5 7 1 3 2], mem0.acts i = true) ∧
    (addField (mem0.cur.d 5) (7 : BitVec 24).toInt).1.toNat % 2 ^ (3 : BitVec 2).toNat ≠ 0 ∧
    mem0.acts (.amoAdd plain 5 6 3 5 false) = true ∧ (addField (mem0.cur.d 5) (6 : BitVec 24).toInt).1.toNat % 2 ^ (2 : BitVec 2).toNat ≠ 0 := by
  decide +kernel

/-! ## Hypotheses of the statements about Firefly, special registers, queues and engines are met -/

/-- Firefly's state in a module state. -/
def withFirefly (f : Firefly) : State := { run0 with firefly := f }

theorem meets_StartsAndEndsOfARun :
    (State.reset.firefly.power = .on ∧ State.reset.firefly.stage = 0 ∧ State.reset.firefly.minimal = false ∧ State.reset.firefly.log = [] ∧
      State.reset.firefly.fails.toNat < 3 ∧ State.reset.mem.wf = true ∧ 127 < 128 ∧ 2 ^ 22 - 1 < 2 ^ 22) ∧
    ([(3, (⟨0b1, 0, false⟩ : Defects)), (8, ⟨0, 0b110, true⟩)].map (·.1)).Nodup ∧
    (let f := { Firefly.reset with moving := [(3, 0, [(0x1000, 0x1000)])] }
     ∃ m ∈ f.moving, ∃ r ∈ m.2.2, r.1 ≤ 0x1FFF ∧ 0x1FFF < r.1 + r.2) ∧
    ({ Firefly.reset with fails := 3 }.fails = 3) ∧
    (let f := { Firefly.reset with stage := 4, fails := 3 }
     f.power = .on ∧ f.stage = 4 ∧ f.fails.toNat ≤ 3 ∧ 4 ≤ f.stage.toNat ∧ f.minimal = false ∧ ({ somePart with state := 1 }).state = 1) ∧
    ({ Firefly.reset with stage := 6, minimal := true, fails := 3 }.minimal = true ∧ (1 : BitVec 32).getLsbD 0 = true) ∧
    (Firefly.reset.dumpValid = false ∧ { Firefly.reset with dumpValid := true }.dumpValid = true ∧ { Firefly.reset with power := .dumping }.power = .dumping) := by
  decide +kernel

theorem meets_MonitorsAndAttention :
    (run0.firefly.power = .on ∧ Sparse.wf Sensor.none run0.firefly.sensors = true ∧ (∀ k, k < 64 → k ≠ 0 → (run0.firefly.sensor 0 k).value.toInt < 90 * 16)) ∧
    (95 * 16 ≤ (1520 : BitVec 16).toInt ∧ (1439 : BitVec 16).toInt < 90 * 16 ∧ 105 * 16 ≤ (1680 : BitVec 16).toInt ∧ (1679 : BitVec 16).toInt < 105 * 16) ∧
    ((31 : BitVec 5).toNat < 32 ∧ (519 : BitVec 16).toNat < 520 ∧ 500 ≤ (500 : BitVec 16).toNat ∧ (499 : BitVec 16).toNat < 500 ∧ 520 ≤ (520 : BitVec 16).toNat) ∧
    ((15 : BitVec 6).toNat < 16 ∧ (63 : BitVec 6).toNat < 64 ∧ (0x0040_0001 : BitVec 32).getLsbD 0 = true ∧ (0x0040_0001 : BitVec 32).getLsbD 22 = true) ∧
    ((run0.partN 0).state ≠ 0 ∧ (run0.partN 0).attn.length < 64 ∧ 64 ≤ ({ somePart with attn := List.replicate 64 7 }).attn.length ∧
      ({ somePart with attn := [7, 8] }).attn = 7 :: [8] ∧ (12 : BitVec 16) ≠ 8 ∧ (12 : BitVec 16) ≠ 0x10 ∧ (12 : BitVec 16).toNat < 0x100) ∧
    ((withFirefly { Firefly.reset with power := .stopped }).firefly.power = .stopped ∧ ({ Firefly.reset with minimal := true }).minimal = true) ∧
    (run0.behind 0 0 = some (run0.partN 0) ∧ (run0.partN 0).pnum < 8 ∧ run0.firefly.minimal = false ∧ run0.answers 0 0 .bar0 = true ∧
      run0.answers 1 3 .bar0 = false ∧ 63 < 64) := by decide +kernel

theorem meets_RegisterSyllablesLeaveTheRest :
    registerOnly (.add plain 3 5 6) = true ∧ registerOnly (.vqnt plain 0xFF 1 4 8 16 1 false 0) = true ∧ registerOnly (.qrnd plain 0xFF 1 4 3) = true ∧
    s1.issue.passed = true ∧ s1.issue.jo < 4 ∧ ({ s1 with issue := { s1.issue with jo := 3 } } : State).issue.jo < 4 ∧ ∃ t, exec (.add plain 3 5 6) s1 = .next t :=
  ⟨by decide, by decide, by decide, by decide, by decide, by decide, _, rfl⟩

theorem meets_SystemRegistersAndPrefixes :
    (∀ i ∈ [.getc plain 3 0x11, .getc plain 2 0x04, .feat plain 3 0, .setc plain 24 0x05, .setc plain 5 0x02, .setc plain 5 0x0E, .ext prefixHead 0xFFFFFFFF,
      .rep prefixHead 63 true 0], Issues s0 i []) ∧ s0.cur.parked = none ∧ trap1.cur.parked.isSome = true ∧
    ({ s0 with issue := { s0.issue with word := some 5 } } : State).issue.word = some 5 ∧ (3 &&& BitVec.allOnes 64 : DWord) ≠ 0 :=
  ⟨issues_of (by decide +kernel), by decide, by decide, by decide, by decide⟩

/-- The task with one entry in queue 1, and an entry that is still to come in queue 2. -/
def entry0 : QEntry :=
  { request := 1, owed := 0, ready := 0, handler := false, kind := 0, lanes := 1, value := 5, poison := 0, status := 0,
    engine := false }
def pop0 : State := mem0.withCur { mem0.cur with rq := (mem0.cur.rq.set 1 [entry0]).set 2 [{ entry0 with owed := 1 }] }

theorem meets_PopsAndWordWaits_pops :
    (pop0.cur.rq[1] = [entry0] ∧ entry0.owed = 0 ∧ entry0.kind = (0 : BitVec 2).toNat ∧ pop0.cur.parked = none ∧ entry0.ready ≤ pop0.cur.clk) ∧
    (∀ i ∈ [.popW plain 3 1 0, .popF plain 3 1 0 2, .popF plain 3 2 0 2, .popF plain 3 3 0 2, .popW plain 3 2 0], Issues pop0 i []) ∧
    (pop0.cur.poppable 2 = none ∧ pop0.cur.poppable 3 = none ∧ pop0.cur.rq[2] ≠ [] ∧ pop0.cur.clk < pop0.cur.since + 2 ^ 20) ∧
    (pop0.issue.passed = false ∧ pop0.cur.rq[3] = [] ∧ pop0.acts (.popW plain 3 3 0) = true) :=
  ⟨by decide +kernel, issues_of (by decide +kernel), by decide +kernel, by decide +kernel⟩

theorem meets_PopsAndWordWaits_waits :
    (∀ i ∈ [Instr.waitge plain 5 8 1 0, .waiteq plain 5 8 1 5, .waitge plain 8 8 1 0], ∀ da ∈ [(5 : DNum), 8], ∀ rs ∈ [(0 : SRegNo), 5],
      i = .waitge plain da 8 1 rs ∨ i = .waiteq plain da 8 1 rs → Issues mem0 i (mem0.waitTraps i da 8 rs)) ∧
    (mem0.issue.passed = false ∧ mem0.acquiring = false ∧ mem0.cur.wait = none) ∧
    (let l := (mem0.placeAt 5 8 4 .wait ⟨0, 0, 4⟩).1
     l.fixed = true ∧ BitVec.ofNat 32 (mem0.siteRead [] l.site l.off 4) = mem0.cur.s 0 ∧ BitVec.ofNat 32 (mem0.siteRead [] l.site l.off 4) ≠ mem0.cur.s 5) ∧
    (mem0.placeAt 8 8 4 .wait ⟨0, 0, 4⟩).1.fixed = false ∧
    (let c := { mem0.cur with clk := 4, wait := some ⟨0, 0, 0xFF, none, false, some 7, some 3, false, none, true, false⟩ }
     c.since + 4 ≤ c.clk ∧ (c.wait.bind (·.watch)).isSome = true ∧ c.wait.bind (·.met) = some 3) ∧
    (let s := mem0.withCur { mem0.cur with clk := 4, wait := some ⟨0, 0, 0xFF, none, false, none, none, false, some 0, false, false⟩ }
     (s.cur.wait.bind (·.seen) = some (s.cur.s 0) ∧ s.cur.wait.bind (·.seen) ≠ some (s.cur.s 5) ∧ s.cur.wait.bind (·.watch) = none ∧ s.cur.since + 4 ≤ s.cur.clk ∧
      s.acquiring = false) ∧ Issues s (.waiteq plain 5 8 1 0) (s.waitTraps (.waiteq plain 5 8 1 0) 5 8 0)) := by
  refine ⟨?_, by decide +kernel, by decide +kernel, by decide +kernel, by decide +kernel, by decide +kernel, issues_own (by decide +kernel)⟩
  intro i hi da _ rs _ h
  simp only [List.mem_cons, List.not_mem_nil, or_false] at hi
  rcases hi with rfl | rfl | rfl <;> rcases h with h | h <;> cases h <;> exact issues_own (by decide +kernel)

theorem meets_EngineCommandsJoinTheirBatch :
    (∀ i ∈ [Instr.cpy plain 0 4095 8 5 24, .gth plain 3 0 0 8 12 28 2, .gth plain 3 0 5 8 12 28 3, .sct plain 1 0 5 8 12 28 0, .wld plain 0 0 5 5 28,
      .rwr plain 0 0 10 5 24 8 true 8, .rwg plain 0 0 10 5 24 8 false 0, .rrd plain 0 0 10 2 24, .collGrp plain 0 0 5 5 24 8 28, .collMod plain 0 0 10 5 24 8 28,
      .collLossy plain 0 0 10 5 24 8 28, .qfence plain 0 0xF], run1.acts i = true) ∧ run1.issue.passed = true ∧
    (∀ i ∈ [.eclose plain, .estat plain 2 3], Issues mem0 i []) ∧ mem0.cur.mayClose = true ∧
    Issues mem0 (.ewait plain 0) (mem0.failureTraps (.ewait plain 0) false) ∧ mem0.cur.closeBatch.closedB.length ≤ (0 : BitVec 8).toNat :=
  ⟨by decide +kernel, by decide +kernel, issues_of (by decide +kernel), by decide +kernel, issues_own (by decide +kernel), by decide +kernel⟩

/-! ## Hypotheses of the statements about control cores, partitions and the dispatcher are met -/

/-- The core of wing 0 at a level, with a value in x5 and the records of its event queue. -/
def coreAt (priv : Nat) (x5 : DWord) (q : List (BitVec 128)) : State :=
  { State.reset with cores := State.reset.cores.set 0 { Core.reset with priv := priv, online := true, xregs := Core.reset.xregs.set 5 x5, queue := q } }

/-- The same with translations of partition 0 on die 0. -/
def coreOn (priv : Nat) (x5 : DWord) (q : List (BitVec 128)) (es : List TlbEntry) : State :=
  { coreAt priv x5 q with dies := State.reset.dies.set 0 { DieRec.reset with tlb := es.map (fun e => (0, e)) } }

/-- The translation of a page that lives in the window of module 4 (R164, R171). -/
def farEntry (off : Nat) : TlbEntry := { flatEntry off with tier := 2, frame := 4 * 2 ^ 40 + off / 2 ^ 12 * 2 ^ 12 }

/-- A core of S level whose address lies in such a page, with what has come for its DEVQ. -/
def coreFar0 (x : List (Nat × Option Nat)) : State :=
  { coreOn 1 64 [5] [farEntry 64] with parts := State.reset.parts.set 0 { Partition.down 0 with far := x } }

/-- An image without groups, whose launches are not gangs. -/
def soloImage : ImageRec := { someImage with groups := 0, scratch := 512, stack := 512, allocs := 1 }

/-- A record that asks for one task of it on any die (R95). -/
def soloRecord : BitVec 512 := BitVec.ofNat 512 (9 + 0xFF * 2 ^ 120)

/-- The launch of that record. -/
def soloLaunch : Launch :=
  { handle := 1, record := soloRecord, device := 0, prio := 0, next := 0, ended := 0, faulted := 0, fault := none, core := 0, byTask := none, groups := [],
    gang := false, placed := false, barDone := [] }

/-- A partition of wings 0 and 1 with some launches, none of which has begun. -/
def soloPart (hive : List Launch) : Partition :=
  { somePart with wings := 3, tiled := 3, hive := hive, images := [soloImage], groupTable := [], devices := [{ vd := 0, weight := 1, quantum := 60, priomax := 7, soft := false, balance := 9, debts := [], pending := none }] }

/-- The module with that partition, in which no task runs. -/
def solo0 (hive : List Launch) : State := { State.reset with parts := State.reset.parts.set 0 (soloPart hive) }

theorem meets_ControlCoresSubmitAndReadEvents :
    (((coreAt 0 0 []).coreN 0).priv = 0 ∧ ((coreAt 1 32 []).coreN 0).priv ≠ 0 ∧ (32 : DWord).toNat % 64 ≠ 0 ∧ (8 : DWord).toNat % 16 ≠ 0 ∧
      (coreAt 1 64 []).coreRead 64 64 = .denied ∧ (coreFar0 []).coreRead 64 64 = .away ∧ (coreOn 1 64 [] [flatEntry 64]).coreRead 64 64 = .got 0 ∧
      (coreOn 1 64 [] [flatEntry 64]).coreAddr 64 false = some 64 ∧ (coreOn 1 64 [] [flatEntry 64]).descsAway 0 0 (BitVec.ofNat 512 0) = [] ∧
      (coreAt 3 64 []).coreAddr 64 false = some 64 ∧ (coreAt 3 0 []).coreAddr 0 false = some 0 ∧ ((coreAt 3 64 []).coreN 0).queue = []) ∧
    (((coreAt 3 64 [5, 6]).coreN 0).queue = 5 :: [6] ∧ (coreAt 3 64 [5, 6]).coreAddr 64 true = some 64 ∧ (coreAt 3 64 [5, 6]).mem.wf = true ∧
      ((coreAt 3 64 [5, 6]).dieRec 0).migOf 0 64 = none ∧ ((coreAt 1 64 [5]).coreN 0).queue ≠ [] ∧ (coreAt 1 64 [5]).coreAddr 64 true = none ∧
      (coreAt 1 64 [5]).coreFar 64 true = false) ∧
    (∀ x ∈ [[], [(farKey 0 0 64 true, some 0)], [(farKey 0 0 64 true, none)]], ((coreFar0 x).coreN 0).queue = 5 :: [] ∧ (coreFar0 x).coreAddr 64 true = none ∧
      (coreFar0 x).coreFar 64 true = true ∧
      ((coreFar0 x).partN 0).farAnswer (farKey 0 0 64 true) = (if x = [] then .away else if x = [(farKey 0 0 64 true, none)] then .denied else .got 0)) ∧
    ((solo0 []).submit 0 0 none soloRecord).2 = ⟨0, 0, 1⟩ ∧ ((solo0 []).submit 0 0 none (soloRecord + 1)).2 = ⟨4, 0, 0⟩ ∧
    (({ soloPart [] with nextHandle := 2 ^ 32 - 1 } : Partition).nextHandle + 1) % 2 ^ 32 = 0 := by
  decide +kernel

theorem meets_PartitionsAndWings :
    (((run0.partN 0).state = 2 ∧ (run0.partN 0).wings.getLsbD 0 = true ∧ ∃ m ∈ [(0, 0, [(3 * 2 ^ 29, 0x1000)])], m.1 = 0 ∧ m.2.1 = 0) ∧ ({ somePart with state := 3 }).state = 3 ∧ ({ somePart with wings := 0 }).wings = 0) ∧
    (let s := solo0 []
     s.holderOf 1 = some (soloPart []) ∧ s.partN 0 = soloPart [] ∧ (s.coreN 1).online = false ∧ ((coreAt 1 0 []).coreN 0).online = true ∧
     (∀ c ∈ s.ctxs, c.run.resident = true → wingOf c.tile ≠ 1 ∧ clusterOf c.tile / 4 ≠ 1) ∧ 2 ≤ (soloPart []).wingList.length ∧
     s.owns (soloPart []) (3 * 2 ^ 29, 0x1000) = true) ∧
    (let s := solo0 []
     s.firefly.scrubDone.getLsbD 3 = false ∧ { s with firefly := { s.firefly with scrubDone := 8 } }.firefly.scrubDone.getLsbD 3 = true ∧ (s.partN 0).state ≠ 0 ∧
     2 ≤ (s.partN 0).hbm.getD (3 / 4) 0 ∧ s.holderOf 3 = none ∧ (s.holderOf 1).isSome = true ∧ (soloPart []).pnum < 8) ∧
    (frameUnit [(3 * 2 ^ 29, 0x1000)] (480 - 480) = some ((3 * 2 ^ 29, 0x1000), 0) ∧ 480 ≤ 480) ∧
    ([(1, 480, 223), (2, 481, 479), (3, 481, 480)].all (fun (x : BitVec 3 × BitVec 24 × BitVec 24) => x.1 == 1 || x.1 == 2 || x.1 == 3) = true) ∧
    (let f := { Firefly.reset with scrub := Firefly.reset.scrub.set 3 (4, 480, 480) }; (f.scrub[3]).1 = 4) := by
  decide +kernel

/-- A kernel image of 400 bytes in the host window: HEAD with one entry at the start of LIN, FEAT that asks for nothing, LIN with HALT alone (R62 to R66). -/
def imageMem : Memory :=
  let b := (Region.host 0).addr 0
  let put (l : List (Nat × Nat × Nat)) : Memory := l.foldl (fun m x => Memory.writeNat m (b + x.1) x.2.1 x.2.2) []
  put [(0, 4, 0x474D494B), (4, 2, 1), (12, 4, 3), (16, 8, 400), (64, 4, 0x44414548), (72, 8, 192), (80, 8, 96), (88, 4, 0x54414546), (96, 8, 320), (104, 8, 8),
    (112, 4, 0x204E494C), (120, 8, 384), (128, 8, 16), (192, 2, 1), (196, 4, 512), (200, 4, 512), (208, 4, 1), (384, 8, 1), (392, 8, (encode (.halt plain)).toNat)]

/-- The module with that image in the host window of its partition. -/
def host0 : State :=
  { solo0 [] with mem := imageMem, parts := (solo0 []).parts.set 0 { soloPart [] with hostwin := 1 } }

/-- The image there. -/
def kimg0 : Kimg := { mem := imageMem, base := (Region.host 0).addr 0, len := 400 }

theorem meets_DevicesAndImages_devices :
    let p := soloPart []
    p.state ≠ 0 ∧ p.state ≠ 3 ∧ p.busy 0 = false ∧ soloLaunch ∈ (soloPart [soloLaunch]).hive ∧ soloLaunch.device = 0 ∧ p.dev 0 ≠ none ∧ p.dev 63 = none ∧ (∀ d ∈ p.devices, d.vd = 0) ∧
    ¬((0 : Nat) ≠ 0 ∨ ∃ d ∈ p.devices, d.vd ≠ 0 ∧ d.weightNext ≠ 0) ∧ (∃ d ∈ p.devices, d.vd ≠ 63 ∧ d.weightNext ≠ 0) ∧ (∀ d ∈ p.devices, d.debts = [] ∧ d.pending = none) := by
  decide +kernel

theorem meets_DevicesAndImages_images :
    0 + 400 ≤ (host0.partN 0).hostwin * 2 ^ 28 ∧ host0.imageError 0 kimg0 false = none ∧ host0.imageError 0 kimg0 true = some (0x12, 0) ∧
    host0.imageError 0 { kimg0 with len := 399 } false = some (0x10, 0) ∧ kimg0.entryCount = 1 ∧ kimg0.chosen = none ∧
    (host0.partN 0).imageOf 9 = some soloImage ∧ (host0.partN 0).imageOf 7 = none ∧ (soloPart [soloLaunch]).hive = [soloLaunch] ∧ soloLaunch.image = 9 ∧ soloLaunch.live = true ∧
    ({ soloLaunch with ended := 1 }).live = false ∧ host0.slotPlaces 0 kimg0 = [] ∧
    (let x := placePairs (fun _ => true) (fun _ => 7) [(0, 1)] [] 0; x = [] ++ (0, 1, 7) :: [] ∧ slotLinks 0 1 7 ≠ []) := by
  decide +kernel

theorem meets_DispatchAndCompletion_dispatch :
    let s := solo0 [soloLaunch]
    let p := soloPart [soloLaunch]
    p ∈ s.parts.toList ∧ (∀ q ∈ s.parts.toList, q.up = true → q = p) ∧ p.up = true ∧ p.hive = [soloLaunch] ∧ (∀ k ∈ soloLaunch.prereqs, k = 0) ∧ soloLaunch.die = 0xFF ∧
    soloLaunch.next < soloLaunch.tasks ∧ (s.coreN soloLaunch.core).kept = [] ∧ (∀ c ∈ s.ctxs, c.run ≠ .saved) ∧ p.imageOf soloLaunch.image = some soloImage ∧
    soloImage.reserve ≤ s.hiveFree p ∧ (s.seat (needOf soloLaunch soloImage) (s.startTiles p 0) [0]).isSome = true := by
  decide +kernel

/-- A launch whose one task has ended; its completion flag is the word at global address 0x80. -/
def endedLaunch : Launch := { soloLaunch with ended := 1, record := BitVec.ofNat 512 (9 + 0xFF * 2 ^ 120 + 0x80 * 2 ^ 256) }

/-- The module with it, in which die 0 holds the flag's translation. -/
def ended0 : State :=
  { solo0 [endedLaunch] with dies := State.reset.dies.set 0 { DieRec.reset with tlb := [(0, flatEntry 0x80)] } }

theorem meets_DispatchAndCompletion_completion :
    let s := ended0
    (s.partN 0).hive = endedLaunch :: [] ∧ endedLaunch.ended = endedLaunch.tasks ∧ endedLaunch.core < 32 ∧ (s.coreN endedLaunch.core).kept = [] ∧
    (s.coreN endedLaunch.core).queue.length < Config.coreQueueRecords ∧ (∀ q ∈ s.requests, q.part ≠ 0 ∨ q.swarm ≠ 1 ∨ q.slice = none) ∧
    (s.flagAway 0 endedLaunch = false ∧ endedLaunch.cflag ≠ 0 ∧ endedLaunch.cflag.toNat / 2 ^ 60 = 0 ∧ s.spot 0 0 0x80 4 true true = .here [0x80, 0x81, 0x82, 0x83] ∧
      (s.dieRec 0).migOf 0 0x80 = none ∧ s.mem.wf = true) ∧
    (let s := { s with dies := State.reset.dies.set 0 { DieRec.reset with tlb := [(0, farEntry 0x80)] } }
     (s.partN 0).hive = endedLaunch :: [] ∧ (s.coreN endedLaunch.core).kept = [] ∧ s.flagAway 0 endedLaunch = true ∧ s.settling 0 0 0x80 = false) ∧
    { soloLaunch with ended := 1 }.cflag = 0 ∧ ({ Core.reset with kept := [7] }).kept = 7 :: [] := by
  decide +kernel

/-- The module in which a context of the partition's task stands on tile 0, with a launch waiting. -/
def with0 (c : Ctx) (hive : List Launch) : State := { solo0 hive with cur := c }

/-- A second context of tile 0 that is ready. -/
def readyCtx : Ctx := { someCtx with uid := 2, slot := 1, run := .ready }

/-- The wait of a bundle that may yield the tile. -/
def wait0 : Wait := ⟨0, 0, 0xFF, none, false, none, none, false, none, true, false⟩

/-- A launch that no tile can take: it asks for die 7, where the partition has no wing. -/
def farLaunch : Launch := { soloLaunch with record := BitVec.ofNat 512 (9 + 7 * 2 ^ 120) }

theorem meets_PreemptionAndSwitches_asks :
    let late : Ctx := { someCtx with modBase := 60 * 1050 }
    let slow : Ctx := { someCtx with wait := some wait0 }
    (∀ c ∈ [late, slow], (with0 c []).ctxAt 0 0 = some c ∧ (with0 c []).ctxOf 1 = some c) ∧
    (((with0 late []).deviceOf late).map (fun d => (d.quantum, d.soft)) = some (60, false) ∧ late.run = .issuing ∧ late.began + 60 * Config.cyclesPerUs ≤ late.module ∧
      ((with0 late []).savePlan late).isSome = true ∧ late.saveSlot = none ∧ ((with0 late []).ctxs.map (·.uid)).Nodup ∧ late.gang = false ∧ late.hard = none) ∧
    (∀ r ∈ [Run.ready, .waiting, .halted], let c : Ctx := { someCtx with run := r, saveSlot := some ⟨0, 3, []⟩ }
      (with0 c []).ctxAt 0 0 = some c ∧ c.saveSlot = some ⟨0, 3, []⟩ ∧ c.gang = false ∧ c.parked = none) ∧
    (let c : Ctx := { someCtx with allocs := [⟨2, 0, 2 ^ 30, 0⟩] }; (with0 c []).savePlan c = none ∧ c.saveSlot = none) ∧
    (slow.stalledFrom = some 0 ∧ { with0 slow [farLaunch] with cycle := 63000 }.crowded (soloPart [farLaunch]) 0 = true) ∧
    ((with0 late []).ctxs.filter (fun x => x.run.resident && x.part == 0 && (1 : BitVec 32).getLsbD (wingOf x.tile)) = [late]) ∧
    (let d : Device := ⟨0, 1, 60, 7, true, 0, [], none⟩
     let s : State := { with0 late [] with parts := State.reset.parts.set 0 { soloPart [] with devices := [d] } }
     s.deviceOf late = some d ∧ d.balance ≤ 0 ∧ (s.partN 0).hasLender = false) := by
  decide +kernel

theorem meets_PreemptionAndSwitches_stops :
    (let c : Ctx := { someCtx with hard := some 0, boundary := true }
     c.run = .issuing ∧ ((with0 c []).focus c.uid).stopDue = true) ∧
    (let c : Ctx := { someCtx with hard := some 0, modBase := 4096 }
     c.run = .issuing ∧ 0 + 4096 ≤ c.module ∧ c.parked = none ∧ c.wait = none) ∧
    (let c : Ctx := { someCtx with clk := 256, wait := some wait0 }
     let s : State := { with0 c [] with others := [readyCtx] }
     c.run = .issuing ∧ s.issuerOf 0 = some c ∧ (s.ctxs.map (·.uid)).Nodup ∧ (s.focus c.uid).yieldDue = true) ∧
    (let c : Ctx := { someCtx with run := .halted }
     c.run = .halted ∧ (with0 c []).issuerOf 0 = none ∧ { with0 c [] with others := [{ readyCtx with run := .issuing }] }.issuerOf 0 = some { readyCtx with run := .issuing }) ∧
    (let c : Ctx := { someCtx with run := .saving }
     c.run = .saving ∧ ((with0 c []).passCluster 0 0).ctxAt 0 0 = some c ∧ ((with0 c []).passCluster 0 0).ctxOf c.uid = some c ∧
     ((with0 c []).passCluster 0 0).mayFinishSave c = true ∧ ((with0 c []).passCluster 0 0).mem.wf = true ∧ c.saveSlot = none) ∧
    (let c : Ctx := { someCtx with run := .restoring }
     c.run = .restoring ∧ c.copies = [] ∧ (with0 c []).issuerOf 0 = none ∧ { with0 c [] with others := [{ readyCtx with run := .issuing }] }.issuerOf 0 ≠ none) ∧
    (let c : Ctx := { someCtx with pc := 0x40, wait := some wait0 }
     let s := (with0 c []).withFetchWord 64 (encode (.popW plain 3 3 0)).toNat
     s.cur.run = .issuing ∧ s.cur.wait.isSome = true ∧ s.cur.delay = none ∧ s.ctxAt 0 0 = some s.cur ∧
     (((s.focus s.cur.uid).advance (max s.cur.clk (s.cur.since + 2 ^ 20))).emptyPop).isSome = true) := by
  decide +kernel

/-- A command of engine queue 0 that has started. -/
def command0 (x : Cmd) : Command :=
  { num := 3, eq := 0, start := 5, batch := 0, bundle := 0, handler := false, cmd := x, closed := false, owed := 0, begun := false, asked := false,
    pend := false, got := [], flag := none }

/-- The same with its source bytes, which are 7. -/
def ready0 (x : Cmd) (src len : Nat) : Command :=
  { command0 x with begun := true, asked := true, got := (List.range len).map (fun i => (src + i, 7)) }

/-- The context of mem0 with commands in engine queues 0 and 1. -/
def engine0 (l : List Command) : State :=
  mem0.withCur { mem0.cur with eqs := (mem0.cur.eqs.set 0 l).set 1 l, openB := { num := 0, left := 1, total := 1 } }

/-- The same with the translation of page 0 cached at die 0. -/
def mapped0 (l : List Command) : State :=
  { engine0 l with dies := State.reset.dies.set 0 { DieRec.reset with tlb := [(0, flatEntry 0)] } }

/-- A command that has the turn in its queue, and has begun. -/
def hasTurn (s : State) (k : Command) : Bool :=
  let j := (s.beginReads k).commandNow k
  s.turn 0 == some k && s.cur.flagDue 0 == none && (List.range 4).all (fun q => (s.cur.eqs.toList.getD q []).all (fun x => x.num != k.num || x == k)) &&
    !j.closed && !j.pend && j.owed == 0

theorem meets_EngineCommandsRun_starts :
    (let k := command0 (.cpy 0x1FE20000_00000000 0x1FE20000_00000040 100)
     let c : Ctx := { mem0.cur with waiting := [k], earliest := 6 }
     mem0.cur.run = .issuing ∧ c.parked = none ∧ c.dlf = false ∧ firstTimed c.waiting = some k ∧ (c.waiting.map (·.num)).Nodup ∧ k.start < max c.clk c.earliest ∧
     (mem0.withCur c).ctxAt 0 0 = some c) ∧
    (let k := command0 (.cpy 0x1FE20000_00000000 0x1FE20000_00000040 0)
     hasTurn (engine0 [k]) k = true ∧ k.cmd.closes = false ∧ (engine0 [k]).settlingCmd k.cmd = false ∧ k.cmd.empty = true) ∧
    (let k := command0 (.qfence 3); hasTurn (engine0 [k]) k = true) := by
  and_intros <;> decide +kernel

theorem meets_EngineCommandsRun_copies :
    (let k := command0 (.cpy 0x1FE20000_00000000 0x1FE20000_00000080 100)
     let s := engine0 [k]
     s.turn 0 = some k ∧ k.cmd.closes = false ∧ s.settlingCmd k.cmd = false ∧ k.cmd.empty = false ∧ s.fills k.cmd = [] ∧
     (s.ownRuns k.cmd).head? = some (.alloc 0 0 2, 0x80, 64, 0x1FE20000_00000080) ∧ s.ctxAt 0 0 = some s.cur) ∧
    (let k := command0 (.cpy 0x100 0x200 8)
     let s := mapped0 [k]
     hasTurn s k = true ∧ s.settlingCmd k.cmd = false ∧ s.spot 0 0 0x100 8 true false = .here ((List.range 8).map (0x100 + ·)) ∧
     s.spot 0 0 0x200 8 false false = .here ((List.range 8).map (0x200 + ·)) ∧ ((List.range 8).map (0x100 + ·)).Nodup ∧
     (∀ x, x < 8 → ((s.dieRec 0).cached 0 (0x100 + x)).isSome = true ∧ ((s.dieRec 0).cached 0 (0x200 + x)).isSome = true ∧ (s.dieRec 0).migOf 0 (0x100 + x) = none) ∧
     s.mem.wf = true) ∧
    (let k := ready0 (.cpy 0x1FE20000_00000000 0x1FE20000_00000080 8) 0x1FE20000_00000080 8
     let s := engine0 [k]
     hasTurn s k = true ∧ ((s.beginReads k).performCmd ((s.beginReads k).commandNow k)).fails = [] ∧
     ((s.beginReads k).performCmd ((s.beginReads k).commandNow k)).puts ≠ []) := by
  and_intros <;> decide +kernel

/-- A command that waits for its flag. -/
def flagged0 (p : DWord) (skip : Bool) : Command :=
  { command0 (.rwg 0x1FE20000_00000000 0x1FE20000_00000080 8 p) with closed := true, flag := some (p, skip) }

/-- The gang with that command at the head of its queue. -/
def flags0 (p : DWord) (skip : Bool) : State := gang0.withCur { gang0.cur with eqs := gang0.cur.eqs.set 0 [flagged0 p skip] }

theorem meets_EngineCommandsRun_flags :
    (let s := flags0 0x1FE20000_00000008 false
     s.cur.flagDue 0 = some (flagged0 0x1FE20000_00000008 false, 0x1FE20000_00000008, false) ∧ (s.resolve 0x1FE20000_00000008 0 4 4 .dest false).2 = [] ∧
     (s.ownSite 0x1FE20000_00000008).isSome = true ∧ s.ctxAt 0 0 = some s.cur) ∧
    (let s := flags0 0x20220000_00000008 true
     s.cur.flagDue 0 = some (flagged0 0x20220000_00000008 true, 0x20220000_00000008, true) ∧ (s.resolve 0x20220000_00000008 0 4 4 .dest false).2 = [] ∧
     s.ownSite 0x20220000_00000008 = none ∧ (s.resolve 0x20220000_00000008 0 4 4 .dest false).1.holders = [(8, 0)]) := by
  and_intros <;> decide +kernel

theorem meets_EngineCommandsRun_remoteWrites :
    (let k := ready0 (.rwr 0x50300000_00000000 0x1FE20000_00000080 100 0x50300000_00000100 false 0) 0x1FE20000_00000080 100
     let s := engine0 [k]
     hasTurn s k = true ∧ (s.partN s.cur.part).port < 8 ∧ (s.portN (s.partN s.cur.part).port).roomFor 1 = true ∧ s.behindReads k = false ∧
     (s.portN (s.partN s.cur.part).port).hasLeft 3 = false ∧ (0x50300000_00000000 : DWord).toNat / 2 ^ 60 = 5 ∧ s.cur.tile < 1024 ∧
     (((s.beginReads k).sourceBlocks ((s.beginReads k).commandNow k).got 0x1FE20000_00000080 100).toOption).isSome = true) := by
  and_intros <;> decide +kernel

/-- A load of tile 8's allocation 2 by tile 0, or of global address 0x80 by tile 128. -/
def request0 (source tile : Nat) (addr : DWord) (ask : Ask) (sink : Sink) (stage : Stage) : Request :=
  { id := 1, uid := 1, part := 0, swarm := 5, source := source, tile := tile, slot := 0, addr := addr, ask := ask, sink := sink, slice := none, acquire := false,
    stage := stage, readyAt := 7, data := [], denied := false, status := 0, home := none, engine := none, bundle := 0, epoch := 0, strong := false,
    at_ := 0, shadow := [], skip := [] }

/-- mem0 with that request, and with another task of the swarm on tile 8. -/
def moving0 (r : Request) : State :=
  { mem0 with requests := [r], nextReq := 2, others := [{ mem0.cur with uid := 2, tile := 8, allocs := [⟨2, 0, 16, 0⟩] }],
              dies := State.reset.dies.set 0 { DieRec.reset with tlb := [(0, flatEntry 0x80)] } }

theorem meets_RequestsAndWaitsMoveOn_mesh :
    (∀ x ∈ [Stage.queued, .served], let r := request0 0 8 0x20220000_00000008 (.load [⟨0, 8, 4⟩]) .discard x
     (moving0 r).requestOf r.id = some r ∧ r.space = 2 ∧ r.stage = x ∧ clusterOf 0 ≠ clusterOf 8 ∧
       (nextSlot 7 (((moving0 r).partN 0).slotsOf 0 1)).any (fun m => ((moving0 r).partN 0).forwards 0 1 (m % 256)) = true ∧
       (nextSlot 7 (((moving0 r).partN 0).slotsOf 1 0)).any (fun m => ((moving0 r).partN 0).forwards 1 0 (m % 256)) = true) ∧
    (let r := request0 0 128 0x20220000_00000008 (.load [⟨0, 8, 4⟩]) .discard .queued
     ((moving0 r).partN 0).slotsOf (clusterOf 0) (clusterOf 128) = [] ∧ clusterOf 0 ≠ clusterOf 128) ∧
    (∀ a ∈ [Ask.load [⟨0, 8, 4⟩], .store [⟨8, 4, 7⟩]], let r := request0 0 8 0x20220000_00000008 a .discard .moving
     (moving0 r).requestOf r.id = some r ∧ r.space = 2 ∧ (moving0 r).mayServe r = true ∧ r.ask.isWait = false ∧
     ((moving0 r).meshTask r).any (fun d => (moving0 r).ctxOf d.uid == some d && !d.hasArrival r.id) = true) ∧
    (let r := { request0 0 8 0x20220000_00000008 (.load [⟨0, 8, 4⟩]) .discard .moving with bundle := 1 }
     let s : State := { moving0 r with requests := [{ r with id := 0, bundle := 0, stage := .queued, ask := .store [⟨8, 4, 7⟩] }, r] }
     s.requestOf r.id = some r ∧ s.mayServe r = false) := by
  decide +kernel

theorem meets_RequestsAndWaitsMoveOn_global :
    (let r := request0 128 128 0x80 (.load [⟨0, 0x80, 4⟩]) .discard .queued
     let s := moving0 r
     s.requestOf r.id = some r ∧ r.space = 0 ∧ r.stage = .queued ∧ s.mayServe r = true ∧ (r.ask.runs.all (fun x => !s.settling r.part 0 x.1 && !s.settling r.part 0 (x.1 + x.2 - 1))) = true ∧
     s.merging (mergeAgent r.id) r.part 0 r.ask.runs = false ∧
     (((s.reach 7).keepAsk 0 0 0x80 (.load [⟨0, 0x80, 4⟩])).keepTile 128 0 0 0x80).spot 0 0 0x80 4 false false = .here [0x80, 0x81, 0x82, 0x83]) ∧
    (let r := request0 128 128 0x4000 (.load [⟨0, 0x4000, 4⟩]) .discard .queued
     (moving0 r).mayServe r = true ∧ (((moving0 r).reach 7).keepAsk 0 0 0x4000 (.load [⟨0, 0x4000, 4⟩])).spot 0 0 0x4000 4 false false = .denied ∧ dieOf 128 ≠ 0) ∧
    (let r := request0 128 128 0x80 (.store [⟨0x80, 4, 7⟩]) .discard .queued
     let s := moving0 r
     s.requestOf r.id = some r ∧ s.mayServe r = true ∧ 0x80 % 4096 + 4 ≤ 4096 ∧ s.mem.wf = true ∧ [0x80, 0x81, 0x82, 0x83].Nodup ∧ (s.dieRec 0).migOf 0 0x80 = none ∧
     (((s.reach 7).keepAsk 0 0 0x80 r.ask).keepTile 128 0 0 0x80).spot 0 0 0x80 4 true false = .here [0x80, 0x81, 0x82, 0x83]) := by
  decide +kernel

/-- A task whose next syllable is WAITGE or BAR. -/
def waiting0 (i : Instr) (run : Run) (w : Option Wait) : State :=
  let s := run0.withFetchWord 64 (encode i).toNat
  s.withCur { s.cur with run := run, wait := w, clk := 90 }

theorem meets_RequestsAndWaitsMoveOn_waits :
    (let s := waiting0 (.waitge plain 5 8 1 0) .waiting none
     s.cur.run = .waiting ∧ s.cur.wait.bind (·.watch) = none ∧ s.ctxAt 0 0 = some s.cur ∧ s.ctxOf s.cur.uid = some s.cur ∧ (s.lookAt s.cur.uid).ownWaitHolds = true) ∧
    (let s := waiting0 (.bar plain 3) .waiting none
     s.cur.run = .waiting ∧ s.cur.wait.bind (·.watch) = none ∧ (s.lookAt s.cur.uid).releaseOver = true) ∧
    (let s := waiting0 (.waitge plain 5 8 1 0) .issuing (some wait0)
     s.cur.run = .issuing ∧ s.cur.wait = some wait0 ∧ wait0.watch = none ∧ s.cur.delay = none ∧ (s.lookAt s.cur.uid).ownWaitHolds = true ∧ wait0.since + 4 ≤ s.cur.clk) ∧
    (∀ x ∈ [Run.waiting, .issuing], let s := waiting0 (.bar plain 3) x (some { wait0 with arrived := some 2 })
     s.barGroup s.cur = some 3 ∧ s.cur.arrivedAt = some 2 ∧ s.genDone s.cur 3 2 = some 10 ∧ s.groupScope 3 = some 1 ∧ 10 + 4 ≤ s.cur.module) := by
  decide +kernel

theorem meets_RepliesReachTheTile :
    (∀ x ∈ [request0 0 8 0x20220000_00000008 (.load [⟨0, 8, 4⟩]) (.queue 1 1 false 32 0) .replying, request0 0 0 0x80 (.load [⟨0, 0x80, 4⟩]) (.queue 1 1 false 32 0) .served],
      let s := moving0 x
      let c : Ctx := { s.cur with rq := s.cur.rq.set 1 [{ entry0 with owed := 1 }] }
      (s.withCur c).requestOf x.id = some x ∧ (s.withCur c).ctxOf x.uid = some c ∧ c.run ≠ .saved ∧ x.uid ≠ 0 ∧ x.engine = none ∧ x.home = none ∧
      (x.space = 0 ∧ x.stage = .served ∨ (x.space = 2 ∨ x.space = 4) ∧ x.stage = .replying) ∧ c.rq[1] = { entry0 with owed := 1 } :: [] ∧ entry0.request = 1 ∧
      c.parked = none ∧ ∀ y ∈ x.data, y.1 ≠ 0) ∧
    (let x := { request0 0 0 0x80 (.store [⟨0x80, 4, 7⟩]) .discard .served with slice := some 0, denied := true }
     (moving0 x).requestOf x.id = some x ∧ (moving0 x).ctxOf x.uid = some mem0.cur ∧ x.space = 0 ∧ x.stage = .served ∧ x.slice = some 0) := by
  decide +kernel

/-! ## Hypotheses of the statements about migration and the fabric are met -/

/-- Page tables of die 0 (R163, R164): stage one maps the page at offset 0 through seven tables to frame 0x6000_2000, in the
share above the save area (R81), stage two maps everything to itself. -/
def tableMem : Memory :=
  let node (a : Nat) (e : Nat) (m : Memory) : Memory := Memory.writeNat m a 8 e
  node 0x20000 (2 ^ 63 + 2 ^ 62 + 7 * 2 ^ 59) (node 0x60016000 (2 ^ 63 + 2 ^ 62 + 7 * 2 ^ 59 + 0x60002000)
    ((List.range 6).foldl (fun m i => node (0x60010000 + 0x1000 * i) (2 ^ 63 + 0x60011000 + 0x1000 * i) m) []))

/-- The leaf of the page at offset 0. -/
def leaf0 : DWord := BitVec.ofNat 64 (2 ^ 63 + 2 ^ 62 + 7 * 2 ^ 59 + 0x60002000)

/-- A migration of that page that has copied. -/
def move0 : Migration :=
  { num := 1, part := 0, va := 0, size := 0x1000, leafAt := 0x60016000, target := leafWith leaf0 0 0x60003, queue := [], copied := true, owed := 0 }

/-- The module with those tables, some migrations and some pins. -/
def paged0 (ms : List Migration) (pins : List (Nat × Nat × Nat)) : State :=
  { run0 with mem := tableMem, dies := State.reset.dies.set 0 { DieRec.reset with roots := [(0, 0x60010000)], stage2 := [(0, 0x20000)], migs := ms, pins := pins } }

theorem meets_MigrationsMovePages :
    (let s := paged0 [] []
     (∀ q ∈ s.requests, q.forwardedIn 0 0 0 0x1000 = false) ∧ s.leafOf 0 0 (2 ^ 40) = none ∧ s.leafOf 0 0 0 = some (leaf0, 0x60016000, 12) ∧ pageLevels[7 - 1]? = some (12, 4) ∧
     (s.dieRec 0).migOf 0 0 = none ∧ (0x800 : Nat) % 2 ^ 12 ≠ 0 ∧ s.leafOf 0 0 0x800 = some (leaf0, 0x60016000, 12) ∧ s.targetOk 0 0 (leafWith leaf0 0 0x60003) (2 ^ 12) = true ∧
     s.placed 0 0 leaf0 (2 ^ 12) = true ∧ pteTier leaf0 ≠ 2 ∧ s.recentMoves 0 0 0 = [] ∧ s.mem.wf = true) ∧
    (let s := paged0 [move0] []
     (s.dieRec 0).migOf 0 0 = some move0 ∧ (s.dieRec 0).move 0 0 = some move0 ∧ (∀ q ∈ s.requests, q.movesWith 0 move0 = true → q.unknown = false) ∧ move0.owed = 0 ∧ move0.queue = [] ∧ move0.copied = true ∧ s.mem.wf = true) ∧
    (let s := paged0 [] [(0, 0, 0)]
     (s.dieRec 0).pins.find? (fun x => x.1 == 0 && x.2.1 == 0 && decide (x.2.2 ≤ s.cycle)) = some (0, 0, 0)) := by
  decide +kernel

/-- A header of a type from module 4 to module 0 with an identifier and a block. -/
def head0 (type xfer block : Nat) : DWord := BitVec.ofNat 64 (type * 2 ^ 60 + 4 * 2 ^ 52 + xfer * 2 ^ 28 + block * 2 ^ 8)

/-- A request payload: TARGET, FLAG, LENGTH, OP, AOP, TAG, OPA, SRCTILE (R41). -/
def payload0 (target flag length op aop tag opa srctile : Nat) : BitVec 512 :=
  BitVec.ofNat 512 (target + flag * 2 ^ 64 + length * 2 ^ 192 + op * 2 ^ 224 + aop * 2 ^ 232 + tag * 2 ^ 240 + opa * 2 ^ 320 + srctile * 2 ^ 448)

/-- A grant record (R51). -/
def grant0 (kind rights len : Nat) : BitVec 512 := BitVec.ofNat 512 (1 + kind * 2 ^ 32 + rights * 2 ^ 40 + len * 2 ^ 128)

/-- The module whose port 0 has exported 4 KiB of global memory with every right to module 4, with a flit in its inbox and more. -/
def fab0 (f : Port → Port) : State :=
  { mem0 with
    ports := State.reset.ports.set 0 (f { Port.reset with exported := [⟨1, 0xF, 0, 0x1000, 0, 4, false, none, none⟩], pairs := [{ Pair.fresh 4 with kept := [(3, 0)], sendS := 4 }] })
    dies := State.reset.dies.set 0 { DieRec.reset with tlb := [(0, flatEntry 0x80)] } }

/-- A request that port 0 has sent to module 4. -/
def sent0 (op : Nat) (command : Option (Nat × Nat × Nat)) (request : Option Nat) (resends : Nat) : Outgoing :=
  { xfer := 6, dst := 4, payload := payload0 0 0 8 op 0 0 0 0, blocks := [], lossy := false, direct := false, command := command, request := request, sentAt := some 0,
    resends := resends, left := 0 }

theorem meets_PortsPairsAndGrants_pairs :
    (let s := fab0 id
     (s.portPart 0).isSome = true ∧ 4 ≠ s.ownModule ∧ (s.ownModule ^^^ 4) % 4 = s.window % 4 ∧ headClean (head0 2 6 1) = true ∧ headType (head0 2 6 1) ∈ [1, 2, 4, 6] ∧
     headDst (head0 2 6 1) = s.ownModule ∧ (∃ k ∈ ((s.portN 0).pair 4).kept, k.1 = 3) ∧ ((s.portN 0).pair 4).sendS = 4 ∧ (∀ k ∈ ((s.portN 0).pair 4).kept, k.1 ≠ 4) ∧ ((s.portN 0).pair 4).left = none ∧
     (((s.portN 0).pair 4).madeBefore 0 = false ∧ ((s.portN 0).pair 4).stale = [] ∧ ({ Pair.fresh 4 with since := some 4 }).madeBefore 0 = true ∧
      headClean (head0 1 6 0) = true ∧ headDst (head0 1 6 0) = s.ownModule ∧ headSrc (head0 1 6 0) = 4) ∧
     headSrc (head0 2 6 1) = 4 ∧ ((s.portN 0).pair 4).nak = false ∧ (s.portN 0).sent 4 = none ∧ ({ Pair.fresh 4 with nak := true }).nak = true) ∧
    (let s := fab0 (fun p => { p with wire := [⟨4, [], []⟩] }); (s.portN 0).sent 4 = some ⟨4, [], []⟩ ∧ (⟨4, [], []⟩ : Sent).count < 226) ∧
    (let p := { Port.reset with pairs := [{ Pair.fresh 4 with silent := 3 }] }
     p.seesDown (0 * 256 + 4) ≠ true ∧ p.bearsOut 0 0 4 true = true ∧ p.seesDown (1 * 256 + 6) ≠ true ∧ p.bearsOut 0 1 7 true = true ∧ p.seesDown 7 = false ∧
     (p.pair 5).silent < 3) ∧
    (flitChecks 1 (seqSeed 0) = false ∧ flitChecks 1 lossySeed = false ∧ flitChecks 1 controlSeed = false) ∧
    (let s := { fab0 (fun p => { p with pendingDown := [(7, true, 8)], outgoing := [sent0 3 none (some 1) 3] }) with window := 12, requests := [request0 0 0 0x50400000_00000000 (.load [⟨0, 0, 8⟩]) .discard .moving] }
     (s.portN 0).pendingDown = [(7, true, 8)] ∧ 8 ≤ s.window ∧ (s.portN 0).outgoing = [sent0 3 none (some 1) 3] ∧ (Req.of (sent0 3 none (some 1) 3).payload).op = 3 ∧
     (sent0 3 none (some 1) 3).sentAt = some 0 ∧ 0 + 12 ≤ s.window ∧ (sent0 3 none none 2).resends < 3 ∧ (s.requestOf 1).any (fun x => x.id == 1) = true) ∧
    (({ Pair.fresh 4 with left := some 4 }).left = some 4 ∧ 4 + 8 ≤ 12 ∧ (fab0 id).ownModule < 256 ∧ (fab0 (fun p => { p with outgoing := [sent0 1 none none 0] })).portN 0 =
      { (fab0 id).portN 0 with outgoing := [sent0 1 none none 0] }) := by
  decide +kernel

theorem meets_PortsPairsAndGrants_grants :
    ((fab0 id).portPart 0).isSome = true ∧ (∀ k ∈ [1, 2, 3], (GrantMsg.of (grant0 k (if k = 1 then 0xF else 0) (if k = 1 then 0x1000 else 0))).kind = k ∧
      (GrantMsg.of (grant0 k (if k = 1 then 0xF else 0) (if k = 1 then 0x1000 else 0))).sound = true) ∧ (GrantMsg.of (grant0 4 0 0)).sound = false ∧
    headType (head0 6 0 0) = 6 ∧ headSrc (head0 6 0 0) = 4 ∧ (GrantMsg.of (grant0 3 0 0)).gid = 1 ∧ ((fab0 id).portN 0).exported = [⟨1, 0xF, 0, 0x1000, 0, 4, false, none, none⟩] ∧
    (1 : Word) &&& 0x800F_FFFF ≠ 0 ∧ (0x80_0000 : DWord).getLsbD 23 = true := by
  decide +kernel

/-- A write of one block from module 4, all of which is here or none. -/
def write0 (lossy denied : Bool) (arrived : List Nat) : Incoming :=
  { src := 4, xfer := 6, payload := payload0 0 0x80 8 (if lossy then 2 else 1) 0 0 0 0, lossy := lossy, arrived := arrived, denied := denied,
    data := 0, flag := 0x80, mask := 0 }

theorem meets_WritesReachThePort_arrivals :
    (let s := fab0 (fun p => { p with inbox := [(0, head0 1 6 0, payload0 0 0x80 8 1 0 0 0 0)] })
     (s.portPart 0).isSome = true ∧ headType (head0 1 6 0) = 1 ∧ (∀ h ∈ (s.portN 0).held, ¬(h.1 = 4 ∧ h.2.1 = 6)) ∧ (Req.of (payload0 0 0x80 8 1 0 0 0 0)).op = 1 ∧
     (Req.of (payload0 0 0x80 8 1 0 0 0 0)).flag ≠ 2 ^ 64 - 1 ∧ (Req.of (payload0 0 0x80 8 2 0 0 0 0)).op = 2 ∧ windowStart 5 ≤ (Req.of (payload0 0 0x80 8 2 0 0 0 0)).close + 6250 ∧
     (s.portN 0).transfer 4 6 = none ∧ s.writeSites 0 0 4 (Req.of (payload0 0 0x80 8 1 0 0 0 0)) false = some (0, 0x80, 0)) ∧
    (let s := fab0 (fun p => { p with incoming := [write0 false false []] })
     (s.portN 0).transfer 4 6 = some (write0 false false []) ∧ headType (head0 2 6 0) = 2 ∧ headBlock (head0 2 6 0) ∉ (write0 false false []).arrived ∧
     headBlock (head0 2 6 0) < (Req.of (write0 false false []).payload).blocks ∧ headType (head0 3 6 0) = 3 ∧
     (write0 false false []).lossy = false ∧ (write0 false true []).denied = true ∧ s.landWaits 0 (write0 false false []) 0 = false ∧ offAt 0 % 4096 + 8 ≤ 4096 ∧
     (s.exportKeep 0 0 8).spot 0 (dieAt 0) (offAt 0) 8 true false = .here (List.range 8) ∧ (List.range 8).Nodup ∧ s.mem.wf = true ∧ (s.dieRec 0).migOf 0 0 = none) ∧
    ((Req.of (payload0 0 (2 ^ 64 - 1) 8 1 0 0 0 0)).flag = 2 ^ 64 - 1 ∧ headSrc (head0 2 6 0) = headSrc (head0 1 6 0) ∧ headXfer (head0 2 6 0) = headXfer (head0 1 6 0) ∧
     (fab0 id).exportBusy (exportAgent 0 (4, 6)) 0 = false ∧ (fab0 id).reachable 0 0 4 0 8 2 true false = some 0 ∧ (fab0 id).reachable 0 0 4 0x1000 8 2 true false = none ∧
     (fab0 id).exportWaits 0 0 0 8 = false ∧ ∀ y ∈ ((fab0 id).partN 0).far, y.1 / 2 ^ 65 ≠ exportAgent 0 (4, 6)) := by
  decide +kernel

theorem meets_WritesReachThePort_flags :
    (∀ d ∈ [false, true], let i := write0 false d [0]
      let s := fab0 (fun p => { p with incoming := [i] })
      (s.portN 0).transfer 4 6 = some i ∧ i.open = [] ∧ (s.portN 0).nextFlag i.source = (Req.of i.payload).qseq % 64 ∧ i.lossy = false ∧ i.denied = d ∧
      s.exportBusy (exportAgent 0 i.key) 0 = false ∧ (s.partN 0).exportFailed (exportAgent 0 i.key) = false ∧ s.exportWaits (exportAgent 0 i.key + 1) 0 i.flag 4 = false ∧
      s.spot 0 (dieAt i.flag) (offAt i.flag) 4 true true = .here [0x80, 0x81, 0x82, 0x83] ∧ [0x80, 0x81, 0x82, 0x83].Nodup ∧ s.mem.wf = true ∧ (s.dieRec 0).migOf 0 0x80 = none) ∧
    (let i := write0 true false []
     i.lossy = true ∧ (Req.of i.payload).close + 6250 < windowStart (5 + 1) ∧ ((fab0 (fun p => { p with incoming := [i] })).portN 0).transfer 4 6 = some i ∧ (∀ d, d < 8 → ((fab0 id).dieRec d).migs = []) ∧
     (∀ x ∈ (fab0 id).requests, x.uid = 0 → x.swarm < 2 * firstMerge) ∧ ∀ x ∈ ((fab0 id).partN 0).far, x.1 < 2 ^ 65 * firstMerge) ∧
    (fab0 id).reachable 0 0 4 0x1000 8 2 true false = none ∧ ((fab0 id).reachable 0 0 4 0x80 8 2 true false).isSome = true := by
  decide +kernel

theorem meets_LoadsAtomicsAndWatchesAreAnswered :
    (let r := Req.of (payload0 0x80 0 4 4 1 9 5 0)
     r.op = 4 ∧ r.aop = 1 ∧ r.length = 4 ∧ (fab0 id).reachable 0 0 4 r.target 4 4 true true = some 0x80 ∧ (fab0 id).exportRead (exportAgent 0 (4, 6)) 0 0x80 4 = .got 0 ∧
     (fab0 id).exportWaits (exportAgent 0 (4, 6)) 0 0x80 4 = false ∧ (fab0 id).spot 0 (dieAt 0x80) (offAt 0x80) 4 true true = .here [0x80, 0x81, 0x82, 0x83] ∧
     (fab0 id).reachable 0 0 4 0x1000 4 4 true true = none ∧ (∀ x ∈ (((fab0 id).portN 0).pair 4).cache, x.1 ≠ r.tag) ∧ newerTag r.tag none = true ∧
     newerTag r.tag (some 9) = false ∧ newerTag (9 + 32767) (some 9) = true ∧ newerTag (9 + 32768) (some 9) = false ∧
     [(9, (5 : BitVec 512), (0 : Byte))].find? (fun x => x.1 == r.tag) = some (r.tag, 5, 0)) ∧
    ((Req.of (payload0 0x80 0 4 3 0 0 0 0)).op = 3 ∧ (Req.of (payload0 0x80 0 4 5 0 0 0 7)).op = 5 ∧ (fab0 id).reachable 0 0 4 0x80 4 1 false false = some 0x80 ∧
      pagesOf 0x80 4 = [(0x80, 4)] ∧ (fab0 id).spot 0 (dieAt 0x80) (offAt 0x80) 4 false false = .here [0x80, 0x81, 0x82, 0x83] ∧
      (∀ x ∈ [[(0, farEntry 0x80)], []], ({ fab0 id with dies := State.reset.dies.set 0 { DieRec.reset with tlb := x } }).exportRead 7 0 0x80 4 = (if x = [] then .denied else .away))) ∧
    (let h : HeldWatch := ⟨4, 7, 6, payload0 0x80 0 4 5 0 0 0 7⟩
     let s := fab0 (fun p => { p with watches := [h] })
     (s.portN 0).watches = [h] ∧ h.src < 256 ∧ h.srctile < 2 ^ 16 ∧ s.reachable 0 0 4 0x80 4 1 false false = some 0x80 ∧
     s.exportRead (exportAgent 0 (h.src, h.xfer)) 0 0x80 4 = .got 0 ∧ (0 + 2 ^ 32 - (Req.of h.payload).opa % 2 ^ 32) % 2 ^ 32 < 2 ^ 31 ∧ (Req.of h.payload).opb % 2 = 0) ∧
    (let k := { command0 (.qfence 0) with closed := true, owed := 1 }
     let s := fab0 (fun p => { p with inbox := [(0, head0 4 6 0, 0)], outgoing := [sent0 1 (some (1, 0, 3)) none 0] })
     let c := (engine0 [k]).cur
     headType (head0 4 6 0) = 4 ∧ (sent0 1 (some (1, 0, 3)) none 0).xfer = headXfer (head0 4 6 0) ∧ (sent0 1 (some (1, 0, 3)) none 0).dst = headSrc (head0 4 6 0) ∧
     (s.withCur c).ctxOf 1 = some c ∧ (Req.of (sent0 1 (some (1, 0, 3)) none 0).payload).op = 1 ∧ (Req.of (sent0 2 (some (1, 0, 3)) none 0).payload).op = 2 ∧ c.command 3 = some k ∧ c.run ≠ .saved ∧ k.flag = none ∧
     (sent0 2 (some (1, 0, 3)) none 0).left = 0) := by
  decide +kernel

theorem meets_StepKeepsMemoryCanonical : (∃ t, step run0 = .next t) ∧ run0.mem.wf = true := by
  refine ⟨?_, by decide +kernel⟩
  have h : (match step run0 with | .next _ => true | _ => false) = true := by decide +kernel
  cases hs : step run0 <;> simp_all

/-! ## Results worked out from the rules and the manual's examples -/

/-- The scalar that a syllable leaves in a register once its result can be read. -/
def readsAfter (s : State) (i : Instr) (r : SRegNo) : Option Word :=
  match exec i s with
  | .next t => some ((t.advance (t.cur.clk + 40)).cur.s r)
  | _ => none

/-- A lane of the vector register that a syllable leaves. -/
def laneAfter (s : State) (i : Instr) (v : VNum) (l : Nat) : Option Word :=
  match exec i s with
  | .next t => some (((t.advance (t.cur.clk + 60)).cur.v v).bits.extractLsb' (32 * l) 32)
  | _ => none

/-- Hand arithmetic on s5 = 7, s6 = -2 (R246 to R254): wrap-around, signed and unsigned products and quotients, shifts. -/
theorem test_scalar_arithmetic :
    ([.add plain 3 5 6, .sub plain 3 0 5, .mul plain 3 5 6, .mulh plain 3 5 6, .mulhu plain 3 5 6, .div plain 3 5 6, .rem plain 3 6 5, .sar plain 3 6 28,
      .shr plain 3 6 28, .clz plain 3 5, .addi plain 3 5 (-12), .lih plain 3 0x1234].map (fun i => readsAfter s0 i 3)) =
    [some 5, some (-7), some (-14), some 0xFFFFFFFF, some 6, some (-3), some (-2), some (-1), some 0x1FFFFFFF, some 29, some (-5), some 0x12340000] := by
  decide +kernel

/-- R13's example of TAGD: SPACE := 2, then CRANK := 75, on 0x1FE3_0000_0000_0100. -/
theorem test_tagd_example :
    let s := s0.withCur { s0.cur with sregs := (((s0.cur.sregs.set 8 ⟨0x100, false⟩).set 9 ⟨0x1FE30000, false⟩).set 20 ⟨2, false⟩).set 21 ⟨75, false⟩ }
    (match exec (.tagd plain 4 4 20 0) s with
     | .next t => (match exec (.tagd plain 4 4 21 1) (t.advance 2) with
        | .next u => decide ((u.advance 4).cur.d 4 = 0x2963_0000_0000_0100)
        | _ => false)
     | _ => false) = true := by decide +kernel

/-- 1 + 1 = 2, 1 × 1 = 1 and 1 - 1 = 0 in T32e2, and NaR propagates (R203 to R208). -/
theorem test_posit_arithmetic :
    [laneAfter s0 (.vadd plain 0xFF 2 4 8 40 false false) 4 0, laneAfter s0 (.vmul plain 0xFF 2 4 8 40 false false) 4 127, laneAfter s0 (.vsub plain 0xFF 2 4 8 40 false false) 4 5,
      laneAfter s0 (.vadd plain 0xFF 2 4 8 10 false false) 4 0] = [some 0x48000000, some 0x40000000, some 0, some 0x80000000] := by
  decide +kernel

/-- The worked block of R216: 100, -3, 0.5 and 0 (in T32e1 0x7920_0000, 0xA800_0000, 0x3000_0000, 0) quantised to T8e1 give 0x000C_E464, and byte 2 of the scale
register is 4 (the example of R305). -/
theorem test_vqnt_example :
    let s := s0.withCur { s0.cur with vregs := (((s0.cur.vregs.set 4 (lanesOf 0x79200000)).set 5 (lanesOf 0xA8000000)).set 6 (lanesOf 0x30000000)).set 7 (lanesOf 0) }
    laneAfter s (.vqnt plain 0xFF 9 20 4 30 1 false 2) 20 3 = some 0x000CE464 ∧ laneAfter s (.vqnt plain 0xFF 9 20 4 30 1 false 2) 30 3 = some 0x00040000 := by
  decide +kernel

/-- The example of R224: 20/3 in T16e1 is 0x6555. -/
theorem test_round_example : (roundRat 20 3 16 1).pat = 0x6555 := by decide +kernel

/-- The example of R295: with (1, -2) and (3, -4) in a lane VCMP.LT.t16e1 leaves false; with (1, -2) and (3, 4) true. -/
theorem test_vcmp_example :
    let s := s0.withCur { s0.cur with vregs := ((s0.cur.vregs.set 7 (lanesOf 0xB0004000)).set 13 (lanesOf 0xA0005800)).set 14 (lanesOf 0x60005800) }
    let p (b : VNum) : Option Bool := match exec (.vcmp plain 0x0F 5 3 7 b false false 2) s with
      | .next t => some (((t.advance 40).cur.p 3).getLsbD 5)
      | _ => none
    p 13 = some false ∧ p 14 = some true := by decide +kernel

/-- A quire that takes 1 × 1 on top of nothing rounds to 1 (R212, R299). -/
theorem test_quire_product :
    (match exec (.qmac plain 0xFF 1 0 8 40 false false) s0 with
     | .next t => laneAfter (t.advance 10) (.qrnd plain 0xFF 1 4 0) 4 9
     | _ => none) = some 0x40000000 := by decide +kernel

/-- The examples of R154 and R156: under SWZ 1 the element at L × 2,048 + 12 lies in bank L div 4, under SWZ 0 in bank 0. -/
theorem test_swizzle_example : (List.range 32).all (fun l => swizzle 1 (l * 2048 + 12) % 2048 / 64 == l / 4 && swizzle 0 (l * 2048 + 12) % 2048 / 64 == 0) = true := by
  decide +kernel

/-- The example of R369: the route from cluster 75 to cluster 5 takes 36 cycles. -/
theorem test_route_example : routeCycles 75 5 = 36 := by decide +kernel

/-- A scalar store puts its bytes into the allocation, least significant first (R5, R150). -/
theorem test_store_bytes :
    (match exec (.st plain 5 8 2 6) mem0 with
     | .next t => decide ((List.range 5).map (fun i => Memory.read (t.advance (t.cur.clk + 40)).mem (128 * 2 ^ 60 + 8 + i)) = [0xFE, 0xFF, 0xFF, 0xFF, 0])
     | _ => false) = true := by decide +kernel

/-- Compressed instructions with the words that they stand for, as the RISC-V assembler writes both: addi, sd and ld of sp, ret, mv, li, addi4spn, lw, j, addiw,
ebreak, lui, addi16sp, srli and sub; the zero half-word is illegal. -/
theorem test_compressed_instructions :
    [0x1141, 0xE406, 0x60A2, 0x8082, 0x852E, 0x4501, 0x0800, 0x411C, 0xA001, 0x2785, 0x9002, 0x6785, 0x6105, 0x8385, 0x8D1D, 0].map expandC =
    [some 0xFF010113, some 0x00113423, some 0x00813083, some 0x00008067, some 0x00B00533, some 0x00000513, some 0x01010413, some 0x00052783, some 0x0000006F,
      some 0x0017879B, some 0x00100073, some 0x000017B7, some 0x02010113, some 0x0017D793, some 0x40F50533, none] := by decide +kernel

/-- 1.5 + 2.25 = 3.75 and 1 / 3 in double precision, rounded to the nearest with the inexact flag (IEEE 754). -/
theorem test_double_precision :
    doubleFmt.add 0 (doubleFmt.decode 0x3FF8000000000000) (doubleFmt.decode 0x4002000000000000) = (0x400E000000000000, 0) ∧
    doubleFmt.div 0 (doubleFmt.decode 0x3FF0000000000000) (doubleFmt.decode 0x4008000000000000) = (0x3FD5555555555555, 1) := by decide +kernel

/-- A start that failed in stage 3 for the first time, with REASON 0x03 (R19, R20), as the host reads it at BAR0 (R14). -/
theorem test_bootstatAsTheHostReadsIt :
    ({ run0 with firefly := { Firefly.reset with reason := 3, fails := 1, stage := 3 } }.windowRead (.host 0 0) 0) = 0x0313_0000 := by
  decide +kernel

/-- SCRUBPROG of wing 31 after reset shows its number (R21), to Benale and to no partition that does not own it (R14). -/
theorem test_scrubProgOfAWing :
    State.reset.windowRead .benale 0x1F8 = 0xF800_0000_0000_0000 ∧ State.reset.windowRead (.partitionOs 0) 0x1F8 = 0 := by
  decide +kernel

end Sys2Proof.Tests
end

section
/-!
SUPPORT. What own-cluster stores and word atomics do to the bytes of an allocation in their bank cycle (R5, R155, R157, R158, R172), and the
statement about them.
-/
namespace Sys2Proof.Machine
open Sys2Proof

/-! ## Bytes at physical addresses -/

/-- Bytes that a later syllable of the bundle has written stay (R172). -/
theorem read_writeAddrs_of_mem_skip {skip : List Nat} {b : Nat} (hb : b ∈ skip) :
    ∀ (l : List Nat) {m : Memory} (_ : m.wf = true) (x : Nat), (writeAddrs m skip l x).read b = m.read b
  | [], _, _, _ => rfl
  | p :: l, m, h, x => by
    rw [writeAddrs]
    split
    · exact read_writeAddrs_of_mem_skip hb l h _
    · next hp =>
      have hne : b ≠ p := fun e => hp (List.contains_iff_mem.mpr (e ▸ hb))
      rw [read_writeAddrs_of_mem_skip hb l (Memory.wf_write h _ _) _, Memory.read_write h, if_neg hne]

/-- Byte j of a number lies at the j-th address (R5). -/
theorem read_writeAddrs_getElem {skip : List Nat} {b : Nat} (hb : b ∉ skip) :
    ∀ (l : List Nat) {m : Memory} (_ : m.wf = true) (x j : Nat), l.Nodup → l[j]? = some b →
      (writeAddrs m skip l x).read b = BitVec.ofNat 8 (x / 256 ^ j)
  | p :: l, m, h, x, 0, hnd, hj => by
    obtain rfl : p = b := by simpa using hj
    rw [writeAddrs, if_neg (by simpa using hb), read_writeAddrs skip p l (Memory.wf_write h _ _) _ (List.nodup_cons.mp hnd).1, Memory.read_write h, if_pos rfl]
    simp
  | p :: l, m, h, x, j + 1, hnd, hj => by
    have ih (m' : Memory) (h' : m'.wf = true) := read_writeAddrs_getElem hb l h' (x / 256) j (List.nodup_cons.mp hnd).2 hj
    rw [Nat.div_div_eq_div_mul, ← Nat.pow_succ'] at ih
    rw [writeAddrs]
    split
    · exact ih m h
    · exact ih _ (Memory.wf_write h _ _)

theorem natOfBytes_lt : ∀ l : List Byte, natOfBytes l < 256 ^ l.length
  | [] => Nat.one_pos
  | b :: l => by
    have hl := natOfBytes_lt l
    have hb := b.isLt
    rw [natOfBytes, List.length_cons, Nat.pow_succ]
    omega

/-- A number written at distinct addresses reads back modulo what they hold. -/
theorem natOfBytes_read_writeAddrs : ∀ (l : List Nat) {m : Memory} (_ : m.wf = true) (x : Nat), l.Nodup →
    natOfBytes (l.map (writeAddrs m [] l x).read) = x % 256 ^ l.length
  | [], _, _, x, _ => (Nat.mod_one x).symm
  | p :: l, m, h, x, hnd => by
    obtain ⟨hp, hl⟩ := List.nodup_cons.mp hnd
    have hw := Memory.wf_write h p (BitVec.ofNat 8 x)
    have hhead : (writeAddrs m [] (p :: l) x).read p = BitVec.ofNat 8 x := by
      simpa using read_writeAddrs_getElem (skip := []) List.not_mem_nil (p :: l) h x 0 hnd rfl
    have htail := natOfBytes_read_writeAddrs l hw (x / 256) hl
    rw [List.map_cons, natOfBytes, hhead, List.length_cons, Nat.pow_succ', Nat.mod_mul, ← htail]
    rfl

/-! ## Writes in an allocation -/

section
variable (s : State) (skip : List Nat) (tile slot atag : Nat)

/-- A write in an allocation changes memory only. -/
theorem State.siteWrite_alloc (off size value : Nat) : s.siteWrite skip (.alloc tile slot atag) off size value =
    { s with mem := writeAddrs s.mem skip (s.siteAddrs (.alloc tile slot atag) off size) value } := rfl

/-- The parts of a store change memory only. -/
theorem State.foldl_siteWrite_alloc : ∀ (parts : List Part) (s : State), ∃ m : Memory,
    parts.foldl (fun t p => t.siteWrite skip (.alloc tile slot atag) p.off p.size p.value) s = { s with mem := m }
  | [], s => ⟨s.mem, rfl⟩
  | p :: l, s => by
    obtain ⟨m, hm⟩ := State.foldl_siteWrite_alloc l (s.siteWrite skip (.alloc tile slot atag) p.off p.size p.value)
    exact ⟨m, hm⟩

/-- A byte that no part of a store reaches, or that a later syllable of the bundle has written, reads as before (R172). -/
theorem State.read_foldl_siteWrite_other {b : Nat} : ∀ (parts : List Part) {s : State} (_ : s.mem.wf = true),
    (∀ p ∈ parts, b ∉ s.siteAddrs (.alloc tile slot atag) p.off p.size) ∨ b ∈ skip →
    (parts.foldl (fun t p => t.siteWrite skip (.alloc tile slot atag) p.off p.size p.value) s).mem.read b = s.mem.read b
  | [], _, _, _ => rfl
  | p :: l, s, h, hb => by
    have hrest : (∀ q ∈ l, b ∉ s.siteAddrs (.alloc tile slot atag) q.off q.size) ∨ b ∈ skip :=
      hb.imp_left fun hp q hq => hp q (List.mem_cons_of_mem _ hq)
    rw [List.foldl_cons, State.read_foldl_siteWrite_other l (State.siteWrite_wf h ..) hrest, State.siteWrite_alloc]
    rcases hb with hb | hb
    · exact read_writeAddrs skip b _ h _ (hb p List.mem_cons_self)
    · exact read_writeAddrs_of_mem_skip hb _ h _

/-- The last part of a store that reaches a byte leaves its own byte there (R5). -/
theorem State.read_foldl_siteWrite_last {s : State} (h : s.mem.wf = true) (early late : List Part) (p : Part) {j b : Nat} (hb : b ∉ skip)
    (hj : (s.siteAddrs (.alloc tile slot atag) p.off p.size)[j]? = some b) (hnd : (s.siteAddrs (.alloc tile slot atag) p.off p.size).Nodup)
    (hlate : ∀ q ∈ late, b ∉ s.siteAddrs (.alloc tile slot atag) q.off q.size) :
    ((early ++ p :: late).foldl (fun t p => t.siteWrite skip (.alloc tile slot atag) p.off p.size p.value) s).mem.read b =
      BitVec.ofNat 8 (p.value / 256 ^ j) := by
  have hearly := State.foldl_siteWrite_wf skip (.alloc tile slot atag) early h
  obtain ⟨m, hm⟩ := State.foldl_siteWrite_alloc skip tile slot atag early s
  rw [hm] at hearly
  rw [List.foldl_append, List.foldl_cons, hm, State.read_foldl_siteWrite_other skip tile slot atag late (State.siteWrite_wf hearly ..) (.inl hlate),
    State.siteWrite_alloc]
  exact read_writeAddrs_getElem hb _ hearly _ j hnd hj

/-- The store of an access performs its parts one after another. -/
theorem State.perform_store {a : Access} {parts : List Part} (hact : a.act = .store parts) :
    s.perform a = parts.foldl (fun t p => t.siteWrite a.skip a.site p.off p.size p.value) s := by
  unfold State.perform; rw [hact]

/-! ## Reads of an allocation -/

theorem State.siteRead_alloc (off size : Nat) : s.siteRead [] (.alloc tile slot atag) off size =
    natOfBytes ((s.siteAddrs (.alloc tile slot atag) off size).map s.mem.read) := rfl

theorem State.siteRead_alloc_lt {off n : Nat} (hlen : (s.siteAddrs (.alloc tile slot atag) off n).length = n) :
    s.siteRead [] (.alloc tile slot atag) off n < 2 ^ (8 * n) := by
  have hlt := natOfBytes_lt ((s.siteAddrs (.alloc tile slot atag) off n).map s.mem.read)
  rwa [List.length_map, hlen, ← State.siteRead_alloc, show (256 : Nat) = 2 ^ 8 from rfl, ← Nat.pow_mul] at hlt

/-- A number written in an allocation reads back modulo its size. -/
theorem State.siteRead_siteWrite {s : State} (h : s.mem.wf = true) {off n : Nat} (value : Nat)
    (hnd : (s.siteAddrs (.alloc tile slot atag) off n).Nodup) (hlen : (s.siteAddrs (.alloc tile slot atag) off n).length = n) :
    (s.siteWrite [] (.alloc tile slot atag) off n value).siteRead [] (.alloc tile slot atag) off n = value % 2 ^ (8 * n) :=
  calc
    _ = value % 256 ^ (s.siteAddrs (.alloc tile slot atag) off n).length := natOfBytes_read_writeAddrs _ h value hnd
    _ = value % 2 ^ (8 * n) := by rw [hlen, show (256 : Nat) = 2 ^ 8 from rfl, ← Nat.pow_mul]

/-- A word atomic writes the word that its operation makes of the old one, and answers the old one (R158). -/
theorem State.siteAtom_word (site : Site) (lane off n : Nat) (op : AmoOp) (x : DWord) :
    s.siteAtom site (.word lane off n op x) =
      (s.siteWrite [] site off n (op.eval (8 * n) (s.siteRead [] site off n) x.toNat), (lane, s.siteRead [] site off n)) := rfl

/-- The word that a word atomic leaves is what its operation makes of the old one (R158). -/
theorem State.siteRead_siteAtom {s : State} (h : s.mem.wf = true) {off n : Nat} (lane : Nat) (op : AmoOp) (x : DWord)
    (hnd : (s.siteAddrs (.alloc tile slot atag) off n).Nodup) (hlen : (s.siteAddrs (.alloc tile slot atag) off n).length = n) :
    BitVec.ofNat (8 * n) ((s.siteAtom (.alloc tile slot atag) (.word lane off n op x)).1.siteRead [] (.alloc tile slot atag) off n) =
      BitVec.ofNat (8 * n) (op.eval (8 * n) (BitVec.ofNat (8 * n) (s.siteRead [] (.alloc tile slot atag) off n)).toNat x.toNat) := by
  apply BitVec.eq_of_toNat_eq
  rw [State.siteAtom_word, State.siteRead_siteWrite tile slot atag h _ hnd hlen, BitVec.toNat_ofNat, BitVec.toNat_ofNat, BitVec.toNat_ofNat,
    Nat.mod_mod, Nat.mod_eq_of_lt (s.siteRead_alloc_lt tile slot atag hlen)]

end

/-! ## The bank ALU on machine words (R158) -/

/-- The signed reading of a word is the integer that its bits stand for. -/
theorem signedOf_toNat {w : Nat} (hw : 0 < w) (a : BitVec w) : signedOf a.toNat w = a.toInt := by
  obtain ⟨v, rfl⟩ : ∃ v, w = v + 1 := ⟨w - 1, by omega⟩
  rw [signedOf, BitVec.toInt_eq_toNat_cond, Nat.add_sub_cancel, Nat.pow_succ]
  by_cases h : a.toNat < 2 ^ v
  · rw [if_pos h, if_pos (by omega)]
  · rw [if_neg h, if_neg (by omega)]

section
variable {w : Nat} (a : BitVec w) (x : DWord)

theorem AmoOp.ofNat_eval_add : BitVec.ofNat w (AmoOp.add.eval w a.toNat x.toNat) = a + x.setWidth w := by
  apply BitVec.eq_of_toNat_eq
  simp [AmoOp.eval]

theorem AmoOp.ofNat_eval_and : BitVec.ofNat w (AmoOp.and.eval w a.toNat x.toNat) = a &&& x.setWidth w := by
  rw [AmoOp.eval, ← BitVec.toNat_setWidth, ← BitVec.toNat_and, BitVec.ofNat_toNat, BitVec.setWidth_eq]

theorem AmoOp.ofNat_eval_or : BitVec.ofNat w (AmoOp.or.eval w a.toNat x.toNat) = a ||| x.setWidth w := by
  rw [AmoOp.eval, ← BitVec.toNat_setWidth, ← BitVec.toNat_or, BitVec.ofNat_toNat, BitVec.setWidth_eq]

theorem AmoOp.ofNat_eval_xor : BitVec.ofNat w (AmoOp.xor.eval w a.toNat x.toNat) = a ^^^ x.setWidth w := by
  rw [AmoOp.eval, ← BitVec.toNat_setWidth, ← BitVec.toNat_xor, BitVec.ofNat_toNat, BitVec.setWidth_eq]

theorem AmoOp.ofNat_eval_xchg : BitVec.ofNat w (AmoOp.xchg.eval w a.toNat x.toNat) = x.setWidth w := by
  rw [AmoOp.eval, ← BitVec.toNat_setWidth, BitVec.ofNat_toNat, BitVec.setWidth_eq]

/-- A choice between two words is the choice between their numbers. -/
theorem ofNat_ite_toNat {c d : Prop} [Decidable c] [Decidable d] (hcd : c ↔ d) (a b : BitVec w) :
    BitVec.ofNat w (if c then b.toNat else a.toNat) = if d then b else a := by
  simp only [hcd]
  split <;> simp

theorem AmoOp.ofNat_eval_min (hw : 0 < w) :
    BitVec.ofNat w (AmoOp.min.eval w a.toNat x.toNat) = if (x.setWidth w).slt a then x.setWidth w else a := by
  simp only [AmoOp.eval, ← BitVec.toNat_setWidth, signedOf_toNat hw]
  exact ofNat_ite_toNat BitVec.slt_iff_toInt_lt.symm _ _

theorem AmoOp.ofNat_eval_max (hw : 0 < w) :
    BitVec.ofNat w (AmoOp.max.eval w a.toNat x.toNat) = if a.slt (x.setWidth w) then x.setWidth w else a := by
  simp only [AmoOp.eval, ← BitVec.toNat_setWidth, signedOf_toNat hw]
  exact ofNat_ite_toNat BitVec.slt_iff_toInt_lt.symm _ _

theorem AmoOp.ofNat_eval_maxu :
    BitVec.ofNat w (AmoOp.maxu.eval w a.toNat x.toNat) = if a.ult (x.setWidth w) then x.setWidth w else a := by
  simp only [AmoOp.eval, ← BitVec.toNat_setWidth]
  exact ofNat_ite_toNat BitVec.ult_iff_lt.symm _ _

theorem AmoOp.ofNat_eval_minu :
    BitVec.ofNat w (AmoOp.minu.eval w a.toNat x.toNat) = if (x.setWidth w).ult a then x.setWidth w else a := by
  simp only [AmoOp.eval, ← BitVec.toNat_setWidth]
  exact ofNat_ite_toNat BitVec.ult_iff_lt.symm _ _

theorem AmoOp.ofNat_eval_cas (c : DWord) :
    BitVec.ofNat w ((AmoOp.cas c).eval w a.toNat x.toNat) = if a = c.setWidth w then x.setWidth w else a := by
  simp only [AmoOp.eval, ← BitVec.toNat_setWidth]
  exact ofNat_ite_toNat BitVec.toNat_inj _ _

/-- A posit add in a format as wide as the word rounds the exact sum once. -/
theorem AmoOp.eval_padd {fmt : Fmt} (hfmt : fmtWidth fmt = w) :
    (AmoOp.padd fmt).eval w a.toNat x.toNat =
      (match decodePat a.toNat w (fmtEs fmt), decodePat (x.setWidth w).toNat w (fmtEs fmt) with
        | some u, some v => (roundRat (u + v) (2 ^ 120) w (fmtEs fmt)).pat
        | _, _ => 2 ^ (w - 1)) := by
  simp only [AmoOp.eval, hfmt, Nat.mod_eq_of_lt a.isLt, ← BitVec.toNat_setWidth]
  rfl

end

end Sys2Proof.Machine
namespace Sys2Proof.Certificates
open Sys2Proof Sys2Proof.Machine

/-- Settles O38: a store writes its parts one after another, each byte of a part at its own address, and a word atomic writes what the bank
ALU makes of the word that it reads. -/
theorem performedAccessesInTheirBanks : Obligations.PerformedAccessesInTheirBanks := by
  refine ⟨fun s a tile slot atag parts hsite hact => ?_, fun s tile slot atag lane off n op x hn => ?_⟩
  · simp only [State.perform_store s hact, hsite]
    obtain ⟨m, hm⟩ := State.foldl_siteWrite_alloc a.skip tile slot atag parts s
    refine ⟨by rw [hm], by rw [hm], fun b hwf hb => ?_, ?_, fun hwf => ?_⟩
    · exact State.read_foldl_siteWrite_other a.skip tile slot atag parts hwf hb
    · rintro early late p j b hwf rfl hj hb hnd hlate
      exact State.read_foldl_siteWrite_last a.skip tile slot atag hwf early late p hb hj hnd hlate
    · exact State.foldl_siteWrite_wf a.skip _ parts hwf
  · refine ⟨rfl, rfl, fun b hwf hb => read_writeAddrs [] b _ hwf _ hb, fun hwf hnd hlen => ?_⟩
    have hw : 0 < 8 * n := by omega
    have hnew := State.siteRead_siteAtom tile slot atag hwf lane op x hnd hlen
    cases op with
    | add => exact hnew.trans (AmoOp.ofNat_eval_add _ x)
    | and => exact hnew.trans (AmoOp.ofNat_eval_and _ x)
    | or => exact hnew.trans (AmoOp.ofNat_eval_or _ x)
    | xor => exact hnew.trans (AmoOp.ofNat_eval_xor _ x)
    | min => exact hnew.trans (AmoOp.ofNat_eval_min _ x hw)
    | max => exact hnew.trans (AmoOp.ofNat_eval_max _ x hw)
    | maxu => exact hnew.trans (AmoOp.ofNat_eval_maxu _ x)
    | xchg => exact hnew.trans (AmoOp.ofNat_eval_xchg _ x)
    | minu => exact hnew.trans (AmoOp.ofNat_eval_minu _ x)
    | padd fmt => exact fun hfmt => hnew.trans (congrArg _ (AmoOp.eval_padd _ x hfmt))
    | cas c => exact hnew.trans (AmoOp.ofNat_eval_cas _ x c)

end Sys2Proof.Certificates
end

section
/-!
SUPPORT. Maps and memory cleared in a range, the bits of one-bit masks, and chains of updates that keep what they do not touch.
-/
namespace Sys2Proof.Machine
open Sys2Proof

/-! ## Chains of updates -/

/-- What every step of a chain keeps, the chain keeps. -/
theorem foldl_keeps {σ α β : Type} {f : σ → α → σ} (g : σ → β) (h : ∀ s a, g (f s a) = g s) (l : List α) (s : σ) :
    g (l.foldl f s) = g s := by
  induction l generalizing s with
  | nil => rfl
  | cons a l ih => rw [List.foldl_cons, ih, h]

/-- What one step of a chain makes true, and every later step keeps, holds at its end. -/
theorem foldl_establishes {σ α : Type} {f : σ → α → σ} {P : σ → Prop} (hkeep : ∀ s a, P s → P (f s a)) {l : List α} {a : α} (ha : a ∈ l)
    (hmake : ∀ s, P (f s a)) (s : σ) : P (l.foldl f s) := by
  have hlater : ∀ (m : List α) (s : σ), P s → P (m.foldl f s) := fun m s h => List.foldlRecOn m f h fun t ht b _ => hkeep t b ht
  obtain ⟨early, late, rfl⟩ := List.append_of_mem ha
  rw [List.foldl_append, List.foldl_cons]
  exact hlater late _ (hmake _)

/-! ## Masks of one bit -/

theorem getLsbD_ofNat_two_pow (n k i : Nat) : (BitVec.ofNat n (2 ^ k)).getLsbD i = (decide (i < n) && decide (k = i)) := by
  rw [BitVec.getLsbD_ofNat, Nat.testBit_two_pow]

/-! ## Maps -/

section
variable {α : Type} [DecidableEq α] {d : α}

theorem Sparse.wfFrom_cons {lo : Option Nat} {k : Nat} {v : α} {m : Sparse α} :
    Sparse.wfFrom d lo ((k, v) :: m) = true ↔ (∀ l, lo = some l → l < k) ∧ v ≠ d ∧ Sparse.wfFrom d (some k) m = true := by
  cases lo <;> simp [Sparse.wfFrom, and_assoc]

/-- A value that is not that of an unlisted key reads back from every map, in canonical form or not. -/
theorem Sparse.get_set_of_ne {x : α} (hx : x ≠ d) (a b : Nat) : ∀ m : Sparse α,
    Sparse.get d (Sparse.set d m a x) b = if b = a then x else Sparse.get d m b
  | [] => by
    rw [Sparse.set, if_neg hx]
    simp only [Sparse.get]
    grind
  | (k, v) :: m => by
    have ih := Sparse.get_set_of_ne hx a b m
    rw [Sparse.set, if_neg hx, if_neg hx]
    rcases Nat.lt_trichotomy a k with h | h | h
    · rw [if_pos h]
      simp only [Sparse.get]
      grind
    · rw [if_neg (by omega), if_pos h]
      simp only [Sparse.get]
      grind
    · rw [if_neg (by omega), if_neg (by omega)]
      simp only [Sparse.get, ih]
      grind

/-- A map keeps its canonical form when keys are dropped. -/
theorem Sparse.wfFrom_filter (p : Nat → Bool) : ∀ (lo : Option Nat) {m : Sparse α}, Sparse.wfFrom d lo m = true →
    Sparse.wfFrom d lo (m.filter fun c => p c.1) = true
  | lo, [], _ => by cases lo <;> rfl
  | lo, (k, v) :: m, h => by
    obtain ⟨hlo, hv, hm⟩ := Sparse.wfFrom_cons.mp h
    have ih := Sparse.wfFrom_filter p (some k) hm
    rw [List.filter_cons]
    split
    · exact Sparse.wfFrom_cons.mpr ⟨hlo, hv, ih⟩
    · exact Sparse.wfFrom_weaken d (fun l hl => Nat.le_of_lt (hlo l hl)) ih

/-- A key that is dropped reads as unlisted, and every other one as before. -/
theorem Sparse.get_filter (p : Nat → Bool) (a : Nat) : ∀ (lo : Option Nat) {m : Sparse α}, Sparse.wfFrom d lo m = true →
    Sparse.get d (m.filter fun c => p c.1) a = if p a then Sparse.get d m a else d
  | _, [], _ => by simp [Sparse.get]
  | _, (k, v) :: m, h => by
    obtain ⟨-, -, hm⟩ := Sparse.wfFrom_cons.mp h
    have ih := Sparse.get_filter p a (some k) hm
    have hbelow : a ≤ k → Sparse.get d m a = d := Sparse.get_below d hm
    rw [List.filter_cons]
    split
    · simp only [Sparse.get, ih]
      grind
    · rw [ih]
      simp only [Sparse.get]
      grind

end

/-! ## Ranges of memory erased (R88) -/

/-- The bytes outside a range. -/
def outside (lo hi a : Nat) : Bool := decide (a < lo) || decide (hi ≤ a)

theorem clearRange_eq (m : Memory) (lo hi : Nat) : clearRange m lo hi = m.filter fun c => outside lo hi c.1 := rfl

theorem wf_clearRange {m : Memory} (h : m.wf = true) (lo hi : Nat) : Memory.wf (clearRange m lo hi) = true :=
  Sparse.wfFrom_filter (outside lo hi) none h

theorem read_clearRange {m : Memory} (h : m.wf = true) (lo hi x : Nat) :
    Memory.read (clearRange m lo hi) x = if lo ≤ x ∧ x < hi then 0 else Memory.read m x := by
  have hget := Sparse.get_filter (outside lo hi) x none h
  rw [clearRange_eq, Memory.read, hget]
  by_cases hx : lo ≤ x ∧ x < hi
  · rw [if_pos hx, if_neg (by simp [outside]; omega)]
    rfl
  · rw [if_neg hx, if_pos (by simp [outside]; omega)]
    rfl

/-- A byte lies in one of a list of frames. -/
def inFrames (fs : List (Nat × Nat)) (x : Nat) : Prop := ∃ r ∈ fs, r.1 ≤ x ∧ x < r.1 + r.2

/-- Frames erased one after another: their bytes read zero and every other byte as before. -/
theorem read_foldl_clearRange (x : Nat) : ∀ (fs : List (Nat × Nat)) {m : Memory}, m.wf = true →
    (inFrames fs x ∨ Memory.read m x = 0 → Memory.read (fs.foldl (fun a f => clearRange a f.1 (f.1 + f.2)) m) x = 0) ∧
    (¬inFrames fs x → Memory.read (fs.foldl (fun a f => clearRange a f.1 (f.1 + f.2)) m) x = Memory.read m x)
  | [], m, _ => ⟨fun h => h.resolve_left (by simp [inFrames]), fun _ => rfl⟩
  | r :: fs, m, h => by
    obtain ⟨hin, hout⟩ := read_foldl_clearRange x fs (wf_clearRange h r.1 (r.1 + r.2))
    rw [read_clearRange h] at hin hout
    have hcons : inFrames (r :: fs) x ↔ (r.1 ≤ x ∧ x < r.1 + r.2) ∨ inFrames fs x := by simp [inFrames]
    rw [List.foldl_cons, hcons]
    by_cases hr : r.1 ≤ x ∧ x < r.1 + r.2
    · rw [if_pos hr] at hin
      exact ⟨fun _ => hin (.inr rfl), fun hn => absurd (.inl hr) hn⟩
    · rw [if_neg hr] at hin hout
      exact ⟨fun hc => hin (hc.imp_left fun ho => ho.resolve_left hr), fun hn => hout fun hf => hn (.inr hf)⟩

end Sys2Proof.Machine
end

section
/-!
SUPPORT. The module after a reset, and the statement about it (R19, R21 to R23, R37, R48, R55, R98, R162, R169, R232, R260).
-/
namespace Sys2Proof.Machine
open Sys2Proof

theorem State.reset_partN {n : Nat} (h : n < 8) : State.reset.partN n = Partition.down n := by simp [State.partN, State.reset, h]

theorem State.reset_portN (n : Nat) : State.reset.portN n = Port.reset := by simp [State.portN, State.reset]

theorem State.reset_dieRec (d : Nat) : State.reset.dieRec d = DieRec.reset := by simp [State.dieRec, State.reset]

end Sys2Proof.Machine
namespace Sys2Proof.Certificates
open Sys2Proof Sys2Proof.Machine

/-- Settles O59: each record of the module reads as its own reset value. -/
theorem resetState : Obligations.ResetState := by
  have hscrub (w : Nat) (h : w < 32) : State.reset.firefly.scrub[w] = (0, 0, 0) := by simp [State.reset, Firefly.reset]
  refine ⟨rfl, rfl, rfl, rfl, rfl, rfl, rfl, fun _ _ => rfl, hscrub, fun n hn => ?_, fun n b _ => ?_, fun d _ => ?_, fun _ => ⟨rfl, rfl⟩,
    rfl, rfl, rfl, rfl, rfl, ?_, rfl, rfl, rfl⟩
  · rw [State.reset_partN hn]
    exact ⟨rfl, rfl, rfl, rfl, rfl, rfl⟩
  · rw [State.reset_portN]
    exact ⟨rfl, rfl, rfl, rfl, rfl, rfl, rfl, rfl, rfl, rfl, rfl⟩
  · rw [State.reset_dieRec]
    exact ⟨rfl, rfl, rfl⟩
  · simp [Ctx.s, Ctx.sreg, SReg.zero]

end Sys2Proof.Certificates
end

section
/-!
SUPPORT. How the module moves: the turn of an event, of an agent that has halted, and of a control core that fetches and runs the word at its
pc (R24, R25, R77), and the statement about them.
-/
namespace Sys2Proof.Machine
open Sys2Proof

/-! ## The turns of the schedule -/

section
variable {s : State} {l : List Turn}

theorem step_event {i : Instr} (hev : isEvent i = true) (hs : s.sched = .event i :: l) :
    step s = if s.firefly.power = .on ∨ actsHalted i = true then exec i { s with sched := l } else .next { s with sched := l } := by
  simp only [step, State.moveNext, hs, hev, true_and]

theorem step_core {w : Nat} (hs : s.sched = .core w :: l) :
    step s = if s.firefly.power = .on then { s with sched := l }.moveCore w else .next { s with sched := l } := by
  simp only [step, State.moveNext, hs]

theorem step_tile {t : Nat} (hs : s.sched = .tile t :: l) :
    step s = if s.firefly.power = .on then { s with sched := l }.moveTile t else .next { s with sched := l } := by
  simp only [step, State.moveNext, hs]

end

/-! ## The fetch of a control core (R77, R162) -/

section
variable {s : State} {a : DWord} {p : Nat}

theorem State.coreRead_of_coreAddr (h : s.coreAddr a false = some p) (n : Nat) : s.coreRead a n = .got (Memory.readNat s.mem p n) := by
  simp only [State.coreRead, h]

/-- An address that lies in this module has no page at a peer. -/
theorem State.coreFar_of_coreAddr {write : Bool} (h : s.coreAddr a write = some p) : s.coreFar a write = false := by
  unfold State.coreAddr at h
  unfold State.coreFar coreDie coreOff
  dsimp only at h
  by_cases hm : s.core.dataPriv = 3
  · simp [hm]
  rw [if_neg hm] at h
  by_cases hs : a.toNat / 2 ^ 60 ≠ 0
  · rw [if_pos hs] at h
    cases h
  rw [if_neg hs] at h
  cases ht : s.translate (s.partOfWing s.hart) (a.toNat / 2 ^ 57 % 8) (a.toNat % 2 ^ 57) with
  | none => simp only [Bool.and_false]
  | some e =>
    simp only [ht] at h
    split at h
    next he => simp only [beq_eq_false_iff_ne.mpr he.2, Bool.and_false]
    next => cases h

theorem State.coreFetch_word (hpage : s.core.pc.toNat % 4096 ≠ 4094) (h : s.fetchView.coreAddr s.core.pc false = some p)
    (hlow : Memory.readNat s.mem p 4 % 4 = 3) : s.coreFetch = .word (BitVec.ofNat 32 (Memory.readNat s.mem p 4)) := by
  have hmem : s.fetchView.mem = s.mem := State.mapCore_mem _ _ _
  have hread := State.coreRead_of_coreAddr h 4
  rw [hmem] at hread
  simp [State.coreFetch, hpage, hread, hlow]

end

/-! ## The turn of a control core -/

section
variable {s : State} {w : Nat}

theorem State.moveCore_interrupt {lv : TrapLevel} {k : Nat} (hon : { s with hart := w }.core.online = true)
    (haw : { s with hart := w }.coreAwaits = false) (hdue : { s with hart := w }.interruptDue w = some (lv, k)) :
    s.moveCore w = .next ({ s with hart := w }.mapCore w fun c => c.enter lv true k 0 false) := by
  simp [State.moveCore, hon, haw, hdue]

theorem State.codeUsed_false (t : State) : t.codeUsed false = t := by simp [State.codeUsed]

/-- A core with no interrupt to take runs the word at its pc that lies in this module. -/
theorem State.moveCore_word {p : Nat} (hon : { s with hart := w }.core.online = true) (haw : { s with hart := w }.coreAwaits = false)
    (hdue : { s with hart := w }.interruptDue w = none) (hpage : { s with hart := w }.core.pc.toNat % 4096 ≠ 4094)
    (hat : { s with hart := w }.fetchView.coreAddr { s with hart := w }.core.pc false = some p)
    (hlow : Memory.readNat s.mem p 4 % 4 = 3) :
    s.moveCore w = match decodeRv (BitVec.ofNat 32 (Memory.readNat s.mem p 4)) with
      | .ok i => exec i { s with hart := w }
      | .error _ => .next ({ s with hart := w }.rvWord (BitVec.ofNat 32 (Memory.readNat s.mem p 4))) := by
  have hfetch := State.coreFetch_word (s := { s with hart := w }) hpage hat hlow
  simp only [State.moveCore, hon, haw, hdue, hfetch, State.coreFar_of_coreAddr hat, State.codeUsed_false]
  cases decodeRv (BitVec.ofNat 32 (Memory.readNat s.mem p 4)) with
  | error e => rfl
  | ok i => cases hx : exec i { s with hart := w } <;> simp [hx]

end

/-! ## The decoder of a control core (R77) -/

theorem toNat_extractLsb' {n : Nat} (w : BitVec n) (lo len : Nat) : (w.extractLsb' lo len).toNat = fld w.toNat lo len := by
  rw [fld, BitVec.extractLsb'_toNat, Nat.shiftRight_eq_div_pow]

theorem extractLsb'_eq_iff {n : Nat} (w : BitVec n) (lo len : Nat) (x : BitVec len) : w.extractLsb' lo len = x ↔ fld w.toNat lo len = x.toNat := by
  rw [← BitVec.toNat_inj, toNat_extractLsb']

theorem bfld_toNat {n : Nat} (w : BitVec n) (lo len : Nat) : bfld w.toNat lo len = w.extractLsb' lo len := by
  apply BitVec.eq_of_toNat_eq
  rw [toNat_extractLsb', bfld, BitVec.toNat_ofNat, fld, Nat.mod_mod]

/-- The decoder of a control core by the fields of R77. -/
theorem decodeRv_eq (w : BitVec 32) : decodeRv w =
    if w.extractLsb' 0 7 = 0b0001011 ∧ w.extractLsb' 20 5 = 0 ∧ w.extractLsb' 25 7 = 0 then
      if w.extractLsb' 12 3 = 0 then .ok (.dlaunch (w.extractLsb' 7 5) (w.extractLsb' 15 5))
      else if w.extractLsb' 12 3 = 1 then .ok (.devq (w.extractLsb' 7 5) (w.extractLsb' 15 5))
      else .error .notControlCore
    else .error .notControlCore := by
  simp only [decodeRv, extractLsb'_eq_iff, bfld_toNat]
  refine if_congr Iff.rfl ?_ rfl
  generalize fld w.toNat 12 3 = k
  match k with
  | 0 => rfl
  | 1 => rfl
  | k + 2 => rfl

theorem decodeRv_eq_ok_iff (w : BitVec 32) (i : Instr) : decodeRv w = .ok i ↔
    w.extractLsb' 0 7 = 0b0001011 ∧ w.extractLsb' 25 7 = 0 ∧ w.extractLsb' 20 5 = 0 ∧
      (w.extractLsb' 12 3 = 0 ∧ i = .dlaunch (w.extractLsb' 7 5) (w.extractLsb' 15 5) ∨
       w.extractLsb' 12 3 = 1 ∧ i = .devq (w.extractLsb' 7 5) (w.extractLsb' 15 5)) := by
  rw [decodeRv_eq]
  by_cases hop : w.extractLsb' 0 7 = 0b0001011 ∧ w.extractLsb' 20 5 = 0 ∧ w.extractLsb' 25 7 = 0
  · obtain ⟨hop, hrs2, hf7⟩ := hop
    rw [if_pos ⟨hop, hrs2, hf7⟩]
    simp only [hop, hrs2, hf7, true_and]
    split
    next h0 => simp [h0, eq_comm (a := i)]
    next h0 =>
      split
      next h1 => simp [h1, eq_comm (a := i)]
      next h1 => exact ⟨fun h => (nomatch h), fun h => h.elim (fun h => absurd h.1 h0) fun h => absurd h.1 h1⟩
  · rw [if_neg hop]
    exact ⟨fun h => (nomatch h), fun ⟨h7, hf7, hrs2, _⟩ => absurd ⟨h7, hrs2, hf7⟩ hop⟩

/-- The two words of custom-0 that a core runs end in the bits of a word of 32 bits. -/
theorem low_bits_of_decodeRv {w : BitVec 32} {i : Instr} (h : decodeRv w = .ok i) : w.toNat % 4 = 3 := by
  have hop := ((decodeRv_eq_ok_iff w i).mp h).1
  rw [extractLsb'_eq_iff, fld] at hop
  simp at hop
  omega

theorem low_bits_of_word {w : BitVec 32} (h : w.extractLsb' 0 2 = 3) : w.toNat % 4 = 3 := by
  rw [extractLsb'_eq_iff, fld] at h
  simpa using h

end Sys2Proof.Machine
namespace Sys2Proof.Certificates
open Sys2Proof Sys2Proof.Machine

/-- Settles O8: the turn of an event is exec of it while the module runs or where the event is one of a halted module, and a core fetches the
word at its pc, which is DLAUNCH or DEVQ where its fields say so. -/
theorem stepRunsEventsAndControlCores : Obligations.StepRunsEventsAndControlCores := by
  refine ⟨fun s l => ⟨fun i hev hs => ⟨fun h => ?_, fun hoff hact => ?_⟩, fun hoff x hs => ?_⟩, fun s w p l hs hon => ?_, decodeRv_eq_ok_iff⟩
  · rw [step_event hev hs, if_pos h]
  · rw [step_event hev hs, if_neg (by simp [hoff, hact])]
  · rcases hs with hs | hs
    · rw [step_tile hs, if_neg hoff]
    · rw [step_core hs, if_neg hoff]
  · intro s1 x honline hawaits
    rw [step_core hs, if_pos hon]
    have hxlow : x.toNat % 4 = Memory.readNat s.mem p 4 % 4 := by
      simp only [x, BitVec.toNat_ofNat]
      omega
    refine ⟨fun lv k hdue => State.moveCore_interrupt honline hawaits hdue, fun hdue hpage hat => ⟨fun i hi => ?_, fun hlow hno => ?_⟩⟩
    · rw [State.moveCore_word (s := { s with sched := l }) honline hawaits hdue hpage hat (hxlow.symm.trans (low_bits_of_decodeRv hi))]
      simp only [show decodeRv (BitVec.ofNat 32 (Memory.readNat s.mem p 4)) = .ok i from hi]
      rfl
    · rw [State.moveCore_word (s := { s with sched := l }) honline hawaits hdue hpage hat (hxlow.symm.trans (low_bits_of_word hlow))]
      cases hd : decodeRv x with
      | ok i => exact absurd hd (hno i)
      | error e => rfl

end Sys2Proof.Certificates
end

section
/-!
SUPPORT. Firefly's registers replaced: what that and the operations of the module's other records leave unchanged; the sensors (R23), failed
starts and fatal errors (R16, R25), and the operations of Firefly, its monitors and the host as exec gives them.
-/
namespace Sys2Proof.Machine
open Sys2Proof

/-! ## Firefly's registers replaced -/

section
variable (s : State) (f : Firefly → Firefly)

@[simp] theorem State.mapFirefly_cur : (s.mapFirefly f).cur = s.cur := rfl
@[simp] theorem State.mapFirefly_others : (s.mapFirefly f).others = s.others := rfl
@[simp] theorem State.mapFirefly_mem : (s.mapFirefly f).mem = s.mem := rfl
@[simp] theorem State.mapFirefly_requests : (s.mapFirefly f).requests = s.requests := rfl
@[simp] theorem State.mapFirefly_firefly : (s.mapFirefly f).firefly = f s.firefly := rfl
@[simp] theorem State.mapFirefly_parts : (s.mapFirefly f).parts = s.parts := rfl
@[simp] theorem State.mapFirefly_cores : (s.mapFirefly f).cores = s.cores := rfl
@[simp] theorem State.mapFirefly_degraded : (s.mapFirefly f).degraded = s.degraded := rfl
@[simp] theorem State.mapFirefly_fused : (s.mapFirefly f).fused = s.fused := rfl
@[simp] theorem State.mapFirefly_dies : (s.mapFirefly f).dies = s.dies := rfl
@[simp] theorem State.mapFirefly_fresh : (s.mapFirefly f).fresh = s.fresh := rfl
@[simp] theorem State.mapFirefly_partN (n : Nat) : (s.mapFirefly f).partN n = s.partN n := rfl
@[simp] theorem State.mapFirefly_coreN (w : Nat) : (s.mapFirefly f).coreN w = s.coreN w := rfl

end

/-! ## A record read after one of another kind is replaced -/

section
variable (s : State) (n k : Nat)

@[simp] theorem State.partN_mapCore (f : Core → Core) : (s.mapCore n f).partN k = s.partN k := by simp [State.partN]
@[simp] theorem State.partN_mapDie (f : DieRec → DieRec) : (s.mapDie n f).partN k = s.partN k := by simp [State.partN]
@[simp] theorem State.partN_mapPort (f : Port → Port) : (s.mapPort n f).partN k = s.partN k := by simp [State.partN]
@[simp] theorem State.coreN_mapPart (f : Partition → Partition) : (s.mapPart n f).coreN k = s.coreN k := by simp [State.coreN]
@[simp] theorem State.coreN_mapDie (f : DieRec → DieRec) : (s.mapDie n f).coreN k = s.coreN k := by simp [State.coreN]
@[simp] theorem State.coreN_mapPort (f : Port → Port) : (s.mapPort n f).coreN k = s.coreN k := by simp [State.coreN]

end

/-! ## Sensors (R23) -/

theorem Sensor.ne_none {x : Sensor} (h : x.valid = true) : x ≠ Sensor.none := by
  rintro rfl
  cases h

section
variable {f : Firefly} {die i : Nat} {x : Sensor}

/-- The sensors of a die's window lie apart from those of every other. -/
theorem Firefly.sensor_setSensor {e k : Nat} (hx : x.valid = true) (hi : i < 112) (hk : k < 112) :
    (f.setSensor die i x).sensor e k = if e = die ∧ k = i then x else f.sensor e k := by
  have hkey : e * 112 + k = die * 112 + i ↔ e = die ∧ k = i := by omega
  simp only [Firefly.sensor, Firefly.setSensor, Sparse.get_set_of_ne (Sensor.ne_none hx), hkey]

theorem Firefly.sensor_setSensor_self (hx : x.valid = true) : (f.setSensor die i x).sensor die i = x := by
  simp [Firefly.sensor, Firefly.setSensor, Sparse.get_set_of_ne (Sensor.ne_none hx)]

theorem Firefly.sensor_setSensor_self_of_wf (h : Sparse.wf Sensor.none f.sensors = true) : (f.setSensor die i x).sensor die i = x := by
  simp [Firefly.sensor, Firefly.setSensor, Sparse.get_set _ h]

/-- A sensor reads the list of sensors only. -/
theorem Firefly.sensor_congr {f g : Firefly} (h : g.sensors = f.sensors) (die i : Nat) : g.sensor die i = f.sensor die i := by
  rw [Firefly.sensor, h, Firefly.sensor]

end

/-! ## A start that fails (R16, R18) -/

section
variable (f : Firefly) (r : Byte)

theorem Firefly.fail_fails (h : f.fails.toNat ≤ 3) : (f.fail r).fails.toNat = min 3 (f.fails.toNat + 1) := by
  simp only [Firefly.fail]
  split
  · rw [BitVec.toNat_add]
    simp
    omega
  · simp
    omega

@[simp] theorem Firefly.failStart_sensors : (f.failStart r).sensors = f.sensors := by unfold Firefly.failStart; split <;> rfl
@[simp] theorem Firefly.failStart_hold : (f.failStart r).hold = f.hold := by unfold Firefly.failStart; split <;> rfl

variable {f}

theorem Firefly.failStart_of_starting (hp : f.power = .on) (hs : f.stage.toNat < 5) : f.failStart r = { f.fail r with power := .stopped } := by
  simp [Firefly.failStart, Firefly.starting, hp, hs]

theorem Firefly.failStart_of_running (hs : ¬f.stage.toNat < 5) : f.failStart r = f := by
  simp [Firefly.failStart, Firefly.starting, hs]

theorem Firefly.failStart_reason (hp : f.power = .on) : (f.failStart r).reason = if f.stage.toNat < 5 then r else f.reason := by
  split
  next hs => rw [Firefly.failStart_of_starting r hp hs]; rfl
  next hs => rw [Firefly.failStart_of_running r hs]

end

/-! ## A fatal error (R25) -/

/-- What a fatal error leaves in Firefly: a dump under way, or none where one stands already. -/
def Firefly.crash (f : Firefly) (cause die : BitVec 32) (done undone : BitVec 6) : Firefly :=
  if f.dumpValid then { f.failStart 10 with power := .stopped, lastDown := undone }
  else { f.failStart 10 with power := .dumping, lastDown := done, dumpCause := cause, dumpDie := die }

theorem State.fatal_of_on {s : State} (h : s.firefly.power = .on) (cause die : BitVec 32) (done undone : BitVec 6) :
    s.fatal cause die done undone = s.mapFirefly (fun f => f.crash cause die done undone) := by
  simp only [State.fatal, h]
  rfl

/-- A watchdog begins a dump anew (R25). -/
theorem State.fatal_of_dumping {s : State} (h : s.firefly.power = .dumping) (die : BitVec 32) (done undone : BitVec 6) :
    s.fatal 4 die done undone = s.mapFirefly (fun f => { f with power := .dumping, lastDown := done, dumpCause := 4, dumpDie := die }) := by
  simp [State.fatal, h]

section
variable (f : Firefly) (cause die : BitVec 32) (done undone : BitVec 6)

theorem Firefly.crash_dumping (h : f.dumpValid = false) : (f.crash cause die done undone).power = .dumping ∧
    (f.crash cause die done undone).lastDown = done ∧ (f.crash cause die done undone).dumpCause = cause ∧
    (f.crash cause die done undone).dumpDie = die := by
  simp [Firefly.crash, h]

theorem Firefly.crash_stopped (h : f.dumpValid = true) : (f.crash cause die done undone).power = .stopped ∧
    (f.crash cause die done undone).lastDown = undone := by
  simp [Firefly.crash, h]

theorem Firefly.crash_power : (f.crash cause die done undone).power = if f.dumpValid then .stopped else .dumping := by
  unfold Firefly.crash; split <;> rfl

@[simp] theorem Firefly.crash_reason : (f.crash cause die done undone).reason = (f.failStart 10).reason := by
  unfold Firefly.crash; split <;> rfl

@[simp] theorem Firefly.crash_fails : (f.crash cause die done undone).fails = (f.failStart 10).fails := by
  unfold Firefly.crash; split <;> rfl

@[simp] theorem Firefly.crash_sensors : (f.crash cause die done undone).sensors = f.sensors := by
  unfold Firefly.crash; split <;> exact f.failStart_sensors 10

end

/-! ## A dump that ends, or is cut short -/

theorem State.cutDump_of_on {s : State} (h : s.firefly.power = .on) : s.cutDump = s := by simp [State.cutDump, h]

theorem State.endRun_of_on {s : State} (h : s.firefly.power = .on) (how : BitVec 6) :
    s.endRun how = s.mapFirefly (fun f => { f with lastDown := how }) := by
  simp [State.endRun, h]

theorem State.thermalTrip_of_on {s : State} (h : s.firefly.power = .on) :
    s.thermalTrip = s.mapFirefly (fun f => { f.failStart 9 with power := .cut, lastDown := 4 }) := by
  rw [State.thermalTrip, State.cutDump_of_on h]

/-! ## The operations as exec gives them -/

section
variable (s : State)

theorem exec_moduleStart (k : Option BootFailure) (fw benale : BitVec 512) (defects : List (Nat × Defects)) (process : Vector (BitVec 16) 128)
    (parts : List PartConfig) :
    exec (.moduleStart k fw benale defects process parts) s = execModuleStart k fw benale defects process parts s := rfl
theorem exec_stageTimeLimit : exec .stageTimeLimit s = execStageTimeLimit s := rfl
theorem exec_imageCheckRequest (part : BitVec 3) (digest : BitVec 512) (verdict : BitVec 2) :
    exec (.imageCheckRequest part digest verdict) s = execImageCheckRequest part digest verdict s := rfl
theorem exec_attestationLogRequest (nonce : BitVec 256) : exec (.attestationLogRequest nonce) s = execAttestationLogRequest nonce s := rfl
theorem exec_bootComplete : exec .bootComplete s = execBootComplete s := rfl
theorem exec_start (value : BitVec 32) : exec (.start value) s = execStart value s := rfl
theorem exec_hostattn (part : BitVec 3) (value : BitVec 32) : exec (.hostattn part value) s = execHostattn part value s := rfl
theorem exec_hostattnCodeRead (part : BitVec 3) : exec (.hostattnCodeRead part) s = execHostattnCodeRead part s := rfl
theorem exec_dumpvalidRelease (value : BitVec 32) : exec (.dumpvalidRelease value) s = execDumpvalidRelease value s := rfl
theorem exec_registerWrite (agent : MgmtAgent) (offset : BitVec 16) (value : BitVec 64) :
    exec (.registerWrite agent offset value) s = execRegisterWrite agent offset value s := rfl
theorem exec_droopRead (die : BitVec 3) (j : BitVec 5) (v : BitVec 16) : exec (.droopRead die j v) s = execDroopRead die j v s := rfl
theorem exec_sensorSample (die : BitVec 3) (kind : BitVec 2) (idx : BitVec 6) (v : BitVec 16) :
    exec (.sensorSample die kind idx v) s = execSensorSample die kind idx v s := rfl
theorem exec_droopAlarm (die : BitVec 3) (j : BitVec 5) (v : BitVec 16) : exec (.droopAlarm die j v) s = execDroopAlarm die j v s := rfl
theorem exec_droopFatal (die : BitVec 3) (j : BitVec 5) (v : BitVec 16) : exec (.droopFatal die j v) s = execDroopFatal die j v s := rfl
theorem exec_fatalError (cause die : BitVec 32) : exec (.fatalError cause die) s = execFatalError cause die s := rfl
theorem exec_benalePanic : exec .benalePanic s = execBenalePanic s := rfl
theorem exec_fireflyWatchdog : exec .fireflyWatchdog s = execFireflyWatchdog s := rfl
theorem exec_dumpDone : exec .dumpDone s = execDumpDone s := rfl
theorem exec_moduleReset : exec .moduleReset s = execModuleReset s := rfl
theorem exec_powerOff : exec .powerOff s = execPowerOff s := rfl
theorem exec_partitionReset (part : BitVec 3) : exec (.partitionReset part) s = execPartitionReset part s := rfl
theorem exec_partitionReboot (part : BitVec 3) : exec (.partitionReboot part) s = execPartitionReboot part s := rfl
theorem exec_release (wing : BitVec 5) (frames : List (Nat × Nat)) : exec (.release wing frames) s = execRelease wing frames s := rfl
theorem exec_assign (wing : BitVec 5) (part : BitVec 3) : exec (.assign wing part) s = execAssign wing part s := rfl
theorem exec_coreOnline (wing : BitVec 5) : exec (.coreOnline wing) s = execCoreOnline wing s := rfl
theorem exec_coreOffline (wing : BitVec 5) : exec (.coreOffline wing) s = execCoreOffline wing s := rfl
theorem exec_termiteUnit (wing : BitVec 5) : exec (.termiteUnit wing) s = execTermiteUnit wing s := rfl
theorem exec_termiteKeySlots (wing : BitVec 5) : exec (.termiteKeySlots wing) s = execTermiteKeySlots wing s := rfl

end

end Sys2Proof.Machine
end

section
/-!
SUPPORT. The health monitors (R23, R24), HOSTATTN and the management window (R14, R58, R59, R61), and the statement about them.
-/
namespace Sys2Proof.Machine
open Sys2Proof

/-! ## Thermal sensors (R24) -/

section
variable (f : Firefly) (die i : Nat) (v : BitVec 16)

@[simp] theorem Firefly.heat_power : (f.heat die i v).power = f.power := rfl

theorem Firefly.sensor_heat_self : (f.heat die i v).sensor die i =
    { valid := true, alarm := (f.sensor die i).alarm || decide (1520 ≤ degrees v), value := v } :=
  Firefly.sensor_setSensor_self (f := f) rfl

theorem Firefly.heat_hold_hot (h : 1520 ≤ degrees v) : (f.heat die i v).hold = f.hold ||| BitVec.ofNat 8 (2 ^ die) :=
  if_pos h

theorem Firefly.heat_hold_cool (hi : i < 64) (h : degrees v < 1440) (hrest : ∀ k, k < 64 → k ≠ i → degrees (f.sensor die k).value < 1440) :
    (f.heat die i v).hold = f.hold &&& ~~~BitVec.ofNat 8 (2 ^ die) := by
  simp only [Firefly.heat, Firefly.holdAfter]
  rw [if_neg (by omega), if_pos]
  · rfl
  · rw [List.all_eq_true]
    intro k hk
    have hk64 : k < 64 := List.mem_range.mp hk
    rw [decide_eq_true_eq, Firefly.sensor_setSensor rfl (by omega) (by omega)]
    by_cases hki : k = i
    · simpa [hki] using h
    · simpa [hki] using hrest k hk64 hki

end

theorem execSensorSample_thermal {s : State} (h : s.firefly.supplied = true) (die : BitVec 3) (idx : BitVec 6) (v : BitVec 16) :
    execSensorSample die 0 idx v s =
      .next (if 1680 ≤ degrees v then (s.mapFirefly fun f => f.heat die.toNat idx.toNat v).thermalTrip
        else s.mapFirefly fun f => f.heat die.toNat idx.toNat v) := by
  simp [execSensorSample, h]

theorem execSensorSample_process {s : State} (h : s.firefly.supplied = true) (die : BitVec 3) {idx : BitVec 6} (hi : idx.toNat < 16) (v : BitVec 16) :
    execSensorSample die 2 idx v s = .next (s.mapFirefly fun f =>
      f.setSensor die.toNat (96 + idx.toNat) { f.sensor die.toNat (96 + idx.toNat) with valid := true, value := v }) := by
  simp [execSensorSample, h, hi]

theorem Firefly.supplied_of_on {f : Firefly} (h : f.power = .on) : f.supplied = true := by simp [Firefly.supplied, h]

/-- What a thermal value leaves in Firefly of a module that runs: at 105 °C the supplies are cut. -/
def Firefly.heated (f : Firefly) (die i : Nat) (v : BitVec 16) : Firefly :=
  if 1680 ≤ degrees v then { (f.heat die i v).failStart 9 with power := .cut, lastDown := 4 } else f.heat die i v

theorem execSensorSample_thermal_of_on {s : State} (hon : s.firefly.power = .on) (die : BitVec 3) (idx : BitVec 6) (v : BitVec 16) :
    execSensorSample die 0 idx v s = .next (s.mapFirefly fun f => f.heated die.toNat idx.toNat v) := by
  rw [execSensorSample_thermal (Firefly.supplied_of_on hon)]
  unfold Firefly.heated
  split
  · rw [State.thermalTrip_of_on (by exact hon)]
    rfl
  · rfl

section
variable (f : Firefly) (die i : Nat) (v : BitVec 16)

theorem Firefly.sensor_heated : (f.heated die i v).sensor die i =
    { valid := true, alarm := (f.sensor die i).alarm || decide (1520 ≤ degrees v), value := v } := by
  unfold Firefly.heated
  split
  · exact (Firefly.sensor_congr (Firefly.failStart_sensors (f.heat die i v) 9) die i).trans (f.sensor_heat_self die i v)
  · exact f.sensor_heat_self die i v

theorem Firefly.heated_hold : (f.heated die i v).hold = (f.heat die i v).hold := by
  unfold Firefly.heated
  split
  · exact Firefly.failStart_hold ..
  · rfl

theorem Firefly.heated_of_le (h : 1680 ≤ degrees v) : (f.heated die i v).power = .cut ∧ (f.heated die i v).lastDown = 4 := by
  simp [Firefly.heated, h]

theorem Firefly.heated_of_lt (h : degrees v < 1680) : (f.heated die i v).power = f.power := by
  rw [Firefly.heated, if_neg (by omega), Firefly.heat_power]

end

/-! ## Droop monitors (R24) -/

/-- What a droop monitor holds after a voltage: the lowest one, and the alarm below 520 mV. -/
def Firefly.dip (f : Firefly) (die j : Nat) (mv : BitVec 16) : Sensor :=
  let x := f.sensor die (64 + j)
  { valid := true, alarm := x.alarm || decide (mv.toNat < 520), value := if x.valid ∧ x.value.toNat ≤ mv.toNat then x.value else mv }

/-- Records that go to the homes of partitions change control cores only. -/
theorem State.foldl_postHome (kind code vd count info : Nat) : ∀ (l : List Partition) (s : State), ∃ cs,
    l.foldl (fun t p => t.postHome p kind code vd count info) s = { s with cores := cs }
  | [], s => ⟨s.cores, rfl⟩
  | p :: l, s => by
    obtain ⟨cs, hcs⟩ := State.foldl_postHome kind code vd count info l (s.postHome p kind code vd count info)
    refine ⟨cs, hcs.trans ?_⟩
    unfold State.postHome State.post State.mapCore
    split <;> rfl

/-- A voltage that a droop monitor reads changes its sensor and, below 520 mV, the queues of control cores; below 500 mV a fatal error
follows. -/
theorem State.droop_eq (s : State) (die j : Nat) (mv : BitVec 16) : ∃ cs, (520 ≤ mv.toNat → cs = s.cores) ∧
    s.droop die j mv =
      let t := { s.mapFirefly (fun f => f.setSensor die (64 + j) (s.firefly.dip die j mv)) with cores := cs }
      if mv.toNat < 500 then t.fatal 2 (BitVec.ofNat 32 die) 2 3 else t := by
  by_cases h : mv.toNat < 520 ∧ s.firefly.power = .on
  · obtain ⟨cs, hcs⟩ := State.foldl_postHome 9 die 0 j (s.firefly.dip die j mv).value.toNat
      ((s.mapFirefly fun f => f.setSensor die (64 + j) (s.firefly.dip die j mv)).partsOn die)
      (s.mapFirefly fun f => f.setSensor die (64 + j) (s.firefly.dip die j mv))
    refine ⟨cs, fun h' => absurd h.1 (by omega), ?_⟩
    rw [← hcs]
    simp only [State.droop, if_pos h]
    rfl
  · refine ⟨s.cores, fun _ => rfl, ?_⟩
    simp only [State.droop, if_neg h]
    rfl

section
variable {s : State} (die j : Nat) {mv : BitVec 16}

/-- A voltage of 500 mV or more: the module runs on. -/
theorem State.droop_of_le (h : 500 ≤ mv.toNat) : (s.droop die j mv).firefly.sensor die (64 + j) = s.firefly.dip die j mv ∧
    (s.droop die j mv).firefly.power = s.firefly.power ∧ (s.droop die j mv).mem = s.mem ∧
    (520 ≤ mv.toNat → (s.droop die j mv).cores = s.cores) := by
  obtain ⟨cs, hcs, heq⟩ := s.droop_eq die j mv
  rw [heq, if_neg (by omega)]
  exact ⟨Firefly.sensor_setSensor_self rfl, rfl, rfl, hcs⟩

/-- A voltage below 500 mV stops a module that runs. -/
theorem State.droop_of_lt (hon : s.firefly.power = .on) (h : mv.toNat < 500) :
    (s.droop die j mv).firefly.sensor die (64 + j) = s.firefly.dip die j mv ∧
    (s.droop die j mv).firefly.power = (if s.firefly.dumpValid then .stopped else .dumping) ∧ (s.droop die j mv).mem = s.mem := by
  obtain ⟨cs, -, heq⟩ := s.droop_eq die j mv
  rw [heq, if_pos h, State.fatal_of_on (by exact hon)]
  refine ⟨?_, Firefly.crash_power .., rfl⟩
  rw [State.mapFirefly_firefly, Firefly.sensor_congr (Firefly.crash_sensors ..)]
  exact Firefly.sensor_setSensor_self rfl

end

theorem execSensorSample_droop {s : State} (h : s.firefly.supplied = true) (die : BitVec 3) (j : BitVec 5) (v : BitVec 16) :
    execSensorSample die 1 (j.setWidth 6) v s = .next (s.droop die.toNat j.toNat v) := by
  have hj : (j.setWidth 6).toNat = j.toNat := by simp; omega
  have hj32 : j.toNat < 32 := j.isLt
  simp [execSensorSample, h, hj, hj32]

theorem low_execDroopAlarm {s : State} (h : s.firefly.supplied = true) (die : BitVec 3) (j : BitVec 5) {v : BitVec 16} (hlow : v.toNat < 520)
    (hok : 500 ≤ v.toNat) : execDroopAlarm die j v s = .next (s.droop die.toNat j.toNat v) := by
  rw [execDroopAlarm, if_pos ⟨h, hlow, hok⟩]

theorem low_execDroopFatal {s : State} (h : s.firefly.supplied = true) (die : BitVec 3) (j : BitVec 5) {v : BitVec 16} (hlow : v.toNat < 500) :
    execDroopFatal die j v s = .next (s.droop die.toNat j.toNat v) := by
  rw [execDroopFatal, if_pos ⟨h, hlow⟩]

/-! ## HOSTATTN (R61) -/

section
variable {s : State} {part : Nat} {value : BitVec 32}

theorem State.hostattn_of_up (hset : value.getLsbD 0 = true) (hup : (s.partN part).state ≠ 0) (hp : part < 8) :
    (s.hostattn part value).partN part = if (s.partN part).attn.length < attnEntries then
      { s.partN part with attn := (s.partN part).attn ++ [value.extractLsb' 16 16] } else { s.partN part with attnDrop := true } := by
  rw [State.hostattn, if_pos ⟨hset, hup⟩, State.partN_mapPart_self _ _ hp]

end

/-! ## The management window (R14, R19, R25) -/

theorem Firefly.writeBootstat_eq (f : Firefly) {n : Nat} (value : BitVec n) :
    f.writeBootstat value.toNat = { f with dumpValid := f.dumpValid && !value.getLsbD 14 } := by
  rw [Firefly.writeBootstat, BitVec.testBit_toNat]
  cases value.getLsbD 14 <;> simp

theorem execRegisterWrite_bootstat (s : State) (value : DWord) :
    execRegisterWrite .benale 0 value s = .next { s with firefly := { s.firefly with dumpValid := s.firefly.dumpValid && !value.getLsbD 14 } } := by
  rw [← Firefly.writeBootstat_eq]
  rfl

/-- The place of a sensor in the management window. -/
def sensorOffset (die i : Nat) : BitVec 16 := BitVec.ofNat 16 (0x1000 + 0x200 * die + 4 * i)

theorem execRegisterWrite_alarm (s : State) {die i : Nat} {value : DWord} (hd : die < 8) (hi : i < 112) (hset : value.getLsbD 22 = true) :
    execRegisterWrite .benale (sensorOffset die i) value s =
      .next (s.mapFirefly fun f => f.setSensor die i { f.sensor die i with alarm := false }) := by
  have ho : (sensorOffset die i).toNat = 0x1000 + 0x200 * die + 4 * i := by
    rw [sensorOffset, BitVec.toNat_ofNat]
    omega
  have hdie : (0x1000 + 0x200 * die + 4 * i - 0x1000) / 0x200 = die := by omega
  have hidx : (0x1000 + 0x200 * die + 4 * i) % 0x200 / 4 = i := by omega
  rw [execRegisterWrite]
  simp only [ho]
  rw [if_neg (by omega), if_pos ⟨by omega, by omega, by omega, by omega, hset⟩, hdie, hidx]

/-! ## The functions of the host link (R18, R58) -/

section
variable {s : State} {package : BitVec 1} {fn : BitVec 2}

theorem State.answers_of_minimal (h : s.firefly.minimal = true) (q : HostRequest) :
    s.answers package fn q = (package == 0 && fn == 0 && q != .bar2) := by
  simp [State.answers, h]

variable {p : Partition}

theorem State.behind_some (h : s.behind package fn = some p) : p.port = 4 * package.toNat + fn.toNat ∧ p.wings ≠ 0 := by
  have hp := List.find?_some h
  simp only [Bool.and_eq_true, bne_iff_ne, beq_iff_eq] at hp
  exact ⟨hp.2, hp.1⟩

theorem State.answers_of_behind (hmin : s.firefly.minimal = false) (h : s.behind package fn = some p) (q : HostRequest) :
    s.answers package fn q = (q != .bar2 || p.up) := by
  simp [State.answers, hmin, h]

/-! ## Writes of BAR0 (R14, R59) -/

theorem State.bar0Write_start (h : s.answers package fn .bar0 = true) (value : DWord) :
    s.bar0Write package fn 8 value = s.fullStart (value.setWidth 32) := by
  simp [State.bar0Write, h]

theorem State.bar0Write_hostattn (h : s.answers package fn .bar0 = true) (hp : s.behind package fn = some p) (value : DWord) :
    s.bar0Write package fn 0x10 value = s.hostattn p.pnum (value.setWidth 32) := by
  simp [State.bar0Write, h, hp]

theorem State.bar0Write_msix (h : s.answers package fn .bar0 = true) (hp : s.behind package fn = some p) {k : Nat} (hk : k < 64) (value : DWord) :
    s.bar0Write package fn (0x100 + 8 * k) value = s.mapPart p.pnum fun q => q.writeMsix (8 * k) value := by
  have h8 : ¬256 + 8 * k = 8 := by omega
  have h16 : ¬256 + 8 * k = 16 := by omega
  have hin : 256 ≤ 256 + 8 * k ∧ 256 + 8 * k < 256 + 512 ∧ (256 + 8 * k) % 8 = 0 := by omega
  have hsub : 256 + 8 * k - 256 = 8 * k := by omega
  simp only [State.bar0Write, h, hp, msixTable, if_neg h8, if_neg h16, if_pos hin, hsub, Bool.not_true, Bool.false_eq_true, if_false]

/-- A write through a function that does not answer, or of another place, does nothing. -/
theorem State.bar0Write_other {o : Nat} (h : s.answers package fn .bar0 = false ∨ o ≠ 8 ∧ o ≠ 0x10 ∧ (o < 0x100 ∨ 0x300 ≤ o)) (value : DWord) :
    s.bar0Write package fn o value = s := by
  rcases h with h | ⟨h8, h16, hout⟩
  · simp [State.bar0Write, h]
  · have hin : ¬(msixTable ≤ o ∧ o < msixTable + 512 ∧ o % 8 = 0) := by
      rw [msixTable]
      omega
    cases ha : s.answers package fn .bar0 with
    | false => simp [State.bar0Write, ha]
    | true => cases hp : s.behind package fn <;> simp [State.bar0Write, ha, h8, hp, h16, hin]

end

/-! ## The MSI-X table (R59) -/

@[simp] theorem Partition.message_msix (p : Partition) (v : Nat) : (p.message v).msix = p.msix := by
  simp only [Partition.message]
  split <;> rfl

/-- Half k mod 2 of entry k div 2 reads back as it was written. -/
theorem Partition.half_writeMsix (p : Partition) {k : Nat} (hk : k < 64) (value : DWord) :
    ((p.writeMsix (8 * k) value).msix.toList.getD (k / 2) 0).extractLsb' (64 * (k % 2)) 64 = value := by
  have hv : 8 * k / 16 = k / 2 := by omega
  have hlow : 8 * k % 16 = 0 ↔ k % 2 = 0 := by omega
  have hmsix : (p.writeMsix (8 * k) value).msix = p.msix.setIfInBounds (k / 2)
      (if k % 2 = 0 then (p.msix.toList.getD (k / 2) 0).extractLsb' 64 64 ++ value else value ++ (p.msix.toList.getD (k / 2) 0).extractLsb' 0 64) := by
    simp only [Partition.writeMsix, hv, hlow]
    split <;> simp
  have hlt : k / 2 < 32 := by omega
  rw [hmsix]
  have hget (e : BitVec 128) : (p.msix.setIfInBounds (k / 2) e).toList.getD (k / 2) 0 = e := by
    simp [List.getD_eq_getElem?_getD, hlt]
  rw [hget]
  by_cases h : k % 2 = 0
  · rw [if_pos h, h]
    exact BitVec.extractLsb'_append_eq_right
  · rw [if_neg h, show k % 2 = 1 by omega]
    exact BitVec.extractLsb'_append_eq_left

end Sys2Proof.Machine
namespace Sys2Proof.Certificates
open Sys2Proof Sys2Proof.Machine

/-- Settles O42: the sensors by the lemmas of their kinds, the window by the place that is written. -/
theorem monitorsAndAttention : Obligations.MonitorsAndAttention := by
  intro s die idx j v part value offset package fn k x f sense d jn hot dip low bit
  have hsupplied (hon : f.power = .on) : s.firefly.supplied = true := Firefly.supplied_of_on hon
  have hidx64 : idx.toNat < 64 := idx.isLt
  refine ⟨fun hon => ?_, fun hoff htrip => ?_, fun hon _ halarm hok => ⟨?_, ?_⟩, fun hon hlow => ?_, fun hon hok => ?_, fun hon hidx => ?_, ?_,
    fun hset hup => ?_, fun c l hattn => ?_, ?_, ?_, fun hset _ hwf => ?_, fun hmin => ?_, fun p hp => ?_, fun hans => ⟨?_, ?_, fun p hp hnum => ⟨?_, fun hk => ?_⟩⟩,
    fun hno => ?_, fun p => ?_⟩
  · exact ⟨_, (exec_sensorSample ..).trans (execSensorSample_thermal_of_on hon die idx v), f.sensor_heated d idx.toNat v, rfl,
      fun hhot => (f.heated_hold d idx.toNat v).trans (f.heat_hold_hot d idx.toNat v hhot),
      fun hcool hrest _ => (f.heated_hold d idx.toNat v).trans (f.heat_hold_cool d idx.toNat v hidx64 hcool hrest),
      fun htrip => f.heated_of_le d idx.toNat v htrip, fun hno => (f.heated_of_lt d idx.toNat v hno).trans hon⟩
  · have hs : s.firefly.supplied = true := by rcases hoff with h | h <;> simp [Firefly.supplied, show s.firefly.power = _ from h]
    refine ⟨_, ((exec_sensorSample ..).trans (execSensorSample_thermal hs die idx v)).trans (congrArg _ (if_pos htrip)), rfl, rfl⟩
  · obtain ⟨hs, hp, hm, -⟩ := s.droop_of_le d j.toNat hok
    exact ⟨_, (exec_droopAlarm ..).trans (low_execDroopAlarm (hsupplied hon) die j halarm hok), hs, hm, hp.trans hon⟩
  · obtain ⟨hs, hp, hm, -⟩ := s.droop_of_le d j.toNat hok
    exact ⟨_, (exec_sensorSample ..).trans (execSensorSample_droop (hsupplied hon) die j v), hs, hm, hp.trans hon⟩
  · obtain ⟨hs, hp, hm⟩ := State.droop_of_lt d j.toNat hon hlow
    exact ⟨_, (exec_droopFatal ..).trans (low_execDroopFatal (hsupplied hon) die j hlow), hs, hm, hp⟩
  · obtain ⟨hs, hp, hm, hc⟩ := s.droop_of_le d j.toNat (mv := v) (by omega)
    refine ⟨_, (exec_sensorSample ..).trans (execSensorSample_droop (hsupplied hon) die j v), ?_, hm, hp.trans hon, hc hok⟩
    exact hs
  · exact ⟨_, (exec_sensorSample ..).trans (execSensorSample_process (hsupplied hon) die hidx v), Firefly.sensor_setSensor_self rfl, rfl, hon⟩
  · exact ⟨_, exec_droopRead .., Firefly.sensor_setSensor_self rfl, rfl, trivial⟩
  · have hq := State.hostattn_of_up hset hup part.isLt
    exact ⟨_, exec_hostattn .., fun h => hq.trans (if_pos h), fun h => hq.trans (if_neg (Nat.not_lt.mpr h))⟩
  · refine ⟨_, exec_hostattnCodeRead .., ?_⟩
    rw [State.partN_mapPart_self _ _ part.isLt, hattn]
  · rw [exec_dumpvalidRelease, execDumpvalidRelease, ← Firefly.writeBootstat_eq]
    rfl
  · rw [exec_registerWrite, execRegisterWrite_bootstat]
    simp [f]
  · exact ⟨_, (exec_registerWrite ..).trans (execRegisterWrite_alarm s die.isLt (by omega) (by simp [hset])),
      Firefly.sensor_setSensor_self_of_wf hwf, rfl, trivial⟩
  · rw [State.answers_of_minimal hmin]
    simp
  · obtain ⟨hport, hwings⟩ := State.behind_some hp
    exact ⟨hport, hwings, fun hmin => ⟨by rw [State.answers_of_behind hmin hp]; rfl, by rw [State.answers_of_behind hmin hp]; rfl,
      by rw [State.answers_of_behind hmin hp]; rfl⟩⟩
  · simp [State.windowRead, hans, f]
  · rw [exec_registerWrite, exec_start]
    exact congrArg _ ((State.bar0Write_start hans _).trans (by simp))
  · rw [exec_registerWrite, exec_hostattn]
    refine congrArg _ ((State.bar0Write_hostattn hans hp _).trans ?_)
    simp [Nat.mod_eq_of_lt hnum]
  · have ho : (BitVec.ofNat 16 (0x100 + 8 * k)).toNat = 0x100 + 8 * k := by
      rw [BitVec.toNat_ofNat]
      omega
    refine ⟨s.mapPart p.pnum fun q => q.writeMsix (8 * k) x, ?_, State.mapPart_mem .., ?_⟩
    · rw [exec_registerWrite, execRegisterWrite, ho, State.bar0Write_msix hans hp hk]
    · rw [State.partN_mapPart_self _ _ hnum]
      exact Partition.half_writeMsix _ hk x
  · rw [exec_registerWrite]
    refine congrArg _ (State.bar0Write_other (hno.imp_right fun h => ⟨?_, ?_, h.2.2⟩) x)
    · exact fun h8 => h.1 (BitVec.eq_of_toNat_eq h8)
    · exact fun h16 => h.2.1 (BitVec.eq_of_toNat_eq h16)
  · rfl

end Sys2Proof.Certificates
end

section
/-!
SUPPORT. The stages of a start one by one (R15, R88, R139), how it succeeds and fails, and how a run ends (R16, R18, R19, R25, R26); and the
statement about them.
-/
namespace Sys2Proof.Machine
open Sys2Proof

/-! ## What the stages of a start leave in Firefly -/

/-- The registers of Firefly that no stage of a start changes. -/
def Firefly.steady (f : Firefly) : Power × BitVec 4 × Bool × Bool := (f.power, f.fails, f.minimal, f.dumpValid)

theorem Firefly.steady_eq {f g : Firefly} (h : g.steady = f.steady) :
    g.power = f.power ∧ g.fails = f.fails ∧ g.minimal = f.minimal ∧ g.dumpValid = f.dumpValid := by
  simpa [Firefly.steady] using h

/-! ## Process monitors (R15 stage 1, R23) -/

/-- One process monitor takes its value. -/
def Firefly.takeCount (f : Firefly) (x : BitVec 16 × Nat) : Firefly :=
  f.setSensor (x.2 / 16) (96 + x.2 % 16) { f.sensor (x.2 / 16) (96 + x.2 % 16) with valid := true, value := x.1 }

theorem Firefly.takeProcess_eq (f : Firefly) (counts : Vector (BitVec 16) 128) :
    f.takeProcess counts = counts.toList.zipIdx.foldl Firefly.takeCount f := rfl

/-- The process monitor numbered m of the module. -/
def Firefly.monitor (f : Firefly) (m : Nat) : Sensor := f.sensor (m / 16) (96 + m % 16)

theorem Firefly.monitor_takeCount (f : Firefly) (x : BitVec 16 × Nat) (m : Nat) : (f.takeCount x).monitor m =
    if m = x.2 then { f.monitor x.2 with valid := true, value := x.1 } else f.monitor m := by
  have hm : m / 16 = x.2 / 16 ∧ 96 + m % 16 = 96 + x.2 % 16 ↔ m = x.2 := by omega
  simp only [Firefly.monitor, Firefly.takeCount]
  rw [Firefly.sensor_setSensor rfl (by omega) (by omega)]
  simp only [hm]

/-- Monitors take the values of a list from a number on: those before it stand, and each of the list holds its own. -/
theorem Firefly.monitor_foldl_takeCount (m : Nat) : ∀ (l : List (BitVec 16)) (n : Nat) (f : Firefly),
    (m < n → ((l.zipIdx n).foldl Firefly.takeCount f).monitor m = f.monitor m) ∧
    (∀ v, n ≤ m → l[m - n]? = some v → (((l.zipIdx n).foldl Firefly.takeCount f).monitor m).valid = true ∧
      (((l.zipIdx n).foldl Firefly.takeCount f).monitor m).value = v)
  | [], _, _ => ⟨fun _ => rfl, fun _ _ h => nomatch h⟩
  | c :: l, n, f => by
    obtain ⟨hbefore, hlist⟩ := Firefly.monitor_foldl_takeCount m l (n + 1) (f.takeCount (c, n))
    rw [List.zipIdx_cons, List.foldl_cons]
    refine ⟨fun h => ?_, fun v hn hv => ?_⟩
    · rw [hbefore (by omega), Firefly.monitor_takeCount, if_neg (by omega)]
    · by_cases hmn : m = n
      · obtain rfl : c = v := by simpa [hmn] using hv
        rw [hbefore (by omega), Firefly.monitor_takeCount, if_pos hmn]
        exact ⟨rfl, rfl⟩
      · refine hlist v (by omega) ?_
        rw [show m - n = m - (n + 1) + 1 by omega] at hv
        simpa using hv

theorem Firefly.sensor_takeProcess (f : Firefly) (counts : Vector (BitVec 16) 128) {d k : Nat} (hd : d < 8) (hk : k < 16) :
    ((f.takeProcess counts).sensor d (96 + k)).valid = true ∧
    ((f.takeProcess counts).sensor d (96 + k)).value = counts.toList.getD (16 * d + k) 0 := by
  have hlt : 16 * d + k < counts.toList.length := by
    rw [Vector.length_toList]
    omega
  have h := (Firefly.monitor_foldl_takeCount (16 * d + k) counts.toList 0 f).2 (counts.toList[16 * d + k]) (Nat.zero_le _)
    (by rw [Nat.sub_zero, List.getElem?_eq_getElem hlt])
  rw [Firefly.takeProcess_eq, List.getD_eq_getElem _ _ hlt]
  rw [Firefly.monitor, show (16 * d + k) / 16 = d by omega, show (16 * d + k) % 16 = k by omega] at h
  exact h

@[simp] theorem Firefly.takeProcess_steady (f : Firefly) (counts : Vector (BitVec 16) 128) : (f.takeProcess counts).steady = f.steady :=
  foldl_keeps (f := Firefly.takeCount) Firefly.steady (fun _ _ => rfl) _ _

@[simp] theorem Firefly.takeProcess_log (f : Firefly) (counts : Vector (BitVec 16) 128) : (f.takeProcess counts).log = f.log :=
  foldl_keeps (f := Firefly.takeCount) Firefly.log (fun _ _ => rfl) _ _

@[simp] theorem Firefly.takeProcess_moving (f : Firefly) (counts : Vector (BitVec 16) 128) : (f.takeProcess counts).moving = f.moving :=
  foldl_keeps (f := Firefly.takeCount) Firefly.moving (fun _ _ => rfl) _ _

/-! ## Tiles judged by their working units (R139) -/

theorem getLsbD_foldl_tiles (p : Defects → Bool) {x : Nat} (hx : x < 1024) : ∀ (l : List (Nat × Defects)) (m : BitVec 1024),
    (l.foldl (fun m y => if p y.2 then m ||| BitVec.ofNat 1024 (2 ^ y.1) else m) m).getLsbD x =
      (m.getLsbD x || l.any fun y => p y.2 && decide (y.1 = x))
  | [], m => by simp
  | y :: l, m => by
    rw [List.foldl_cons, getLsbD_foldl_tiles p hx l, List.any_cons]
    cases hp : p y.2
    · simp
    · rw [if_pos rfl, BitVec.getLsbD_or, getLsbD_ofNat_two_pow]
      simp only [hx, decide_true, Bool.true_and, Bool.or_assoc]

theorem getLsbD_tilesWith (p : Defects → Bool) {x : Nat} (hx : x < 1024) (l : List (Nat × Defects)) :
    (tilesWith p l).getLsbD x = l.any fun y => p y.2 && decide (y.1 = x) := by
  rw [tilesWith, getLsbD_foldl_tiles p hx]
  simp

theorem getLsbD_tilesWith_of_not_mem (p : Defects → Bool) {x : Nat} (hx : x < 1024) {l : List (Nat × Defects)} (h : ∀ d, (x, d) ∉ l) :
    (tilesWith p l).getLsbD x = false := by
  rw [getLsbD_tilesWith p hx, List.any_eq_false]
  rintro ⟨y, d⟩ hy
  have : y ≠ x := fun e => h d (e ▸ hy)
  simp [this]

/-- A tile whose defects a list names once is picked as they say. -/
theorem getLsbD_tilesWith_of_mem (p : Defects → Bool) {x : Nat} (hx : x < 1024) {l : List (Nat × Defects)} (hl : (l.map (·.1)).Nodup)
    {d : Defects} (h : (x, d) ∈ l) : (tilesWith p l).getLsbD x = p d := by
  rw [getLsbD_tilesWith p hx, Bool.eq_iff_iff, List.any_eq_true]
  constructor
  · rintro ⟨⟨y, e⟩, hy, hpe⟩
    obtain ⟨hpe, hyx⟩ : p e = true ∧ y = x := by simpa using hpe
    obtain ⟨-, rfl⟩ := Prod.mk.inj (List.inj_on_of_nodup_map hl hy h hyx)
    exact hpe
  · exact fun hp => ⟨(x, d), h, by simp [hp]⟩

/-- How many of n units of a kind work. -/
def workingCount (bad : Nat → Bool) (n : Nat) : Nat := ((List.range n).filter fun k => !bad k).length

theorem fusedOff_iff (b : Defects) : fusedOff b = true ↔
    b.other = true ∨ workingCount (fun k => b.lgs.getLsbD k) 9 < 4 ∨ workingCount (fun k => b.alus.getLsbD k) 3 < 1 := by
  simp only [fusedOff, Bool.or_eq_true, decide_eq_true_eq, or_assoc]
  rfl

theorem madeDegraded_iff (b : Defects) : madeDegraded b = true ↔
    fusedOff b = false ∧ (workingCount (fun k => b.lgs.getLsbD k) 9 < 8 ∨ workingCount (fun k => b.alus.getLsbD k) 3 < 2) := by
  simp only [madeDegraded, Bool.and_eq_true, Bool.or_eq_true, decide_eq_true_eq, Bool.not_eq_true']
  rfl

/-! ## Memory erased in stage 2 (R15, R88) -/

theorem eraseFrames_eq (m : Memory) (moving : List (Nat × Nat × List (Nat × Nat))) :
    eraseFrames m moving = (moving.map fun x => x.2.2).flatten.foldl (fun a f => clearRange a f.1 (f.1 + f.2)) m := rfl

theorem inFrames_flatten {moving : List (Nat × Nat × List (Nat × Nat))} {x : Nat} :
    inFrames (moving.map fun y => y.2.2).flatten x ↔ ∃ m ∈ moving, ∃ r ∈ m.2.2, r.1 ≤ x ∧ x < r.1 + r.2 := by
  simp only [inFrames, List.mem_flatten, List.mem_map]
  constructor
  · rintro ⟨r, ⟨-, ⟨m, hm, rfl⟩, hr⟩, hx⟩
    exact ⟨m, hm, r, hr, hx⟩
  · rintro ⟨m, hm, r, hr, hx⟩
    exact ⟨r, ⟨_, ⟨m, hm, rfl⟩, hr⟩, hx⟩

section
variable {m : Memory} (h : m.wf = true) (moving : List (Nat × Nat × List (Nat × Nat)))
include h

theorem read_erased_scratch {c o : Nat} (hc : c < 128) (ho : o < 2 ^ 22) :
    Memory.read (eraseFrames (clearScratch m) moving) ((Region.scratch c).addr o) = 0 := by
  rw [eraseFrames_eq]
  refine (read_foldl_clearRange _ _ (wf_clearRange h _ _)).1 (.inr ?_)
  rw [read_clearRange h, if_pos]
  simp only [Region.addr, Region.num, Config.clustersPerModule]
  omega

/-- Outside the scratchpads what the moves have released reads zero, and the rest as before. -/
theorem read_erased_rest {x : Nat} (hx : x < 128 * 2 ^ 60) :
    (inFrames (moving.map fun y => y.2.2).flatten x → Memory.read (eraseFrames (clearScratch m) moving) x = 0) ∧
    (¬inFrames (moving.map fun y => y.2.2).flatten x → Memory.read (eraseFrames (clearScratch m) moving) x = Memory.read m x) := by
  have hrest : Memory.read (clearScratch m) x = Memory.read m x := by
    rw [clearScratch, read_clearRange h, if_neg]
    simp only [Region.addr, Region.num, Config.clustersPerModule]
    omega
  obtain ⟨hin, hout⟩ := read_foldl_clearRange x (moving.map fun y => y.2.2).flatten (wf_clearRange h _ _)
  exact ⟨fun hf => hin (.inl hf), fun hf => (hout hf).trans hrest⟩

end

/-! ## The stages of a start (R15) -/

section
variable (s : State) (at_ : Nat) (failing : Option BootFailure)

/-- Stage 0: the firmware is checked. -/
def State.checkFirmware (fw : BitVec 512) : State :=
  if 1 ≤ at_ ∨ failing = some .firmwareSignature then
    s.mapFirefly fun f => f.record 0 noPart (if failing = some .firmwareSignature then 1 else 0) fw
  else s

/-- Stage 1: the tiles are judged, the rails set and the process monitors read. -/
def State.setUpTiles (k : Nat) (defects : List (Nat × Defects)) (process : Vector (BitVec 16) 128) : State :=
  if 2 ≤ at_ then (s.judgeTiles defects).mapFirefly fun f => (f.setRails k).takeProcess process else s

/-- Stage 2: every wing is scrubbed. -/
def State.scrubModule : State :=
  if 3 ≤ at_ then
    { s.restartClock with mem := eraseFrames (clearScratch s.mem) s.firefly.moving }.mapFirefly fun f =>
      { f with scrubDone := BitVec.allOnes 32, moving := [], scrub := f.scrub.map endScrub }
  else s

/-- Stage 3: Benale is checked. -/
def State.checkBenale (benale : BitVec 512) : State :=
  if 4 ≤ at_ ∨ failing = some .benaleSignature ∨ failing = some .imageDigest then
    s.mapFirefly fun f => f.record 1 noPart (match failing with
      | some .benaleSignature => 1
      | some .imageDigest => 2
      | _ => 0) benale
  else s

/-- Benale starts: it configures the partitions. -/
def State.startBenale (parts : List PartConfig) : State :=
  if 4 ≤ at_ then (s.configure parts).mapCore 0 fun c => { c with online := true } else s

/-- The stage that a start reaches. -/
def State.stageReached : Nat := match failing with | some f => (stageOf (Config.freeWord s.fresh).toNat f).toNat | none => 4

theorem State.runStages_eq (fw benale : BitVec 512) (defects : List (Nat × Defects)) (process : Vector (BitVec 16) 128) (parts : List PartConfig) :
    s.runStages failing fw benale defects process parts =
      ((((({ s with fresh := s.fresh + 256 }.checkFirmware (s.stageReached failing) failing fw).setUpTiles (s.stageReached failing)
        (s.fresh + 1) defects process).scrubModule (s.stageReached failing)).checkBenale (s.stageReached failing) failing benale).startBenale
        (s.stageReached failing) parts).mapFirefly fun f => { f with stage := BitVec.ofNat 4 (s.stageReached failing) } := rfl

end

end Sys2Proof.Machine
end

section
/-!
SUPPORT. How a start succeeds and fails, and how a run ends (R15, R16, R18, R19, R25, R26), and the statement about them.
-/
namespace Sys2Proof.Machine
open Sys2Proof

/-! ## What the stages keep -/

theorem Firefly.steady_stage (f : Firefly) (k : BitVec 4) : { f with stage := k }.steady = f.steady := rfl

theorem Firefly.log_stage (f : Firefly) (k : BitVec 4) : { f with stage := k }.log = f.log := rfl

theorem Firefly.record_log_length (f : Firefly) (kind part result : Nat) (digest : BitVec 512) :
    (f.record kind part result digest).log.length = f.log.length + 1 := List.length_append

section
variable (s : State) (at_ : Nat) (failing : Option BootFailure)

@[simp] theorem State.checkFirmware_steady (fw : BitVec 512) : (s.checkFirmware at_ failing fw).firefly.steady = s.firefly.steady := by
  unfold State.checkFirmware; split <;> rfl

@[simp] theorem State.setUpTiles_steady (k : Nat) (defects : List (Nat × Defects)) (process : Vector (BitVec 16) 128) :
    (s.setUpTiles at_ k defects process).firefly.steady = s.firefly.steady := by
  unfold State.setUpTiles
  split
  · exact Firefly.takeProcess_steady (s.firefly.setRails k) process
  · rfl

@[simp] theorem State.scrubModule_steady : (s.scrubModule at_).firefly.steady = s.firefly.steady := by
  unfold State.scrubModule; split <;> rfl

@[simp] theorem State.checkBenale_steady (benale : BitVec 512) : (s.checkBenale at_ failing benale).firefly.steady = s.firefly.steady := by
  unfold State.checkBenale; split <;> rfl

section
variable (parts : List PartConfig)

/-- A configuration replaces partitions, and what a replaced partition leaves it leaves. -/
theorem State.configure_keeps {β : Type} (g : State → β) (h : ∀ t n f, g (t.mapPart n f) = g t) : g (s.configure parts) = g s := by
  unfold State.configure
  split
  · exact foldl_keeps g (fun t c => h t c.pnum _) parts s
  · rfl

@[simp] theorem State.configure_firefly : (s.configure parts).firefly = s.firefly := s.configure_keeps parts State.firefly State.mapPart_firefly
@[simp] theorem State.configure_mem : (s.configure parts).mem = s.mem := s.configure_keeps parts State.mem State.mapPart_mem
@[simp] theorem State.configure_fused : (s.configure parts).fused = s.fused := s.configure_keeps parts State.fused State.mapPart_fused
@[simp] theorem State.configure_degraded : (s.configure parts).degraded = s.degraded :=
  s.configure_keeps parts State.degraded State.mapPart_degraded

@[simp] theorem State.startBenale_firefly : (s.startBenale at_ parts).firefly = s.firefly := by
  unfold State.startBenale; split <;> simp

end

/-! ## The stages run (R15) -/

variable (fw benale : BitVec 512) (defects : List (Nat × Defects)) (process : Vector (BitVec 16) 128) (parts : List PartConfig)

theorem State.runStages_steady : (s.runStages failing fw benale defects process parts).firefly.steady = s.firefly.steady := by
  rw [State.runStages_eq, State.mapFirefly_firefly]
  refine (Firefly.steady_stage _ _).trans ?_
  rw [State.startBenale_firefly, State.checkBenale_steady, State.scrubModule_steady, State.setUpTiles_steady, State.checkFirmware_steady]

theorem State.stageReached_lt : s.stageReached failing < 5 := by
  rcases failing with _ | k
  · exact (by decide : 4 < 5)
  · rcases k with _ | _ | _ | _ | _ | _ | _ | _ | _ | k | ⟨c, d⟩ <;> simp [State.stageReached, stageOf]
    all_goals omega

theorem State.runStages_stage : (s.runStages failing fw benale defects process parts).firefly.stage.toNat = s.stageReached failing := by
  have h := s.stageReached_lt failing
  rw [State.runStages_eq, State.mapFirefly_firefly, BitVec.toNat_ofNat]
  omega

end

/-! ## A start without a failure -/

section
variable (s : State) (fw benale : BitVec 512) (defects : List (Nat × Defects)) (process : Vector (BitVec 16) 128) (parts : List PartConfig)

/-- The module after stage 1 of a start in which no check fails. -/
def State.afterSetUp : State :=
  ((({ s with fresh := s.fresh + 256 }.mapFirefly fun f => f.record 0 noPart 0 fw).judgeTiles defects).mapFirefly fun f =>
    (f.setRails (s.fresh + 1)).takeProcess process)

/-- A start in which no check fails: the tiles set up, the module scrubbed, Benale checked and started. -/
theorem State.runStages_none : s.runStages none fw benale defects process parts =
    (((((((s.afterSetUp fw defects process).scrubModule 4).mapFirefly fun f => f.record 1 noPart 0 benale).configure parts).mapCore 0
      fun c => { c with online := true }).mapFirefly fun f => { f with stage := 4 })) := rfl

theorem State.scrubModule_four : s.scrubModule 4 =
    { s.restartClock with mem := eraseFrames (clearScratch s.mem) s.firefly.moving }.mapFirefly fun f =>
      { f with scrubDone := BitVec.allOnes 32, moving := [], scrub := f.scrub.map endScrub } := rfl

theorem State.afterSetUp_firefly : (s.afterSetUp fw defects process).firefly =
    ((s.firefly.record 0 noPart 0 fw).setRails (s.fresh + 1)).takeProcess process := rfl

/-- Firefly at the end of stage 3. -/
theorem State.runStages_none_firefly : (s.runStages none fw benale defects process parts).firefly =
    { ((s.afterSetUp fw defects process).scrubModule 4).firefly.record 1 noPart 0 benale with stage := 4 } := by
  rw [State.runStages_none, State.mapFirefly_firefly, State.mapCore_firefly, State.configure_firefly, State.mapFirefly_firefly]

theorem State.runStages_none_mem :
    (s.runStages none fw benale defects process parts).mem = eraseFrames (clearScratch s.mem) s.firefly.moving := by
  rw [State.runStages_none, State.mapFirefly_mem, State.mapCore_mem, State.configure_mem, State.mapFirefly_mem, State.scrubModule_four,
    State.mapFirefly_mem, State.afterSetUp_firefly, Firefly.takeProcess_moving]
  rfl

theorem State.runStages_none_tiles : (s.runStages none fw benale defects process parts).fused = tilesWith fusedOff defects ∧
    (s.runStages none fw benale defects process parts).degraded = tilesWith madeDegraded defects := by
  rw [State.runStages_none, State.mapFirefly_fused, State.mapCore_fused, State.configure_fused, State.mapFirefly_degraded,
    State.mapCore_degraded, State.configure_degraded]
  exact ⟨rfl, rfl⟩

theorem State.afterScrub_log : ((s.afterSetUp fw defects process).scrubModule 4).firefly.log = (s.firefly.record 0 noPart 0 fw).log :=
  Firefly.takeProcess_log ((s.firefly.record 0 noPart 0 fw).setRails (s.fresh + 1)) process

theorem State.runStages_none_log : (s.runStages none fw benale defects process parts).firefly.log.length = s.firefly.log.length + 2 := by
  rw [State.runStages_none_firefly, Firefly.log_stage, Firefly.record_log_length, State.afterScrub_log, Firefly.record_log_length]

theorem State.runStages_none_scrubDone : (s.runStages none fw benale defects process parts).firefly.scrubDone = BitVec.allOnes 32 := by
  rw [State.runStages_none_firefly]
  rfl

theorem State.runStages_none_monitors {d k : Nat} (hd : d < 8) (hk : k < 16) :
    ((s.runStages none fw benale defects process parts).firefly.sensor d (96 + k)).valid = true ∧
    ((s.runStages none fw benale defects process parts).firefly.sensor d (96 + k)).value = process.toList.getD (16 * d + k) 0 := by
  have hsensors : (s.runStages none fw benale defects process parts).firefly.sensors = (s.afterSetUp fw defects process).firefly.sensors := by
    rw [State.runStages_none_firefly]
    rfl
  rw [Firefly.sensor_congr hsensors, State.afterSetUp_firefly]
  exact Firefly.sensor_takeProcess _ process hd hk

end

/-! ## The start of a module that is ready (R15, R16, R18) -/

/-- A reset has made the module ready: it runs, no stage has begun, and no image has been checked. -/
def Firefly.Ready (f : Firefly) : Prop := f.power = .on ∧ f.stage = 0 ∧ f.minimal = false ∧ f.log = []

/-- What follows the stages of a start, by the check that fails in them. -/
def State.afterStages (t : State) : Option BootFailure → State
  | none => t
  | some .thermalTrip => t.mapFirefly fun x => { x.failStart 9 with power := .cut, lastDown := 4 }
  | some (.fatal cause die) => t.fatal cause die 2 3
  | some k => t.mapFirefly fun x => x.failStart (reasonOf k)

section
variable {s : State} (hready : s.firefly.Ready) (failing : Option BootFailure) (fw benale : BitVec 512) (defects : List (Nat × Defects))
  (process : Vector (BitVec 16) 128) (parts : List PartConfig)
include hready

theorem Firefly.Ready.mapFirefly_on : (s.mapFirefly fun x => { x with power := .on }) = s := by
  have hf : { s.firefly with power := .on } = s.firefly := by rw [← hready.1]
  rw [State.mapFirefly, hf]

theorem execModuleStart_of_minimal (h3 : s.firefly.fails = 3) : execModuleStart failing fw benale defects process parts s =
    .next ((s.restartClock.mapFirefly fun x => { x with stage := 6, minimal := true }).mapCore 0 fun c => { c with online := true }) := by
  have hon := hready.mapFirefly_on
  obtain ⟨hp, hstage, -, hlog⟩ := hready
  simp [execModuleStart, hp, hstage, hlog, h3, hon]

theorem execModuleStart_of_ready (h3 : s.firefly.fails ≠ 3) : execModuleStart failing fw benale defects process parts s =
    .next ((s.runStages failing fw benale defects process parts).afterStages failing) := by
  have hon := hready.mapFirefly_on
  obtain ⟨hp, hstage, -, hlog⟩ := hready
  have hstarts : ¬(s.firefly.power = .dumping ∨ s.firefly.power = .on ∧ (s.firefly.stage ≠ 0 ∨ (!s.firefly.log.isEmpty) = true)) := by
    simp [hp, hstage, hlog]
  simp only [execModuleStart, if_neg hstarts, if_neg h3, if_pos hp, hon]
  rcases failing with _ | k
  · rfl
  · cases k <;> rfl

end

/-- A start in progress that fails stops the module and is counted (R16, R18). -/
theorem Firefly.failStart_failed {f g : Firefly} (hsteady : g.steady = f.steady) (hon : f.power = .on) (hstage : g.stage.toNat < 5)
    (hfails : f.fails.toNat ≤ 3) (r : Byte) :
    (g.failStart r).power = .stopped ∧ (g.failStart r).reason = r ∧ (g.failStart r).fails.toNat = min 3 (f.fails.toNat + 1) := by
  obtain ⟨hp, hf, -, -⟩ := Firefly.steady_eq hsteady
  rw [Firefly.failStart_of_starting r (hp.trans hon) hstage]
  exact ⟨rfl, rfl, hf ▸ g.fail_fails r (hf ▸ hfails)⟩

end Sys2Proof.Machine
end

section
/-!
SUPPORT. Image checks and the partitions that boot (R15 stage 4, R16, R17), resets and the ends of a run (R18, R19, R25, R26), and the statement
about starts and ends.
-/
namespace Sys2Proof.Machine
open Sys2Proof

/-! ## A partition that boots (R15, R16) -/

/-- Apart from its record and its bit of PARTOK, a partition that boots changes control cores, dies, its port and the free values. -/
theorem State.bootPartition_keeps {β : Type} (s : State) (n : Nat) (g : State → β) (hcore : ∀ t w f, g (t.mapCore w f) = g t)
    (hdie : ∀ t d f, g (t.mapDie d f) = g t) (hport : ∀ t k f, g (t.mapPort k f) = g t) (hfresh : ∀ (t : State) k, g { t with fresh := k } = g t) :
    g (s.bootPartition n) = g ((s.mapPart n fun p =>
      { p with state := 2, bootAt := s.cycle, refills := 0, tiled := p.wings, linkShare := s.divideLinks p }).mapFirefly fun f =>
        { f with partOk := f.partOk ||| BitVec.ofNat 8 (2 ^ n) }) := by
  have hwing (t : State) (w : Nat) : g ((t.mapCore w Core.forGuest).bindWing n w) = g t := (hdie _ _ _).trans (hcore t w _)
  unfold State.bootPartition
  dsimp only
  rw [hfresh, foldl_keeps g (fun t d => hdie t d _), hport, foldl_keeps g hwing]

section
variable (s : State) {n : Nat} (hn : n < 8)

theorem State.bootPartition_mem (n : Nat) : (s.bootPartition n).mem = s.mem :=
  (s.bootPartition_keeps n State.mem State.mapCore_mem State.mapDie_mem State.mapPort_mem fun _ _ => rfl).trans (State.mapPart_mem ..)

theorem State.bootPartition_firefly (n : Nat) : (s.bootPartition n).firefly = { s.firefly with partOk := s.firefly.partOk ||| BitVec.ofNat 8 (2 ^ n) } := by
  rw [s.bootPartition_keeps n State.firefly State.mapCore_firefly State.mapDie_firefly State.mapPort_firefly fun _ _ => rfl,
    State.mapFirefly_firefly, State.mapPart_firefly]

include hn in
theorem State.bootPartition_state : ((s.bootPartition n).partN n).state = 2 := by
  rw [s.bootPartition_keeps n (fun t => t.partN n) (fun t w f => t.partN_mapCore w n f) (fun t d f => t.partN_mapDie d n f)
    (fun t k f => t.partN_mapPort k n f) (fun _ _ => rfl), State.mapFirefly_partN, State.partN_mapPart_self _ _ hn]

end

/-- The module checks partition images: it runs, past stage 3, not in minimal mode, for a partition that waits to boot. -/
theorem execImageCheckRequest_of_waiting {s : State} {part : BitVec 3} (digest : BitVec 512) {verdict : BitVec 2} (hon : s.firefly.power = .on)
    (hstage : 4 ≤ s.firefly.stage.toNat) (hmin : s.firefly.minimal = false) (hstate : (s.partN part.toNat).state = 1) (hv : verdict ≠ 3) :
    execImageCheckRequest part digest verdict s =
      let t := s.mapFirefly fun f => f.record 2 part.toNat verdict.toNat digest
      .next (if verdict = 0 then t.bootPartition part.toNat else t.mapPart part.toNat fun q => { q with state := 0 }) := by
  have hchecks : ¬(s.firefly.power ≠ .on ∨ s.firefly.stage.toNat < 4 ∨ s.firefly.minimal = true ∨ (s.partN part.toNat).state ≠ 1 ∨ verdict = 3) := by
    rintro (h | h | h | h | h)
    · exact h hon
    · omega
    · exact Bool.false_ne_true (hmin.symm.trans h)
    · exact h hstate
    · exact hv h
  simp only [execImageCheckRequest, if_neg hchecks]
  split <;> rfl

/-! ## The attestation log (R17) -/

theorem length_bytesOfNat : ∀ n x, (bytesOfNat n x).length = n
  | 0, _ => rfl
  | n + 1, x => congrArg (· + 1) (length_bytesOfNat n (x / 256))

/-- The bytes that are signed: every record and the nonce of the caller. -/
theorem length_signedBytes (log : List (BitVec 768)) (nonce : BitVec 256) :
    ((log.map fun r => bytesOfNat 96 r.toNat).flatten ++ bytesOfNat 32 nonce.toNat).length = 96 * log.length + 32 := by
  simp [List.length_flatten, List.map_map, Function.comp_def, length_bytesOfNat, Nat.mul_comm]

/-! ## The end of a run (R19, R25) -/

/-- A fatal error of a module that runs leaves memory alone, and LASTDOWN and REASON say how the run ended. -/
theorem State.fatal_ends {s : State} (hon : s.firefly.power = .on) (cause die : BitVec 32) (done undone : BitVec 6) :
    (s.fatal cause die done undone).mem = s.mem ∧
    (s.firefly.dumpValid = false → (s.fatal cause die done undone).firefly.power = .dumping ∧ (s.fatal cause die done undone).firefly.lastDown = done ∧
      (s.fatal cause die done undone).firefly.dumpCause = cause ∧ (s.fatal cause die done undone).firefly.dumpDie = die) ∧
    (s.firefly.dumpValid = true → (s.fatal cause die done undone).firefly.power = .stopped ∧
      (s.fatal cause die done undone).firefly.lastDown = undone) ∧
    (s.fatal cause die done undone).firefly.reason = if s.firefly.stage.toNat < 5 then 10 else s.firefly.reason := by
  rw [State.fatal_of_on hon, State.mapFirefly_firefly]
  exact ⟨rfl, s.firefly.crash_dumping cause die done undone, s.firefly.crash_stopped cause die done undone,
    (s.firefly.crash_reason cause die done undone).trans (Firefly.failStart_reason 10 hon)⟩

end Sys2Proof.Machine
namespace Sys2Proof.Certificates
open Sys2Proof Sys2Proof.Machine

/-- Settles O41: a start by its stages and the check that fails in them, the end of a run by its fatal error, its reset or its loss of power. -/
theorem startsAndEndsOfARun : Obligations.StartsAndEndsOfARun := by
  refine ⟨?_, ?_⟩
  · intro s fw benale digest defects process parts part verdict nonce value f start failed lgs alus released fresh
    have hrun {k : Option BootFailure} (hready : fresh) (h3 : f.fails ≠ 3) :
        exec (start k) s = .next ((s.runStages k fw benale defects process parts).afterStages k) :=
      (exec_moduleStart ..).trans (execModuleStart_of_ready hready k fw benale defects process parts h3)
    have hsteady (k : Option BootFailure) := s.runStages_steady k fw benale defects process parts
    have hstage (k : Option BootFailure) : (s.runStages k fw benale defects process parts).firefly.stage.toNat < 5 :=
      (s.runStages_stage k fw benale defects process parts).trans_lt (s.stageReached_lt k)
    have hnot3 (h : f.fails.toNat < 3) : f.fails ≠ 3 := fun e => by simp [e] at h
    have hfail {k : Option BootFailure} (hready : fresh) (h : f.fails.toNat < 3) (r : Byte) :=
      Firefly.failStart_failed (hsteady k) hready.1 (hstage k) (Nat.le_of_lt h) r
    refine ⟨fun hready h => ?_, fun hready h k reason hk => ?_, fun hready h => ⟨fun k => ?_, ?_, fun c d => ?_⟩, fun hready h3 k => ?_,
      fun hon h4 h3 => ⟨?_, ?_⟩, fun hon h4 hmin hstate => ⟨fun hv => ?_, fun hv => ?_⟩, fun hon => ?_, fun hon hmin hset => ?_⟩
    · obtain ⟨hp, hf, hm, -⟩ := Firefly.steady_eq (hsteady none)
      obtain ⟨hfused, hdegraded⟩ := s.runStages_none_tiles fw benale defects process parts
      refine ⟨_, hrun hready (hnot3 h), hp.trans hready.1, congrArg Firefly.stage (s.runStages_none_firefly fw benale defects process parts),
        hm.trans hready.2.2.1, hf, ?_, s.runStages_none_scrubDone fw benale defects process parts,
        fun d k hd hk => s.runStages_none_monitors fw benale defects process parts hd hk, fun hnd x hx => ⟨fun hno => ?_, fun d hd => ?_⟩,
        fun hwf => ⟨fun c o hc ho => ?_, fun x hx => ?_⟩⟩
      · exact (s.runStages_none_log fw benale defects process parts).trans (by rw [hready.2.2.2]; rfl)
      · rw [State.afterStages, hfused, hdegraded]
        exact ⟨getLsbD_tilesWith_of_not_mem _ hx hno, getLsbD_tilesWith_of_not_mem _ hx hno⟩
      · rw [State.afterStages, hfused, hdegraded, getLsbD_tilesWith_of_mem _ hx hnd hd, getLsbD_tilesWith_of_mem _ hx hnd hd]
        exact ⟨fusedOff_iff d, madeDegraded_iff d⟩
      · rw [State.afterStages, State.runStages_none_mem]
        exact read_erased_scratch hwf _ hc ho
      · rw [State.afterStages, State.runStages_none_mem]
        obtain ⟨hin, hout⟩ := read_erased_rest hwf s.firefly.moving hx
        exact ⟨fun hr => hin (inFrames_flatten.mpr hr), fun hr => hout fun hi => hr (inFrames_flatten.mp hi)⟩
    · simp only [List.mem_cons, Prod.mk.injEq, List.not_mem_nil, or_false] at hk
      rcases hk with ⟨rfl, rfl⟩ | ⟨rfl, rfl⟩ | ⟨rfl, rfl⟩ | ⟨rfl, rfl⟩ | ⟨rfl, rfl⟩ | ⟨rfl, rfl⟩ | ⟨rfl, rfl⟩ | ⟨rfl, rfl⟩ <;>
        exact ⟨_, hrun hready (hnot3 h), hfail hready h _⟩
    · exact ⟨_, hrun hready (hnot3 h), hfail hready h 11⟩
    · obtain ⟨-, hr, hf⟩ := hfail (k := some .thermalTrip) hready h 9
      exact ⟨_, hrun hready (hnot3 h), rfl, hr, rfl, hf.trans (Nat.min_eq_right h)⟩
    · obtain ⟨hp, -, -, hdv⟩ := Firefly.steady_eq (hsteady (some (.fatal c d)))
      have hon := hp.trans hready.1
      obtain ⟨-, hdump, hstop, hr⟩ := State.fatal_ends hon c d 2 3
      refine ⟨_, hrun hready (hnot3 h), hr.trans (if_pos (hstage _)), ?_, fun hv => hdump (hdv.trans hv), fun hv => hstop (hdv.trans hv)⟩
      obtain ⟨-, -, hf⟩ := hfail (k := some (.fatal c d)) hready h 10
      rw [State.afterStages, State.fatal_of_on hon, State.mapFirefly_firefly, Firefly.crash_fails]
      exact hf.trans (Nat.min_eq_right h)
    · exact ⟨_, (exec_moduleStart ..).trans (execModuleStart_of_minimal hready k fw benale defects process parts h3), by simp, by simp, by simp [State.restartClock]⟩
    · refine ⟨_, exec_stageTimeLimit s, ?_⟩
      rw [State.mapFirefly_firefly, if_pos h4]
      exact Firefly.failStart_failed rfl hon (by rw [h4]; decide) h3 8
    · refine ⟨_, exec_bootComplete s, ?_, rfl⟩
      rw [State.mapFirefly_firefly, if_pos ⟨hon, h4⟩]
    · have hx := execImageCheckRequest_of_waiting digest (verdict := verdict) hon h4 hmin hstate (by rw [hv]; decide)
      refine ⟨_, ((exec_imageCheckRequest ..).trans hx).trans (congrArg Host.Outcome.next (if_pos hv)), State.bootPartition_state _ part.isLt, ?_, ?_,
        State.bootPartition_mem _ _⟩
      · rw [State.bootPartition_firefly]
        rfl
      · rw [State.bootPartition_firefly]
        exact Firefly.record_log_length ..
    · have hv0 : verdict ≠ 0 := by rcases hv with rfl | rfl <;> decide
      have hv3 : verdict ≠ 3 := by rcases hv with rfl | rfl <;> decide
      have hx := execImageCheckRequest_of_waiting digest hon h4 hmin hstate hv3
      refine ⟨_, ((exec_imageCheckRequest ..).trans hx).trans (congrArg Host.Outcome.next (if_neg hv0)), ?_, ?_, ?_, State.mapPart_mem ..⟩
      · rw [State.partN_mapPart_self _ _ part.isLt]
      · rw [State.mapPart_firefly]
        rfl
      · rw [State.mapPart_firefly]
        exact Firefly.record_log_length ..
    · exact ⟨_, _, (exec_attestationLogRequest ..).trans (congrArg Host.Outcome.next (if_pos hon)), rfl, length_signedBytes f.log nonce⟩
    · exact ⟨_, (exec_start ..).trans (congrArg Host.Outcome.next (if_pos ⟨hset, hmin, hon⟩)), rfl, rfl, rfl, rfl, rfl, rfl, rfl⟩
  · intro s cause die f ends
    have hend (hon : f.power = .on) (cause die : BitVec 32) (done undone : BitVec 6) := State.fatal_ends hon cause die done undone
    refine ⟨fun hon => ⟨_, exec_fatalError .., hend hon ..⟩, fun hon => ⟨_, exec_benalePanic s, hend hon ..⟩,
      fun hon => ⟨_, exec_fireflyWatchdog s, hend hon ..⟩, fun hd => ?_, fun hd => ?_, fun hon => ?_, fun hon => ?_⟩
    · refine ⟨_, exec_fireflyWatchdog s, ?_⟩
      rw [State.fatal_of_dumping hd]
      exact ⟨rfl, rfl, rfl, rfl⟩
    · exact ⟨_, (exec_dumpDone s).trans (congrArg Host.Outcome.next (if_pos hd)), rfl, rfl, rfl, rfl, rfl, rfl⟩
    · have hnot : s.firefly.power ≠ .off := fun h => nomatch hon.symm.trans h
      refine ⟨_, (exec_moduleReset s).trans (congrArg Host.Outcome.next (if_neg hnot)), ?_⟩
      rw [State.endRun_of_on hon]
      exact ⟨rfl, rfl, rfl, rfl, rfl, rfl, rfl, rfl⟩
    · refine ⟨_, exec_powerOff s, ?_⟩
      rw [State.endRun_of_on hon]
      exact ⟨rfl, rfl, rfl, rfl, rfl⟩

end Sys2Proof.Certificates
end

section
/-!
SUPPORT. Partition resets, the moves of a wing and Termite (R21, R22, R85 to R88): scrubs that start, what each operation replaces and what it
leaves; and the statement about them.
-/
namespace Sys2Proof.Machine
open Sys2Proof

/-! ## SCRUBPROG and SCRUBDONE (R21, R22) -/

theorem Firefly.scrubOf_eq (f : Firefly) {w : Nat} (h : w < 32) : f.scrubOf w = f.scrub[w] := dif_pos h

section
variable (f : Firefly) {v w : Nat} (x : Scrub)

theorem Firefly.scrubOf_setScrub (hw : w < 32) : (f.setScrub v x).scrubOf w = if w = v then x else f.scrubOf w := by
  unfold Firefly.setScrub Firefly.scrubOf
  by_cases hv : v < 32
  · simp [hv, hw, Vector.getElem_set, eq_comm]
  · have hwv : w ≠ v := by omega
    simp [hv, hwv]

@[simp] theorem Firefly.setScrub_moveCode : (f.setScrub v x).moveCode = f.moveCode := by unfold Firefly.setScrub; split <;> rfl

variable (total : Nat)

theorem Firefly.scrubOf_startScrub (hw : w < 32) :
    (f.startScrub v total).scrubOf w = if w = v then (1, BitVec.ofNat 24 total, 0) else f.scrubOf w :=
  f.scrubOf_setScrub _ hw

theorem Firefly.startScrub_scrubDone : (f.startScrub v total).scrubDone = f.scrubDone &&& ~~~BitVec.ofNat 32 (2 ^ v) := rfl

/-- The scrub of a wing stands at its first unit. -/
def Firefly.ScrubsAfresh (f : Firefly) (w : Nat) : Prop := (f.scrubOf w).1 = 1 ∧ (f.scrubOf w).2.2 = 0 ∧ f.scrubDone.getLsbD w = false

theorem Firefly.startScrub_afresh (hw : w < 32) : (f.startScrub w total).ScrubsAfresh w := by
  unfold Firefly.ScrubsAfresh
  rw [f.scrubOf_startScrub total hw, if_pos rfl, Firefly.startScrub_scrubDone, BitVec.getLsbD_and, BitVec.getLsbD_not, getLsbD_ofNat_two_pow]
  exact ⟨rfl, rfl, by simp [hw]⟩

/-- A scrub that starts leaves one at its first unit there. -/
theorem Firefly.ScrubsAfresh.startScrub {f : Firefly} (h : f.ScrubsAfresh w) (hw : w < 32) (v : Nat) : (f.startScrub v total).ScrubsAfresh w := by
  by_cases hv : w = v
  · exact hv ▸ f.startScrub_afresh total hw
  · obtain ⟨hphase, hdone, hbit⟩ := h
    unfold Firefly.ScrubsAfresh
    rw [f.scrubOf_startScrub total hw, if_neg hv, Firefly.startScrub_scrubDone, BitVec.getLsbD_and, hbit]
    exact ⟨hphase, hdone, rfl⟩

end

/-! ## A partition reset (R85, R89) -/

/-- The scrub of a partition's wings starts, and its control cores are reset. -/
def State.resetWings (s : State) (l : List Nat) : State :=
  l.foldl (fun t w => (t.mapCore w fun _ => Core.reset).mapFirefly fun f => f.startScrub w wingUnits) s

/-- The scrub of the wings on their way from a partition starts anew, with the same TOTAL. -/
def State.rescrub (s : State) (l : List (Nat × Nat × List (Nat × Nat))) : State :=
  l.foldl (fun t m => t.mapFirefly fun f => f.startScrub m.1 (f.scrubOf m.1).2.1.toNat) s

/-- The memory sides of the dies hold nothing for a partition any more. -/
def State.forgetPart (s : State) (n : Nat) : State := (List.range 8).foldl (fun t d => t.mapDie d fun r => r.forget n) s

/-- The module after a partition reset. -/
def State.partReset (s : State) (n : Nat) : State :=
  (((((s.dropContexts n).mapPart n Partition.resetting).resetWings (s.partN n).wingList).rescrub
    (s.firefly.moving.filter fun m => m.2.1 == n)).forgetPart n).mapPort (s.partN n).port Port.restart

theorem execPartitionReset_of_configured {s : State} {part : BitVec 3} (h : (s.partN part.toNat).state ≠ 0) :
    execPartitionReset part s = .next (s.partReset part.toNat) :=
  if_neg h

section
variable {β : Type} (g : State → β) (s : State)

theorem State.resetWings_keeps (hcore : ∀ t w f, g (t.mapCore w f) = g t) (hfirefly : ∀ t f, g (t.mapFirefly f) = g t) (l : List Nat) :
    g (s.resetWings l) = g s :=
  foldl_keeps g (fun t w => (hfirefly _ _).trans (hcore t w _)) l s

theorem State.rescrub_keeps (hfirefly : ∀ t f, g (t.mapFirefly f) = g t) (l : List (Nat × Nat × List (Nat × Nat))) : g (s.rescrub l) = g s :=
  foldl_keeps g (fun t _ => hfirefly t _) l s

theorem State.forgetPart_keeps (hdie : ∀ t d f, g (t.mapDie d f) = g t) (n : Nat) : g (s.forgetPart n) = g s :=
  foldl_keeps g (fun t d => hdie t d _) _ s

/-- After its record, its contexts and its accesses a reset touches control cores, Firefly, dies and the port only. -/
theorem State.partReset_keeps (n : Nat) (hcore : ∀ t w f, g (t.mapCore w f) = g t) (hfirefly : ∀ t f, g (t.mapFirefly f) = g t)
    (hdie : ∀ t d f, g (t.mapDie d f) = g t) (hport : ∀ t k f, g (t.mapPort k f) = g t) :
    g (s.partReset n) = g ((s.dropContexts n).mapPart n Partition.resetting) := by
  rw [State.partReset, hport, State.forgetPart_keeps g _ hdie, State.rescrub_keeps g _ hfirefly, State.resetWings_keeps g _ hcore hfirefly]

end

section
variable (s : State) (n : Nat)

theorem State.partReset_mem : (s.partReset n).mem = s.mem :=
  (s.partReset_keeps State.mem n State.mapCore_mem State.mapFirefly_mem State.mapDie_mem State.mapPort_mem).trans (State.mapPart_mem ..)

theorem State.partReset_others : (s.partReset n).others = s.others.filter fun c => c.part != n :=
  (s.partReset_keeps State.others n State.mapCore_others State.mapFirefly_others State.mapDie_others State.mapPort_others).trans
    (State.mapPart_others ..)

theorem State.partReset_requests : (s.partReset n).requests = s.requests.filter fun r => r.part != n :=
  (s.partReset_keeps State.requests n State.mapCore_requests State.mapFirefly_requests State.mapDie_requests State.mapPort_requests).trans
    (State.mapPart_requests ..)

theorem State.partReset_partN (k : Nat) : (s.partReset n).partN k = ((s.dropContexts n).mapPart n Partition.resetting).partN k :=
  s.partReset_keeps (fun t => t.partN k) n (fun t w f => t.partN_mapCore w k f) (fun t f => t.mapFirefly_partN f k)
    (fun t d f => t.partN_mapDie d k f) fun t e f => t.partN_mapPort e k f

theorem State.partReset_partN_self (hn : n < 8) : (s.partReset n).partN n = (s.partN n).resetting :=
  (s.partReset_partN n n).trans (State.partN_mapPart_self _ _ hn)

theorem State.partReset_partN_ne {k : Nat} (hk : k < 8) (hkn : k ≠ n) : (s.partReset n).partN k = s.partN k :=
  (s.partReset_partN n k).trans (State.partN_mapPart_ne _ _ hkn hk)

end

section
variable (s : State) {w : Nat} (hw : w < 32) {wings : List Nat} {moving : List (Nat × Nat × List (Nat × Nat))}
include hw

theorem State.resetWings_scrubs (h : w ∈ wings) : (s.resetWings wings).firefly.scrubOf w = (1, BitVec.ofNat 24 wingUnits, 0) ∧
    (s.resetWings wings).firefly.ScrubsAfresh w := by
  refine foldl_establishes (P := fun t : State => t.firefly.scrubOf w = (1, BitVec.ofNat 24 wingUnits, 0) ∧ t.firefly.ScrubsAfresh w)
    (fun t v ht => ⟨?_, ?_⟩) h (fun t => ⟨?_, ?_⟩) s
  · rw [State.mapFirefly_firefly, State.mapCore_firefly, Firefly.scrubOf_startScrub _ _ hw, ht.1, ite_self]
  · rw [State.mapFirefly_firefly, State.mapCore_firefly]
    exact ht.2.startScrub _ hw v
  · rw [State.mapFirefly_firefly, Firefly.scrubOf_startScrub _ _ hw, if_pos rfl]
  · exact Firefly.startScrub_afresh _ _ hw

theorem State.resetWings_core (h : w ∈ wings) : (s.resetWings wings).coreN w = Core.reset := by
  refine foldl_establishes (P := fun t : State => t.coreN w = Core.reset) (fun t v ht => ?_) h (fun t => ?_) s
  · rw [State.mapFirefly_coreN]
    by_cases hv : w = v
    · rw [hv, State.coreN_mapCore_self _ _ (hv ▸ hw)]
    · rw [State.coreN_mapCore_ne _ _ hv hw, ht]
  · rw [State.mapFirefly_coreN, State.coreN_mapCore_self _ _ hw]

theorem State.rescrub_keeps_afresh (h : s.firefly.ScrubsAfresh w) : (s.rescrub moving).firefly.ScrubsAfresh w :=
  List.foldlRecOn (motive := fun t : State => t.firefly.ScrubsAfresh w) moving _ h fun _ ht m _ => ht.startScrub _ hw m.1

theorem State.rescrub_afresh {m : Nat × Nat × List (Nat × Nat)} (hm : m ∈ moving) (hmw : m.1 = w) : (s.rescrub moving).firefly.ScrubsAfresh w :=
  foldl_establishes (P := fun t : State => t.firefly.ScrubsAfresh w) (fun _ m ht => ht.startScrub _ hw m.1) hm
    (fun t => hmw ▸ t.firefly.startScrub_afresh _ (hmw ▸ hw)) s

theorem State.rescrub_scrubOf (h : ∀ m ∈ moving, m.1 ≠ w) : (s.rescrub moving).firefly.scrubOf w = s.firefly.scrubOf w :=
  List.foldlRecOn (motive := fun t : State => t.firefly.scrubOf w = s.firefly.scrubOf w) moving _ rfl fun t ht m hm => by
    rw [State.mapFirefly_firefly, Firefly.scrubOf_startScrub _ _ hw, if_neg (h m hm).symm, ht]

variable (n : Nat)

omit hw in
theorem State.partReset_firefly : (s.partReset n).firefly = ((((s.dropContexts n).mapPart n Partition.resetting).resetWings
    (s.partN n).wingList).rescrub (s.firefly.moving.filter fun m => m.2.1 == n)).firefly :=
  (State.mapPort_firefly ..).trans (State.forgetPart_keeps State.firefly _ State.mapDie_firefly n)

/-- A wing on its way from the partition is scrubbed anew. -/
theorem State.partReset_moving {m : Nat × Nat × List (Nat × Nat)} (hm : m ∈ s.firefly.moving) (hmw : m.1 = w) (hmn : m.2.1 = n) :
    (s.partReset n).firefly.ScrubsAfresh w := by
  rw [State.partReset_firefly]
  exact State.rescrub_afresh _ hw (List.mem_filter.mpr ⟨hm, beq_iff_eq.mpr hmn⟩) hmw

theorem State.partReset_wing (h : w ∈ (s.partN n).wingList) : (s.partReset n).firefly.ScrubsAfresh w := by
  rw [State.partReset_firefly]
  exact State.rescrub_keeps_afresh _ hw (State.resetWings_scrubs _ hw h).2

theorem State.partReset_scrubOf (h : w ∈ (s.partN n).wingList) (hstays : ∀ m ∈ s.firefly.moving, m.1 ≠ w) :
    (s.partReset n).firefly.scrubOf w = (1, BitVec.ofNat 24 wingUnits, 0) := by
  rw [State.partReset_firefly, State.rescrub_scrubOf _ hw fun m hm => hstays m (List.mem_filter.mp hm).1]
  exact (State.resetWings_scrubs _ hw h).1

theorem State.partReset_core (h : w ∈ (s.partN n).wingList) : (s.partReset n).coreN w = Core.reset := by
  rw [State.partReset, State.coreN_mapPort, State.forgetPart_keeps (fun t => t.coreN w) _ fun t d g => t.coreN_mapDie d w g,
    State.rescrub_keeps (fun t => t.coreN w) _ fun t g => t.mapFirefly_coreN g w]
  exact State.resetWings_core _ hw h

end

/-! ## Wings of a partition -/

theorem Partition.mem_wingList {p : Partition} {w : Nat} : w ∈ p.wingList ↔ w < 32 ∧ p.wings.getLsbD w = true := by
  simp [Partition.wingList]

theorem execPartitionReboot_of_scrubbed {s : State} {part : BitVec 3} (h3 : (s.partN part.toNat).state = 3)
    (h : ∀ k, k < 32 → (s.partN part.toNat).wings.getLsbD k = true → s.firefly.scrubDone.getLsbD k = true) :
    execPartitionReboot part s = .next (s.mapPart part.toNat fun q => { q with state := 1 }) := by
  refine congrArg Host.Outcome.next (if_pos ⟨h3, List.all_eq_true.mpr fun k hk => ?_⟩)
  obtain ⟨hk32, hbit⟩ := Partition.mem_wingList.mp hk
  exact h k hk32 hbit

/-! ## RELEASE (R86, R87, R102) -/

/-- Pending gangs that go leave what records and the Hive do not hold. -/
theorem State.dropGangs_keeps {β : Type} (g : State → β) (s : State) (n : Nat) (hcore : ∀ t w f, g (t.mapCore w f) = g t)
    (hhive : ∀ (t : State) (e : Launch → Bool), g (t.mapPart n fun q => { q with hive := q.hive.filter e }) = g t) :
    g (s.dropGangs n) = g s := by
  refine foldl_keeps g (fun t l => ?_) _ s
  dsimp only
  split
  · rfl
  · split
    · rfl
    · exact (hhive _ _).trans (hcore _ _ _)

theorem State.dropGangs_mem (s : State) (n : Nat) : (s.dropGangs n).mem = s.mem :=
  s.dropGangs_keeps State.mem n State.mapCore_mem fun t _ => t.mapPart_mem n _

theorem State.dropGangs_firefly (s : State) (n : Nat) : (s.dropGangs n).firefly = s.firefly :=
  s.dropGangs_keeps State.firefly n State.mapCore_firefly fun t _ => t.mapPart_firefly n _

/-- The fields of a partition that pending gangs have no part in. -/
theorem State.dropGangs_partN {β : Type} (g : Partition → β) (s : State) {n : Nat} (hn : n < 8)
    (hg : ∀ (q : Partition) (h : List Launch), g { q with hive := h } = g q) : g ((s.dropGangs n).partN n) = g (s.partN n) :=
  s.dropGangs_keeps (fun t => g (t.partN n)) n (fun t w f => by rw [State.partN_mapCore])
    fun t e => by rw [State.partN_mapPart_self _ _ hn, hg]

section
variable {s : State} {p : Partition} {w : Nat} {frames : List (Nat × Nat)}

theorem State.releaseCode_online (h : (s.coreN w).online = true) : s.releaseCode p w frames = .coreOnline := if_pos h

theorem State.releaseCode_ok (hoff : (s.coreN w).online = false)
    (hidle : ∀ c ∈ s.ctxs, c.run.resident = true → wingOf c.tile ≠ w ∧ clusterOf c.tile / 4 ≠ w) (hlast : 2 ≤ p.wingList.length)
    (hframes : ∀ x ∈ frames, s.owns p x = true) : s.releaseCode p w frames = .ok := by
  have htasks : s.ctxs.any (fun c => c.run.resident && wingOf c.tile == w) = false := by
    rw [List.any_eq_false]
    intro c hc hcw
    rw [Bool.and_eq_true, beq_iff_eq] at hcw
    exact (hidle c hc hcw.1).1 hcw.2
  have hallocs : s.ctxs.any (fun c => c.run.resident && clusterOf c.tile / 4 == w && !c.allocs.isEmpty) = false := by
    rw [List.any_eq_false]
    intro c hc hcw
    rw [Bool.and_eq_true, Bool.and_eq_true, beq_iff_eq] at hcw
    exact (hidle c hc hcw.1.1).2 hcw.1.2
  have hmany : ¬p.wingList.length ≤ 1 := by omega
  simp only [State.releaseCode, hoff, htasks, hallocs, Bool.false_eq_true, if_false, if_neg hmany, if_pos (List.all_eq_true.mpr hframes)]

end

theorem execRelease_refused {s : State} {wing : BitVec 5} {frames : List (Nat × Nat)} {p : Partition} {k : WingCode}
    (hp : s.holderOf wing.toNat = some p) (hk : s.releaseCode p wing.toNat frames = k) (hno : k ≠ .ok) :
    execRelease wing frames s = .next (s.mapFirefly fun f => { f with moveCode := k }) := by
  simp only [execRelease, hp, hk, if_pos hno]

/-- A wing leaves its partition, and its scrub starts. -/
def State.letGo (s : State) (p w : Nat) (frames : List (Nat × Nat)) : State :=
  ((s.mapFirefly fun f => { f with moveCode := .ok }).mapPart p fun q =>
    { q with wings := q.wings &&& ~~~BitVec.ofNat 32 (2 ^ w), tiled := q.tiled &&& ~~~BitVec.ofNat 32 (2 ^ w),
             state := if q.up then 4 else q.state }).mapFirefly fun f =>
    { f.startScrub w (wingUnits + frameUnits frames) with moving := f.moving ++ [(w, p, frames)] }

theorem execRelease_ok {s : State} {wing : BitVec 5} {frames : List (Nat × Nat)} {p : Partition} (hp : s.holderOf wing.toNat = some p)
    (hk : s.releaseCode p wing.toNat frames = .ok) :
    execRelease wing frames s = .next ((s.letGo p.pnum wing.toNat frames).dropGangs p.pnum) := by
  simp only [execRelease, hp, hk, ne_eq, not_true_eq_false, if_false]
  rfl

section
variable (s : State) {p w : Nat} (frames : List (Nat × Nat))

theorem State.letGo_firefly : (s.letGo p w frames).firefly =
    { { s.firefly with moveCode := .ok }.startScrub w (wingUnits + frameUnits frames) with moving := s.firefly.moving ++ [(w, p, frames)] } := by
  rw [State.letGo, State.mapFirefly_firefly, State.mapPart_firefly]
  rfl

theorem State.letGo_partN (hp : p < 8) : (s.letGo p w frames).partN p = { s.partN p with
    wings := (s.partN p).wings &&& ~~~BitVec.ofNat 32 (2 ^ w), tiled := (s.partN p).tiled &&& ~~~BitVec.ofNat 32 (2 ^ w),
    state := if (s.partN p).up then 4 else (s.partN p).state } := by
  rw [State.letGo, State.mapFirefly_partN, State.partN_mapPart_self _ _ hp]
  rfl

end

/-! ## ASSIGN and CORE_ONLINE (R86, R87) -/

/-- The code that Firefly answers to an ASSIGN. -/
def State.assignCode (s : State) (w part : Nat) : WingCode :=
  if !s.firefly.scrubDone.getLsbD w then .scrubPending
  else if (s.partN part).state = 0 ∨ (s.partN part).hbm.getD (w / 4) 0 < 2 ∨ (s.holderOf w).isSome then .badTarget
  else .ok

section
variable {s : State} {w part : Nat}

theorem State.assignCode_pending (h : s.firefly.scrubDone.getLsbD w = false) : s.assignCode w part = .scrubPending := by
  simp only [State.assignCode, h, Bool.not_false, if_true]

theorem State.assignCode_held (h : s.firefly.scrubDone.getLsbD w = true) (hheld : (s.holderOf w).isSome = true) :
    s.assignCode w part = .badTarget := by
  simp only [State.assignCode, h, Bool.not_true, Bool.false_eq_true, if_false, hheld, or_true, if_true]

theorem State.assignCode_ok (h : s.firefly.scrubDone.getLsbD w = true) (hup : (s.partN part).state ≠ 0)
    (hhbm : 2 ≤ (s.partN part).hbm.getD (w / 4) 0) (hfree : s.holderOf w = none) : s.assignCode w part = .ok := by
  have hbad : ¬((s.partN part).state = 0 ∨ (s.partN part).hbm.getD (w / 4) 0 < 2 ∨ (s.holderOf w).isSome = true) := by
    rintro (h0 | hlt | hsome)
    · exact hup h0
    · exact Nat.not_lt.mpr hhbm hlt
    · rw [hfree] at hsome
      cases hsome
  simp only [State.assignCode, h, Bool.not_true, Bool.false_eq_true, if_false, if_neg hbad]

end

theorem execAssign_eq (s : State) (wing : BitVec 5) (part : BitVec 3) : execAssign wing part s =
    .next (if s.assignCode wing.toNat part.toNat = .ok then
        (s.mapFirefly fun f => { f with moveCode := s.assignCode wing.toNat part.toNat }).mapPart part.toNat fun q =>
          { q with wings := q.wings ||| BitVec.ofNat 32 (2 ^ wing.toNat) }
      else s.mapFirefly fun f => { f with moveCode := s.assignCode wing.toNat part.toNat }) := rfl

theorem execCoreOnline_of_held {s : State} {wing : BitVec 5} {p : Partition} (hp : s.holderOf wing.toNat = some p) : execCoreOnline wing s =
    .next (((s.mapCore wing.toNat fun c => if c.online then c else c.forGuest).mapPart p.pnum fun q =>
      { q with tiled := q.tiled ||| BitVec.ofNat 32 (2 ^ wing.toNat) }).bindWing p.pnum wing.toNat) := by
  simp only [execCoreOnline, hp]

/-! ## Termite (R21, R88) -/

/-- The frames that a move of a wing has released. -/
def Firefly.releasedFrames (f : Firefly) (w : Nat) : List (Nat × Nat) := ((f.moving.find? fun m => m.1 == w).map fun m => m.2.2).getD []

theorem execTermiteUnit_of_phase {s : State} {wing : BitVec 5}
    (h : (s.firefly.scrubOf wing.toNat).1 = 1 ∨ (s.firefly.scrubOf wing.toNat).1 = 2 ∨ (s.firefly.scrubOf wing.toNat).1 = 3) :
    execTermiteUnit wing s =
      let x := s.firefly.scrubOf wing.toNat
      .next ((s.eraseUnit wing.toNat x.2.2.toNat (s.firefly.releasedFrames wing.toNat)).mapFirefly fun f =>
        f.setScrub wing.toNat (phaseAfter (x.2.2.toNat + 1) x.2.1.toNat, x.2.1, BitVec.ofNat 24 (x.2.2.toNat + 1))) :=
  if_pos h

section
variable {s : State} {w k : Nat} {frames : List (Nat × Nat)}

theorem State.eraseUnit_tile_mem (hk : k < 224) : (s.eraseUnit w k frames).mem = s.mem := by
  rw [State.eraseUnit, if_pos (show k < tileUnits from hk)]
  split <;> rfl

/-- After a tile's seventh unit nothing of a context that is neither resident nor saved is left on it. -/
theorem State.eraseUnit_tile_ctxs (hk : k < 224) (h6 : k % 7 = 6) : ∀ c ∈ (s.eraseUnit w k frames).ctxs, c.tile = 32 * w + k / 7 →
    c.run.resident = true ∨ c.run = .saved ∨ c = { Ctx.empty with uid := c.uid, tile := c.tile } := by
  rw [State.eraseUnit, if_pos (show k < tileUnits from hk), if_pos h6]
  intro c hc htile
  obtain ⟨b, -, rfl⟩ : ∃ b ∈ s.ctxs, (if b.tile = 32 * w + k / 7 ∧ (!b.run.resident) = true ∧ b.run ≠ .saved then
      { Ctx.empty with uid := b.uid, tile := 32 * w + k / 7 } else b) = c := List.mem_map.mp hc
  by_cases hb : b.tile = 32 * w + k / 7 ∧ (!b.run.resident) = true ∧ b.run ≠ .saved
  · rw [if_pos hb]
    exact .inr (.inr rfl)
  · rw [if_neg hb] at htile ⊢
    by_cases hr : b.run.resident = true
    · exact .inl hr
    · exact .inr (.inl (by_contra fun hs => hb ⟨htile, by simpa using hr, hs⟩))

theorem State.eraseUnit_scratch (hlo : 224 ≤ k) (hhi : k < 480) :
    let lo := (Region.scratch (4 * w + (k - 224) / 64)).addr ((k - 224) % 64 * 2 ^ 16)
    (s.eraseUnit w k frames).mem = clearRange s.mem lo (lo + 2 ^ 16) := by
  rw [State.eraseUnit, if_neg (show ¬k < tileUnits from Nat.not_lt.mpr hlo), if_pos (show k < wingUnits from hhi)]
  rfl

theorem State.eraseUnit_frame (hk : 480 ≤ k) {fr : Nat × Nat} {o : Nat} (h : frameUnit frames (k - 480) = some (fr, o)) :
    (s.eraseUnit w k frames).mem = clearRange s.mem (fr.1 + o) (fr.1 + o + min (2 ^ 16) (fr.2 - o)) := by
  have h' : frameUnit frames (k - wingUnits) = some (fr, o) := h
  rw [State.eraseUnit, if_neg (show ¬k < tileUnits from Nat.not_lt.mpr (Nat.le_trans (by decide) hk)),
    if_neg (show ¬k < wingUnits from Nat.not_lt.mpr hk)]
  simp only [h']
  rfl

end

/-- No key slot of a die that has been zeroised for a wing is bound to it. -/
theorem DieRec.zeroise_keys (d : DieRec) (w : Nat) : ∀ k ∈ (d.zeroise w).keys.toList, ∀ q, k ≠ .wing q w := by
  rintro k hk q rfl
  obtain ⟨y, -, hy⟩ : ∃ y ∈ d.keys.toList, (match y with | .wing p v => if v = w then .free else .wing p v | x => x) = KeySlot.wing q w := by
    rw [DieRec.zeroise, Vector.toList_map] at hk
    exact List.mem_map.mp hk
  cases y with
  | free => cases hy
  | partition p => cases hy
  | wing p v =>
    dsimp only at hy
    split at hy
    · cases hy
    next hv =>
      cases hy
      exact hv rfl

/-- The key slots of a wing zeroised and its scrub done. -/
def State.endWing (s : State) (w : Nat) : State :=
  let x := s.firefly.scrubOf w
  { s with dies := s.dies.map (fun (d : DieRec) => d.zeroise w) }.mapFirefly fun f =>
    { f.setScrub w (5, x.2.1, x.2.2) with
      scrubDone := f.scrubDone ||| BitVec.ofNat 32 (2 ^ w), moving := f.moving.filter fun m => m.1 != w }

/-- The partition that has released a wing, once no wing is on its way from it. -/
def State.arrived (s : State) (n : Nat) : State :=
  s.mapPart n fun p => { p with state := if p.state = 4 ∧ !s.firefly.moving.any (fun y => y.2.1 == n) then 2 else p.state }

/-- The module after phase 4 of a wing's scrub. -/
def State.afterKeySlots (s : State) (w : Nat) : State :=
  match s.firefly.moving.find? fun m => m.1 == w with
  | none => s.endWing w
  | some m => (s.endWing w).arrived m.2.1

theorem execTermiteKeySlots_of_phase {s : State} {wing : BitVec 5} (h : (s.firefly.scrubOf wing.toNat).1 = 4) :
    execTermiteKeySlots wing s = .next (s.afterKeySlots wing.toNat) := by
  rw [execTermiteKeySlots, if_neg (not_not_intro h), State.afterKeySlots]
  cases s.firefly.moving.find? fun m => m.1 == wing.toNat <;> rfl

section
variable (s : State) (w : Nat)

/-- The partition that is up again changes, and nothing that a replaced partition leaves. -/
theorem State.afterKeySlots_keeps {β : Type} (g : State → β) (h : ∀ t n f, g (State.mapPart t n f) = g t) :
    g (s.afterKeySlots w) = g (s.endWing w) := by
  unfold State.afterKeySlots
  split
  · rfl
  · exact h _ _ _

theorem State.afterKeySlots_firefly : (s.afterKeySlots w).firefly = (s.endWing w).firefly := s.afterKeySlots_keeps w State.firefly State.mapPart_firefly
theorem State.afterKeySlots_mem : (s.afterKeySlots w).mem = s.mem := s.afterKeySlots_keeps w State.mem State.mapPart_mem

theorem State.afterKeySlots_dies : (s.afterKeySlots w).dies = s.dies.map fun d => d.zeroise w :=
  s.afterKeySlots_keeps w State.dies State.mapPart_dies

/-- The partition whose last wing on its way has been scrubbed is up again (R86). -/
theorem State.afterKeySlots_state {m : Nat × Nat × List (Nat × Nat)} (hm : s.firefly.moving.find? (fun m => m.1 == w) = some m) (hn : m.2.1 < 8)
    (hlast : ∀ y ∈ s.firefly.moving, y.1 ≠ w → y.2.1 ≠ m.2.1) :
    ((s.afterKeySlots w).partN m.2.1).state = if (s.partN m.2.1).state = 4 then 2 else (s.partN m.2.1).state := by
  have hnone : (s.endWing w).firefly.moving.any (fun y => y.2.1 == m.2.1) = false := by
    rw [List.any_eq_false]
    intro y hy
    obtain ⟨hmem, hyw⟩ : y ∈ s.firefly.moving ∧ (y.1 != w) = true := List.mem_filter.mp hy
    rw [beq_iff_eq]
    exact hlast y hmem (bne_iff_ne.mp hyw)
  simp only [State.afterKeySlots, hm, State.arrived, State.partN_mapPart_self _ _ hn, hnone, Bool.not_false, and_true]
  rfl

end

end Sys2Proof.Machine
namespace Sys2Proof.Certificates
open Sys2Proof Sys2Proof.Machine

/-- Settles O48: a reset by what each of its parts replaces, a move by the code that Firefly answers, Termite by the unit that it erases. -/
theorem partitionsAndWings : Obligations.PartitionsAndWings := by
  intro s part wing frames p n w f bit scrub afresh zeroed
  have hn : n < 8 := part.isLt
  have hw : w < 32 := wing.isLt
  have hscrub (t : State) : scrub t = t.firefly.scrubOf w := (t.firefly.scrubOf_eq hw).symm
  have hafresh {t : State} (h : t.firefly.ScrubsAfresh w) : afresh t := by
    obtain ⟨hphase, hdone, hbit⟩ := h
    exact ⟨(congrArg (·.1) (hscrub t)).trans hphase, (congrArg (·.2.2) (hscrub t)).trans hdone, hbit⟩
  have hcore (t : State) : t.cores[w]'wing.isLt = t.coreN w := (dif_pos hw).symm
  refine ⟨fun hup => ?_, fun h3 hdone => ?_, fun hheld hself hnum => ?_, ?_, fun hheld hnum => ?_, ?_, fun done hphase hdone => ?_, fun h4 => ?_⟩
  · have hself := s.partReset_partN_self n hn
    refine ⟨_, (exec_partitionReset ..).trans (execPartitionReset_of_configured hup), congrArg Partition.state hself, congrArg Partition.hive hself,
      congrArg Partition.images hself, (congrArg Partition.wings hself).trans rfl, fun c hc => ?_, fun r hr => ?_, s.partReset_mem n,
      fun k hk hkn => s.partReset_partN_ne n hk hkn, fun ⟨m, hm, hmw, hmn⟩ => hafresh (s.partReset_moving hw n hm hmw hmn), fun hbit => ?_⟩
    · rw [State.partReset_others] at hc
      simpa using (List.mem_filter.mp hc).2
    · rw [State.partReset_requests] at hr
      simpa using (List.mem_filter.mp hr).2
    · have hwing := Partition.mem_wingList.mpr ⟨hw, hbit⟩
      exact ⟨hafresh (s.partReset_wing hw n hwing),
        fun hstays => congrArg (·.2.1) ((hscrub _).trans (s.partReset_scrubOf hw n hwing hstays)), (hcore _).trans (s.partReset_core hw n hwing)⟩
  · exact ⟨_, (exec_partitionReboot ..).trans (execPartitionReboot_of_scrubbed h3 hdone), State.partN_mapPart_self _ _ hn,
      State.mapPart_firefly .., State.mapPart_mem ..⟩
  · by_cases hk : s.releaseCode p w frames = .ok
    · have hoff : (s.coreN w).online ≠ true := fun h => nomatch hk.symm.trans (State.releaseCode_online h)
      have hpartN {β : Type} (g : Partition → β) (hg : ∀ (q : Partition) (h : List Launch), g { q with hive := h } = g q) :=
        State.dropGangs_partN g (s.letGo p.pnum w frames) hnum hg
      have hfirefly := (State.dropGangs_firefly (s.letGo p.pnum w frames) p.pnum).trans (s.letGo_firefly frames)
      have hgone := s.letGo_partN (p := p.pnum) (w := w) frames hnum
      rw [hself] at hgone
      refine ⟨_, (exec_release ..).trans (execRelease_ok hheld hk), (State.dropGangs_mem ..).trans (State.mapPart_mem ..), fun h => absurd h hoff,
        fun _ _ _ _ => ⟨?_, ?_, ?_, ?_, ?_, congrArg Firefly.scrubDone hfirefly, congrArg Firefly.moving hfirefly⟩⟩
      · rw [hfirefly]
        exact Firefly.setScrub_moveCode ..
      · rw [hpartN (·.wings) fun _ _ => rfl, hgone]
      · rw [hpartN (·.tiled) fun _ _ => rfl, hgone]
      · rw [hpartN (·.state) fun _ _ => rfl, hgone]
        simp only [Partition.up, Bool.or_eq_true, beq_iff_eq]
      · rw [hscrub, hfirefly]
        exact (Firefly.scrubOf_startScrub _ _ hw).trans (if_pos rfl)
    · exact ⟨_, (exec_release ..).trans (execRelease_refused hheld rfl hk), rfl, fun h => ⟨State.releaseCode_online h, rfl⟩,
        fun hoff hidle hlast hframes => absurd (State.releaseCode_ok hoff hidle hlast hframes) hk⟩
  · by_cases hk : s.assignCode w n = .ok
    · have hassign := (exec_assign ..).trans ((execAssign_eq s wing part).trans (congrArg Host.Outcome.next (if_pos hk)))
      refine ⟨_, hassign, State.mapPart_mem .., fun h => (nomatch hk.symm.trans (State.assignCode_pending h)), fun _ _ _ _ => ⟨?_, ?_, ?_⟩,
        fun h hheld => nomatch hk.symm.trans (State.assignCode_held h hheld)⟩
      · rw [State.mapPart_firefly]
        exact hk
      · rw [State.partN_mapPart_self _ _ hn]
        rfl
      · rw [State.partN_mapPart_self _ _ hn]
        rfl
    · have hassign := (exec_assign ..).trans ((execAssign_eq s wing part).trans (congrArg Host.Outcome.next (if_neg hk)))
      exact ⟨_, hassign, rfl, fun h => ⟨State.assignCode_pending h, rfl⟩, fun h hup hhbm hfree => absurd (State.assignCode_ok h hup hhbm hfree) hk,
        fun h hheld => ⟨State.assignCode_held h hheld, rfl⟩⟩
  · have honline : ((((s.mapCore w fun c => if c.online then c else c.forGuest).mapPart p.pnum fun q => { q with tiled := q.tiled ||| bit }).bindWing
        p.pnum w).coreN w) = if (s.coreN w).online then s.coreN w else (s.coreN w).forGuest := by
      rw [State.bindWing, State.coreN_mapDie, State.coreN_mapPart, State.coreN_mapCore_self _ _ hw]
    refine ⟨_, (exec_coreOnline ..).trans (execCoreOnline_of_held hheld), ?_, fun hoff => ?_, ?_, ?_⟩
    · rw [hcore, hcore]
      exact honline
    · rw [hcore] at hoff
      rw [hoff] at honline
      exact ⟨congrArg Core.online honline, congrArg Core.virt honline, congrArg Core.priv honline⟩
    · rw [State.bindWing, State.partN_mapDie, State.partN_mapPart_self _ _ hnum, State.partN_mapCore]
    · rw [State.bindWing, State.mapDie_mem, State.mapPart_mem, State.mapCore_mem]
  · refine ⟨_, exec_coreOffline .., ?_, State.mapCore_parts ..⟩
    rw [hcore, hcore, State.coreN_mapCore_self _ _ hw]
  · rw [hscrub] at hphase hdone
    subst hdone
    refine ⟨_, (exec_termiteUnit ..).trans (execTermiteUnit_of_phase hphase), ?_,
      fun hlt => ⟨State.eraseUnit_tile_mem hlt, fun h6 => State.eraseUnit_tile_ctxs hlt h6⟩, fun hlo hhi hwf x => ?_,
      fun m fr o hlo hwf hm hunit x => ?_⟩
    · rw [hscrub, hscrub, State.mapFirefly_firefly, Firefly.scrubOf_setScrub _ _ hw, if_pos rfl]
      rfl
    · rw [State.mapFirefly_mem, State.eraseUnit_scratch hlo hhi, read_clearRange hwf]
    · have hframes : s.firefly.releasedFrames w = m.2.2 := by simp [Firefly.releasedFrames, show s.firefly.moving.find? _ = some m from hm]
      rw [State.mapFirefly_mem, State.eraseUnit_frame hlo (hframes ▸ hunit), read_clearRange hwf]
  · rw [hscrub] at h4
    have hfirefly := s.afterKeySlots_firefly w
    refine ⟨_, (exec_termiteKeySlots ..).trans (execTermiteKeySlots_of_phase h4), ?_, congrArg Firefly.scrubDone hfirefly, fun d hd => ?_, fun m hm => ?_,
      s.afterKeySlots_mem w, fun m hm hnum hlast => s.afterKeySlots_state w hm hnum hlast⟩
    · rw [hscrub, hscrub, hfirefly]
      exact (Firefly.scrubOf_setScrub _ _ hw).trans (if_pos rfl)
    · rw [State.afterKeySlots_dies, Vector.toList_map] at hd
      obtain ⟨e, -, rfl⟩ := List.mem_map.mp hd
      exact e.zeroise_keys w
    · rw [hfirefly] at hm
      exact bne_iff_ne.mp (List.mem_filter.mp hm).2

end Sys2Proof.Certificates
end

section
/-!
SUPPORT. A word of global memory that runs from one page on into another, which migrates and whose hold queue is full (R169): what an add under a
grant or of a flag does there, and the statements about such adds (R42, R47).
-/
namespace Sys2Proof.Machine
open Sys2Proof

/-! ## A byte of memory after a step -/

/-- The byte of memory that a step leaves at an address. -/
def byteAfter (s : State) (i : Instr) (a : Nat) : Option Byte :=
  match exec i s with
  | .next t => some (Memory.read t.mem a)
  | _ => none

theorem byteAfter_of_next {s t : State} {i : Instr} (h : exec i s = .next t) (a : Nat) : byteAfter s i a = some (Memory.read t.mem a) := by
  rw [byteAfter, h]

/-! ## A word across two pages -/

/-- The byte of memory that holds MIG of the leaf entry of the migrating page. -/
def migByte : Nat := 0x10007

/-- The page at offset 0x1000 of die 0 migrates, and its hold queue has no room. -/
def fullMigration : Migration :=
  { num := 1, part := 0, va := 0x1000, size := 0x1000, leafAt := 0x10000, target := 0, queue := List.replicate Config.holdQueueEntries (0, []),
    copied := true, owed := 0 }

/-- A translation of the first two pages with every right. -/
def bothPages : TlbEntry := ⟨0, 0x2000, 0, 0, true, true, true⟩

/-- Partition 0 runs alone, with a port; die 0 holds the translation of the first two pages, and the second migrates: its leaf entry
is valid, with every right and MIG. -/
def straddled (p : Port) : State :=
  { State.reset with
    parts := State.reset.parts.set 0 { Partition.down 0 with state := 2 }
    dies := State.reset.dies.set 0 { DieRec.reset with tlb := [(0, bothPages)], migs := [fullMigration] }
    ports := State.reset.ports.set 0 p
    mem := [(migByte, 0xF9)] }

/-- The word at offset 0xFFE: two bytes in the first page and two in the second. -/
def straddledWord : List Nat := [0xFFE, 0xFFF, 0x1000, 0x1001]

theorem migByte_notMem_straddledWord : migByte ∉ straddledWord := by decide

section
variable (p : Port)

theorem straddled_portPart : (straddled p).portPart 0 = some { Partition.down 0 with state := 2 } := rfl
theorem straddled_wf : (straddled p).mem.wf = true := rfl
theorem read_straddled_migByte : Memory.read (straddled p).mem migByte = 0xF9 := rfl

/-- The first page, in which the word begins, does not migrate. -/
theorem straddled_migOf : ((straddled p).dieRec 0).migOf 0 0xFFE = none := rfl

theorem straddled_translate {off : Nat} (h : off < 0x2000) : (straddled p).translate 0 0 off = some bothPages := by
  have hcached : ((straddled p).dieRec 0).cached 0 off = some bothPages := by simp [straddled, State.dieRec, DieRec.cached, TlbEntry.covers, bothPages, h]
  rw [State.translate, hcached]

theorem straddled_spot : (straddled p).spot 0 0 0xFFE 4 true true = .here straddledWord := by
  have hrun : (List.range 4).map (fun i => (0xFFE + i, (straddled p).translate 0 0 (0xFFE + i))) =
      (List.range 4).map (fun i => (0xFFE + i, some bothPages)) :=
    List.map_congr_left fun i hi => by rw [straddled_translate p (by have := List.mem_range.mp hi; omega)]
  rw [State.spot, hrun, straddled_translate p (by decide)]
  rfl

theorem straddled_exportWaits (who : Nat) : (straddled p).exportWaits who 0 0xFFE 4 = false := rfl

end

/-- A reliable write from module 4 without a block, whose flag is the word. -/
def flagTransfer : Incoming :=
  { src := 4, xfer := 6, payload := 0, lossy := false, arrived := [], denied := false, data := 0, flag := 0xFFE, mask := 0 }

/-- The port that receives it. -/
def flagPort : Port := { Port.reset with incoming := [flagTransfer] }

/-- The increment of the flag abandons the migration of the second page, which clears MIG. -/
theorem migByte_after_flag : byteAfter (straddled flagPort) (.flagIncrement 0 4 6) migByte = some 0xF8 := by decide +kernel

/-- The header of a request from module 4. -/
def addHead : DWord := flitHead tyRequest 4 0 false 6 0

/-- The request of an add of 1 to the word. -/
def addRequest : BitVec 512 := Req.pack { Req.zero with target := 0xFFE, length := 4, op := opAtomic, aop := 1, opa := 1 }

/-- A port that has granted both pages to module 4 with every right, and has the request of the add. -/
def addPort : Port :=
  { Port.reset with exported := [⟨1, 0xF, 0, 0x2000, 0, 4, false, none, none⟩], inbox := [(0, addHead, addRequest)] }

theorem addPort_reachable : (straddled addPort).reachable 0 0 (headSrc addHead) (Req.of addRequest).target 4 4 true true = some 0xFFE := by decide +kernel

/-- The add abandons the migration of the second page as well. -/
theorem migByte_after_add : byteAfter (straddled addPort) (.remoteAtomic 0) migByte = some 0xF8 := by decide +kernel

/-- A step after which MIG has been cleared has changed a byte outside the word. -/
theorem mig_changed {p : Port} {t : State} {i : Instr} (hstep : exec i (straddled p) = .next t) (hafter : byteAfter (straddled p) i migByte = some 0xF8) :
    ¬∀ x, x ∉ straddledWord → Memory.read t.mem x = Memory.read (straddled p).mem x := by
  intro hother
  rw [byteAfter_of_next hstep, hother _ migByte_notMem_straddledWord, read_straddled_migByte] at hafter
  exact absurd hafter (by decide)

end Sys2Proof.Machine
namespace Sys2Proof.Certificates
open Sys2Proof Sys2Proof.Machine

/-- Refutes O56: the flag of a write need not lie in one page. One that runs on into a page that migrates and whose hold queue is full ends that
migration, which clears MIG in the page's leaf entry: a byte of memory beside the flag. -/
theorem not_writesReachThePort : ¬ Obligations.WritesReachThePort := by
  intro h
  obtain ⟨-, -, -, hflag, -⟩ := h (straddled flagPort) 0 _ 0 0 0 0 0 0 [] flagTransfer 4 6 (straddled_portPart _)
  obtain ⟨hgoes, -⟩ := hflag (by decide +kernel) (by decide +kernel) (by decide +kernel) rfl (by decide +kernel)
  obtain ⟨t, hstep, -, hother, -⟩ := hgoes straddledWord rfl rfl (straddled_exportWaits ..) (straddled_spot _) (by decide) rfl (straddled_wf _)
    fun m hm => nomatch (straddled_migOf flagPort).symm.trans hm
  exact mig_changed hstep migByte_after_flag hother

/-- Refutes O57: a word that an atomic changes need not lie in one page. One that runs on into a page that migrates and whose hold queue is full ends
that migration, which clears MIG in the page's leaf entry: a byte of memory beside the word. -/
theorem not_loadsAtomicsAndWatchesAreAnswered : ¬ Obligations.LoadsAtomicsAndWatchesAreAnswered := by
  intro h
  obtain ⟨-, -, hatomic, -⟩ := h (straddled addPort) 0 _ addHead addRequest 0 [] ⟨0, 0, 0, 0⟩ ⟨0, 0, 0, [], false, false, none, none, none, 0, 0⟩
    Ctx.empty (straddled_portPart _)
  obtain ⟨-, hgranted⟩ := hatomic ⟨rfl, by decide +kernel⟩ (by decide +kernel) (by decide +kernel) (by decide +kernel)
  obtain ⟨-, -, hnew⟩ := hgranted 0xFFE addPort_reachable
  obtain ⟨t, hstep, -, -, -, -, hother⟩ := hnew straddledWord (fun x hx => nomatch hx) (by decide +kernel) (straddled_exportWaits ..) (straddled_spot _)
    (by decide) rfl (straddled_wf _) fun m hm => nomatch (straddled_migOf addPort).symm.trans hm
  exact mig_changed hstep migByte_after_add hother

end Sys2Proof.Certificates
end

section
/-!
SUPPORT. Flits and their checks, the pairs of a port, and how a port takes in, tells, accepts and refuses (R37 to R40, R46, R56).
-/
namespace Sys2Proof.Machine
open Sys2Proof

/-! ## The fields of a flit (R37) -/

section
variable (head : DWord) (payload : BitVec 512) (seed : Word)

theorem flitHeader_flitOf : flitHeader (flitOf head payload seed) = head := BitVec.extractLsb'_append_eq_right

theorem flitPayload_flitOf : flitPayload (flitOf head payload seed) = payload := by
  rw [flitPayload, flitOf, BitVec.extractLsb'_append_eq_of_le (Nat.le_refl 64)]
  exact BitVec.extractLsb'_append_eq_right

theorem flitSum_flitOf : flitSum (flitOf head payload seed) = flitCrc head payload seed := by
  rw [flitSum, flitOf, BitVec.extractLsb'_append_eq_of_le (by decide : 64 ≤ 576)]
  exact BitVec.extractLsb'_append_eq_left

theorem flitChecks_flitOf : flitChecks (flitOf head payload seed) seed = true := by
  rw [flitChecks, flitHeader_flitOf, flitPayload_flitOf, flitSum_flitOf, beq_self_eq_true]

end

section
variable {type src dst xfer block : Nat} {hop1 : Bool}

theorem headType_flitHead (h : type < 16) : headType (flitHead type src dst hop1 xfer block) = type := by
  rw [headType, flitHead, BitVec.toNat_ofNat]
  split <;> omega

end

/-! ## The pair of a peer -/

section
variable (p : Port) (own b c : Nat)

theorem Port.pair_peer : (p.pair b).peer = b := by
  unfold Port.pair
  cases h : p.pairs.find? fun x => x.peer == b with
  | none => rfl
  | some x =>
    have hx := List.find?_some h
    exact beq_iff_eq.mp hx

/-- The place of a pair in a list of pairs is as before when that of x is replaced. -/
theorem find?_replacePair (l : List Pair) (x : Pair) : (l.map fun y => if y.peer = x.peer then x else y).find? (fun y => y.peer == b) =
    (l.find? fun y => y.peer == b).map fun y => if y.peer = x.peer then x else y := by
  have hpeer : ((fun y : Pair => y.peer == b) ∘ fun y => if y.peer = x.peer then x else y) = fun y => y.peer == b := by
    funext y
    by_cases hy : y.peer = x.peer <;> simp [hy]
  rw [List.find?_map, hpeer]

theorem Port.pair_setPair (x : Pair) : (p.setPair x).pair b = if b = x.peer then x else p.pair b := by
  unfold Port.setPair Port.pair
  split
  next hany =>
    dsimp only
    rw [find?_replacePair]
    cases hfind : p.pairs.find? fun y => y.peer == b with
    | none =>
      have hne : b ≠ x.peer := by
        rintro rfl
        obtain ⟨y, hy, hyx⟩ := List.any_eq_true.mp hany
        exact absurd hyx (List.find?_eq_none.mp hfind y hy)
      rw [if_neg hne]
      rfl
    | some y =>
      have hy : y.peer = b := by simpa using List.find?_some hfind
      simp only [Option.map_some, Option.getD_some, hy]
  next hany =>
    have hnone : p.pairs.find? (fun y => y.peer == x.peer) = none := by simpa using hany
    by_cases hb : b = x.peer
    · subst hb
      simp [hnone]
    · simp [hb, Ne.symm hb]

theorem Port.pair_mapPair {f : Pair → Pair} (hf : ∀ x, (f x).peer = x.peer) : (p.mapPair b f).pair c = if c = b then f (p.pair b) else p.pair c := by
  rw [Port.mapPair, Port.pair_setPair, hf, Port.pair_peer]

theorem Port.pair_mapPair_self {f : Pair → Pair} (hf : ∀ x, (f x).peer = x.peer) : (p.mapPair b f).pair b = f (p.pair b) :=
  (p.pair_mapPair b b hf).trans (if_pos rfl)

/-! ## Control flits that a port owes (R40) -/

section
variable (x : Nat × Nat)

theorem Port.tell_of_room {y : Sent} (h : p.sent (own ^^^ b) = some y) (hy : y.count < windowFlits) : p.tell own b x =
    { p with wire := p.wire.map fun z => if z.meet = own ^^^ b then { z with first := controlFlit own b x :: z.first } else z } := by
  simp only [Port.tell, h, if_pos hy]

theorem Port.tell_of_idle (h : p.sent (own ^^^ b) = none) : p.tell own b x = p.mapPair b fun q => { q with control := q.control ++ [x] } := by
  simp only [Port.tell, h]

/-- Of a pair nothing but the control flits that it owes may change. -/
theorem Port.pair_tell : ∃ l, (p.tell own b x).pair c = { p.pair c with control := l } := by
  have hmap : ∃ l, (p.mapPair b fun q => { q with control := q.control ++ [x] }).pair c = { p.pair c with control := l } := by
    rw [Port.pair_mapPair _ _ _ (by exact fun _ => rfl)]
    split
    next h => exact ⟨_, by rw [h]⟩
    next => exact ⟨(p.pair c).control, rfl⟩
  unfold Port.tell
  dsimp only
  split
  · split
    · exact ⟨(p.pair c).control, rfl⟩
    · exact hmap
  · exact hmap

@[simp] theorem Port.tell_inbox : (p.tell own b x).inbox = p.inbox := by
  unfold Port.tell
  dsimp only
  split
  · split <;> rfl
  · rfl

end

/-! ## A flit that has checked (R38, R40, R55) -/

@[simp] theorem Pair.hear_peer (q : Pair) : q.hear.peer = q.peer := by unfold Pair.hear; split <;> rfl
@[simp] theorem Pair.hear_sendS (q : Pair) : q.hear.sendS = q.sendS := by unfold Pair.hear; split <;> rfl
@[simp] theorem Pair.hear_kept (q : Pair) : q.hear.kept = q.kept := by unfold Pair.hear; split <;> rfl
@[simp] theorem Pair.hear_credit (q : Pair) : q.hear.credit = q.credit := by unfold Pair.hear; split <;> rfl
@[simp] theorem Pair.hear_since (q : Pair) : q.hear.since = q.since := by unfold Pair.hear; split <;> rfl
@[simp] theorem Pair.hear_stale (q : Pair) : q.hear.stale = q.stale := by unfold Pair.hear; split <;> rfl
@[simp] theorem Pair.hear_heard (q : Pair) : q.hear.heard = true := by unfold Pair.hear; split <;> rfl
@[simp] theorem Pair.hear_left (q : Pair) : q.hear.left = none := by
  unfold Pair.hear
  split
  next => rfl
  next h => simpa using h

/-- What an accepted flit leaves of its pair. -/
theorem Port.pair_accept_self : ∃ l, (p.accept own b false).pair b = { (p.pair b).accept false with control := l } := by
  have hmap : (p.mapPair b fun x => x.accept false).pair b = (p.pair b).accept false := p.pair_mapPair_self b Pair.hear_peer
  unfold Port.accept
  dsimp only
  split
  · obtain ⟨l, hl⟩ := Port.pair_tell (p.mapPair b fun x => x.accept false) own b b (ctlAck, ((p.mapPair b fun x => x.accept false).pair b).expectS)
    exact ⟨l, hl.trans (by rw [hmap])⟩
  · exact ⟨_, hmap⟩

theorem Port.pair_accept_ne (h : c ≠ b) : ∃ l, (p.accept own b false).pair c = { p.pair c with control := l } := by
  have hmap : (p.mapPair b fun x => x.accept false).pair c = p.pair c := (p.pair_mapPair b c (f := (·.accept false)) Pair.hear_peer).trans (if_neg h)
  unfold Port.accept
  dsimp only
  split
  · obtain ⟨l, hl⟩ := Port.pair_tell (p.mapPair b fun x => x.accept false) own b c (ctlAck, ((p.mapPair b fun x => x.accept false).pair b).expectS)
    exact ⟨l, hl.trans (by rw [hmap])⟩
  · exact ⟨_, hmap⟩

/-- What an accepted flit leaves of every pair: which requests of it were made before it left. -/
theorem Port.pair_accept_since : ((p.accept own b false).pair c).since = (p.pair c).since ∧ ((p.accept own b false).pair c).stale = (p.pair c).stale := by
  by_cases h : c = b
  · subst h
    obtain ⟨l, hl⟩ := p.pair_accept_self own c
    rw [hl]
    exact ⟨Pair.hear_since _, Pair.hear_stale _⟩
  · obtain ⟨l, hl⟩ := p.pair_accept_ne own b c h
    rw [hl]
    exact ⟨rfl, rfl⟩

theorem Port.accept_madeBefore (payload : BitVec 512) : ((p.accept own b false).pair c).madeBefore payload = (p.pair c).madeBefore payload := by
  simp only [Pair.madeBefore, (p.pair_accept_since own b c).1]

/-- A peer that has not left, or whose own flit has checked, is there. -/
theorem Port.accept_hasLeft (h : c = b ∨ (p.pair c).left = none) : (p.accept own b false).hasLeft c = false := by
  have hleft : ((p.accept own b false).pair c).left = none := by
    by_cases hc : c = b
    · subst hc
      obtain ⟨l, hl⟩ := p.pair_accept_self own c
      rw [hl]
      exact Pair.hear_left _
    · obtain ⟨l, hl⟩ := p.pair_accept_ne own b c hc
      rw [hl]
      exact h.resolve_left hc
  rw [Port.hasLeft, hleft]
  rfl

@[simp] theorem Port.accept_inbox (idle : Bool) : (p.accept own b idle).inbox = p.inbox := by
  unfold Port.accept
  dsimp only
  split
  · exact Port.tell_inbox ..
  · rfl

/-! ## A flit for this module (R56) -/

section
variable {w : Nat} {head : DWord} {payload : BitVec 512}

/-- Of a pair nothing but the identifiers that it has dropped may change. -/
theorem Port.pair_takeIn : ∃ l, (p.takeIn w head payload).pair b = { p.pair b with stale := l } := by
  have hset (l : List Nat) : ∃ l', (p.setPair { p.pair (headSrc head) with stale := l }).pair b = { p.pair b with stale := l' } := by
    rw [Port.pair_setPair]
    split
    next h =>
      rw [h, show ({ p.pair (headSrc head) with stale := l } : Pair).peer = headSrc head from p.pair_peer _]
      exact ⟨l, rfl⟩
    next => exact ⟨_, rfl⟩
  unfold Port.takeIn
  dsimp only
  split
  · split
    · exact hset _
    · split
      · exact hset _
      · exact ⟨(p.pair b).stale, rfl⟩
  · split <;> exact ⟨(p.pair b).stale, rfl⟩

/-- A flit that no leaving of its source makes stale joins the inbox. -/
theorem Port.takeIn_inbox (hlossy : headType head ≠ 3) (hreq : headType head = 1 → (p.pair (headSrc head)).madeBefore payload = false)
    (hdata : headType head = 2 → headXfer head ∉ (p.pair (headSrc head)).stale) : (p.takeIn w head payload).inbox = p.inbox ++ [(w, head, payload)] := by
  unfold Port.takeIn
  dsimp only
  split
  next h =>
    rw [if_neg (by rw [hreq h]; decide)]
    split <;> rfl
  next =>
    have hfresh : ¬((headType head = tyData ∨ headType head = tyLossy) ∧ (p.pair (headSrc head)).stale.contains (headXfer head) = true) := by
      rintro ⟨h | h, hstale⟩
      · exact hdata h (List.contains_iff_mem.mp hstale)
      · exact hlossy h
    rw [if_neg hfresh]

/-- A request from before its source left is dropped, and its identifier noted. -/
theorem Port.takeIn_of_madeBefore (htype : headType head = 1) (h : (p.pair (headSrc head)).madeBefore payload = true) :
    (∀ x ∈ (p.takeIn w head payload).inbox, x ∈ p.inbox) ∧ headXfer head ∈ ((p.takeIn w head payload).pair (headSrc head)).stale := by
  have hreq : headType head = tyRequest := htype
  simp only [Port.takeIn, if_pos hreq, if_pos h]
  refine ⟨fun x hx => (List.mem_filter.mp hx).1, ?_⟩
  have hset := p.pair_setPair (headSrc head)
    { p.pair (headSrc head) with stale := headXfer head :: (p.pair (headSrc head)).stale.filter (· != headXfer head) }
  rw [if_pos (p.pair_peer _).symm] at hset
  exact (congrArg (headXfer head ∈ ·.stale) hset).mpr List.mem_cons_self

end

/-! ## A flit that fails every check (R40) -/

@[simp] theorem Port.refuse_inbox : (p.refuse own b).inbox = p.inbox := by
  unfold Port.refuse
  dsimp only
  split
  · rfl
  · exact Port.tell_inbox ..

theorem Port.refuse_of_nak (h : (p.pair b).nak = true) : p.refuse own b = p := if_pos h

theorem Port.refuse_of_not_nak (h : (p.pair b).nak = false) :
    p.refuse own b = (p.mapPair b fun y => { y with nak := true }).tell own b (ctlNak, (p.pair b).expectS) := if_neg (by simp [h])

theorem Port.pair_owingNak : (p.mapPair b fun y => { y with nak := true }).pair b = { p.pair b with nak := true } := p.pair_mapPair_self b fun _ => rfl

theorem Port.pair_refuse : ((p.refuse own b).pair b).nak = true ∧ ((p.refuse own b).pair b).expectS = (p.pair b).expectS := by
  by_cases h : (p.pair b).nak = true
  · rw [p.refuse_of_nak own b h]
    exact ⟨h, rfl⟩
  · rw [p.refuse_of_not_nak own b (by simpa using h)]
    obtain ⟨l, hl⟩ := Port.pair_tell (p.mapPair b fun y => { y with nak := true }) own b b (ctlNak, (p.pair b).expectS)
    rw [hl, p.pair_owingNak b]
    exact ⟨rfl, rfl⟩

/-- A NAK goes at the next meeting of the pair when none is in progress. -/
theorem Port.refuse_control (h : (p.pair b).nak = false) (hidle : p.sent (own ^^^ b) = none) :
    ((p.refuse own b).pair b).control = (p.pair b).control ++ [(0, (p.pair b).expectS)] := by
  rw [p.refuse_of_not_nak own b h, Port.tell_of_idle (p.mapPair b fun y => { y with nak := true }) own b _ hidle,
    Port.pair_mapPair_self _ b (by exact fun _ => rfl), p.pair_owingNak b]
  rfl

/-- It goes in the meeting in progress when that has room. -/
theorem Port.refuse_wire (h : (p.pair b).nak = false) {y : Sent} (hsent : p.sent (own ^^^ b) = some y) (hy : y.count < 226) :
    ∃ z ∈ (p.refuse own b).wire, z.meet = own ^^^ b ∧ z.first = controlFlit own b (0, (p.pair b).expectS) :: y.first := by
  have hmeet : y.meet = own ^^^ b := by
    have hf := List.find?_some hsent
    exact beq_iff_eq.mp hf
  rw [p.refuse_of_not_nak own b h, Port.tell_of_room (p.mapPair b fun y => { y with nak := true }) own b _ hsent hy]
  exact ⟨_, List.mem_map.mpr ⟨y, List.mem_of_find?_eq_some hsent, if_pos hmeet⟩, hmeet, rfl⟩

end

end Sys2Proof.Machine
end

section
/-!
SUPPORT. A window of a port (R30 to R36): no meeting carries more than its flits.
-/
namespace Sys2Proof.Machine
open Sys2Proof

/-! ## The room of a link (R32) -/

/-- The flits that a link carries and those that it has room for. -/
def Link.size (l : Link) : Nat := l.room + l.out.length

section
variable (l : Link) (own : Nat)

theorem Link.seq_size (head : DWord) (payload : BitVec 512) (h : 0 < l.room) : (l.seq head payload).size = l.size := by
  simp only [Link.seq, Link.size, List.length_cons]
  omega

theorem Link.lossy_size (head : DWord) (payload : BitVec 512) (h : 0 < l.room) : (l.lossy head payload).size = l.size := by
  simp only [Link.lossy, Link.size, List.length_cons]
  omega

theorem Link.send_size (x : Waiting) (hop1 : Bool) (h : 0 < l.room) : (l.send x hop1).size = l.size := by
  unfold Link.send
  dsimp only
  split
  · exact l.lossy_size _ _ h
  · split
    · exact l.seq_size _ _ h
    · exact l.seq_size _ _ h

theorem Link.controls_size (xs : List (Nat × Nat)) : (Link.controls own xs l).size = l.size := by
  induction xs generalizing l with
  | nil => rfl
  | cons x xs ih =>
    unfold Link.controls
    split
    · rfl
    · rw [ih]
      simp only [Link.size, List.length_cons]
      omega

theorem Link.resends_size (xs : List (Nat × BitVec 608)) : (Link.resends xs l).size = l.size := by
  simp only [Link.resends, Link.size, List.length_append, List.length_reverse, List.length_map, List.length_take]
  omega

theorem Link.drain_size (mine : Waiting → Bool) (xs : List Waiting) : (Link.drain mine xs l).2.1.size = l.size := by
  induction xs generalizing l with
  | nil => rfl
  | cons x xs ih =>
    unfold Link.drain
    dsimp only
    split
    next h =>
      have hroom : 0 < l.room := by simp_all [Link.takes]
      exact (ih _).trans (l.send_size x _ hroom)
    next => exact ih l

/-- The flits that leave on a link fit in its room. -/
theorem Link.length_drainOwn_le (mine : Waiting → Bool) (xs : List Waiting) : (Link.drainOwn mine xs l).2.2.length ≤ l.room := by
  have hsize := Link.drain_size { l with out := [] } mine xs
  simp only [Link.size, List.length_nil] at hsize
  simp only [Link.drainOwn, List.length_zip, List.length_reverse]
  omega

/-- Relayed flits and a port's own leave in one room. -/
theorem Link.count_le (relay mine : Waiting → Bool) (xs ys : List Waiting) (h : l.size = windowFlits) :
    (Link.drain relay xs l).2.1.out.length + (Link.drainOwn mine ys (Link.drain relay xs l).2.1).2.2.length ≤ windowFlits := by
  have hown := Link.length_drainOwn_le (Link.drain relay xs l).2.1 mine ys
  have hsize := (l.drain_size relay xs).trans h
  rw [Link.size] at hsize
  omega

end

/-! ## What a port carries on its meetings -/

/-- No meeting carries more than the flits of a window. -/
def Port.Fits (p : Port) : Prop := ∀ y ∈ p.wire, y.count ≤ windowFlits

section
variable (p : Port) (own w : Nat)

@[simp] theorem Port.requestsLeft_wire (gone : List Waiting) : (p.requestsLeft w gone).wire = p.wire := rfl
@[simp] theorem Port.blocksLeft_wire (gone : List Waiting) : (p.blocksLeft gone).wire = p.wire := rfl
@[simp] theorem Port.setPair_wire (x : Pair) : (p.setPair x).wire = p.wire := rfl

@[simp] theorem Port.returnCredits_wire (gone : List Waiting) : (p.returnCredits gone).wire = p.wire := by
  unfold Port.returnCredits
  refine foldl_keeps Port.wire (fun q x => ?_) gone p
  split
  · split <;> rfl
  · rfl

theorem State.sendMeeting_fits (s : State) (k : Nat) (h : p.Fits) : (s.sendMeeting own w p k).Fits := by
  unfold State.sendMeeting
  dsimp only
  split
  · exact h
  · intro y hy
    rw [Port.requestsLeft_wire, Port.blocksLeft_wire, Port.returnCredits_wire, Port.setPair_wire] at hy
    rcases List.mem_append.mp hy with hy | hy
    · exact h y hy
    · rw [List.mem_singleton.mp hy]
      exact Link.count_le _ _ _ _ _ ((Link.resends_size _ _).trans (Link.controls_size _ _ _))

theorem State.sendWindow_fits (s : State) : (s.sendWindow own w p).Fits :=
  List.foldlRecOn (motive := Port.Fits) _ _ (fun _ hy => nomatch hy) fun q hq k _ => s.sendMeeting_fits q own w k hq

end

/-! ## The ports send in turn -/

section
variable (s : State) (n k w : Nat)

@[simp] theorem State.mapCtx_portN (uid : Nat) (f : Ctx → Ctx) : (s.mapCtx uid f).portN k = s.portN k := rfl

/-- What a refused request does not touch. -/
theorem State.refuseRequest_keeps {β : Type} (g : State → β) (h : ∀ t id rs, g (State.replace t id rs) = g t) (id : Nat) : g (s.refuseRequest id) = g s := by
  unfold State.refuseRequest
  split
  · exact h ..
  · rfl

/-- What the closing of a request at a port does not touch. -/
theorem State.closeRequest_keeps {β : Type} (g : State → β) (hreplace : ∀ t id rs, g (State.replace t id rs) = g t)
    (hctx : ∀ t uid f, g (State.mapCtx t uid f) = g t) (hport : ∀ t f, g (State.mapPort t n f) = g t) (r : Request) : g (s.closeRequest n w r) = g s := by
  unfold State.closeRequest
  dsimp only
  split_ifs
  · exact s.refuseRequest_keeps g hreplace r.id
  · rw [hreplace, hctx, hport]
  · rw [hreplace, hport]
  · rfl

/-- The last block of a lossy transfer has left (R43). -/
abbrev partsDone (u : State) (x : Nat × Nat) : State := u.mapCtx x.1 fun c => c.partDone x.2

/-- What a port that sends does not touch. -/
theorem State.portWindow_keeps {β : Type} (g : State → β) (hreplace : ∀ t id rs, g (State.replace t id rs) = g t)
    (hctx : ∀ t uid f, g (State.mapCtx t uid f) = g t) (hport : ∀ t f, g (State.mapPort t n f) = g t) : g (s.portWindow w n) = g s := by
  unfold State.portWindow
  split
  · rfl
  · dsimp only
    rw [foldl_keeps (f := partsDone) g fun t x => hctx t x.1 _, hport]
    exact foldl_keeps g (fun t r => t.closeRequest_keeps n w g hreplace hctx hport r) _ s

theorem State.portWindow_mem : (s.portWindow w n).mem = s.mem :=
  s.portWindow_keeps n w State.mem (fun _ _ _ => rfl) (fun _ _ _ => rfl) fun t f => t.mapPort_mem n f

theorem State.portWindow_portPart : (s.portWindow w n).portPart k = s.portPart k :=
  s.portWindow_keeps n w (State.portPart · k) (fun _ _ _ => rfl) (fun _ _ _ => rfl) fun t f => by simp only [State.portPart, State.mapPort_parts]

theorem State.portWindow_portN_ne (hk : k < 8) (h : k ≠ n) : (s.portWindow w n).portN k = s.portN k :=
  s.portWindow_keeps n w (State.portN · k) (fun _ _ _ => rfl) (fun _ _ _ => rfl) fun t f => t.portN_mapPort_ne f h hk

theorem State.portWindow_of_free (h : s.portPart n = none) : s.portWindow w n = s := by
  unfold State.portWindow
  rw [h]

theorem State.portWindow_fits (hk : k < 8) (h : (s.portPart k).isSome = true) : ((s.portWindow w k).portN k).Fits := by
  obtain ⟨p, hp⟩ := Option.isSome_iff_exists.mp h
  unfold State.portWindow
  rw [hp]
  dsimp only
  rw [foldl_keeps (f := partsDone) (State.portN · k) (fun t x => t.mapCtx_portN k x.1 _), State.portN_mapPort_self _ _ hk]
  exact State.sendWindow_fits _ _ _ _

/-- The window with every port of a partition. -/
def State.sendAll : State := (List.range 8).foldl (fun t n => t.portWindow w n) s

theorem State.sendAll_mem : (s.sendAll w).mem = s.mem := foldl_keeps State.mem (fun t n => t.portWindow_mem n w) _ s

theorem State.sendAll_window : (s.sendAll w).window = s.window :=
  foldl_keeps State.window (fun t n => t.portWindow_keeps n w State.window (fun _ _ _ => rfl) (fun _ _ _ => rfl) fun t f => t.mapPort_window n f) _ s

/-- A port of no partition is as before. -/
theorem State.sendAll_free (hk : k < 8) (h : s.portPart k = none) : (s.sendAll w).portN k = s.portN k := by
  have hboth : (s.sendAll w).portPart k = none ∧ (s.sendAll w).portN k = s.portN k := by
    refine List.foldlRecOn (motive := fun t => State.portPart t k = none ∧ State.portN t k = s.portN k) _ _ ⟨h, rfl⟩ fun t ⟨hpart, hport⟩ n _ => ?_
    refine ⟨(t.portWindow_portPart n k w).trans hpart, ?_⟩
    by_cases hn : k = n
    · rw [t.portWindow_of_free n w (hn ▸ hpart), hport]
    · rw [t.portWindow_portN_ne n k w hk hn, hport]
  exact hboth.2

/-- A port of a partition carries on no meeting more than the flits of a window. -/
theorem State.sendAll_fits (hk : k < 8) (h : (s.portPart k).isSome = true) : ((s.sendAll w).portN k).Fits := by
  have hpart : (s.sendAll w).portPart k = s.portPart k := foldl_keeps (State.portPart · k) (fun t n => t.portWindow_portPart n k w) _ s
  have hsome : ((s.sendAll w).portPart k).isSome = true := by rw [hpart, h]
  have hfits := foldl_establishes (P := fun t => (State.portPart t k).isSome = true → (State.portN t k).Fits) (f := fun t n => State.portWindow t w n)
    (l := List.range 8) (a := k) (fun t n ht hsome => ?_) (List.mem_range.mpr hk)
    (fun t hsome => t.portWindow_fits k w hk ((t.portWindow_portPart k k w).symm ▸ hsome)) s
  · exact hfits hsome
  · rw [State.portWindow_portPart] at hsome
    by_cases hn : k = n
    · subst hn
      exact t.portWindow_fits k w hk hsome
    · rw [t.portWindow_portN_ne n k w hk hn]
      exact ht hsome

theorem exec_windowStart : exec .windowStart s = .next ({ s with window := s.window + 1 }.sendAll (s.window + 1)) := rfl

end

end Sys2Proof.Machine
end

section
/-!
SUPPORT. Changes of the down-map, requests that end, peers that are reset or leave, and grants (R46, R48, R49, R51 to R56).
-/
namespace Sys2Proof.Machine
open Sys2Proof

/-! ## Records about a port (R109) -/

section
variable (s : State) (n kind code count info : Nat)

theorem State.portRecord_keeps {β : Type} (g : State → β) (h : ∀ t k f, g (State.mapCore t k f) = g t) : g (s.portRecord n kind code count info) = g s := by
  unfold State.portRecord
  split
  · rw [State.postHome, State.post, h]
  · rfl

@[simp] theorem State.portN_mapCore (w : Nat) (f : Core → Core) (k : Nat) : (s.mapCore w f).portN k = s.portN k := by simp [State.portN]

@[simp] theorem State.portRecord_mem : (s.portRecord n kind code count info).mem = s.mem := s.portRecord_keeps _ _ _ _ _ State.mem State.mapCore_mem
@[simp] theorem State.portRecord_present : (s.portRecord n kind code count info).present = s.present :=
  s.portRecord_keeps _ _ _ _ _ State.present State.mapCore_present
@[simp] theorem State.portRecord_requests : (s.portRecord n kind code count info).requests = s.requests :=
  s.portRecord_keeps _ _ _ _ _ State.requests State.mapCore_requests
@[simp] theorem State.portRecord_portN (k : Nat) : (s.portRecord n kind code count info).portN k = s.portN k :=
  s.portRecord_keeps _ _ _ _ _ (State.portN · k) fun t w f => t.portN_mapCore w f k

end

/-! ## Down meetings (R55) -/

section
variable {s : State} {port : BitVec 3} {owner meeting : BitVec 8} {down : Bool}

theorem execDownMapUpdate_of_seen
    (h : (s.portN port.toNat).seesDown (min owner.toNat (owner.toNat ^^^ meeting.toNat) * 256 + meeting.toNat) = down ∨
      (s.portN port.toNat).bearsOut s.ownModule owner.toNat (owner.toNat ^^^ meeting.toNat) down = false) :
    execDownMapUpdate port owner meeting down s = .next s :=
  if_pos (h.imp_right fun h => by simp [h])

theorem execDownMapUpdate_of_new
    (hnew : (s.portN port.toNat).seesDown (min owner.toNat (owner.toNat ^^^ meeting.toNat) * 256 + meeting.toNat) ≠ down)
    (hown : (s.portN port.toNat).bearsOut s.ownModule owner.toNat (owner.toNat ^^^ meeting.toNat) down = true) :
    execDownMapUpdate port owner meeting down s = .next ((s.mapPort port.toNat fun q =>
      { q.tellDown (min owner.toNat (owner.toNat ^^^ meeting.toNat) * 256 + meeting.toNat) down with
        pendingDown := q.pendingDown ++ [(min owner.toNat (owner.toNat ^^^ meeting.toNat) * 256 + meeting.toNat, down, (s.window / 4 + 2) * 4)] }).portRecord
      port.toNat 6 (if down then 0 else 1) (if owner.toNat = s.ownModule then owner.toNat ^^^ meeting.toNat else owner.toNat) meeting.toNat) :=
  if_neg (by simp [hnew, hown])

/-- The port's own end does not bear out that a meeting of its own is down before three silent meetings. -/
theorem Port.bearsOut_own (p : Port) (own b : Nat) (h : (p.pair b).silent < 3) : p.bearsOut own own b true = false := by
  simp [Port.bearsOut, h]

/-- A change that is due makes its meeting down, or up, and no other. -/
theorem mem_applyDown {w k v x : Nat} {down : Bool} {l : List Nat} (h : v ≤ w) :
    x ∈ applyDown w l [(k, down, v)] ↔ if x = k then down = true else x ∈ l := by
  simp only [applyDown, if_neg (Nat.not_lt.mpr h)]
  cases down with
  | false =>
    rw [if_neg Bool.false_ne_true, List.mem_filter, bne_iff_ne]
    split <;> simp [*]
  | true =>
    rw [if_pos rfl]
    by_cases hk : k ∈ l
    · rw [if_pos (List.contains_iff_mem.mpr hk)]
      split <;> simp [*]
    · rw [if_neg (fun hc => hk (List.contains_iff_mem.mp hc)), List.mem_append, List.mem_singleton]
      split <;> simp [*]

end

/-! ## Requests and transfers that end (R49, R54, R56) -/

section
variable (s : State) (n id : Nat) (o : Outgoing)

theorem State.refuseRequest_of_some {r : Request} (h : s.requestOf id = some r) : s.refuseRequest id = s.replace id [r.refuse] := by
  simp only [State.refuseRequest, h]

/-- The request of a number after those of that number have been replaced. -/
theorem State.requestOf_replace {r : Request} (q : Request) (h : s.requestOf id = some r) (hq : q.id = id) : (s.replace id [q]).requestOf id = some q := by
  unfold State.requestOf State.replace
  unfold State.requestOf at h
  dsimp only
  revert h
  induction s.requests with
  | nil => exact fun h => nomatch h
  | cons x l ih =>
    intro h
    by_cases hx : x.id = id
    · simp [hx, hq]
    · rw [List.find?_cons_of_neg (by simpa using hx)] at h
      simpa [hx] using ih h

/-- A request that is not refused is one of before, and of another number. -/
theorem State.mem_refuseRequest {x : Request} (h : x ∈ (s.refuseRequest id).requests) : (x ∈ s.requests ∧ x.id ≠ id) ∨ x.stage = .served := by
  unfold State.refuseRequest at h
  split at h
  next r hr =>
    simp only [State.replace, List.mem_flatten, List.mem_map] at h
    obtain ⟨_, ⟨y, hy, rfl⟩, hx⟩ := h
    split at hx
    · rw [List.mem_singleton.mp hx]
      exact .inr rfl
    next hid =>
      rw [List.mem_singleton.mp hx]
      exact .inl ⟨hy, hid⟩
  next hnone => exact .inl ⟨h, fun hx => absurd (beq_iff_eq.mpr hx) (List.find?_eq_none.mp hnone x h)⟩

/-- What the end of a transfer or request does not touch. -/
theorem State.endOutgoing_keeps {β : Type} (g : State → β) (hreplace : ∀ t id rs, g (State.replace t id rs) = g t)
    (hctx : ∀ t uid f, g (State.mapCtx t uid f) = g t) : g (s.endOutgoing n o) = g (s.dropOutgoing n o.xfer) := by
  unfold State.endOutgoing
  dsimp only
  split
  · exact hctx ..
  · exact State.refuseRequest_keeps _ g hreplace _
  · rfl

theorem State.endOutgoing_mem : (s.endOutgoing n o).mem = s.mem :=
  (s.endOutgoing_keeps n o State.mem (fun _ _ _ => rfl) fun _ _ _ => rfl).trans (State.mapPort_mem ..)

theorem State.endOutgoing_present : (s.endOutgoing n o).present = s.present :=
  (s.endOutgoing_keeps n o State.present (fun _ _ _ => rfl) fun _ _ _ => rfl).trans (State.mapPort_present ..)

theorem State.endOutgoing_outgoing (hn : n < 8) : ((s.endOutgoing n o).portN n).outgoing = (s.portN n).outgoing.filter fun x => x.xfer != o.xfer := by
  rw [s.endOutgoing_keeps n o (State.portN · n) (fun _ _ _ => rfl) fun _ _ _ => rfl, State.dropOutgoing, State.portN_mapPort_self _ _ hn]

theorem State.mem_endOutgoing {x : Request} (h : x ∈ (s.endOutgoing n o).requests) : x ∈ s.requests ∨ x.stage = .served := by
  have hdrop : (s.dropOutgoing n o.xfer).requests = s.requests := State.mapPort_requests ..
  unfold State.endOutgoing at h
  dsimp only at h
  split at h
  · exact .inl (hdrop ▸ h)
  · exact (State.mem_refuseRequest _ _ h).imp (fun hx => hdrop ▸ hx.1) id
  · exact .inl (hdrop ▸ h)

end

/-! ## A peer that leaves (R56) -/

section
variable (s : State) (n peer : Nat)

@[simp] theorem State.forgetFar_portN (k : Nat) : (s.forgetFar n peer).portN k = s.portN k := rfl

/-- What is left of the requests under way names where and how far each has come as before. -/
theorem State.mem_forgetFar {x : Request} (h : x ∈ (s.forgetFar n peer).requests) :
    ∃ y ∈ s.requests, y.part = x.part ∧ y.addr = x.addr ∧ y.stage = x.stage := by
  obtain ⟨y, hy, hx⟩ := List.mem_flatMap.mp h
  refine ⟨y, hy, ?_⟩
  dsimp only at hx
  split_ifs at hx
  · rw [List.mem_singleton.mp hx]
    exact ⟨rfl, rfl, rfl⟩
  · exact absurd hx List.not_mem_nil
  · exact absurd hx List.not_mem_nil
  · rw [List.mem_singleton.mp hx]
    exact ⟨rfl, rfl, rfl⟩
  · rw [List.mem_singleton.mp hx]
    exact ⟨rfl, rfl, rfl⟩

/-- Transfers and requests of a port that end one after another. -/
def State.endAll (l : List Outgoing) : State := l.foldl (fun t o => t.endOutgoing n o) s

/-- Requests refused one after another. -/
def State.refuseAll (l : List Request) : State := l.foldl (fun t r => t.refuseRequest r.id) s

variable (l : List Outgoing) (rs : List Request)

theorem State.endAll_mem : (s.endAll n l).mem = s.mem := foldl_keeps State.mem (fun t o => t.endOutgoing_mem n o) l s
theorem State.endAll_present : (s.endAll n l).present = s.present := foldl_keeps State.present (fun t o => t.endOutgoing_present n o) l s
theorem State.refuseAll_keeps {β : Type} (g : State → β) (h : ∀ t id rs, g (State.replace t id rs) = g t) : g (s.refuseAll rs) = g s :=
  foldl_keeps (f := fun t (r : Request) => State.refuseRequest t r.id) g (fun t r => t.refuseRequest_keeps g h r.id) rs s

/-- None of the transfers that have ended is left. -/
theorem State.mem_endAll_outgoing (hn : n < 8) {x : Outgoing} (h : x ∈ ((s.endAll n l).portN n).outgoing) : x ∈ (s.portN n).outgoing ∧ x ∉ l := by
  induction l generalizing s with
  | nil => exact ⟨h, List.not_mem_nil⟩
  | cons o l ih =>
    obtain ⟨hout, hl⟩ := ih (s.endOutgoing n o) h
    rw [s.endOutgoing_outgoing n o hn] at hout
    obtain ⟨hx, hne⟩ := List.mem_filter.mp hout
    refine ⟨hx, fun hmem => ?_⟩
    rcases List.mem_cons.mp hmem with rfl | hmem
    · simp at hne
    · exact hl hmem

theorem State.mem_endAll_requests {x : Request} (h : x ∈ (s.endAll n l).requests) : x ∈ s.requests ∨ x.stage = .served :=
  List.foldlRecOn (motive := fun t : State => x ∈ t.requests → x ∈ s.requests ∨ x.stage = .served) l _ Or.inl
    (fun t ht o _ hx => (t.mem_endOutgoing n o hx).elim ht Or.inr) h

/-- None of the requests that have been refused still waits. -/
theorem State.mem_refuseAll {x : Request} (h : x ∈ (s.refuseAll rs).requests) : (x ∈ s.requests ∧ x ∉ rs) ∨ x.stage = .served := by
  induction rs generalizing s with
  | nil => exact .inl ⟨h, List.not_mem_nil⟩
  | cons r rs ih =>
    rcases ih (s.refuseRequest r.id) h with ⟨hx, hrs⟩ | hserved
    · refine (s.mem_refuseRequest r.id hx).imp_left fun ⟨hmem, hid⟩ => ⟨hmem, fun hcons => ?_⟩
      rcases List.mem_cons.mp hcons with rfl | hcons
      · exact hid rfl
      · exact hrs hcons
    · exact .inr hserved

/-- The requests of the port's partition that wait at it for a peer. -/
def State.waitingFor (s : State) (n peer : Nat) : List Request :=
  (s.portPart n).toList.flatMap fun p => (s.atPort p.pnum).filter fun r => peerOf r.addr == peer

theorem State.mem_waitingFor {p : Partition} {x : Request} (hp : s.portPart n = some p) :
    x ∈ s.waitingFor n peer ↔ x ∈ s.requests ∧ x.part = p.pnum ∧ x.space = 5 ∧ x.stage = .queued ∧ peerOf x.addr = peer := by
  simp only [State.waitingFor, State.atPort, hp, Option.toList_some, List.flatMap_singleton, List.mem_filter, Bool.and_eq_true, beq_iff_eq, and_assoc]

/-- What a peer that leaves ends at a port. -/
def State.afterEnds (s : State) (n peer : Nat) : State :=
  (s.endAll n ((s.portN n).outgoing.filter fun o => o.dst == peer)).refuseAll (s.waitingFor n peer)

/-- What is left of a port once a peer has left in a window. -/
def Port.withoutPeer (p : Port) (peer w : Nat) : Port :=
  { (p.forgetPeer peer).mapPair peer (fun x => { x with left := some w, since := some w, stale := p.begunBy peer }) with
    inbox := p.inbox.filter (fun x => headSrc x.2.1 != peer)
    exported := p.exported.map (fun g => if g.peer = peer then g.lapseFrom w else g) }

theorem execPeerLeave_of_present {port : BitVec 3} {b : BitVec 8} (h : ((s.portN port.toNat).pair b.toNat).left = none) :
    execPeerLeave port b s = .next ((((s.afterEnds port.toNat b.toNat).forgetFar port.toNat b.toNat).mapPort port.toNat
      fun p => p.withoutPeer b.toNat s.window).portRecord port.toNat 6 2 b.toNat (s.ownModule ^^^ b.toNat)) :=
  if_neg (by simp [Port.hasLeft, h])

theorem State.afterEnds_mem : (s.afterEnds n peer).mem = s.mem := (State.refuseAll_keeps _ _ State.mem fun _ _ _ => rfl).trans (s.endAll_mem n _)
theorem State.afterEnds_present : (s.afterEnds n peer).present = s.present :=
  (State.refuseAll_keeps _ _ State.present fun _ _ _ => rfl).trans (s.endAll_present n _)

/-- Nothing towards the peer is out any more. -/
theorem State.afterEnds_outgoing (hn : n < 8) : ∀ x ∈ ((s.afterEnds n peer).portN n).outgoing, x.dst ≠ peer := by
  intro x hx
  rw [State.afterEnds, State.refuseAll_keeps _ _ (State.portN · n) fun _ _ _ => rfl] at hx
  obtain ⟨hout, hended⟩ := s.mem_endAll_outgoing n _ hn hx
  exact fun hdst => hended (List.mem_filter.mpr ⟨hout, beq_iff_eq.mpr hdst⟩)

/-- No request for the peer waits at the port any more. -/
theorem State.afterEnds_requests {p : Partition} (hp : s.portPart n = some p) : ∀ x ∈ (s.afterEnds n peer).requests, x.part = p.pnum → x.space = 5 →
    x.stage = .queued → peerOf x.addr ≠ peer := by
  intro x hx hpart hspace hqueued hpeer
  rcases State.mem_refuseAll _ _ hx with ⟨hx, hrefused⟩ | hserved
  · rcases s.mem_endAll_requests n _ hx with hx | hserved
    · exact hrefused ((s.mem_waitingFor n peer hp).mpr ⟨hx, hpart, hspace, hqueued, hpeer⟩)
    · exact nomatch hqueued.symm.trans hserved
  · exact nomatch hqueued.symm.trans hserved

end

section
variable (p : Port) (peer w : Nat)

theorem Port.pair_forgetPeer : (p.forgetPeer peer).pair peer = (p.pair peer).renew := p.pair_mapPair_self peer fun _ => rfl

theorem Port.pair_withoutPeer : ((p.withoutPeer peer w).pair peer).left = some w :=
  congrArg Pair.left ((p.forgetPeer peer).pair_mapPair_self peer
    (f := fun x => { x with left := some w, since := some w, stale := p.begunBy peer }) fun _ => rfl)

theorem Port.forgetPeer_incoming : ∀ x ∈ (p.forgetPeer peer).incoming, x.src ≠ peer := fun _ hx => bne_iff_ne.mp (List.mem_filter.mp hx).2
theorem Port.forgetPeer_watches : ∀ x ∈ (p.forgetPeer peer).watches, x.src ≠ peer := fun _ hx => bne_iff_ne.mp (List.mem_filter.mp hx).2

theorem Port.withoutPeer_outgoing : (p.withoutPeer peer w).outgoing = p.outgoing := rfl
theorem Port.withoutPeer_incoming : ∀ x ∈ (p.withoutPeer peer w).incoming, x.src ≠ peer := p.forgetPeer_incoming peer
theorem Port.withoutPeer_inbox : ∀ x ∈ (p.withoutPeer peer w).inbox, headSrc x.2.1 ≠ peer := fun _ hx => bne_iff_ne.mp (List.mem_filter.mp hx).2

theorem GrantRec.lapseFrom_lapse {g : GrantRec} (hrecalled : (g.lapseFrom w).recalled = true) (hfree : (g.lapseFrom w).freeAt = none) :
    (g.lapseFrom w).lapse.isSome = true := by
  unfold GrantRec.lapseFrom at hrecalled hfree ⊢
  split_ifs at hrecalled hfree ⊢ with h
  · rfl
  · cases hl : g.lapse with
    | some v => rfl
    | none => exact absurd ⟨hrecalled, by rw [hfree]; rfl, by rw [hl]; rfl⟩ h

@[simp] theorem GrantRec.lapseFrom_recalled (g : GrantRec) : (g.lapseFrom w).recalled = g.recalled := by unfold GrantRec.lapseFrom; split <;> rfl

/-- What is left of a port once a peer's port has been reset in a window (R54). -/
def Port.afterReset (p : Port) (peer w : Nat) : Port :=
  { p.forgetPeer peer with
    imported := p.imported.filter (fun g => g.peer != peer)
    exported := p.exported.map (fun g => if g.peer = peer ∧ g.freeAt.isNone then g.finish w else g) }

/-- Every grant to the peer has ended. -/
theorem Port.afterReset_exported : ∀ g ∈ (p.afterReset peer w).exported, g.peer = peer → g.freeAt.isSome = true := by
  intro g hg hpeer
  obtain ⟨y, -, rfl⟩ := List.mem_map.mp hg
  split_ifs at hpeer ⊢ with h
  · rfl
  · exact Option.isSome_iff_ne_none.mpr fun hfree => h ⟨hpeer, by rw [hfree]; rfl⟩

theorem Port.pair_afterReset : (p.afterReset peer w).pair peer = (p.pair peer).renew := p.pair_forgetPeer peer

/-- A recall that awaits the peer counts as acknowledged from a later window on. -/
theorem Port.withoutPeer_exported : ∀ g ∈ (p.withoutPeer peer w).exported, g.peer = peer → g.recalled = true → g.freeAt = none → g.lapse.isSome = true := by
  intro g hg hpeer hrecalled hfree
  obtain ⟨y, -, rfl⟩ := List.mem_map.mp hg
  split_ifs at hpeer hrecalled hfree ⊢ with h
  · exact GrantRec.lapseFrom_lapse w hrecalled hfree
  · exact absurd hpeer h

end

end Sys2Proof.Machine
end

section
/-!
SUPPORT. Grants and their recalls at both ends, kernel messages (R51 to R54), and requests that are sent again (R46, R49).
-/
namespace Sys2Proof.Machine
open Sys2Proof

/-! ## Recalls that are acknowledged (R53, R370) -/

section
variable (p : Port) (own w : Nat) (y : GrantRec)

/-- What the answers to the watches of a grant do not touch. -/
theorem Port.endRecalled_keeps {β : Type} (g : Port → β) (h : ∀ q src xfer data status number, g (Port.reply q own w src xfer data status number false) = g q) :
    g (p.endRecalled own w y) = g { p with
      exported := p.exported.map fun z => if z = y then z.finish w else z, watches := p.watches.filter fun h => !y.covers h } :=
  foldl_keeps (f := fun r (x : HeldWatch) => Port.reply r own w x.src x.xfer 0 stDenied (Req.of x.payload).tag false) g (fun q _ => h q ..) _ _

@[simp] theorem Port.endRecalled_exported : (p.endRecalled own w y).exported = p.exported.map fun z => if z = y then z.finish w else z :=
  p.endRecalled_keeps own w y Port.exported fun _ _ _ _ _ _ => rfl
@[simp] theorem Port.endRecalled_watches : (p.endRecalled own w y).watches = p.watches.filter fun h => !y.covers h :=
  p.endRecalled_keeps own w y Port.watches fun _ _ _ _ _ _ => rfl
@[simp] theorem Port.endRecalled_inbox : (p.endRecalled own w y).inbox = p.inbox := p.endRecalled_keeps own w y Port.inbox fun _ _ _ _ _ _ => rfl

/-- Of the grants whose recalls are acknowledged one after another, each has ended. -/
theorem Port.mem_foldl_endRecalled (l : List GrantRec) {g : GrantRec} (h : g ∈ (l.foldl (fun q y => q.endRecalled own w y) p).exported) :
    g.freeAt.isSome = true ∨ (g ∈ p.exported ∧ g ∉ l) := by
  induction l generalizing p with
  | nil => exact .inr ⟨h, List.not_mem_nil⟩
  | cons y l ih =>
    rcases ih (p.endRecalled own w y) h with hfree | ⟨hg, hl⟩
    · exact .inl hfree
    · rw [Port.endRecalled_exported] at hg
      obtain ⟨z, hz, rfl⟩ := List.mem_map.mp hg
      split_ifs at hl ⊢ with hne
      · exact .inl rfl
      · exact .inr ⟨hz, fun hmem => (List.mem_cons.mp hmem).elim hne hl⟩

/-- The recalls that awaited a peer which has left, and that have lapsed by a window, are acknowledged. -/
def Port.lapseAll (p : Port) (own w b : Nat) : Port :=
  (p.exported.filter fun g => g.peer == b && g.freeAt.isNone && g.lapse.any fun v => decide (v ≤ w)).foldl (fun q g => q.endRecalled own w g) p

theorem Port.lapseAll_exported {b v : Nat} {g : GrantRec} (h : g ∈ (p.lapseAll own w b).exported) (hpeer : g.peer = b) (hlapse : g.lapse = some v)
    (hv : v ≤ w) : g.freeAt.isSome = true := by
  rcases p.mem_foldl_endRecalled own w _ h with hfree | ⟨hg, hkept⟩
  · exact hfree
  · cases hfree : g.freeAt with
    | some u => rfl
    | none => exact absurd (List.mem_filter.mpr ⟨hg, by simp [hpeer, hfree, hlapse, hv]⟩) hkept

end

/-! ## Kernel messages (R51 to R53) -/

section
variable (p : Port) (own b w : Nat) (record : BitVec 512)

/-- A kernel message joins the flits that wait at the port, and is kept. -/
theorem Port.sendKernel_sent {r : Port} (hwaiting : r.waiting = (p.sendKernel own b w record).waiting)
    (hkernel : r.kernel = (p.sendKernel own b w record).kernel) : ∃ y, r.waiting = p.waiting ++ [y] ∧ y.dst = b ∧ y.payload = record ∧
      headType y.head = 6 ∧ r.kernel = p.kernel.drop (p.kernel.length - 4095) ++ [(p.kernelNumber, b, record)] :=
  ⟨_, hwaiting, rfl, rfl, headType_flitHead (by decide), hkernel⟩

end

section
variable {s : State} {port : BitVec 3} {b : BitVec 8} {record : BitVec 512} (hpart : (s.portPart port.toNat).isSome = true)
include hpart

theorem not_isNone_portPart : ¬(s.portPart port.toNat).isNone = true := by simpa [Option.isNone_iff_eq_none, ← Option.isSome_iff_ne_none] using hpart

theorem execGrantHandoff_grant (hkind : (GrantMsg.of record).kind = 1) (hroom : ((s.portN port.toNat).exported.filter fun x => x.freeAt.isNone).length < 4096) :
    execGrantHandoff port b record s = .next (s.mapPort port.toNat fun p => { p.sendKernel s.ownModule b.toNat (s.window + 1) (hideBase record) with
      exported := p.exported ++ [{ gid := (GrantMsg.of record).gid, rights := BitVec.ofNat 8 (GrantMsg.of record).rights, woff := (GrantMsg.of record).woff,
                                   len := (GrantMsg.of record).len, fbase := BitVec.ofNat 64 (GrantMsg.of record).fbase, peer := b.toNat,
                                   recalled := false, lapse := none, freeAt := none }] }) := by
  simp only [execGrantHandoff, if_neg (not_isNone_portPart hpart), hkind, if_neg (Nat.not_le.mpr hroom)]

/-- A recall is under way for a grant to a peer, which may have left. -/
def GrantRec.recall (x : GrantRec) (gid peer w : Nat) (gone : Bool) : GrantRec :=
  if x.gid = gid ∧ x.peer = peer then (let y := { x with recalled := true }; if gone then y.lapseFrom w else y) else x

omit hpart in
theorem GrantRec.recall_recalled (x : GrantRec) (gid peer w : Nat) (gone : Bool) (hgid : (x.recall gid peer w gone).gid = gid)
    (hpeer : (x.recall gid peer w gone).peer = peer) : (x.recall gid peer w gone).recalled = true := by
  unfold GrantRec.recall at hgid hpeer ⊢
  split_ifs at hgid hpeer ⊢ with h
  · exact GrantRec.lapseFrom_recalled ..
  · rfl
  · exact absurd ⟨hgid, hpeer⟩ h

theorem execGrantHandoff_recall (hkind : (GrantMsg.of record).kind = 2) : execGrantHandoff port b record s = .next (s.mapPort port.toNat fun p =>
    { p.sendKernel s.ownModule b.toNat (s.window + 1) record with
      exported := p.exported.map fun x => x.recall (GrantMsg.of record).gid b.toNat s.window (p.hasLeft b.toNat) }) := by
  simp only [execGrantHandoff, if_neg (not_isNone_portPart hpart), hkind, GrantRec.recall]

theorem execGrantHandoff_ack (hkind : (GrantMsg.of record).kind = 3) : execGrantHandoff port b record s = .next (s.mapPort port.toNat fun p =>
    { p.sendKernel s.ownModule b.toNat (s.window + 1) record with
      imported := p.imported.filter fun x => x.gid != (GrantMsg.of record).gid || x.peer != b.toNat }) := by
  simp only [execGrantHandoff, if_neg (not_isNone_portPart hpart), hkind]

end

/-! ## Kernel messages that arrive (R52, R53) -/

section
variable {s : State} {port : BitVec 3} {w : Nat} {head : DWord} {record : BitVec 512} {rest : List (Nat × DWord × BitVec 512)}

theorem takeFlit_head {f : Nat × DWord × BitVec 512 → Bool} {x : Nat × DWord × BitVec 512} (h : f x = true) : takeFlit f (x :: rest) = some (x, rest) := if_pos h

theorem kernelKind_of_sound (htype : headType head = 6) (hsound : (GrantMsg.of record).sound = true) :
    kernelKind (GrantMsg.of record).kind (w, head, record) = true := by
  simp [kernelKind, htype, hsound, tyKernel]

theorem kernelKind_of_unsound (htype : headType head = 6) (hsound : (GrantMsg.of record).sound = false) : kernelKind 1 (w, head, record) = true := by
  simp [kernelKind, htype, hsound, tyKernel]

variable (hinbox : (s.portN port.toNat).inbox = (w, head, record) :: rest) (htype : headType head = 6)
include hinbox htype

theorem execGrant_of_sound (hsound : (GrantMsg.of record).sound = true) (hkind : (GrantMsg.of record).kind = 1) : execGrant port s =
    .next ((s.mapPort port.toNat fun p => { p with inbox := rest }).mapPort port.toNat fun p => { p with
      imported := p.imported.filter (fun y => y.gid != (GrantMsg.of record).gid || y.peer != headSrc head) ++
        [{ gid := (GrantMsg.of record).gid, rights := BitVec.ofNat 8 (GrantMsg.of record).rights, woff := (GrantMsg.of record).woff,
           len := (GrantMsg.of record).len, fbase := 0, peer := headSrc head, recalled := false, lapse := none, freeAt := none }] }) := by
  have htake := takeFlit_head (rest := rest) (hkind ▸ kernelKind_of_sound (w := w) htype hsound)
  simp only [execGrant, hinbox, htake, if_pos hsound]

theorem execGrant_of_unsound (hsound : (GrantMsg.of record).sound = false) : execGrant port s =
    .next ((s.mapPort port.toNat fun p => { p with inbox := rest }).portRecord port.toNat 7 (GrantMsg.of record).kind (GrantMsg.of record).gid (headSrc head)) := by
  have htake := takeFlit_head (rest := rest) (kernelKind_of_unsound (w := w) htype hsound)
  simp only [execGrant, hinbox, htake, hsound, if_neg Bool.false_ne_true]

variable (hsound : (GrantMsg.of record).sound = true)
include hsound

theorem execRecall_of_sound (hkind : (GrantMsg.of record).kind = 2) : execRecall port s = .next (s.mapPort port.toNat fun p => { p with
    inbox := rest
    imported := p.imported.map fun y => y.recall (GrantMsg.of record).gid (headSrc head) s.window false }) := by
  have htake := takeFlit_head (rest := rest) (hkind ▸ kernelKind_of_sound (w := w) htype hsound)
  simp only [execRecall, hinbox, htake, GrantRec.recall, if_neg Bool.false_ne_true]

theorem execRecallAck_of_sound (hkind : (GrantMsg.of record).kind = 3) {y : GrantRec} (hexported : (s.portN port.toNat).exported = [y])
    (hgid : y.gid = (GrantMsg.of record).gid) (hpeer : y.peer = headSrc head) (hfree : y.freeAt = none) :
    execRecallAck port s = .next (s.mapPort port.toNat fun _ => Port.endRecalled { s.portN port.toNat with inbox := rest } s.ownModule s.window y) := by
  have htake := takeFlit_head (rest := rest) (hkind ▸ kernelKind_of_sound (w := w) htype hsound)
  have hfind : [y].find? (fun z => z.gid == (GrantMsg.of record).gid && z.peer == headSrc head && z.freeAt.isNone) = some y := by
    simp [hgid, hpeer, hfree]
  simp only [execRecallAck, hinbox, htake, hexported, hfind]

end

/-! ## Requests that are sent again (R46, R49) -/

section
variable {s : State} {port : BitVec 3} {xfer : BitVec 12} {o : Outgoing} (hout : (s.portN port.toNat).outgoing = [o]) (hxfer : o.xfer = xfer.toNat)
include hout hxfer

theorem find?_outgoing : (s.portN port.toNat).outgoing.find? (fun x => x.xfer == xfer.toNat) = some o := by
  simp [hout, hxfer]

variable {v : Nat} (hop : (Req.of o.payload).op = 3 ∨ (Req.of o.payload).op = 4) (hsent : o.sentAt = some v) (hv : v + 12 ≤ s.window)

section
include hop hsent hv

theorem execResendTimeout_again (hfew : o.resends < 3) : execResendTimeout port xfer s = .next (s.mapPort port.toNat fun p =>
    { p.queue (o.flits s.ownModule (s.window + 1)) with
      outgoing := p.outgoing.map fun x => if x.xfer = o.xfer then { x with resends := x.resends + 1, sentAt := none } else x }) := by
  have hdue : ((Req.of o.payload).op = opLoad ∨ (Req.of o.payload).op = opAtomic) ∧ o.sentAt.any (fun w => decide (w + 12 ≤ s.window)) = true :=
    ⟨hop, by simp [hsent, hv]⟩
  simp only [execResendTimeout, find?_outgoing hout hxfer, if_pos hdue, if_pos hfew]

theorem execResendTimeout_ends (hmany : 3 ≤ o.resends) : execResendTimeout port xfer s = .next (s.endOutgoing port.toNat o) := by
  have hdue : ((Req.of o.payload).op = opLoad ∨ (Req.of o.payload).op = opAtomic) ∧ o.sentAt.any (fun w => decide (w + 12 ≤ s.window)) = true :=
    ⟨hop, by simp [hsent, hv]⟩
  simp only [execResendTimeout, find?_outgoing hout hxfer, if_pos hdue, if_neg (Nat.not_lt.mpr hmany)]

end

omit hout hxfer in
/-- A request of a tile that ends without its reply is denied. -/
theorem State.endOutgoing_requestOf (n : Nat) {id : Nat} {x : Request} (hcommand : o.command = none) (hrequest : o.request = some id)
    (hx : s.requestOf id = some x) (hid : x.id = id) : (s.endOutgoing n o).requestOf id = some x.refuse := by
  have hdrop : (s.dropOutgoing n o.xfer).requestOf id = some x := by rw [State.requestOf, State.dropOutgoing, State.mapPort_requests]; exact hx
  simp only [State.endOutgoing, hcommand, hrequest]
  rw [State.refuseRequest_of_some _ _ hdrop]
  exact State.requestOf_replace _ _ _ hdrop hid

theorem execDiscardNotice_of_data {src : BitVec 8} {block : BitVec 20} (hsrc : src.toNat = s.ownModule) :
    execDiscardNotice port src xfer block 2 s = .next (s.mapPort port.toNat fun q => q.queue ((o.flits s.ownModule (s.window + 1)).filter fun x =>
      headType x.head == 2 && (2 == tyRequest || headBlock x.head == block.toNat) && !x.lossy)) := by
  simp only [execDiscardNotice, if_neg (not_not.mpr hsrc), find?_outgoing hout hxfer]
  rfl

end

end Sys2Proof.Machine
end

section
/-!
SUPPORT. The operations of the fabric as exec gives them, flits that arrive at a port (R31, R38 to R40), the registers of test injection (R57, R311),
and the statement about the ports, pairs, windows and grants of the fabric.
-/
namespace Sys2Proof.Machine
open Sys2Proof

/-! ## The operations of the fabric as exec gives them -/

section
variable (s : State) (port : BitVec 3)

theorem exec_flitReceive (b : BitVec 8) (flit : BitVec 608) : exec (.flitReceive port b flit) s = execFlitReceive port b flit s := rfl
theorem exec_nak (b : BitVec 8) (seq : BitVec 31) : exec (.nak port b seq) s = execNak port b seq s := rfl
theorem exec_ack (b : BitVec 8) (seq : BitVec 31) : exec (.ack port b seq) s = execAck port b seq s := rfl
theorem exec_creditReturn (b : BitVec 8) (blocks : Nat) : exec (.creditReturn port b blocks) s = execCreditReturn port b blocks s := rfl
theorem exec_downMapUpdate (b meeting : BitVec 8) (down : Bool) : exec (.downMapUpdate port b meeting down) s = execDownMapUpdate port b meeting down s := rfl
theorem exec_downMapEffect : exec (.downMapEffect port) s = execDownMapEffect port s := rfl
theorem exec_resendTimeout (xfer : BitVec 12) : exec (.resendTimeout port xfer) s = execResendTimeout port xfer s := rfl
theorem exec_portResetNotice (b : BitVec 8) : exec (.portResetNotice port b) s = execPortResetNotice port b s := rfl
theorem exec_peerLeave (b : BitVec 8) : exec (.peerLeave port b) s = execPeerLeave port b s := rfl
theorem exec_recallAutoAck (b : BitVec 8) : exec (.recallAutoAck port b) s = execRecallAutoAck port b s := rfl
theorem exec_discardNotice (b : BitVec 8) (xfer : BitVec 12) (block : BitVec 20) (type : BitVec 4) :
    exec (.discardNotice port b xfer block type) s = execDiscardNotice port b xfer block type s := rfl
theorem exec_grantHandoff (b : BitVec 8) (record : BitVec 512) : exec (.grantHandoff port b record) s = execGrantHandoff port b record s := rfl
theorem exec_grant : exec (.grant port) s = execGrant port s := rfl
theorem exec_grantRecall : exec (.grantRecall port) s = execRecall port s := rfl
theorem exec_recallAck : exec (.recallAck port) s = execRecallAck port s := rfl
theorem exec_fabtestArm (tile : BitVec 10) (value : BitVec 32) : exec (.fabtestArm tile value) s = execFabtestArm tile value s := rfl
theorem exec_qcfgArm (tile : BitVec 10) (value : BitVec 64) : exec (.qcfgArm tile value) s = execQcfgArm tile value s := rfl

end

/-! ## Flits that arrive (R31, R38 to R40) -/

/-- The meeting with a peer is one of the window in progress, at a port of a partition. -/
def State.Listens (s : State) (n b : Nat) : Prop := (s.portPart n).isSome = true ∧ b ≠ s.ownModule ∧ (s.ownModule ^^^ b) % 4 = s.window % 4

section
variable {s : State} {port : BitVec 3} {peer : BitVec 8} (hlistens : s.Listens port.toNat peer.toNat)
include hlistens

theorem State.Listens.not_deaf :
    ¬((s.portPart port.toNat).isNone = true ∨ peer.toNat = s.ownModule ∨ (s.ownModule ^^^ peer.toNat) % 4 ≠ s.window % 4) := by
  obtain ⟨hpart, hpeer, hphase⟩ := hlistens
  rintro (h | h | h)
  · exact not_isNone_portPart hpart h
  · exact hpeer h
  · exact h hphase

/-- A flit that checks under the number that is expected is accepted. -/
theorem execFlitReceive_sequenced {head : DWord} {payload : BitVec 512} (hclean : headClean head = true) (htype : headType head ∈ [1, 2, 4, 6]) :
    execFlitReceive port peer (flitOf head payload (seqSeed ((s.portN port.toNat).pair peer.toNat).expectS)) s = .next (s.mapPort port.toNat fun _ =>
      s.deliverFlit ((s.portN port.toNat).accept s.ownModule peer.toNat false) head payload) := by
  have hseq : isSequenced (headType head) = true := by
    rw [isSequenced, List.contains_iff_mem]
    exact List.mem_cons_of_mem _ htype
  have hidle : (headType head == tyIdle) = false := by
    rw [beq_eq_false_iff_ne]
    intro h
    rw [h] at htype
    exact absurd htype (by decide)
  simp only [execFlitReceive, if_neg hlistens.not_deaf, flitChecks_flitOf, flitHeader_flitOf, flitPayload_flitOf, hseq, hclean, hidle, Bool.and_self, if_pos]

/-- One that checks under no seed is discarded. -/
theorem execFlitReceive_bad {flit : BitVec 608} (hseq : flitChecks flit (seqSeed ((s.portN port.toNat).pair peer.toNat).expectS) = false)
    (hlossy : flitChecks flit lossySeed = false) (hcontrol : flitChecks flit controlSeed = false) :
    execFlitReceive port peer flit s = .next (s.mapPort port.toNat fun _ => (s.portN port.toNat).refuse s.ownModule peer.toNat) := by
  simp only [execFlitReceive, if_neg hlistens.not_deaf, hseq, hlossy, hcontrol, Bool.false_and, Bool.or_self, if_neg Bool.false_ne_true]

end

/-- A flit for this module, from one that is there, is taken in. -/
theorem State.deliverFlit_own {s : State} {p : Port} {head : DWord} {payload : BitVec 512} (htype : headType head ∈ [1, 2, 4, 6])
    (hdst : headDst head = s.ownModule) (hthere : p.hasLeft (headSrc head) = false) :
    s.deliverFlit p head payload = p.takeIn s.window head payload := by
  have hplace : ¬(headType head = tyIdle ∨ headType head = tyControl ∨ (headDst head = s.ownModule ∧ p.hasLeft (headSrc head) = true)) := by
    rintro (h | h | ⟨-, h⟩)
    · exact absurd (h ▸ htype) (by decide)
    · exact absurd (h ▸ htype) (by decide)
    · exact Bool.false_ne_true (hthere.symm.trans h)
  rw [State.deliverFlit, if_neg hplace, if_pos hdst]

section
variable (p : Port) (own b w : Nat) (head : DWord) (payload : BitVec 512)

/-- What an accepted flit for this module leaves of the pair on whose meeting it came. -/
theorem Port.pair_accept_takeIn : ∃ l m, ((p.accept own b false).takeIn w head payload).pair b = { (p.pair b).accept false with control := l, stale := m } := by
  obtain ⟨m, hm⟩ := (p.accept own b false).pair_takeIn b (w := w) (head := head) (payload := payload)
  obtain ⟨l, hl⟩ := p.pair_accept_self own b
  exact ⟨l, m, hm.trans (by rw [hl])⟩

theorem Port.accept_takeIn_inbox (htype : headType head ∈ [1, 2, 4, 6]) (hreq : headType head = 1 → (p.pair (headSrc head)).madeBefore payload = false)
    (hdata : headType head = 2 → headXfer head ∉ (p.pair (headSrc head)).stale) :
    ((p.accept own b false).takeIn w head payload).inbox = p.inbox ++ [(w, head, payload)] := by
  have hlossy : headType head ≠ 3 := fun h => absurd (h ▸ htype) (by decide)
  rw [Port.takeIn_inbox _ hlossy (by rwa [Port.accept_madeBefore]) (by rwa [(p.pair_accept_since own b _).2]), Port.accept_inbox]

end

/-! ## Registers of a tile (R57, R311) -/

/-- A record that is not that of a tile at reset reads back, whatever the other tiles hold. -/
theorem State.tileRec_setTile_of_ne (s : State) (t : Nat) {r : TileRec} (h : r ≠ TileRec.reset) : (s.setTile t r).tileRec t = r :=
  (Sparse.get_set_of_ne h t t s.tiles).trans (if_pos rfl)

/-- Bit 23 of QCFG is not reserved. -/
theorem qcfg_ne_zero {wide : BitVec 64} (h : wide.getLsbD 23 = true) : wide &&& (if wide.getLsbD 22 then 0xFF_87FF else 0xFF_FFFF) ≠ 0 := by
  intro hzero
  have hmask : (if wide.getLsbD 22 then 0xFF_87FF else 0xFF_FFFF : BitVec 64).getLsbD 23 = true := by split <;> rfl
  have hbit : (wide &&& (if wide.getLsbD 22 then 0xFF_87FF else 0xFF_FFFF)).getLsbD 23 = false := by rw [hzero]; rfl
  rw [BitVec.getLsbD_and, h, hmask] at hbit
  exact Bool.noConfusion hbit

/-! ## A step that replaces a port -/

/-- Such a step leaves memory as it is. -/
theorem step_of_mapPort {s : State} {i : Instr} {n : Nat} {g : Port → Port} {F : State → Port → Prop} (hn : n < 8) (h : exec i s = .next (s.mapPort n g))
    (hF : F (s.mapPort n g) (g (s.portN n))) : ∃ t, exec i s = .next t ∧ t.mem = s.mem ∧ F t (t.portN n) :=
  ⟨_, h, s.mapPort_mem n g, (s.portN_mapPort_self g hn).symm ▸ hF⟩

end Sys2Proof.Machine
namespace Sys2Proof.Certificates
open Sys2Proof Sys2Proof.Machine

/-- Settles O55: what each event of the fabric makes of its port, by the rule of that event; a window by the room of its links, a leaving by what
each chain of ends leaves. -/
theorem portsPairsAndGrants : Obligations.PortsPairsAndGrants := by
  refine ⟨fun s port peer head payload flit seq blocks meeting down xfer block o => ?_, fun s port peer record head w rest tile value wide => ?_⟩
  · intro n b p q ports listens same meet far key
    have hn : n < 8 := port.isLt
    have ports_of_next {i : Instr} {t : State} {F : State → Port → Prop} (h : exec i s = .next t) (hmem : t.mem = s.mem) (hF : F t (t.portN n)) :
        ports i F := ⟨t, h, hmem, hF⟩
    have ports_of_mapPort {i : Instr} {g : Port → Port} {F : State → Port → Prop} (h : exec i s = .next (s.mapPort n g))
        (hF : F (s.mapPort n g) (g p)) : ports i F := step_of_mapPort hn h hF
    clear_value ports
    refine ⟨?_, fun hlistens hclean htype hdst hsrc hreq hdata => ?_, fun hlistens hclean htype hdst hsrc hmade => ?_,
      fun hlistens hseq hlossy hcontrol => ?_, fun hkept => ?_, fun hkept => ?_, fun hnext hkept => ?_, ?_, fun hnew hown => ?_, fun hseen => ?_,
      fun k w hpending hw => ?_, fun v hout hxfer hop hsent hv => ⟨fun hfew => ?_, fun id x hmany hcommand hrequest hx hid => ?_⟩, ?_, fun hleft => ?_, ?_,
      fun src hsrc hown hout hxfer => ?_⟩
    -- R30, R32: the next window.
    · refine ⟨_, exec_windowStart s, State.sendAll_window .., State.sendAll_mem .., fun k hk => ⟨fun hfree => ?_, fun hpart => ?_⟩⟩
      · exact State.sendAll_free _ k _ hk hfree
      · exact State.sendAll_fits _ k _ hk hpart
    -- R38, R40: a flit that checks is accepted.
    · have hthere := p.accept_hasLeft s.ownModule b (headSrc head) hsrc
      obtain ⟨l, m, hpair⟩ := p.pair_accept_takeIn s.ownModule b s.window head payload
      refine ports_of_mapPort ((exec_flitReceive ..).trans (execFlitReceive_sequenced hlistens hclean htype)) ?_
      rw [State.deliverFlit_own htype hdst hthere, hpair]
      exact ⟨p.accept_takeIn_inbox s.ownModule b s.window head payload htype hreq hdata, rfl, rfl, q.hear_left, q.hear_heard,
        ⟨q.hear_kept, q.hear_credit, q.hear_sendS⟩, s.mapPort_present n _⟩
    -- R56: a request from before its source left.
    · have htypes : headType head ∈ [1, 2, 4, 6] := by rw [htype]; decide
      have hthere := p.accept_hasLeft s.ownModule b (headSrc head) (.inl hsrc)
      have hbefore : ((p.accept s.ownModule b false).pair (headSrc head)).madeBefore payload = true := by rwa [Port.accept_madeBefore, hsrc]
      obtain ⟨hinbox, hstale⟩ := (p.accept s.ownModule b false).takeIn_of_madeBefore (w := s.window) htype hbefore
      obtain ⟨l, m, hpair⟩ := p.pair_accept_takeIn s.ownModule b s.window head payload
      refine ports_of_mapPort ((exec_flitReceive ..).trans (execFlitReceive_sequenced hlistens hclean htypes)) ?_
      rw [State.deliverFlit_own htypes hdst hthere]
      rw [hsrc] at hstale
      refine ⟨fun x hx => p.accept_inbox s.ownModule b false ▸ hinbox x hx, hstale, ?_⟩
      rw [hpair]
      rfl
    -- R40: a flit that fails every check.
    · obtain ⟨hnak, hexpect⟩ := p.pair_refuse s.ownModule b
      exact ports_of_mapPort ((exec_flitReceive ..).trans (execFlitReceive_bad hlistens hseq hlossy hcontrol))
        ⟨p.refuse_inbox s.ownModule b, hnak, hexpect, p.refuse_of_nak s.ownModule b, p.refuse_control s.ownModule b,
          fun y h hsent hy => p.refuse_wire s.ownModule b h hsent hy⟩
    -- R40: NAK.
    · refine ports_of_mapPort (exec_nak ..) ?_
      rw [p.pair_mapPair_self b (by exact fun x => by split <;> rfl), if_pos (by simpa using hkept)]
      exact ⟨rfl, rfl, rfl, rfl⟩
    -- R40: ACK of a number that is kept.
    · refine ports_of_mapPort (exec_ack ..) ?_
      rw [p.pair_mapPair_self b (by exact fun x => by split <;> rfl), if_pos (.inr (by simpa using hkept))]
    -- R40: ACK of the next number.
    · refine ports_of_mapPort (exec_ack ..) ?_
      rw [p.pair_mapPair_self b (by exact fun x => by split <;> rfl), if_pos (.inl hnext)]
      exact List.dropWhile_eq_nil_iff.mpr fun k hk => bne_iff_ne.mpr (hkept k hk)
    -- R36: credits.
    · refine ports_of_mapPort (exec_creditReturn ..) ?_
      rw [p.pair_mapPair_self b (by exact fun _ => rfl)]
    -- R55: a change of the down-map that is new.
    · refine ports_of_next ((exec_downMapUpdate ..).trans (execDownMapUpdate_of_new hnew hown))
        ((State.portRecord_mem ..).trans (State.mapPort_mem ..)) ?_
      rw [State.portRecord_portN, State.portN_mapPort_self _ _ hn]
      exact ⟨rfl, rfl, rfl⟩
    -- R55: one that is seen already, or that the port's own count does not bear out.
    · refine (exec_downMapUpdate ..).trans (execDownMapUpdate_of_seen (hseen.imp_right fun ⟨hb, hd, hs⟩ => ?_))
      rw [hd]
      exact hb ▸ p.bearsOut_own b far hs
    -- R55: a change that is due.
    · refine ports_of_mapPort (exec_downMapEffect ..) ⟨?_, ?_, fun x hx => ?_⟩
      · simp [hpending, hw]
      · rw [hpending, mem_applyDown hw, if_pos rfl]
      · rw [hpending, mem_applyDown hw, if_neg hx]
    -- R49: a request sent again.
    · refine ports_of_mapPort ((exec_resendTimeout ..).trans (execResendTimeout_again hout hxfer hop hsent hv hfew)) ⟨?_, rfl⟩
      simp [hout]
    -- R49: a request that ends after three resends.
    · refine ports_of_next ((exec_resendTimeout ..).trans (execResendTimeout_ends hout hxfer hop hsent hv hmany)) (State.endOutgoing_mem ..)
        ⟨?_, State.endOutgoing_requestOf n hcommand hrequest hx hid⟩
      rw [s.endOutgoing_outgoing n o hn, show (s.portN n).outgoing = [o] from hout]
      simp
    -- R48, R54: the peer's port was reset.
    · refine ports_of_next (exec_portResetNotice ..) (State.mapPort_mem ..) ?_
      rw [State.portN_mapPort_self _ _ hn]
      have hpair := p.pair_afterReset b s.window
      exact ⟨rfl, congrArg Pair.nextTag hpair, congrArg Pair.highest hpair, congrArg Pair.cache hpair, p.afterReset_exported b s.window,
        p.forgetPeer_incoming b, p.forgetPeer_watches b⟩
    -- R56: the peer leaves.
    · have hstep := (exec_peerLeave ..).trans (execPeerLeave_of_present s hleft)
      refine ports_of_next hstep (((State.portRecord_mem ..).trans (State.mapPort_mem ..)).trans (s.afterEnds_mem n b)) ?_
      rw [State.portRecord_portN, State.portN_mapPort_self _ _ hn, State.forgetFar_portN]
      refine ⟨Port.pair_withoutPeer .., fun x hx => ?_, Port.withoutPeer_incoming _ b _, Port.withoutPeer_inbox _ b _,
        Port.withoutPeer_exported _ b _, ((State.portRecord_present ..).trans (State.mapPort_present ..)).trans (s.afterEnds_present n b),
        fun y hpart x hx hpnum hspace hqueued => ?_⟩
      · rw [Port.withoutPeer_outgoing] at hx
        exact s.afterEnds_outgoing n b hn x hx
      · rw [State.portRecord_requests, State.mapPort_requests] at hx
        obtain ⟨z, hz, hzpart, hzaddr, hzstage⟩ := State.mem_forgetFar _ n b hx
        rw [← hzaddr]
        exact s.afterEnds_requests n b hpart z hz (hzpart.trans hpnum) (by rw [Request.space, hzaddr]; exact hspace) (hzstage.trans hqueued)
    -- R56: recalls that awaited a peer which has left.
    · refine ports_of_mapPort (exec_recallAutoAck ..) fun g hg w hpeer hlapse hw => p.lapseAll_exported s.ownModule s.window hg hpeer hlapse hw
    -- R46: a discard notice.
    · have hsrc' : src.toNat = s.ownModule := by rw [hsrc, BitVec.toNat_ofNat, Nat.mod_eq_of_lt hown]
      refine ports_of_mapPort ((exec_discardNotice ..).trans (execDiscardNotice_of_data hout hxfer hsrc')) ⟨hout, _, rfl, fun x hx => ?_⟩
      have hfilter := (List.mem_filter.mp hx).2
      simp only [Bool.and_eq_true, Bool.or_eq_true, beq_iff_eq] at hfilter
      obtain ⟨⟨htype, hblock⟩, -⟩ := hfilter
      exact ⟨htype, hblock.resolve_left (by decide)⟩
  · intro n b p g ports sent from_
    have hn : n < 8 := port.isLt
    have ports_of_mapPort {i : Instr} {g : Port → Port} {F : Port → Prop} (h : exec i s = .next (s.mapPort n g)) (hF : F (g p)) : ports i F :=
      step_of_mapPort (F := fun _ => F) hn h hF
    have ports_of_next {i : Instr} {t : State} {F : Port → Prop} (h : exec i s = .next t) (hmem : t.mem = s.mem) (hF : F (t.portN n)) : ports i F :=
      ⟨t, h, hmem, hF⟩
    have sent_of_sendKernel {r : Port} {x : BitVec 512} (hwaiting : r.waiting = (p.sendKernel s.ownModule b (s.window + 1) x).waiting)
        (hkernel : r.kernel = (p.sendKernel s.ownModule b (s.window + 1) x).kernel) : sent r x := p.sendKernel_sent _ _ _ _ hwaiting hkernel
    clear_value ports sent
    refine ⟨fun hpart hkind hroom => ?_, fun hpart hkind => ?_, fun hpart hkind => ?_,
      fun hinbox htype hsound => ⟨fun hkind => ?_, fun hkind => ?_, fun y hkind hexported hgid hpeer hfree => ?_⟩, fun hinbox htype hsound => ?_, ?_, ?_⟩
    -- R51, R52: a grant is handed over.
    · refine ports_of_mapPort ((exec_grantHandoff ..).trans (execGrantHandoff_grant hpart hkind hroom)) ⟨sent_of_sendKernel rfl rfl, _, rfl, ?_⟩
      exact ⟨rfl, rfl, rfl, rfl, rfl, rfl, rfl, rfl⟩
    -- R53: a recall is handed over.
    · refine ports_of_mapPort ((exec_grantHandoff ..).trans (execGrantHandoff_recall hpart hkind))
        ⟨sent_of_sendKernel rfl rfl, List.length_map .., fun x hx hgid hpeer => ?_⟩
      obtain ⟨y, -, rfl⟩ := List.mem_map.mp hx
      exact y.recall_recalled _ _ _ _ hgid hpeer
    -- R53: an acknowledgement is handed over.
    · refine ports_of_mapPort ((exec_grantHandoff ..).trans (execGrantHandoff_ack hpart hkind)) ⟨sent_of_sendKernel rfl rfl, fun x hx hgid hpeer => ?_⟩
      have hother := (List.mem_filter.mp hx).2
      simp [hgid, hpeer, g, b] at hother
    -- R51: a grant arrives.
    · refine ports_of_next ((exec_grant ..).trans (execGrant_of_sound hinbox htype hsound hkind)) ((State.mapPort_mem ..).trans (State.mapPort_mem ..)) ?_
      rw [State.portN_mapPort_self _ _ hn, State.portN_mapPort_self _ _ hn]
      exact ⟨rfl, _, List.mem_append_right _ (List.mem_singleton_self _), rfl, rfl, rfl, rfl, rfl, rfl⟩
    -- R53: a recall arrives.
    · refine ports_of_mapPort ((exec_grantRecall ..).trans (execRecall_of_sound hinbox htype hsound hkind)) ⟨rfl, fun x hx hgid hpeer => ?_⟩
      obtain ⟨y, -, rfl⟩ := List.mem_map.mp hx
      exact y.recall_recalled _ _ _ _ hgid hpeer
    -- R53, R370: an acknowledgement arrives.
    · refine ports_of_mapPort ((exec_recallAck ..).trans (execRecallAck_of_sound hinbox htype hsound hkind hexported hgid hpeer hfree))
        ⟨Port.endRecalled_inbox .., ?_, Port.endRecalled_watches ..⟩
      rw [Port.endRecalled_exported, show (s.portN port.toNat).exported = [y] from hexported, List.map_singleton, if_pos rfl, GrantRec.finish]
    -- R52: a malformed record arrives.
    · refine ports_of_next ((exec_grant ..).trans (execGrant_of_unsound hinbox htype hsound)) ((State.portRecord_mem ..).trans (State.mapPort_mem ..)) ?_
      rw [State.portRecord_portN, State.portN_mapPort_self _ _ hn]
      exact ⟨rfl, rfl⟩
    -- R57: FABTEST.
    · refine ⟨_, exec_fabtestArm .., fun hvalue => ?_, rfl, rfl⟩
      rw [State.tileRec_setTile_of_ne s _ fun hreset => hvalue (congrArg TileRec.fabtest hreset)]
    -- R311: QCFG.
    · refine ⟨_, exec_qcfgArm .., fun hbit => ?_, rfl, rfl⟩
      rw [State.tileRec_setTile_of_ne s _ fun hreset => qcfg_ne_zero hbit (congrArg TileRec.qcfg hreset)]
end Sys2Proof.Certificates
end

section
/-!
SUPPORT. DLAUNCH and DEVQ of a control core (R77 to R79), its accesses to pages here and at peers (R162, R169, R171), submissions to the Hive
(R97 to R99), and the statement about them.
-/
namespace Sys2Proof.Machine
open Sys2Proof

/-! ## A number written and read back (R5) -/

theorem Memory.readNat_writeNat : ∀ (n : Nat) {m : Memory} (_ : m.wf = true) (a x : Nat), Memory.readNat (Memory.writeNat m a n x) a n = x % 256 ^ n
  | 0, _, _, _, x => (Nat.mod_one x).symm
  | n + 1, m, h, a, x => by
    have hw := Memory.wf_write h a (BitVec.ofNat 8 x)
    have hhead : Memory.read (Memory.writeNat m a (n + 1) x) a = BitVec.ofNat 8 x := by
      rw [Memory.writeNat, Memory.read_writeNat n hw _ _ _ (.inl (by omega)), Memory.read_write h, if_pos rfl]
    rw [Memory.readNat, hhead, Memory.writeNat, Memory.readNat_writeNat n hw, Nat.pow_succ', Nat.mod_mul]
    rfl

/-! ## Translations that are kept (R162) -/

section
variable {β : Type} (g : State → β) (hdie : ∀ t d f, g (State.mapDie t d f) = g t)
include hdie

theorem State.keepTlb_keeps (s : State) (part die off : Nat) : g (s.keepTlb part die off) = g s := by
  unfold State.keepTlb
  split
  · exact hdie ..
  · rfl

theorem State.keepRun_keeps (s : State) (part die off n : Nat) : g (s.keepRun part die off n) = g s :=
  foldl_keeps g (fun _ _ => State.keepTlb_keeps g hdie ..) _ s

theorem State.keepDescs_keeps (s : State) (part : Nat) (r : BitVec 512) : g (s.keepDescs part r) = g s :=
  foldl_keeps g (fun _ _ => State.keepRun_keeps g hdie ..) _ s

theorem State.coreKeep_keeps (s : State) (a : DWord) (n : Nat) : g (s.coreKeep a n) = g s := by
  unfold State.coreKeep
  split
  · rfl
  · exact State.keepRun_keeps g hdie ..

end

/-! ## Hold queues (R169) -/

section
variable {β : Type} (g : State → β) (hdie : ∀ t d f, g (State.mapDie t d f) = g t) (hmem : ∀ (t : State) m, g { t with mem := m } = g t)
include hdie hmem

theorem State.holdPage_keeps (s : State) (part die off : Nat) (bytes : List Byte) : g (s.holdPage part die off bytes) = g s := by
  unfold State.holdPage
  split
  · rfl
  · split
    · exact hdie ..
    · exact (hdie ..).trans (hmem ..)

theorem State.hold_keeps (s : State) (part die off : Nat) (bytes : List Byte) : g (s.hold part die off bytes) = g s := by
  unfold State.hold
  dsimp only
  split
  · exact State.holdPage_keeps g hdie hmem ..
  · exact (State.holdPage_keeps g hdie hmem ..).trans (State.holdPage_keeps g hdie hmem ..)

theorem State.coreHold_keeps (s : State) (a : DWord) (bytes : List Byte) : g (s.coreHold a bytes) = g s := by
  unfold State.coreHold
  split
  · rfl
  · exact State.hold_keeps g hdie hmem ..

end

/-- A write that fits in the hold queue of its page leaves memory alone. -/
theorem State.holdPage_mem_of_room {s : State} {part die off : Nat} {bytes : List Byte}
    (hroom : ∀ m, (s.dieRec die).migOf part off = some m → (s.dieRec die).heldEntries < Config.holdQueueEntries) :
    (s.holdPage part die off bytes).mem = s.mem := by
  unfold State.holdPage
  split
  · rfl
  next m hm => rw [if_pos (hroom m hm), State.mapDie_mem]

theorem State.hold_mem_of_room {s : State} {part die off : Nat} {bytes : List Byte} (hpage : bytes.length ≤ 4096 - off % 4096)
    (hroom : ∀ m, (s.dieRec die).migOf part off = some m → (s.dieRec die).heldEntries < Config.holdQueueEntries) :
    (s.hold part die off bytes).mem = s.mem := by
  rw [State.hold, if_pos (.inl hpage), State.holdPage_mem_of_room hroom]

/-! ## What has come from peers (R171) -/

theorem State.useFar_eq (s : State) (who part : Nat) :
    s.useFar who part = s.mapPart part fun p => { p with far := p.far.filter fun x => x.1 / 2 ^ 65 != who } := rfl

/-- A page that lives at a peer is found there by its translation. -/
theorem State.spot_of_peer {s : State} {part die off : Nat} {write atomic : Bool} {e : TlbEntry} (ht : s.translate part die off = some e)
    (hallow : e.allows write atomic = true) (htier : e.tier = 2) : ∃ peer o, s.spot part die off 1 write atomic = .far peer o := by
  refine ⟨(e.away off).1, (e.away off).2, ?_⟩
  simp [State.spot, ht, hallow, htier]

/-- An access to a page at a peer is under way once it has been made there. -/
theorem State.goFar_requests {s : State} {who part die off : Nat} {write : Bool} {ask : Nat → Ask} {peer o : Nat}
    (h : s.spot part die off 1 write false = .far peer o) :
    ∃ r ∈ (s.goFar who part die off write ask).requests, r.uid = 0 ∧ r.sink = .record ∧ r.part = part ∧ r.home = some (globalPointer die off) ∧
      r.swarm = 2 * who + (if write then 1 else 0) := by
  unfold State.goFar State.goTo
  rw [h]
  by_cases hasked : s.asked who part die off write = true
  · rw [if_pos hasked]
    simpa [State.asked, and_assoc] using hasked
  · rw [if_neg hasked]
    exact ⟨_, List.mem_append_right _ (List.mem_singleton_self _), rfl, rfl, rfl, rfl, rfl⟩

theorem State.goFar_keeps {β : Type} (g : State → β) (hreq : ∀ (t : State) rs n, g { t with requests := rs, nextReq := n } = g t) (s : State)
    (who part die off : Nat) (write : Bool) (ask : Nat → Ask) : g (s.goFar who part die off write ask) = g s := by
  unfold State.goFar State.goTo
  split
  · rfl
  · split
    · exact hreq ..
    · rfl

/-! ## Submissions (R97 to R99) -/

section
variable (u : State) (part core : Nat) (rec : BitVec 512) (r : State × Answer)

/-- A submission is refused: with a status and without a handle, and at most a REJECTED record is posted (R97). -/
def Refuses : Prop := r.2.status ≠ 0 ∧ r.2.handle = 0 ∧ (r.1 = u ∨ ∃ k vd req lim, r.1 = u.postHome (u.partN part) 3 k vd req lim)

/-- A launch as it enters the Hive (R98). -/
def Launch.Enters (l : Launch) (handle : Nat) : Prop :=
  l.handle = handle ∧ l.record = rec ∧ l.core = core ∧ l.next = 0 ∧ l.ended = 0 ∧ l.fault = none ∧
  l.device = recField rec 10 1 ∧ l.prio = recField rec 11 1

/-- A submission is accepted: a launch enters the Hive under the next handle, and a spawning task may give an entry of its reservation (R98, R99). -/
def Accepts : Prop := r.2 = ⟨0, 0, (u.partN part).nextHandle⟩ ∧ ∃ c l, Launch.Enters core rec l (u.partN part).nextHandle ∧
  r.1 = (u.withCur c).mapPart part fun q => { q with hive := q.hive ++ [l], nextHandle := nextHandleOf q.nextHandle }

end

/-- The module once the descriptors of a record have been read for an agent (R96, R162, R171). -/
def State.readDescs (s : State) (who part : Nat) (rec : BitVec 512) : State := (s.keepDescs part rec).useFar who part

theorem Refuses.silent {u : State} {part status field : Nat} (h : status ≠ 0) : Refuses u part (u, ⟨status, field, 0⟩) := ⟨h, rfl, .inl rfl⟩

theorem State.ite_withCur (u : State) (c : Ctx) (b : Prop) [Decidable b] : (if b then u.withCur c else u) = u.withCur (if b then c else u.cur) := by
  split <;> rfl

/-- A submission is refused or accepted: the checks of R97 in their order. -/
theorem State.submit_cases (s : State) (part core : Nat) (parent : Option (Nat × Nat × Nat × Nat)) (rec : BitVec 512) :
    ∃ who, Refuses (s.readDescs who part rec) part (s.submit part core parent rec) ∨
      Accepts (s.readDescs who part rec) part core rec (s.submit part core parent rec) := by
  rcases parent with _ | x
  on_goal 1 => refine ⟨core, ?_⟩
  on_goal 2 => refine ⟨whoOf x.2.2.2, ?_⟩
  all_goals
    unfold State.submit State.readDescs
    dsimp only
    split
    · exact .inl (.silent (by decide))
    split
    · exact .inl (.silent (by decide))
    split
    · exact .inl (.silent (by decide))
    split
    · exact .inl (.silent (by decide))
    split
    · exact .inl ⟨Nat.one_ne_zero, rfl, .inr ⟨_, _, _, _, rfl⟩⟩
    split
    · exact .inl (.silent (by decide))
    · rw [State.ite_withCur]
      exact .inr ⟨rfl, _, _, ⟨rfl, rfl, rfl, rfl, rfl, rfl, rfl, rfl⟩, rfl⟩

/-- What the parts of a submission do not touch, it does not touch. -/
theorem State.submit_keeps {β : Type} (g : State → β) (s : State) (part core : Nat) (parent : Option (Nat × Nat × Nat × Nat)) (rec : BitVec 512)
    (hdie : ∀ t d f, g (State.mapDie t d f) = g t) (hpart : ∀ t f, g (State.mapPart t part f) = g t) (hpost : ∀ t w x, g (State.post t w x) = g t)
    (hcur : ∀ t c, g (State.withCur t c) = g t) : g (s.submit part core parent rec).1 = g s := by
  obtain ⟨who, hcases⟩ := s.submit_cases part core parent rec
  have hread : g (s.readDescs who part rec) = g s := by
    rw [State.readDescs, State.useFar_eq, hpart, State.keepDescs_keeps g hdie]
  rcases hcases with ⟨-, -, hsame | ⟨k, vd, req, lim, hpost'⟩⟩ | ⟨-, c, l, -, henters⟩
  · rw [hsame, hread]
  · rw [hpost', State.postHome, hpost, hread]
  · rw [henters, hpart, hcur, hread]

theorem State.partN_readDescs (s : State) (who : Nat) {part : Nat} (hpart : part < 8) (rec : BitVec 512) : (s.readDescs who part rec).partN part =
    { s.partN part with far := (s.partN part).far.filter fun x => x.1 / 2 ^ 65 != who } := by
  rw [State.readDescs, State.useFar_eq, State.partN_mapPart_self _ _ hpart, State.keepDescs_keeps (State.partN · part) fun _ _ _ => State.partN_mapDie ..]

theorem nextHandleOf_ne_zero (h : Nat) : nextHandleOf h ≠ 0 := by
  unfold nextHandleOf
  split
  · decide
  · assumption

theorem nextHandleOf_of_ne_zero {h : Nat} (hz : (h + 1) % 2 ^ 32 ≠ 0) : nextHandleOf h = (h + 1) % 2 ^ 32 := if_neg hz

section
variable {s : State} {who part core : Nat} {rec : BitVec 512} {r : State × Answer} (hpart : part < 8)
include hpart

/-- A refused submission leaves the Hive as it is. -/
theorem Refuses.partN (h : Refuses (s.readDescs who part rec) part r) :
    (r.1.partN part).hive = (s.partN part).hive ∧ (r.1.partN part).nextHandle = (s.partN part).nextHandle := by
  obtain ⟨-, -, hsame | ⟨k, vd, req, lim, hpost⟩⟩ := h
  · rw [hsame, s.partN_readDescs who hpart]
    exact ⟨rfl, rfl⟩
  · rw [hpost, State.postHome, State.post, State.partN_mapCore, s.partN_readDescs who hpart]
    exact ⟨rfl, rfl⟩

/-- An accepted submission appends its launch to the Hive. -/
theorem Accepts.partN (h : Accepts (s.readDescs who part rec) part core rec r) : r.2 = ⟨0, 0, (s.partN part).nextHandle⟩ ∧
    ∃ l, Launch.Enters core rec l (s.partN part).nextHandle ∧ (r.1.partN part).hive = (s.partN part).hive ++ [l] ∧
      (r.1.partN part).nextHandle = nextHandleOf (s.partN part).nextHandle := by
  obtain ⟨hanswer, c, l, henters, hr⟩ := h
  rw [s.partN_readDescs who hpart] at hanswer henters
  refine ⟨hanswer, l, henters, ?_⟩
  rw [hr, State.partN_mapPart_self _ _ hpart]
  exact ⟨congrArg (·.hive ++ [l]) (s.partN_readDescs who hpart rec), congrArg (nextHandleOf ·.nextHandle) (s.partN_readDescs who hpart rec)⟩

end

section
variable (s : State) (part core : Nat) (parent : Option (Nat × Nat × Nat × Nat)) (rec : BitVec 512)

theorem State.mem_submit : (s.submit part core parent rec).1.mem = s.mem :=
  s.submit_keeps State.mem part core parent rec State.mapDie_mem (fun _ _ => State.mapPart_mem ..) (fun _ _ _ => State.mapCore_mem ..) fun _ _ => rfl

theorem State.partN_submit_ne {k : Nat} (hk : k < 8) (h : k ≠ part) : (s.submit part core parent rec).1.partN k = s.partN k :=
  s.submit_keeps (State.partN · k) part core parent rec (fun _ _ _ => State.partN_mapDie ..) (fun _ _ => State.partN_mapPart_ne _ _ h hk)
    (fun _ _ _ => State.partN_mapCore ..) fun _ _ => rfl

end

/-! ## What a control core shows of its registers -/

/-- The pc and the registers of a core. -/
def Core.shown (c : Core) : DWord × Vector DWord 32 := (c.pc, c.xregs)

section
variable (s : State) {k : Nat} (hk : k < 32)
include hk

theorem State.shown_mapCore (w : Nat) {f : Core → Core} (hf : ∀ c, (f c).shown = c.shown) : ((s.mapCore w f).coreN k).shown = (s.coreN k).shown := by
  by_cases hw : k = w
  · rw [← hw, State.coreN_mapCore_self _ _ hk, hf]
  · rw [State.coreN_mapCore_ne _ _ hw hk]

theorem State.shown_post (w : Nat) (r : BitVec 128) : ((s.post w r).coreN k).shown = (s.coreN k).shown :=
  s.shown_mapCore hk w fun c => by split <;> rfl

theorem State.shown_submit (part core : Nat) (parent : Option (Nat × Nat × Nat × Nat)) (rec : BitVec 512) :
    ((s.submit part core parent rec).1.coreN k).shown = (s.coreN k).shown :=
  s.submit_keeps (fun t => (t.coreN k).shown) part core parent rec (fun _ _ _ => by rw [State.coreN_mapDie]) (fun _ _ => by rw [State.coreN_mapPart])
    (fun t w x => t.shown_post hk w x) fun _ _ => rfl

end

theorem Core.shown_unreserve (c : Core) (as : List Nat) : (c.unreserve as).shown = c.shown := by
  unfold Core.unreserve
  split
  · split <;> rfl
  · rfl

theorem State.coreN_unreserve (s : State) (as : List Nat) (w : Nat) : (s.unreserve as).coreN w = (s.coreN w).unreserve as := by
  unfold State.coreN State.unreserve
  split <;> simp

/-- A core goes on after an instruction whose result is v, and x0 stays zero. -/
def Core.Returns (c d : Core) (rd : BitVec 5) (v : DWord) : Prop :=
  d.pc = c.pc + 4 ∧ ∀ r : BitVec 5, d.xregs[r.toNat]'r.isLt = if r = rd ∧ rd ≠ 0 then v else c.xregs[r.toNat]'r.isLt

theorem Core.returns_setX {c d : Core} (h : d.shown = c.shown) (rd : BitVec 5) (v : DWord) : c.Returns (d.setX rd v).step4 rd v := by
  obtain ⟨hpc, hx⟩ := Prod.mk.inj h
  have hkept : (d.setX rd v).pc = d.pc := by unfold Core.setX; split <;> rfl
  refine ⟨(congrArg (· + 4) (hkept.trans hpc)), fun r => ?_⟩
  rw [← hx]
  show (d.setX rd v).xregs[r.toNat]'r.isLt = _
  by_cases hrd : rd = 0
  · rw [Core.setX, if_pos hrd, if_neg (fun hr => hr.2 hrd)]
  · have hsame : rd.toNat = r.toNat ↔ r = rd ∧ rd ≠ 0 := by
      rw [BitVec.toNat_inj]
      exact ⟨fun e => ⟨e.symm, hrd⟩, fun e => e.1.symm⟩
    rw [Core.setX, if_neg hrd]
    simp only [Vector.getElem_set, hsame]

theorem Core.queue_setX (d : Core) (rd : BitVec 5) (v : DWord) : ((d.setX rd v).step4).queue = d.queue := by
  show (d.setX rd v).queue = d.queue
  unfold Core.setX
  split <;> rfl

theorem State.setX_core {t : State} {w : Nat} (hw : w < 32) {c : Core} (h : (t.coreN w).shown = c.shown) (rd : BitVec 5) (v : DWord) :
    c.Returns ((t.mapCore w fun x => (x.setX rd v).step4).coreN w) rd v := by
  rw [State.coreN_mapCore_self _ _ hw]
  exact Core.returns_setX h rd v

/-! ## Accesses of a control core (R162, R169, R171) -/

section
variable {s : State} {a : DWord} {write : Bool}

theorem State.coreFar_spot (h : s.coreFar a write = true) : ∃ peer o, s.spot (s.partOfWing s.hart) (coreDie a) (coreOff a) 1 write false = .far peer o := by
  unfold State.coreFar at h
  cases ht : s.translate (s.partOfWing s.hart) (coreDie a) (coreOff a) with
  | none => simp [ht] at h
  | some e =>
    obtain ⟨-, hallow, htier⟩ : _ ∧ e.allows write false = true ∧ e.tier = 2 := by simpa [ht] using h
    exact State.spot_of_peer ht hallow htier

theorem State.coreFar_of_coreRead_away {n : Nat} (h : s.coreRead a n = .away) : s.coreFar a false = true := by
  unfold State.coreRead at h
  split at h
  · cases h
  · split at h
    next hfar => exact hfar
    next => cases h

/-- An access of a core to a page at a peer is asked for there, and changes nothing else. -/
theorem State.coreGoes_asks (h : s.coreFar a write = true) (ask : Nat → Ask) :
    (s.coreGoes a write ask).mem = s.mem ∧ (s.coreGoes a write ask).cores = s.cores ∧ (s.coreGoes a write ask).parts = s.parts ∧
    ∃ r ∈ (s.coreGoes a write ask).requests, r.uid = 0 ∧ r.sink = .record ∧ r.part = s.partOfWing s.hart ∧
      r.home = some (globalPointer (coreDie a) (coreOff a)) ∧ r.swarm = 2 * s.hart + (if write then 1 else 0) := by
  obtain ⟨peer, o, hspot⟩ := State.coreFar_spot h
  exact ⟨State.goFar_keeps State.mem (fun _ _ _ => rfl) .., State.goFar_keeps State.cores (fun _ _ _ => rfl) ..,
    State.goFar_keeps State.parts (fun _ _ _ => rfl) .., State.goFar_requests hspot⟩

theorem coreOff_page {n : Nat} (ha : a.toNat % 16 = 0) (hn : n ≤ 16) : n ≤ 4096 - coreOff a % 4096 := by
  unfold coreOff
  omega

variable (s a)

theorem State.coreN_coreWrite (p n x w : Nat) : (s.coreWrite a p n x).coreN w = (s.coreN w).unreserve ((List.range n).map (p + ·)) := by
  rw [State.coreWrite, State.coreKeep_keeps (State.coreN · w) (fun _ _ _ => State.coreN_mapDie ..),
    State.coreHold_keeps (State.coreN · w) (fun _ _ _ => State.coreN_mapDie ..) (fun _ _ => rfl), State.coreN_unreserve]
  rfl

/-- What a write of the core has left joins the hold queue of its page, where there is room. -/
theorem State.mem_coreHold {bytes : List Byte} (hpage : bytes.length ≤ 4096 - coreOff a % 4096)
    (hroom : ∀ m, (s.dieRec (coreDie a)).migOf (s.partOfWing s.hart) (coreOff a) = some m →
      (s.dieRec (coreDie a)).heldEntries < Config.holdQueueEntries) : (s.coreHold a bytes).mem = s.mem := by
  unfold State.coreHold
  split
  · rfl
  · exact State.hold_mem_of_room hpage hroom

/-- A write of a core that fits in the hold queue of its page writes its bytes and no others. -/
theorem State.mem_coreWrite (p x : Nat) (ha : a.toNat % 16 = 0)
    (hroom : ∀ m, (s.dieRec (coreDie a)).migOf (s.partOfWing s.hart) (coreOff a) = some m →
      (s.dieRec (coreDie a)).heldEntries < Config.holdQueueEntries) :
    (s.coreWrite a p 16 x).mem = Memory.writeNat s.mem p 16 x := by
  rw [State.coreWrite, State.coreKeep_keeps State.mem State.mapDie_mem]
  generalize Memory.writeNat s.mem p 16 x = written
  have hpage : (bytesOfNat 16 x).length ≤ 4096 - coreOff a % 4096 := by
    rw [length_bytesOfNat]
    exact coreOff_page ha (Nat.le_refl _)
  obtain ⟨u, hu⟩ : ∃ u, u = { s with mem := written }.unreserve ((List.range 16).map (p + ·)) := ⟨_, rfl⟩
  have hmem : u.mem = written := hu ▸ rfl
  have hdie : u.dieRec = s.dieRec := hu ▸ rfl
  have hpart : u.partOfWing u.hart = s.partOfWing s.hart := hu ▸ rfl
  rw [← hdie, ← hpart] at hroom
  rw [← hu, u.mem_coreHold a hpage hroom, hmem]

end

theorem State.partOfWing_lt (s : State) (w : Nat) : s.partOfWing w < 8 := by
  unfold State.partOfWing
  cases h : (List.range 8).find? fun k => (s.partN k).wings.getLsbD w with
  | none => decide
  | some k => exact List.mem_range.mp (List.mem_of_find?_eq_some h)

/-- What has come from peers for the core that moves has been used. -/
theorem State.partN_coreUsed (s : State) {k : Nat} (hk : k < 8) : s.coreUsed.partN k = { s.partN k with
    far := if k = s.partOfWing s.hart then (s.partN k).far.filter (fun x => x.1 / 2 ^ 65 != s.hart) else (s.partN k).far } := by
  rw [State.coreUsed, State.useFar_eq]
  by_cases hp : k = s.partOfWing s.hart
  · rw [if_pos hp, hp, State.partN_mapPart_self _ _ (s.partOfWing_lt _)]
  · rw [if_neg hp, State.partN_mapPart_ne _ _ hp hk]

theorem State.mem_coreUsed (s : State) : s.coreUsed.mem = s.mem := by
  rw [State.coreUsed, State.useFar_eq, State.mapPart_mem]

theorem State.hart_coreUsed (s : State) : s.coreUsed.hart = s.hart := by
  rw [State.coreUsed, State.useFar_eq, State.mapPart_hart]

theorem State.coreN_coreUsed (s : State) (w : Nat) : s.coreUsed.coreN w = s.coreN w := by
  rw [State.coreUsed, State.useFar_eq, State.coreN_mapPart]

/-! ## Exceptions of the core that moves -/

section
variable (s : State) (cause : Nat) (tval : DWord)

theorem State.mem_coreExcept : (s.coreExcept cause tval).mem = s.mem := State.mapCore_mem ..

theorem State.partN_coreExcept (k : Nat) : (s.coreExcept cause tval).partN k = s.partN k := State.partN_mapCore ..

theorem State.coreN_coreExcept (h : s.hart < 32) : (s.coreExcept cause tval).coreN s.hart = (s.coreN s.hart).except cause tval :=
  State.coreN_mapCore_self _ _ h

end

/-! ## DLAUNCH (R77, R78) -/

theorem exec_dlaunch (s : State) (rd rs1 : BitVec 5) : exec (.dlaunch rd rs1) s = execDlaunch rd rs1 s := rfl
theorem exec_devq (s : State) (rd rs1 : BitVec 5) : exec (.devq rd rs1) s = execDevq rd rs1 s := rfl

section
variable {s : State} {rd rs1 : BitVec 5}

theorem exec_dlaunch_user (hu : s.core.priv = 0) :
    exec (.dlaunch rd rs1) s = .next (s.coreExcept 2 ((encodeRv (.dlaunch rd rs1)).setWidth 64)) :=
  (exec_dlaunch ..).trans (if_pos hu)

variable {a : DWord} (ha : s.core.x rs1 = a) (hp : s.core.priv ≠ 0)
include ha hp

theorem exec_dlaunch_misaligned (hal : a.toNat % 64 ≠ 0) : exec (.dlaunch rd rs1) s = .next (s.coreExcept 4 a) := by
  subst ha
  rw [exec_dlaunch, execDlaunch, if_neg hp, if_pos hal]

variable (hal : a.toNat % 64 = 0)
include hal

theorem exec_dlaunch_denied (hr : s.coreRead a 64 = .denied) :
    exec (.dlaunch rd rs1) s = .next (s.coreUsed.coreExcept (s.core.pageFault 13 21) a) := by
  subst ha
  rw [exec_dlaunch, execDlaunch, if_neg hp, if_neg (not_not_intro hal)]
  simp only [hr]

theorem exec_dlaunch_away (hr : s.coreRead a 64 = .away) :
    exec (.dlaunch rd rs1) s = .next (s.coreGoes a false fun o => .load [⟨0, o, 64⟩]) := by
  subst ha
  rw [exec_dlaunch, execDlaunch, if_neg hp, if_neg (not_not_intro hal)]
  simp only [hr]

/-- The record has been read, and so have its descriptors: it is submitted, and the answer goes to the destination (R78). -/
theorem exec_dlaunch_got {x : Nat} (hr : s.coreRead a 64 = .got x) (hd : s.descsAway s.hart (s.partOfWing s.hart) (BitVec.ofNat 512 x) = [])
    {r : State × Answer} (hsub : (s.coreKeep a 64).submit (s.partOfWing s.hart) s.hart none (BitVec.ofNat 512 x) = r) :
    exec (.dlaunch rd rs1) s = .next (r.1.mapCore s.hart fun c =>
      (c.setX rd (BitVec.ofNat 64 (r.2.status * 2 ^ 48 + r.2.field * 2 ^ 32 + r.2.handle))).step4) := by
  subst ha hsub
  rw [exec_dlaunch, execDlaunch, if_neg hp, if_neg (not_not_intro hal)]
  simp only [hr, hd, List.isEmpty_nil, Bool.not_true, Bool.false_eq_true, if_false]

end

/-! ## DEVQ (R77, R79) -/

/-- The core that moves has popped the oldest record of its queue, and l is left (R79). -/
def State.popTo (t : State) (w : Nat) (rd : BitVec 5) (l : List (BitVec 128)) : State :=
  t.mapCore w fun x => ({ x with queue := l }.setX rd (devqWord l.length)).step4

theorem State.mem_popTo (t : State) (w : Nat) (rd : BitVec 5) (l : List (BitVec 128)) : (t.popTo w rd l).mem = t.mem := State.mapCore_mem ..

theorem State.popTo_core {t : State} {w : Nat} (hw : w < 32) {c : Core} (h : (t.coreN w).shown = c.shown) (rd : BitVec 5) (l : List (BitVec 128)) :
    c.Returns ((t.popTo w rd l).coreN w) rd (devqWord l.length) ∧ ((t.popTo w rd l).coreN w).queue = l := by
  rw [State.popTo, State.coreN_mapCore_self _ _ hw]
  exact ⟨Core.returns_setX (d := { t.coreN w with queue := l }) h rd _, Core.queue_setX ..⟩

section
variable {s : State} {rd rs1 : BitVec 5}

theorem exec_devq_user (hu : s.core.priv = 0) :
    exec (.devq rd rs1) s = .next (s.coreExcept 2 ((encodeRv (.devq rd rs1)).setWidth 64)) :=
  (exec_devq ..).trans (if_pos hu)

variable {a : DWord} (ha : s.core.x rs1 = a) (hp : s.core.priv ≠ 0)
include ha hp

theorem exec_devq_misaligned (hal : a.toNat % 16 ≠ 0) : exec (.devq rd rs1) s = .next (s.coreExcept 6 a) := by
  subst ha
  rw [exec_devq, execDevq, if_neg hp, if_pos hal]

variable (hal : a.toNat % 16 = 0)
include hal

theorem exec_devq_empty (hq : s.core.queue = []) : exec (.devq rd rs1) s = .next (s.mapCore s.hart fun x => (x.setX rd 0).step4) := by
  subst ha
  rw [exec_devq, execDevq, if_neg hp, if_neg (not_not_intro hal)]
  simp only [hq]

variable {rec : BitVec 128} {l : List (BitVec 128)} (hq : s.core.queue = rec :: l)
include hq

/-- The record goes to an address that lies in this module. -/
theorem exec_devq_here {p : Nat} (hat : s.coreAddr a true = some p) :
    exec (.devq rd rs1) s = .next ((s.coreWrite a p 16 rec.toNat).popTo s.hart rd l) := by
  subst ha
  rw [exec_devq, execDevq, if_neg hp, if_neg (not_not_intro hal)]
  simp only [hq, hat]
  rfl

variable (hat : s.coreAddr a true = none)
include hat

theorem exec_devq_denied (hfar : s.coreFar a true = false) :
    exec (.devq rd rs1) s = .next (s.coreUsed.coreExcept (s.core.pageFault 15 23) a) := by
  subst ha
  rw [exec_devq, execDevq, if_neg hp, if_neg (not_not_intro hal)]
  simp only [hq, hat, hfar, Bool.false_eq_true, if_false]

/-- The record goes to a page at a peer: by what has come from there. -/
theorem exec_devq_far (hfar : s.coreFar a true = true) :
    let answer := (s.partN (s.partOfWing s.hart)).farAnswer (farKey s.hart (coreDie a) (coreOff a) true)
    (answer = .away → exec (.devq rd rs1) s = .next (s.coreGoes a true fun o => .store [⟨o, 16, rec.toNat⟩])) ∧
    (∀ x, answer = .got x → exec (.devq rd rs1) s = .next ((s.coreHold a (bytesOfNat 16 rec.toNat)).coreUsed.popTo s.hart rd l)) ∧
    (answer = .denied → exec (.devq rd rs1) s = .next (s.coreUsed.coreExcept (s.core.pageFault 15 23) a)) := by
  subst ha
  rw [exec_devq, execDevq, if_neg hp, if_neg (not_not_intro hal)]
  simp only [hq, hat, hfar, if_true]
  refine ⟨fun h => ?_, fun x h => ?_, fun h => ?_⟩
  · simp only [h]
  · simp only [h]
    rfl
  · simp only [h]

end

end Sys2Proof.Machine
namespace Sys2Proof.Certificates
open Sys2Proof Sys2Proof.Machine

/-- Settles O47: DLAUNCH and DEVQ by what the core's access answers, a submission by whether it is refused or accepted. -/
theorem controlCoresSubmitAndReadEvents : Obligations.ControlCoresSubmitAndReadEvents := by
  refine ⟨?_, ?_⟩
  · intro s rd rs1 rec l hhart c a part key far traps reads asks popped
    have ha : s.core.x rs1 = a := rfl
    have hraise {i : Instr} {cause : Nat} {tval : DWord} (h : exec i s = .next (s.coreExcept cause tval)) : traps i cause tval false := by
      refine ⟨_, h, s.mem_coreExcept cause tval, fun k _ => ?_, s.coreN_coreExcept cause tval hhart⟩
      rw [State.partN_coreExcept]
      simp [far]
    have hraiseUsed {i : Instr} {cause : Nat} {tval : DWord} (h : exec i s = .next (s.coreUsed.coreExcept cause tval)) : traps i cause tval true := by
      refine ⟨_, h, (State.mem_coreExcept ..).trans s.mem_coreUsed, fun k hk => ?_, ?_⟩
      · rw [State.partN_coreExcept, State.partN_coreUsed s hk]
        simp [far, part]
      · have hcore := s.coreUsed.coreN_coreExcept cause tval (s.hart_coreUsed ▸ hhart)
        rwa [State.hart_coreUsed, State.coreN_coreUsed] at hcore
    have hasks {i : Instr} (write : Bool) {ask : Nat → Ask} (h : exec i s = .next (s.coreGoes a write ask)) (hfar : s.coreFar a write = true) :
        asks i (if write then 1 else 0) := by
      obtain ⟨hmem, hcores, hparts, hreq⟩ := State.coreGoes_asks hfar ask
      exact ⟨_, h, hmem, hcores, hparts, hreq⟩
    have hpops {t : State} (h : (t.coreN s.hart).shown = c.shown) : popped (t.popTo s.hart rd l) := State.popTo_core hhart h rd l
    refine ⟨fun hu => ⟨hraise (exec_dlaunch_user hu), hraise (exec_devq_user hu)⟩, fun hp hal => hraise (exec_dlaunch_misaligned ha hp hal),
      fun hp hal => hraise (exec_devq_misaligned ha hp hal), fun hp hal hr => hraiseUsed (exec_dlaunch_denied ha hp hal hr),
      fun hp hal hr => hasks false (exec_dlaunch_away ha hp hal hr) (State.coreFar_of_coreRead_away hr),
      fun p hat => State.coreRead_of_coreAddr hat 64, fun x hp hal hr hd => ?_, fun hp hal hq => ?_, fun p hp hal hq hat hwf hroom => ?_,
      fun hp hal hq hat hfar => ?_, fun hp hal hq hat hfar => ?_⟩
    · intro r
      obtain ⟨hmem, hshown⟩ : r.1.mem = s.mem ∧ (r.1.coreN s.hart).shown = c.shown := by
        rw [State.mem_submit, State.shown_submit _ hhart, State.coreKeep_keeps State.mem State.mapDie_mem,
          State.coreKeep_keeps (State.coreN · s.hart) fun _ _ _ => State.coreN_mapDie ..]
        exact ⟨rfl, rfl⟩
      have hgot := exec_dlaunch_got (rd := rd) ha hp hal hr hd (r := r) rfl
      clear_value r
      exact ⟨_, hgot, State.setX_core hhart hshown rd _, State.mapCore_parts .., (State.mapCore_mem ..).trans hmem⟩
    · exact ⟨_, exec_devq_empty ha hp hal hq, State.setX_core hhart rfl rd 0, State.mapCore_mem ..⟩
    · have hmem := (State.mem_popTo _ s.hart rd l).trans (s.mem_coreWrite a p rec.toNat hal hroom)
      refine ⟨_, exec_devq_here ha hp hal hq hat, hpops ?_, ?_, fun y hy => ?_⟩
      · rw [State.coreN_coreWrite, Core.shown_unreserve]
      · rw [hmem, Memory.readNat_writeNat 16 hwf, Nat.mod_eq_of_lt (show rec.toNat < 256 ^ 16 from rec.isLt)]
      · rw [hmem, Memory.read_writeNat 16 hwf _ _ _ hy]
    · obtain ⟨haway, hgot, hdenied⟩ := exec_devq_far ha hp hal hq hat hfar
      refine ⟨fun h => hasks true (haway h) hfar, fun x h => ⟨_, hgot x h, hpops ?_⟩,
        fun h => hraiseUsed (hdenied h)⟩
      rw [State.coreN_coreUsed, State.coreHold_keeps (State.coreN · s.hart) (fun _ _ _ => State.coreN_mapDie ..) (fun _ _ => rfl)]
    · obtain ⟨r, rs, hq⟩ := List.exists_cons_of_ne_nil hq
      exact hraiseUsed (exec_devq_denied ha hp hal hq hat hfar)
  · intro s part core parent rec hpart r p
    refine ⟨s.mem_submit .., fun k hne hk => s.partN_submit_ne _ _ _ _ hk hne, ?_⟩
    obtain ⟨who, hrefused | haccepted⟩ : ∃ who, Refuses (s.readDescs who part rec) part r ∨ Accepts (s.readDescs who part rec) part core rec r :=
      s.submit_cases part core parent rec
    · obtain ⟨hhive, hnext⟩ := hrefused.partN hpart
      obtain ⟨hstatus, hhandle, -⟩ := hrefused
      exact ⟨fun _ => ⟨hhive, hnext, hhandle⟩, fun h => absurd h hstatus⟩
    · obtain ⟨hanswer, l, ⟨hhandle, hrec, hcore, hnext, hended, hfault, hdevice, hprio⟩, hhive, hafter⟩ := haccepted.partN hpart
      have hstatus : r.2.status = 0 := congrArg Answer.status hanswer
      exact ⟨fun h => absurd hstatus h, fun _ => ⟨congrArg Answer.handle hanswer, l, hhive, hhandle, hrec, hcore, hnext, hended, hfault, hdevice, hprio,
        hafter ▸ nextHandleOf_ne_zero _, fun hz => hafter.trans (nextHandleOf_of_ne_zero hz)⟩⟩

end Sys2Proof.Certificates
end

section
/-!
SUPPORT. Virtual devices and their tokens (R90 to R93), the slots of an image (R67, R84), loading and unloading (R75), and the statement about them.
-/
namespace Sys2Proof.Machine
open Sys2Proof

/-! ## The operations as exec gives them -/

section
variable (s : State) (part : BitVec 3)

theorem exec_vdcfg (vd weight quantum priomax enable : Nat) :
    exec (.vdcfg part vd weight quantum priomax enable) s = execVdcfg part vd weight quantum priomax enable s := rfl
theorem exec_refill : exec (.refill part) s = execRefill part s := rfl
theorem exec_grenzorLoad (off len : Nat) (sig : Bool) : exec (.grenzorLoad part off len sig) s = execGrenzorLoad part off len sig s := rfl
theorem exec_unload (handle : BitVec 64) : exec (.unload part handle) s = execUnload part handle s := rfl

end

/-! ## The devices of a partition (R90, R91) -/

section
variable {p : Partition} {vd weight quantum priomax : Nat}

theorem Partition.hasLaunch_iff : p.hasLaunch vd = true ↔ ∃ l ∈ p.hive, l.device = vd := by
  simp [Partition.hasLaunch]

theorem Partition.not_hasLaunch (h : ∀ l ∈ p.hive, l.device ≠ vd) : ¬p.hasLaunch vd = true := fun hb => by
  obtain ⟨l, hmem, hvd⟩ := Partition.hasLaunch_iff.mp hb
  exact h l hmem hvd

/-- Some device beside one has, or will have at the next refill, a weight. -/
def Partition.OtherWeighs (p : Partition) (vd : Nat) : Prop := ∃ d ∈ p.devices, d.vd ≠ vd ∧ d.weightNext ≠ 0

/-- The weights of the devices beside one. -/
abbrev Partition.otherWeights (p : Partition) (vd : Nat) : List Nat := (p.devices.filter fun d => d.vd != vd).map (·.weightNext)

theorem Partition.forall_otherWeights : (∀ w ∈ p.otherWeights vd, w = 0) ↔ ¬p.OtherWeighs vd := by
  rw [Partition.otherWeights, List.forall_mem_map]
  simp [Partition.OtherWeighs]

theorem Partition.otherWeights_ne_nil : p.otherWeights vd ≠ [] ↔ ∃ d ∈ p.devices, d.vd ≠ vd := by
  simp [Partition.otherWeights]

theorem allZero_iff {ws : List Nat} : allZero ws = true ↔ ws ≠ [] ∧ ∀ w ∈ ws, w = 0 := by
  simp [allZero]

/-- Every device enabled beside one would have weight 0. -/
theorem Partition.allZero_otherWeights : allZero (p.otherWeights vd) = true ↔ (∃ d ∈ p.devices, d.vd ≠ vd) ∧ ¬p.OtherWeighs vd := by
  rw [allZero_iff, Partition.otherWeights_ne_nil, Partition.forall_otherWeights]

/-- Every device enabled would have weight 0, with one more. -/
theorem Partition.allZero_cons_otherWeights : allZero (weight :: p.otherWeights vd) = true ↔ ¬(weight ≠ 0 ∨ p.OtherWeighs vd) := by
  rw [allZero_iff, List.forall_mem_cons, Partition.forall_otherWeights]
  simp

theorem mem_insertDev (d : Device) : ∀ l : List Device, d ∈ insertDev d l
  | [] => List.mem_singleton_self d
  | e :: l => by
    rw [insertDev]
    split
    · exact List.mem_cons_self
    · exact List.mem_cons_of_mem _ (mem_insertDev d l)

/-- A device that is enabled for the first time has the values of the request and no tokens (R91). -/
theorem Partition.enable_new (h : p.dev vd = none) :
    { vd := vd, weight := weight, quantum := quantum, priomax := priomax, soft := decide (quantum < 52), balance := 0, debts := [], pending := none } ∈
      (p.enable vd weight quantum priomax).devices := by
  simp only [Partition.enable, h, Option.isSome_none, Bool.false_eq_true, if_false]
  exact mem_insertDev _ _

/-- The values of a device that is enabled already wait for the refill (R90). -/
theorem Partition.enable_again {e : Device} (h : p.dev vd = some e) :
    { e with pending := some (weight, quantum, priomax, decide (quantum < 52)) } ∈ (p.enable vd weight quantum priomax).devices := by
  have hvd : e.vd = vd := by simpa using List.find?_some h
  simp only [Partition.enable, h, Option.isSome_some, if_true, mapDev]
  exact List.mem_map.mpr ⟨e, List.mem_of_find?_eq_some h, if_pos hvd⟩

end

/-! ## The answers of VDCFG (R91) -/

section
variable {s : State} {part : BitVec 3} {vd weight quantum priomax enable : Nat}

theorem State.vdcfgCode_partN {n : Nat} (hn : n < 8) (code : Nat) : (s.vdcfgCode n code).partN n = { s.partN n with lastCode := code } :=
  State.partN_mapPart_self _ _ hn

/-- A field of VDCFG outside its range. -/
abbrev VdcfgBad (vd weight quantum priomax enable : Nat) : Prop := 63 < vd ∨ 65535 < weight ∨ 65535 < quantum ∨ 7 < priomax ∨ 1 < enable

variable (hup : (s.partN part.toNat).state ≠ 0)
include hup

theorem execVdcfg_bad (h : VdcfgBad vd weight quantum priomax enable) :
    execVdcfg part vd weight quantum priomax enable s = .next (s.vdcfgCode part.toNat 3) := by
  rw [execVdcfg, if_neg hup, if_pos h]

theorem execVdcfg_noQuantum (hok : ¬VdcfgBad vd weight 0 priomax 1) : execVdcfg part vd weight 0 priomax 1 s = .next (s.vdcfgCode part.toNat 1) := by
  rw [execVdcfg, if_neg hup, if_neg hok, if_pos ⟨rfl, rfl⟩]

section
variable (hok : ¬VdcfgBad vd weight quantum priomax 1) (hq : quantum ≠ 0)
include hok hq

theorem execVdcfg_enable_refused (h : ¬(weight ≠ 0 ∨ (s.partN part.toNat).OtherWeighs vd)) :
    execVdcfg part vd weight quantum priomax 1 s = .next (s.vdcfgCode part.toNat 4) := by
  rw [execVdcfg, if_neg hup, if_neg hok, if_neg (by omega), if_neg (by omega), if_pos rfl, if_pos (Partition.allZero_cons_otherWeights.mpr h)]

/-- A device is enabled or changes; a quantum below 52 is answered with a record (R91). -/
theorem execVdcfg_enable (h : weight ≠ 0 ∨ (s.partN part.toNat).OtherWeighs vd) : ∃ t, execVdcfg part vd weight quantum priomax 1 s = .next t ∧
    (t.partN part.toNat).lastCode = (if quantum < 52 then 2 else 0) ∧
    (t.partN part.toNat).devices = ((s.partN part.toNat).enable vd weight quantum priomax).devices := by
  rw [execVdcfg, if_neg hup, if_neg hok, if_neg (by omega), if_neg (by omega), if_pos rfl,
    if_neg (fun hz => Partition.allZero_cons_otherWeights.mp hz h), if_neg (by omega)]
  by_cases hsoft : quantum < 52
  · refine ⟨_, if_pos hsoft, ?_⟩
    rw [State.vdcfgCode_partN part.isLt, State.postHome, State.post, State.partN_mapCore, State.partN_mapPart_self _ _ part.isLt, if_pos hsoft]
    exact ⟨rfl, rfl⟩
  · refine ⟨_, if_neg hsoft, ?_⟩
    rw [State.vdcfgCode_partN part.isLt, State.partN_mapPart_self _ _ part.isLt, if_neg hsoft]
    exact ⟨rfl, rfl⟩

end

section
variable (hok : ¬VdcfgBad vd weight quantum priomax 0)
include hok

theorem execVdcfg_busy (hl : ∃ l ∈ (s.partN part.toNat).hive, l.device = vd) :
    execVdcfg part vd weight quantum priomax 0 s = .next (s.vdcfgCode part.toNat 5) := by
  rw [execVdcfg, if_neg hup, if_neg hok, if_neg (by omega), if_pos ⟨rfl, Partition.hasLaunch_iff.mpr hl⟩]

variable (hl : ∀ l ∈ (s.partN part.toNat).hive, l.device ≠ vd)
include hl

theorem execVdcfg_disable_refused (hd : ∃ d ∈ (s.partN part.toNat).devices, d.vd ≠ vd) (h : ¬(s.partN part.toNat).OtherWeighs vd) :
    execVdcfg part vd weight quantum priomax 0 s = .next (s.vdcfgCode part.toNat 4) := by
  rw [execVdcfg, if_neg hup, if_neg hok, if_neg (by omega), if_neg (fun hb => Partition.not_hasLaunch hl hb.2), if_neg (show ¬0 = 1 by decide),
    if_pos (Partition.allZero_otherWeights.mpr ⟨hd, h⟩)]

theorem execVdcfg_disable (h : (∀ d ∈ (s.partN part.toNat).devices, d.vd = vd) ∨ (s.partN part.toNat).OtherWeighs vd) :
    execVdcfg part vd weight quantum priomax 0 s = .next ((s.mapPart part.toNat fun q => q.disable vd).vdcfgCode part.toNat 0) := by
  have hweight : ¬allZero ((s.partN part.toNat).otherWeights vd) = true := fun hz => by
    obtain ⟨⟨d, hd, hne⟩, hnone⟩ := Partition.allZero_otherWeights.mp hz
    exact h.elim (fun hall => hne (hall d hd)) hnone
  rw [execVdcfg, if_neg hup, if_neg hok, if_neg (by omega), if_neg (fun hb => Partition.not_hasLaunch hl hb.2),
    if_neg (show ¬0 = 1 by decide), if_neg hweight, if_pos rfl]

end

end

/-! ## Refills (R92, R93) -/

/-- A device that is idle and owes nothing keeps its debts, and its balance grows by its cap up to twice that (R92). -/
theorem refillDevices_of_settled {tokens : Nat} {ds : List Device} (h : ∀ d ∈ ds, d.debts = []) : refillDevices tokens ds = ds.map fun d =>
    let total := (ds.map (·.weight)).foldl (· + ·) 0
    let cap : Int := ((if total = 0 then 0 else tokens * d.weight / total) * Config.cyclesPerUs : Nat)
    { d with balance := min d.balance cap + cap } := by
  have hrepay (n : Nat) : repay [] n = ([], []) := rfl
  have hpaid (pay : Device → Nat) : (ds.map fun d => (repay d.debts (pay d)).2).flatten = [] := by
    rw [List.map_congr_left fun d hd => by rw [h d hd, hrepay]]
    simp
  unfold refillDevices
  dsimp only
  refine List.map_congr_left fun d hd => ?_
  rw [hpaid]
  have hd := h d hd
  simp [hd, hrepay, debtOf, repaidTo]

theorem mem_refillDevices_vd {tokens : Nat} {ds : List Device} {e : Device} (h : e ∈ refillDevices tokens ds) : ∃ d ∈ ds, d.vd = e.vd := by
  obtain ⟨d, hd, rfl⟩ := List.mem_map.mp h
  exact ⟨d, hd, rfl⟩

theorem Device.settle_of_none {d : Device} (h : d.pending = none) : d.settle = d := by
  rw [Device.settle, h]

theorem mem_insertBalance {d e : Device} : ∀ {l : List Device}, e ∈ insertBalance d l → e = d ∨ e ∈ l
  | [], h => .inl (List.mem_singleton.mp h)
  | x :: l, h => by
    rw [insertBalance] at h
    split at h
    · exact List.mem_cons.mp h
    · rcases List.mem_cons.mp h with rfl | h
      · exact .inr List.mem_cons_self
      · exact (mem_insertBalance h).imp_right (List.mem_cons_of_mem _)

theorem Partition.mem_selection {p : Partition} {e : Device} (h : e ∈ p.selection) : e ∈ p.devices := by
  rw [Partition.selection] at h
  generalize p.devices = l at h ⊢
  induction l with
  | nil => exact h
  | cons d l ih =>
    rcases mem_insertBalance h with rfl | h
    · exact List.mem_cons_self
    · exact List.mem_cons_of_mem _ (ih h)

/-- Where no device has pending work none borrows (R93). -/
theorem Partition.lend_of_idle {p : Partition} (h : ∀ d ∈ p.devices, p.busy d.vd = false) : p.lend = p := by
  have hnone : p.selection.filter (fun d => decide (d.balance ≤ 0) && p.busy d.vd) = [] :=
    List.filter_eq_nil_iff.mpr fun d hd => by simp [h d (Partition.mem_selection hd)]
  rw [Partition.lend, hnone]
  exact ite_self _

/-- A refill leaves settled, idle devices as they are but for their balances, and none of them borrows (R90, R92, R93). -/
theorem Partition.refill_of_settled {p : Partition} (tokens : Nat) (h : ∀ d ∈ p.devices, d.debts = [] ∧ d.pending = none ∧ p.busy d.vd = false) :
    ({ p with refills := p.refills + 1, devices := refillDevices tokens (p.devices.map Device.settle) } : Partition).lend =
      { p with refills := p.refills + 1, devices := refillDevices tokens p.devices } := by
  have hsettle : p.devices.map Device.settle = p.devices :=
    (List.map_congr_left fun d hd => Device.settle_of_none (h d hd).2.1).trans (List.map_id' _)
  rw [hsettle]
  refine Partition.lend_of_idle fun e he => ?_
  obtain ⟨d, hd, hvd⟩ := mem_refillDevices_vd he
  obtain ⟨-, -, hidle⟩ := h d hd
  exact hvd ▸ hidle

theorem execRefill_of_settled {s : State} {part : BitVec 3} {p : Partition} (hp : s.partN part.toNat = p) (hup : p.state = 2 ∨ p.state = 4)
    (h : ∀ d ∈ p.devices, d.debts = [] ∧ d.pending = none ∧ p.busy d.vd = false) :
    ∃ t, execRefill part s = .next t ∧ t.mem = s.mem ∧ t.cycle = max s.cycle (p.bootAt + (p.refills + 1) * p.period * Config.cyclesPerUs) ∧
      t.partN part.toNat = { p with refills := p.refills + 1, devices := refillDevices ((s.tilesOf p 0xFF).length * p.period) p.devices } := by
  subst hp
  exact ⟨_, if_neg (by omega), State.mapPart_mem .., State.mapPart_cycle ..,
    (State.partN_mapPart_self _ _ part.isLt).trans (Partition.refill_of_settled _ h)⟩

/-! ## Slots for the pairs of an image (R67, R84) -/

section
variable {held : Nat × Nat → Bool} {taken : List (Nat × Nat)} {a b : Nat}

/-- Every link cycle of a slot of a pair is held, and neither taken nor that of a slot placed before. -/
def SlotFree (held : Nat × Nat → Bool) (taken : List (Nat × Nat)) (placed : List (Nat × Nat × Nat)) (a b k : Nat) : Prop :=
  ∀ y ∈ slotLinks a b k, held y = true ∧ y ∉ taken ∧ ∀ z ∈ placed, y ∉ slotLinks z.1 z.2.1 z.2.2

theorem all_free_iff {k : Nat} : (slotLinks a b k).all (fun x => held x && !taken.contains x) = true ↔ SlotFree held taken [] a b k := by
  simp [SlotFree]

/-- The links of the first slot placed count as taken for those after it. -/
theorem slotFree_cons {z : Nat × Nat × Nat} {placed : List (Nat × Nat × Nat)} {k : Nat} :
    SlotFree held taken (z :: placed) a b k ↔ SlotFree held (slotLinks z.1 z.2.1 z.2.2 ++ taken) placed a b k := by
  simp only [SlotFree, List.forall_mem_cons, List.mem_append, not_or]
  exact forall₂_congr fun y _ => by tauto

/-- The search finds a free slot within its fuel. -/
theorem placeSlot_free : ∀ {fuel start : Nat}, (∃ j, j < fuel ∧ SlotFree held taken [] a b ((start + j) % 256)) →
    ∃ k, placeSlot held taken a b start fuel = some k ∧ SlotFree held taken [] a b k
  | 0, _, ⟨_, hj, _⟩ => absurd hj (Nat.not_lt_zero _)
  | fuel + 1, start, ⟨j, hj, hfree⟩ => by
    rw [placeSlot]
    split
    next hnow => exact ⟨_, rfl, all_free_iff.mp hnow⟩
    next hnow =>
      cases j with
      | zero => exact absurd (all_free_iff.mpr hfree) hnow
      | succ j => exact placeSlot_free ⟨j, by omega, by rwa [Nat.add_right_comm, Nat.add_assoc]⟩

/-- A search through all 256 slots finds a free one where there is one. -/
theorem placeSlot_all {start k : Nat} (hk : k < 256) (hfree : SlotFree held taken [] a b k) :
    ∃ k, placeSlot held taken a b start 256 = some k ∧ SlotFree held taken [] a b k := by
  have hat : (start + (k + 256 - start % 256) % 256) % 256 = k := by omega
  exact placeSlot_free ⟨(k + 256 - start % 256) % 256, Nat.mod_lt _ (by decide), by rwa [hat]⟩

variable {start : Nat → Nat}

/-- Each pair gets one slot. -/
theorem placePairs_pairs : ∀ {pairs : List (Nat × Nat)} {taken : List (Nat × Nat)} {k : Nat},
    (placePairs held start pairs taken k).map (fun x => (x.1, x.2.1)) = pairs
  | [], _, _ => rfl
  | (a, b) :: pairs, taken, k => by rw [placePairs, List.map_cons, placePairs_pairs]

/-- A pair gets a slot that is free beside those placed before it, where there is one. -/
theorem placePairs_free {pairs : List (Nat × Nat)} {k : Nat} {l : List (Nat × Nat × Nat)} {x : Nat × Nat × Nat} {r : List (Nat × Nat × Nat)}
    (h : placePairs held start pairs taken k = l ++ x :: r) (hfree : ∃ j, j < 256 ∧ SlotFree held taken l x.1 x.2.1 j) :
    SlotFree held taken l x.1 x.2.1 x.2.2 := by
  induction pairs generalizing taken k l with
  | nil => simp [placePairs] at h
  | cons pair pairs ih =>
    rw [placePairs] at h
    cases l with
    | nil =>
      obtain ⟨rfl, -⟩ := List.cons.inj h
      obtain ⟨j, hj, hfree⟩ := hfree
      obtain ⟨i, hi, hplace⟩ := placeSlot_all (start := start k) hj hfree
      simpa only [hi, Option.some_or, Option.getD_some] using hplace
    | cons z l =>
      obtain ⟨rfl, hrest⟩ := List.cons.inj h
      rw [slotFree_cons]
      exact ih hrest (by simpa only [slotFree_cons] using hfree)

end

/-! ## Loading and unloading (R72, R75) -/

theorem loadWord_code {code : Nat} (h : code < 256) (idx block : Nat) (handle : DWord) : (loadWord code idx block handle).toNat % 256 = code := by
  rw [loadWord, BitVec.toNat_ofNat]
  omega

section
variable (k : Kimg) (degraded : BitVec 1024) (part die handle : Nat)

theorem Kimg.length_code : (k.code degraded).2.length = k.entryCount := by
  unfold Kimg.code
  split <;> simp

theorem Kimg.record_handle : (k.record degraded part die handle).handle = BitVec.ofNat 64 handle := rfl
theorem Kimg.record_dlf : (k.record degraded part die handle).dlf = k.chosen.isNone := by rw [Kimg.record]

theorem Kimg.length_record_entries : (k.record degraded part die handle).entries.length = k.entryCount := by
  rw [Kimg.record, List.length_map, Kimg.length_code]

end

section
variable {s : State} {n : Nat} (hn : n < 8)
include hn

theorem State.loadAnswer_partN (r : BitVec 128) : (s.loadAnswer n r).partN n = { s.partN n with loadResult := r } :=
  State.partN_mapPart_self _ _ hn

end

@[simp] theorem State.placeCode_partN (s : State) (part : Nat) (i : ImageRec) (bytes : List Byte) (n : Nat) :
    (s.placeCode part i bytes).partN n = s.partN n := by
  rw [State.placeCode, State.partN_mapDie]
  rfl

section
variable {s : State} {part : BitVec 3} (hup : (s.partN part.toNat).state ≠ 0 ∧ (s.partN part.toNat).state ≠ 3)
include hup

section
variable {off len : Nat} {sig : Bool} (hwin : off + len ≤ (s.partN part.toNat).hostwin * 2 ^ 28)
include hwin

theorem execGrenzorLoad_refused {e : LoadError} (h : s.imageError part.toNat ⟨s.mem, (Region.host part.toNat).addr off, len⟩ sig = some e) :
    execGrenzorLoad part off len sig s = .next (s.loadAnswer part.toNat (loadWord e.1 e.2 0 0)) := by
  rw [execGrenzorLoad, if_neg (by omega)]
  simp only [h]

/-- An image that passes every check is loaded: its record, its slots and the answer. -/
theorem execGrenzorLoad_loaded {k : Kimg} (hk : k = ⟨s.mem, (Region.host part.toNat).addr off, len⟩) (h : s.imageError part.toNat k sig = none) :
    ∃ t, execGrenzorLoad part off len sig s = .next t ∧ (t.partN part.toNat).nextImage = (s.partN part.toNat).nextImage + 1 ∧
      (t.partN part.toNat).slots = (s.partN part.toNat).slots ++ s.slotPlaces part.toNat k ∧
      (t.partN part.toNat).loadResult.toNat % 256 = (if k.chosen.isSome then 0 else 1) ∧
      (t.partN part.toNat).images = (s.partN part.toNat).images ++
        [k.record s.degraded part.toNat (s.partN part.toNat).codeDie (s.partN part.toNat).nextImage] := by
  subst hk
  rw [execGrenzorLoad, if_neg (by omega)]
  simp only [h]
  refine ⟨_, rfl, ?_⟩
  rw [State.loadAnswer_partN part.isLt, State.partN_mapPart_self _ _ part.isLt, State.placeCode_partN]
  exact ⟨rfl, rfl, loadWord_code (by split <;> decide) .., rfl⟩

end

variable {handle : BitVec 64}

theorem execUnload_unknown (h : (s.partN part.toNat).imageOf handle = none) :
    execUnload part handle s = .next (s.loadAnswer part.toNat (loadWord 0x1A 0 0 handle)) := by
  rw [execUnload, if_neg (by omega)]
  simp only [h]

theorem execUnload_used (h : ((s.partN part.toNat).imageOf handle).isSome = true)
    (hl : ∃ l ∈ (s.partN part.toNat).hive, l.image = handle ∧ l.live = true) :
    execUnload part handle s = .next (s.loadAnswer part.toNat (loadWord 0x19 0 0 handle)) := by
  obtain ⟨i, hi⟩ := Option.isSome_iff_exists.mp h
  rw [execUnload, if_neg (by omega)]
  simp only [hi]
  exact if_pos (by simpa using hl)

theorem execUnload_free (h : ((s.partN part.toNat).imageOf handle).isSome = true)
    (hl : ∀ l ∈ (s.partN part.toNat).hive, l.image = handle → l.live = false) :
    ∃ t, execUnload part handle s = .next t ∧ t.mem = s.mem ∧ t.partN part.toNat = { s.partN part.toNat with
      images := (s.partN part.toNat).images.filter fun x => x.handle != handle, loadResult := loadWord 2 0 0 handle } := by
  obtain ⟨i, hi⟩ := Option.isSome_iff_exists.mp h
  rw [execUnload, if_neg (by omega)]
  simp only [hi]
  refine ⟨_, if_neg (by simpa using hl), ?_, ?_⟩
  · rw [State.loadAnswer, State.mapPart_mem, State.mapPart_mem, State.mapDie_mem]
  · rw [State.loadAnswer_partN part.isLt, State.partN_mapPart_self _ _ part.isLt, State.partN_mapDie]

end

end Sys2Proof.Machine
namespace Sys2Proof.Certificates
open Sys2Proof Sys2Proof.Machine

/-- Settles O49: VDCFG by its answers in their order, a refill by what settled devices gain, a load by its first failing check, its slots and its
record, an unload by whether a launch uses the image. -/
theorem devicesAndImages : Obligations.DevicesAndImages := by
  intro s part vd weight quantum priomax enable off len sig handle n p cfg code same some_ others up ranged
  have hn : n < 8 := part.isLt
  have hok (h : ranged) (he : enable ≤ 1) : ¬VdcfgBad vd weight quantum priomax enable := by
    obtain ⟨h1, h2, h3, h4⟩ := h
    omega
  have hcode {k : Nat} (h : execVdcfg part vd weight quantum priomax enable s = .next (s.vdcfgCode n k)) : code cfg k same := by
    have hpart := State.vdcfgCode_partN (s := s) hn k
    exact ⟨_, (exec_vdcfg ..).trans h, congrArg Partition.lastCode hpart, (congrArg Partition.devices hpart).trans rfl⟩
  refine ⟨fun hup hbad => hcode (execVdcfg_bad hup hbad), ?_, ?_, ?_, ?_, ?_, ?_, ?_, ?_, ?_, ?_⟩
  · rintro hup hr rfl rfl
    exact hcode (execVdcfg_noQuantum hup (hok hr (Nat.le_refl _)))
  · rintro hup hr rfl hl
    exact hcode (execVdcfg_busy hup (hok hr (Nat.zero_le _)) hl)
  · rintro hup hr rfl hq hno
    exact hcode (execVdcfg_enable_refused hup (hok hr (Nat.le_refl _)) hq hno)
  · rintro hup hr rfl hq hsome hnew
    obtain ⟨t, hstep, hlast, hdevices⟩ := execVdcfg_enable hup (hok hr (Nat.le_refl _)) hq hsome
    refine ⟨t, (exec_vdcfg ..).trans hstep, hlast, _, hdevices ▸ Partition.enable_new hnew, rfl, rfl, rfl, rfl, rfl, rfl⟩
  · rintro e hup hr rfl hq hsome hold
    obtain ⟨t, hstep, hlast, hdevices⟩ := execVdcfg_enable hup (hok hr (Nat.le_refl _)) hq hsome
    have hpending : { e with pending := some (weight, quantum, priomax, decide (quantum < 52)) } ∈ (t.partN n).devices := by
      rw [hdevices]
      exact Partition.enable_again hold
    exact ⟨t, (exec_vdcfg ..).trans hstep, hlast, hpending⟩
  · rintro hup hr rfl hl hd
    refine ⟨_, (exec_vdcfg ..).trans (execVdcfg_disable hup (hok hr (Nat.zero_le _)) hl hd), ?_⟩
    have hpart := (State.vdcfgCode_partN hn 0).trans
      (congrArg (fun q : Partition => { q with lastCode := 0 }) (s.partN_mapPart_self (fun q => q.disable vd) hn))
    exact ⟨congrArg Partition.lastCode hpart, congrArg Partition.devices hpart⟩
  · rintro hup hr rfl hl hd hno
    exact hcode (execVdcfg_disable_refused hup (hok hr (Nat.zero_le _)) hl hd hno)
  · intro hup hsettled
    obtain ⟨t, hstep, hmem, hcycle, hpart⟩ := execRefill_of_settled rfl hup hsettled
    refine ⟨t, (exec_refill ..).trans hstep, hmem, hcycle, congrArg Partition.refills hpart, (congrArg Partition.devices hpart).trans ?_⟩
    exact refillDevices_of_settled fun d hd => (hsettled d hd).1
  · intro hup hwin k
    refine ⟨fun e herr he => ?_, fun herr => ?_⟩
    · have hpart := State.loadAnswer_partN (s := s) hn (loadWord e.1 e.2 0 0)
      exact ⟨_, (exec_grenzorLoad ..).trans (execGrenzorLoad_refused hup hwin herr), State.mapPart_mem .., (congrArg Partition.images hpart).trans rfl,
        by rw [hpart]; exact loadWord_code he ..⟩
    · obtain ⟨t, hstep, hnext, hslots, hresult, himages⟩ := execGrenzorLoad_loaded hup hwin (k := k) rfl herr
      exact ⟨t, _, (exec_grenzorLoad ..).trans hstep, hnext, hslots, placePairs_pairs, fun l x r hplaced hfree => placePairs_free hplaced hfree,
        hresult, _, himages, k.record_handle .., k.length_record_entries .., k.record_dlf ..⟩
  · intro hup
    have hanswer (w : BitVec 128) := State.loadAnswer_partN (s := s) hn w
    cases himage : p.imageOf handle with
    | none =>
      refine ⟨_, (exec_unload ..).trans (execUnload_unknown hup himage), State.mapPart_mem .., fun _ => ?_, (nomatch ·), (nomatch ·)⟩
      rw [hanswer]
      exact ⟨loadWord_code (by decide) .., rfl⟩
    | some i =>
      have hsome : (p.imageOf handle).isSome = true := by rw [himage]; rfl
      by_cases hused : ∃ l ∈ p.hive, l.image = handle ∧ l.live = true
      · refine ⟨_, (exec_unload ..).trans (execUnload_used hup hsome hused), State.mapPart_mem .., (nomatch ·), fun _ _ => ?_, fun _ hfree => ?_⟩
        · rw [hanswer]
          exact ⟨loadWord_code (by decide) .., rfl⟩
        · obtain ⟨l, hl, himg, hlive⟩ := hused
          exact absurd (hfree l hl himg) (by simp [hlive])
      · obtain ⟨t, hstep, hmem, hpart⟩ := execUnload_free hup hsome fun l hl himg => by
          by_contra hlive
          exact hused ⟨l, hl, himg, by simpa using hlive⟩
        refine ⟨t, (exec_unload ..).trans hstep, hmem, (nomatch ·), fun _ h => absurd h hused, fun _ _ => ?_⟩
        rw [hpart]
        exact ⟨loadWord_code (by decide) .., rfl⟩

end Sys2Proof.Certificates
end

section
/-!
SUPPORT. A completion flag that runs from one page on into another, which migrates and whose hold queue is full (R109, R169), and the statement
about dispatch and completion.
-/
namespace Sys2Proof.Machine
open Sys2Proof

/-! ## A completion flag across two pages -/

/-- A launch of one task, which has ended; its completion flag begins two bytes before the end of the first page. -/
def straddledLaunch : Launch :=
  { handle := 1, record := BitVec.ofNat 512 (0xFFE * 2 ^ 256), device := 0, prio := 0, next := 1, ended := 1, faulted := 0, fault := none, core := 0,
    byTask := none, groups := [], gang := false, placed := false, barDone := [] }

/-- The module of `straddled` with this launch alone in the Hive. -/
def straddledHive : State := (straddled Port.reset).mapPart 0 fun p => { p with hive := [straddledLaunch] }

theorem straddledHive_hive : (straddledHive.partN 0).hive = [straddledLaunch] := congrArg Partition.hive (State.partN_mapPart_self _ _ (by decide))

theorem straddledHive_mem : straddledHive.mem = (straddled Port.reset).mem := State.mapPart_mem ..

theorem straddledHive_kept : (straddledHive.coreN straddledLaunch.core).kept = [] := by decide +kernel

theorem straddledHive_room : (straddledHive.coreN straddledLaunch.core).queue.length < Config.coreQueueRecords := by decide +kernel

/-- The flag lies in this module, so its increment asks no peer. -/
theorem straddledHive_spot : straddledHive.spot 0 (straddledLaunch.cflag.toNat / 2 ^ 57 % 8) (straddledLaunch.cflag.toNat % 2 ^ 57) 4 true true =
    .here straddledWord := by decide +kernel

theorem straddledHive_flagAway : straddledHive.flagAway 0 straddledLaunch = false := by decide +kernel

/-- The page in which the flag begins does not migrate. -/
theorem straddledHive_migOf :
    (straddledHive.dieRec (straddledLaunch.cflag.toNat / 2 ^ 57 % 8)).migOf 0 (straddledLaunch.cflag.toNat % 2 ^ 57) = none := by decide +kernel

/-- The completion increments the flag, which abandons the migration of the second page and clears MIG in its leaf entry. -/
theorem migByte_after_completion : byteAfter straddledHive (.swarmComplete 0 1) migByte = some 0xF8 := by decide +kernel

end Sys2Proof.Machine
namespace Sys2Proof.Certificates
open Sys2Proof Sys2Proof.Machine

/-- Refutes O50: the record of the launch need not be one that R97 accepts, so its completion flag need not lie in one page. One that runs on into a
page that migrates and whose hold queue is full ends that migration, which clears MIG in the page's leaf entry: a byte of memory beside the flag. -/
theorem not_dispatchAndCompletion : ¬ Obligations.DispatchAndCompletion := by
  intro h
  obtain ⟨-, hcompletes, -⟩ := h straddledHive 0 [] (Partition.down 0) ⟨0, 0, 0, 0, false, 0, [], none⟩ straddledLaunch
    ⟨0, 0, false, false, 0, 0, 0, 0, 0, [], false, 0, 0, [], [], []⟩ ⟨0, 0, 0, []⟩ 0 0
  obtain ⟨-, hhere⟩ := hcompletes 0 _ [] rfl straddledHive_hive (by decide +kernel) (by decide) straddledHive_kept
    (fun _ hy => nomatch hy) (by decide) straddledHive_room (fun _ hq => nomatch hq) rfl
  obtain ⟨t, hstep, -, -, -, hflag⟩ := hhere straddledHive_flagAway
  obtain ⟨-, hother⟩ := hflag 0xFFE (by decide +kernel) (by decide +kernel) straddledHive_spot (by rw [straddledHive_mem]; exact straddled_wf _)
    fun m hm => nomatch straddledHive_migOf.symm.trans hm
  have hafter := (byteAfter_of_next hstep migByte).symm.trans migByte_after_completion
  rw [hother migByte (.inr (by decide)), straddledHive_mem, read_straddled_migByte] at hafter
  exact absurd hafter (by decide)

end Sys2Proof.Certificates
end

section
/-!
SUPPORT. A bundle of one syllable that is no prefix and brings no trap of its own: how it is decoded, judged and issued (R123, R126, R140), and the
statement about the step that issues it.
-/
namespace Sys2Proof.Machine
open Sys2Proof

/-! ## Bundles that no prefix heads (R243 to R245) -/

section
variable {w : DWord} {i : Instr} (hw : decodeLoose w = some i) (hrep : ∀ h cnt str st, i ≠ .rep h cnt str st)
include hw hrep

/-- Without REP there is nothing to step. -/
theorem stepped_single (c : Ctx) (k : Nat) : stepped c k [w] = [w] := by
  simp only [stepped, hw]
  split
  next h => exact absurd (Option.some.inj h) (hrep _ _ _ _)
  next => rfl

/-- Without REP no repeats begin. -/
theorem State.openRep_single (s : State) : s.openRep [w] = s := by
  unfold State.openRep
  split
  next h =>
    obtain ⟨rfl, -⟩ := List.cons.inj h
    split
    next hx => exact absurd (Option.some.inj (hw.symm.trans hx)) (hrep _ _ _ _)
    next => rfl
  next => rfl

/-- A syllable without a flaw is its whole bundle. -/
theorem Ctx.bundleOf_single (c : Ctx) (jo : Nat) {lgdef : BitVec 8} (hflaws : bundleFlaws lgdef [w] = []) :
    c.bundleOf jo lgdef [w] = { flaws := [], raw := [w], syls := [{ pos := 0, word := w, instr := i }], ext := extOf [w] } := by
  have hstep : stepFlaws [w] [w] = [] := by simp [stepFlaws]
  simp [Ctx.bundleOf, hflaws, stepped_single hw hrep, hstep, sylsFrom, hw]

end

/-! ## One syllable judged (R124, R140) -/

section
variable {i : Instr} (htrap : ∀ h imm, i ≠ .trap h imm) (hsysc : ∀ h imm, i ≠ .sysc h imm)
include htrap hsysc

/-- Only TRAP and SYSC are tried in another way than they run. -/
theorem State.probe_eq_exec (s : State) : s.probe i = exec i s := by
  unfold State.probe
  split
  next => exact absurd rfl (htrap _ _)
  next => exact absurd rfl (hsysc _ _)
  next => rfl

/-- Only TRAP and SYSC meet the faults of the next bundle. -/
theorem State.endBundle_eq {s t : State} {ext : Option Word} {pos : Nat} {w : DWord}
    (ht : exec i (s.atSyl ext ⟨pos, w, i⟩) = .next t) : s.endBundle ext ⟨pos, w, i⟩ = t := by
  have heff : s.effects ext [⟨pos, w, i⟩] = t := by simp only [State.effects, ht]
  unfold State.endBundle
  simp only [heff]
  split
  next => exact absurd rfl (htrap _ _)
  next => exact absurd rfl (hsysc _ _)
  next => rfl

/-- A syllable that shows no fault and no wait when it is tried leaves the judgement empty. -/
theorem State.judgeBundle_single {s t0 : State} {w : DWord} {raw : List DWord} {ext : Option Word} (hopened : s.issue.opened = [])
    (h0 : exec i (s.atSyl none ⟨0, w, i⟩) = .next t0) (htrapped : t0.issue.trapped = none) (hstalled : t0.issue.stalled = false) :
    s.judgeBundle ⟨[], raw, [⟨0, w, i⟩], ext⟩ = ⟨t0.issue.opened, [], [], none⟩ := by
  have hfirst : { s.atSyl ext ⟨0, w, i⟩ with issue := { (s.atSyl ext ⟨0, w, i⟩).issue with opened := [] } } = s.atSyl none ⟨0, w, i⟩ := by
    simp [State.atSyl, hopened]
  simp [State.judgeBundle, State.judge, hfirst, State.probe_eq_exec htrap hsysc, h0, htrapped, hstalled]

/-- It issues, and its bundle closes, whether it is one that ends its bundle or not. -/
theorem State.issueJudged_single {s t0 t : State} {w : DWord} {raw : List DWord} {ext : Option Word} (hopened : s.issue.opened = [])
    (h0 : exec i (s.atSyl none ⟨0, w, i⟩) = .next t0) (htrapped : t0.issue.trapped = none) (hstalled : t0.issue.stalled = false)
    (ht : exec i ({ s with issue := { s.issue with passed := true } }.atSyl none ⟨0, w, i⟩) = .next t) :
    s.issueJudged ⟨[], raw, [⟨0, w, i⟩], ext⟩ [] = .next t.closeBundle := by
  have ht' : exec i ({ s with issue := { s.issue with passed := true } }.atSyl ext ⟨0, w, i⟩) = .next t := ht
  have hjudged := State.judgeBundle_single htrap hsysc (raw := raw) (ext := ext) hopened h0 htrapped hstalled
  unfold State.issueJudged
  by_cases hends : endsBundle i = true
  · have hlast := State.endBundle_eq htrap hsysc ht'
    simp [hjudged, firstTrap, State.afterEffects, State.effects, hends, hlast]
  · simp [hjudged, firstTrap, State.afterEffects, State.effects, hends, ht']

end

/-! ## The step around it (R92, R123, R126) -/

section
variable {i : Instr} (htrap : ∀ h imm, i ≠ .trap h imm) (hsysc : ∀ h imm, i ≠ .sysc h imm) (hrep : ∀ h cnt str st, i ≠ .rep h cnt str st)
include htrap hsysc hrep

/-- A bundle of one syllable that has no late trap and that no floor holds issues. -/
theorem State.issueBundle_single {s t0 t : State} {w : DWord} {jo : Nat} {lgdef : BitVec 8} (hw : decodeLoose w = some i)
    (hlate : s.cur.late = []) (hflaws : bundleFlaws lgdef [w] = [])
    (h0 : exec i ((s.openBundle jo lgdef 1).atSyl none ⟨0, w, i⟩) = .next t0) (htrapped : t0.issue.trapped = none)
    (hstalled : t0.issue.stalled = false) (hfloor : (s.openBundle jo lgdef 1).floored jo lgdef [i] = false)
    (ht : exec i ({ s.openBundle jo lgdef 1 with issue := { (s.openBundle jo lgdef 1).issue with passed := true } }.atSyl none ⟨0, w, i⟩) = .next t) :
    s.issueBundle jo lgdef [w] = .next t.closeBundle := by
  have hissue := State.issueJudged_single htrap hsysc (raw := [w]) (ext := extOf [w]) rfl h0 htrapped hstalled ht
  unfold State.issueBundle
  simp only [Ctx.bundleOf_single hw hrep s.cur jo hflaws, hlate, List.map_nil, List.map_cons, List.length_singleton, hfloor,
    Bool.false_eq_true, if_false, hissue]

end

/-- A bundle with no delay to serve issues at its earliest cycle (R123): e0 stands there, e has kept its code, p is its decision cycle, n its
issue cycle. -/
theorem State.issueNext_of_undelayed {s e0 e p n : State} {w : DWord} {jo : Nat} {lgdef : BitVec 8} {is : List Instr}
    (hwait : s.cur.wait = none) (hdelay : s.cur.delay = none) (he0 : s.advance s.cur.earliestCycle = e0)
    (hfetch : e0.fetch e0.cur.pc = .ok [w]) (he : (e0.keepCode 1).openRep [w] = e) (hundelayed : e.cur.delay = none)
    (hstall : e.cur.stallOf [w] = 0) (hp : e.advance e.cur.clk = p) (hjo : joOf p.cur.sys.jo = jo)
    (hlgdef : p.cur.sys.lgdef.setWidth 8 = lgdef) (his : instrsOf (stepped p.cur jo [w]) = is) (hdelays : p.delays jo lgdef is = 0)
    (hn : (p.openBanks jo lgdef is e.cur.clk).advance e.cur.clk = n) :
    s.issueNext = (n.withCur { n.cur with delay := none, wait := n.cur.wait.map (fun x => { x with
      since := n.cur.clk, jo := jo, lgdef := lgdef }) }).issueBundle jo lgdef [w] := by
  unfold State.issueNext
  simp only [hwait, hdelay, he0, hfetch, List.length_singleton, he, hundelayed, hstall, hp, hjo, hlgdef, his, hdelays, hn,
    Option.isSome_none, Bool.false_eq_true, if_false, Nat.add_zero, ne_eq, not_true_eq_false, false_and]

/-- With an empty schedule the context in view moves, where it issues on its tile and neither stops nor yields (R107, R112, R123). -/
theorem step_of_issuer {s t : State} (hsched : s.sched = []) (hpower : s.firefly.power = .on) (hissuer : s.issuerOf s.cur.tile = some s.cur)
    (hstop : s.stopDue = false) (hyield : s.yieldDue = false) (hnext : s.issueNext = .next t) : step s = .next (t.chargeSince s.cur) := by
  have htile : step s = s.moveTile s.cur.tile := by simp [step, State.moveNext, hsched, hpower]
  rw [htile]
  simp [State.moveTile, hissuer, State.moveIssuer, hstop, hyield, hnext]

end Sys2Proof.Machine
namespace Sys2Proof.Certificates
open Sys2Proof Sys2Proof.Machine

/-- Settles O7: the context in view is the one that moves, its bundle issues at its earliest cycle, and the bundle is the one syllable. -/
theorem stepRunsTheSyllableAtThePc : Obligations.StepRunsTheSyllableAtThePc := by
  unfold Obligations.StepRunsTheSyllableAtThePc
  intro s t0 t w i hsched hpower hissuer hstop hyield hwait hdelay e0 e p is n go y q hfetch hundelayed hstall hdelays hlate _ hflaws hw hi
    h0 htrapped hstalled hfloor ht
  have htrap : ∀ h imm, i ≠ .trap h imm := by rintro h imm rfl; exact hi
  have hsysc : ∀ h imm, i ≠ .sysc h imm := by rintro h imm rfl; exact hi
  have hrep : ∀ h cnt str st, i ≠ .rep h cnt str st := by rintro h cnt str st rfl; exact hi
  have hissue := State.issueNext_of_undelayed (e0 := e0) (e := e) (p := p) (n := n) (is := is) hwait hdelay rfl hfetch
    (State.openRep_single hw hrep _) hundelayed hstall rfl rfl rfl rfl hdelays rfl
  clear_value n is p e e0
  refine step_of_issuer hsched hpower hissuer hstop hyield (hissue.trans ?_)
  exact State.issueBundle_single htrap hsysc hrep hw hlate hflaws h0 htrapped hstalled hfloor ht

end Sys2Proof.Certificates
end

section
/-!
SUPPORT. What the passing of time leaves of a context: its number, its tile, whether it runs, and where it stands in its program. Accesses
perform, results land and commands start, and none of them moves a context (R112, R123, R134, R155).
-/
namespace Sys2Proof.Machine
open Sys2Proof

/-- Where a context stands. -/
structure Standing where
  uid       : Nat
  tile      : Nat
  run       : Run
  pc        : DWord
  loops     : List LoopEntry
  lastIssue : Nat

def Ctx.standing (c : Ctx) : Standing := ⟨c.uid, c.tile, c.run, c.pc, c.loops, c.lastIssue⟩

/-- Where the context in view stands, and the others in their order. -/
def State.standings (s : State) : Standing × List Standing := (s.cur.standing, s.others.map Ctx.standing)

theorem State.standings_withCur {s : State} {c : Ctx} (h : c.standing = s.cur.standing) : (s.withCur c).standings = s.standings :=
  congrArg (·, s.others.map Ctx.standing) h

/-! ## Landing (R124, R137, R311) -/

theorem Ctx.setS_standing (c : Ctx) (r : SRegNo) (x : SReg) : (c.setS r x).standing = c.standing := by unfold Ctx.setS; split <;> rfl

theorem Ctx.setP_standing (c : Ctx) (p : PNum) (x : LaneMask) : (c.setP p x).standing = c.standing := by unfold Ctx.setP; split <;> rfl

theorem Ctx.setV_standing (c : Ctx) (v : VNum) (x : VReg) : (c.setV v x).standing = c.standing := rfl

theorem Ctx.markStale_standing (c : Ctx) (v : VNum) : (c.markStale v).standing = c.standing := by
  unfold Ctx.markStale
  split <;> rfl

theorem Ctx.standing_sys (c : Ctx) (x : SysRegs) (p : Option Parked) : { c with sys := x, parked := p }.standing = c.standing := rfl

theorem Ctx.standing_stage (c : Ctx) (x y : Vector (Word × Bool) 32) : { c with stage0 := x, stage1 := y }.standing = c.standing := rfl

theorem Ctx.standing_accesses (c : Ctx) (l : List Access) : { c with accesses := l }.standing = c.standing := rfl

theorem Ctx.standing_waiting (c : Ctx) (l : List Command) : { c with waiting := l }.standing = c.standing := rfl

theorem Ctx.standing_wait (c : Ctx) (n : Nat) (w : Option Wait) : { c with earliest := n, wait := w }.standing = c.standing := rfl

theorem Ctx.landOne_standing (c : Ctx) (w : Landing) : (c.landOne w).standing = c.standing := by
  cases w with
  | scalar => exact c.setS_standing _ _
  | pred => exact c.setP_standing _ _
  | vector v | scale v =>
    unfold Ctx.landOne
    exact (Ctx.setV_standing _ _ _).trans (c.markStale_standing v)
  | quires | accs => rfl
  | flags | sysreg | popped | drained | tsm => exact c.standing_sys _ _
  | push | shift => exact c.standing_stage _ _

theorem Ctx.invert_standing (c : Ctx) (q : DWord) : (c.invert q).standing = c.standing := by
  unfold Ctx.invert
  dsimp only
  split <;> rfl

@[simp] theorem State.landWith_standings (s : State) (w : Landing) (owed : Option DWord) : (s.landWith w owed).1.standings = s.standings := by
  have hland : (s.withCur (s.cur.landOne w)).standings = s.standings := State.standings_withCur (s.cur.landOne_standing w)
  unfold State.landWith
  dsimp only
  split <;> exact hland

@[simp] theorem State.endLanding_standings (s : State) (owed : Option DWord) : (s.endLanding owed).standings = s.standings := by
  cases owed with
  | none => rfl
  | some q => exact State.standings_withCur (s.cur.invert_standing q)

@[simp] theorem State.land_standings (s : State) (w : Landing) : (s.land w).standings = s.standings := by simp [State.land]

@[simp] theorem State.landList_standings (t : Nat) : ∀ (l : List Flight) (s : State) (k : Nat) (owed : Option DWord),
    (s.landList t k owed l).standings = s.standings
  | [], s, _, owed => (State.standings_withCur rfl).trans (s.endLanding_standings owed)
  | f :: l, s, k, owed => by
    unfold State.landList
    split
    · rw [State.landList_standings t l, State.landWith_standings]
      split
      · rfl
      · exact s.endLanding_standings owed
    · exact (State.standings_withCur rfl).trans (s.endLanding_standings owed)

@[simp] theorem State.landTo_standings (s : State) (t : Nat) : (s.landTo t).standings = s.standings := State.landList_standings ..

/-! ## What an access brings (R132, R184, R339) -/

theorem Ctx.deliver_standing (c : Ctx) (seq : Nat) (k : Sink) (data : List (Nat × Nat)) : (c.deliver seq k data).standing = c.standing := by
  cases k with
  | scalar r bits signed land => unfold Ctx.deliver; dsimp only; split <;> rfl
  | pair r land => unfold Ctx.deliver; dsimp only; split <;> rfl
  | vector v lgm mask land => unfold Ctx.deliver; dsimp only; split <;> rfl
  | discard | quires | accs | queue | record | code => rfl

theorem Ctx.batchDone_standing (c : Ctx) (n : Nat) : (c.batchDone n).standing = c.standing := by unfold Ctx.batchDone; split <;> rfl

theorem Ctx.partDone_standing (c : Ctx) (num : Nat) : (c.partDone num).standing = c.standing := by
  unfold Ctx.partDone
  dsimp only
  split
  · split
    · exact Ctx.batchDone_standing _ _
    · rfl
  · rfl

theorem Ctx.deny_standing (c : Ctx) (cmd : Nat) (ptr : DWord) : (c.deny cmd ptr).standing = c.standing := by
  unfold Ctx.deny Ctx.fail
  dsimp only
  split <;> rfl

theorem Ctx.unshadow_standing (c : Ctx) (keep : Option Nat) (ws : List Nat) : (c.unshadow keep ws).standing = c.standing := by
  unfold Ctx.unshadow
  split <;> rfl

theorem State.bring_standings (s : State) (a : Access) {f : Ctx → Ctx} (hf : ∀ c, (f c).standing = c.standing) :
    (s.bring a f).standings = s.standings := by
  unfold State.bring
  split
  · exact State.standings_withCur (hf _)
  · refine (foldl_keeps State.standings (fun t (x : Flight) => t.land_standings x.what) _ _).trans (State.standings_withCur ?_)
    split
    · split <;> exact hf { s.cur with flight := [] }
    · exact hf { s.cur with flight := [] }

/-! ## Sites -/

@[simp] theorem State.siteWrite_standings (s : State) (skip : List Nat) (site : Site) (off size value : Nat) :
    (s.siteWrite skip site off size value).standings = s.standings := by cases site <;> rfl

@[simp] theorem State.siteAtomVia_standings (s : State) (shadow : List (Nat × Byte)) (skip : List Nat) (site : Site) (a : Atom) :
    (s.siteAtomVia shadow skip site a).1.standings = s.standings := by cases a <;> exact State.siteWrite_standings ..

theorem State.foldl_siteWrite_standings (s : State) (skip : List Nat) (site : Site) (parts : List Part) :
    (parts.foldl (fun t p => t.siteWrite skip site p.off p.size p.value) s).standings = s.standings :=
  foldl_keeps State.standings (fun t (p : Part) => t.siteWrite_standings skip site p.off p.size p.value) _ _

theorem State.fillLine_standings (s : State) (a : Access) (cmd line off : Nat) (ptr : DWord) :
    (s.fillLine a cmd line off ptr).standings = s.standings := by
  unfold State.fillLine
  split
  · exact State.standings_withCur ((Ctx.partDone_standing _ _).trans (Ctx.deny_standing ..))
  · exact State.standings_withCur rfl

theorem State.takeRun_standings (s : State) (a : Access) (cmd off size : Nat) (ptr : DWord) (rest : List (Site × Nat × Nat × DWord)) :
    (s.takeRun a cmd off size ptr rest).standings = s.standings := by
  unfold State.takeRun
  refine State.standings_withCur ?_
  split <;> split <;> rfl

theorem State.putRun_standings (s : State) (a : Access) (cmd : Nat) (p : Put) (rest : List Put) :
    (s.putRun a cmd p rest).standings = s.standings := by
  unfold State.putRun
  dsimp only
  refine (State.standings_withCur ?_).trans ?_
  · split
    · exact Ctx.partDone_standing _ _
    · rfl
  · split
    · exact State.standings_withCur (s.cur.deny_standing cmd p.ptr)
    · split
      · exact State.siteAtomVia_standings ..
      · exact State.siteWrite_standings ..

theorem State.serveArrival_standings (s : State) (site : Site) (cycle req : Nat) (ask : Ask) :
    (s.serveArrival site cycle req ask).standings = s.standings := by
  unfold State.serveArrival
  split
  · rfl
  · split
    · rfl
    · exact State.foldl_siteWrite_standings ..
    · exact State.siteAtomVia_standings ..
    · rfl

/-! ## Accesses (R155 to R157) -/

@[simp] theorem State.unshadow_standings (s : State) (own : Option Nat) (ws : List Nat) : (s.unshadow own ws).standings = s.standings := by
  unfold State.unshadow
  split
  · rfl
  · simp [State.standings, Ctx.unshadow_standing, Function.comp_def]

theorem State.perform_standings (s : State) (a : Access) : (s.perform a).standings = s.standings := by
  unfold State.perform
  split
  · exact s.bring_standings a fun c => c.deliver_standing ..
  · exact State.foldl_siteWrite_standings ..
  · exact (State.bring_standings _ a fun c => c.deliver_standing ..).trans rfl
  · refine s.bring_standings a fun c => ?_
    dsimp only
    split <;> split <;> rfl
  · exact State.fillLine_standings ..
  · exact State.standings_withCur (Ctx.partDone_standing _ _)
  · exact State.serveArrival_standings ..
  · exact State.takeRun_standings ..
  · exact State.putRun_standings ..
  · split <;> rfl

theorem State.performHere_standings (s : State) (a : Access) : (s.performHere a).standings = s.standings := by
  unfold State.performHere
  split
  · exact State.standings_withCur rfl
  · dsimp only
    split <;> rw [State.perform_standings]
    · rw [State.unshadow_standings]; rfl
    · exact (State.unshadow_standings ..).trans rfl

/-! ## Looking at another context and back -/

/-- Time has passed between two states: the context in view stands where it stood, and so do the others, where each context has a number of
its own. -/
def State.Passes (s t : State) : Prop :=
  t.cur.standing = s.cur.standing ∧
    ((s.ctxs.map Ctx.uid).Nodup → (t.others.map Ctx.standing).Perm (s.others.map Ctx.standing))

theorem State.uids_eq (s : State) : s.ctxs.map Ctx.uid = (s.cur.standing :: s.others.map Ctx.standing).map Standing.uid := by
  simp [State.ctxs, Ctx.standing]

theorem State.Passes.of_standings {s t : State} (h : t.standings = s.standings) : s.Passes t :=
  ⟨congrArg Prod.fst h, fun _ => .of_eq (congrArg Prod.snd h)⟩

theorem State.Passes.refl (s : State) : s.Passes s := .of_standings rfl

/-- Numbers stay unique. -/
theorem State.Passes.nodup {s t : State} (h : s.Passes t) (hs : (s.ctxs.map Ctx.uid).Nodup) : (t.ctxs.map Ctx.uid).Nodup := by
  have hperm : (t.ctxs.map Ctx.uid).Perm (s.ctxs.map Ctx.uid) := by
    rw [State.uids_eq, State.uids_eq, h.1]
    exact ((h.2 hs).cons _).map _
  exact hperm.nodup_iff.mpr hs

theorem State.Passes.trans {s t u : State} (h : s.Passes t) (k : t.Passes u) : s.Passes u :=
  ⟨k.1.trans h.1, fun hs => (k.2 (h.nodup hs)).trans (h.2 hs)⟩

/-- A member of a list with numbers of their own, and the rest. -/
theorem perm_cons_filter_uid {c : Ctx} : ∀ {l : List Ctx}, (l.map Ctx.uid).Nodup → c ∈ l → l.Perm (c :: l.filter (fun d => d.uid != c.uid))
  | d :: l, hl, hc => by
    obtain ⟨hd, hl⟩ := List.nodup_cons.mp hl
    rw [List.filter_cons]
    rcases List.mem_cons.mp hc with rfl | hc
    · have hrest : l.filter (fun d => d.uid != c.uid) = l :=
        List.filter_eq_self.mpr fun e he => by
          have hne : e.uid ≠ c.uid := fun h => hd (h ▸ List.mem_map_of_mem he)
          simpa using hne
      simp [hrest]
    · have hne : d.uid ≠ c.uid := fun h => hd (h ▸ List.mem_map_of_mem hc)
      rw [if_pos (by simpa using hne)]
      exact ((perm_cons_filter_uid hl hc).cons d).trans (.swap _ _ _)

/-- What happens while the model looks at another context, and leaves every context where it stands, is as time that passes. -/
theorem State.passes_visit (s : State) (uid : Nat) {f : State → State} (hf : ∀ t, (f t).standings = t.standings) :
    s.Passes ((f (s.lookAt uid)).lookAt s.cur.uid) := by
  have hstay (h : s.lookAt uid = s) : s.Passes ((f (s.lookAt uid)).lookAt s.cur.uid) := by
    have huid : (f s).cur.uid = s.cur.uid := congrArg (Standing.uid ∘ Prod.fst) (hf s)
    rw [h, State.lookAt, if_pos huid]
    exact .of_standings (hf s)
  by_cases hcur : s.cur.uid = uid
  · exact hstay (by rw [State.lookAt, if_pos hcur])
  cases hfind : s.others.find? (fun c => c.uid == uid) with
  | none => exact hstay (by rw [State.lookAt, if_neg hcur]; simp only [hfind])
  | some c =>
    have huid : c.uid = uid := by simpa using List.find?_some hfind
    have hlook : s.lookAt uid = { s with cur := c, others := s.cur :: s.others.filter (fun d => d.uid != uid) } := by
      rw [State.lookAt, if_neg hcur]; simp only [hfind]
    have hu := hf (s.lookAt uid)
    revert hu
    generalize f (s.lookAt uid) = u
    rw [hlook]
    intro hu
    obtain ⟨hcuru, hothers⟩ := Prod.mk.inj hu
    cases hl : u.others with
    | nil => rw [hl] at hothers; exact absurd hothers (by simp)
    | cons d l =>
      rw [hl] at hothers
      obtain ⟨hd, hrest⟩ := List.cons.inj hothers
      have hduid : d.uid = s.cur.uid := congrArg Standing.uid hd
      have huuid : u.cur.uid = c.uid := congrArg Standing.uid hcuru
      have hback : u.lookAt s.cur.uid = { u with cur := d, others := u.cur :: (d :: l).filter (fun e => e.uid != s.cur.uid) } := by
        rw [State.lookAt, if_neg (by rw [huuid, huid]; exact Ne.symm hcur), hl]
        simp [hduid]
      rw [hback]
      refine ⟨hd, fun hs => ?_⟩
      obtain ⟨hnot, hnodup⟩ := List.nodup_cons.mp hs
      have hkeep : l.filter (fun e => e.uid != s.cur.uid) = l :=
        List.filter_eq_self.mpr fun e he => by
          have hmem : e.standing ∈ (s.others.filter (fun d => d.uid != uid)).map Ctx.standing := hrest ▸ List.mem_map_of_mem he
          obtain ⟨e', he', heq⟩ := List.mem_map.mp hmem
          have hne : e.uid ≠ s.cur.uid := fun h =>
            hnot (List.mem_map.mpr ⟨e', List.mem_of_mem_filter he', (congrArg Standing.uid heq).trans h⟩)
          simpa using hne
      have hperm := (perm_cons_filter_uid hnodup (List.mem_of_find?_eq_some hfind)).map Ctx.standing
      rw [huid] at hperm
      simp only [List.filter_cons, hduid, bne_self_eq_false, Bool.false_eq_true, if_false, hkeep, List.map_cons]
      rw [show u.cur.standing = c.standing from hcuru, show l.map Ctx.standing = _ from hrest]
      exact hperm.symm

/-! ## The clock runs on (R123, R134, R155) -/

theorem State.performDue_passes (cl m : Nat) : ∀ (n : Nat) (s : State), s.Passes (s.performDue cl m n)
  | 0, s => .refl s
  | n + 1, s => by
    unfold State.performDue
    split
    · exact .refl s
    · exact (s.passes_visit _ fun t => t.performHere_standings _).trans (State.performDue_passes cl m n _)

theorem State.passCluster_passes (s : State) (cl m : Nat) : s.Passes (s.passCluster cl m) := State.performDue_passes ..

theorem State.performTo_passes (s : State) (t : Nat) : s.Passes (s.performTo t) :=
  (s.passCluster_passes _ _).trans (.of_standings (State.standings_withCur (Ctx.standing_accesses _ _)))

theorem State.standings_clock (s : State) (t m : Nat) : { s with cur := { s.cur with clk := t }, cycle := m }.standings = s.standings := rfl

theorem State.runTo_passes (s : State) (t : Nat) : s.Passes (s.runTo t) :=
  (s.performTo_passes t).trans (.of_standings ((State.standings_clock _ _ _).trans (State.landTo_standings _ t)))

/-! ## Engine commands (R134 to R136) -/

theorem Ctx.foldl_standing {α : Type} {f : Ctx → α → Ctx} (h : ∀ c a, (f c a).standing = c.standing) (l : List α) (c : Ctx) :
    (l.foldl f c).standing = c.standing := foldl_keeps Ctx.standing h l c

theorem Ctx.stampAccess_standing (c : Ctx) (m : Nat) (site : Site) (act : Act) : (c.stampAccess m site act).standing = c.standing := rfl

theorem Ctx.mapCommand_standing (c : Ctx) (num : Nat) (f : Command → Command) : (c.mapCommand num f).standing = c.standing := rfl

theorem Ctx.enqueue_standing (c : Ctx) (k : Command) : (c.enqueue k).standing = c.standing := by
  unfold Ctx.enqueue
  refine Ctx.foldl_standing ?_ _ _
  exact fun _ _ => rfl

theorem State.readOwn_standings (s : State) (k : Command) (m : Nat) : (s.readOwn k m).standings = s.standings := by
  unfold State.readOwn
  dsimp only
  split
  · split
    · exact State.standings_withCur (Ctx.mapCommand_standing ..)
    · exact State.standings_withCur ((Ctx.stampAccess_standing ..).trans ((Ctx.mapCommand_standing ..).trans (Ctx.mapCommand_standing ..)))
  · refine State.standings_withCur ((Ctx.foldl_standing ?_ _ _).trans ((Ctx.mapCommand_standing ..).trans (Ctx.mapCommand_standing ..)))
    exact fun c x => c.stampAccess_standing ..

theorem State.enqueue_standings (s : State) (k : Command) (m : Nat) : (s.enqueue k m).standings = s.standings := by
  have hqueued : (s.withCur (s.cur.enqueue k)).standings = s.standings := State.standings_withCur (s.cur.enqueue_standing k)
  unfold State.enqueue
  dsimp only
  split
  · exact (State.readOwn_standings ..).trans hqueued
  · exact hqueued

theorem Ctx.discard_standing (c : Ctx) (k : Command) (why : Nat) (q : QNum) : (c.discard k why q).standing = c.standing := by
  unfold Ctx.discard
  refine (Ctx.batchDone_standing _ k.batch).trans ?_
  split <;> rfl

theorem State.startCommand_standings (s : State) (k : Command) : (s.startCommand k).standings = s.standings := by
  unfold State.startCommand
  dsimp only
  split
  · exact State.standings_withCur (Ctx.discard_standing ..)
  · split
    · exact State.standings_withCur (Ctx.discard_standing ..)
    · exact State.enqueue_standings ..

theorem State.enter_standings : ∀ (l rest : List Command) (s : State), (s.enter l rest).standings = s.standings
  | [], _, _ => rfl
  | k :: l, rest, s => by
    unfold State.enter
    split
    · exact (State.enter_standings l rest _).trans (State.enqueue_standings ..)
    · exact State.enter_standings l _ s

theorem State.admitHandler_standings (s : State) : s.admitHandler.standings = s.standings := by
  unfold State.admitHandler
  split
  · exact State.enter_standings ..
  · rfl

theorem State.startDue_passes (t : Nat) : ∀ (n : Nat) (s : State), s.Passes (s.startDue t n)
  | 0, s => .refl s
  | n + 1, s => by
    unfold State.startDue
    split
    · exact .refl s
    next k _ =>
      split
      · dsimp only
        split
        · exact s.performTo_passes k.start
        · refine (s.performTo_passes k.start).trans (.trans (.of_standings ?_) (State.startDue_passes t n _))
          exact (State.startCommand_standings _ k).trans (State.standings_withCur (Ctx.standing_waiting _ _))
      · exact .refl s

theorem State.advance_passes (s : State) (t : Nat) : s.Passes (s.advance t) := by
  have hstart : s.Passes (if s.cur.handling then s else s.startDue t s.cur.waiting.length) := by
    split
    · exact .refl s
    · exact s.startDue_passes t _
  exact hstart.trans ((State.runTo_passes _ t).trans (.of_standings (State.admitHandler_standings _)))

/-! ## TCLK stops (R107, R112 to R114) -/

theorem State.stop_standings (s : State) : s.stop.standings = s.standings :=
  (State.standings_withCur rfl).trans ((State.landList_standings ..).trans (State.standings_withCur rfl))

theorem State.disarm_standings (s : State) (tile : Nat) : (s.disarm tile).standings = s.standings := by
  unfold State.disarm
  dsimp only
  split <;> rfl

theorem State.openRep_standings (s : State) (raw : List DWord) : (s.openRep raw).standings = s.standings := by
  unfold State.openRep
  split
  · split <;> rfl
  · rfl

theorem State.noteNext_standings (s : State) (d : Nat) : (s.noteNext d).standings = s.standings := by
  unfold State.noteNext
  split
  · rfl
  · exact (State.openRep_standings _ _).trans (State.standings_withCur rfl)
  · rfl

theorem State.pause_passes (s : State) : s.Passes s.pause := by
  have hstopped := (s.advance s.cur.stopCycle).stop_standings
  have hdisarmed := (State.disarm_standings _ s.cur.tile).trans hstopped
  have hnoted := (State.noteNext_standings _ s.owedDelay).trans hdisarmed
  exact (s.advance_passes s.cur.stopCycle).trans (.of_standings ((State.standings_withCur (Ctx.standing_wait _ _ _)).trans hnoted))

end Sys2Proof.Machine
end

section
/-!
SUPPORT. The contexts of a tile: which of them the model looks at, and which goes on when another leaves (R107, R112).
-/
namespace Sys2Proof.Machine
open Sys2Proof

/-! ## Contexts by their numbers -/

theorem State.uid_of_ctxOf {s : State} {uid : Nat} {c : Ctx} (h : s.ctxOf uid = some c) : c.uid = uid := by
  simpa using List.find?_some h

/-- Where numbers are unique a context is the one of its number. -/
theorem eq_of_uid {l : List Ctx} (hl : (l.map Ctx.uid).Nodup) {c d : Ctx} (hc : c ∈ l) (hd : d ∈ l) (h : d.uid = c.uid) : d = c :=
  List.inj_on_of_nodup_map hl hd hc h

theorem State.ctxOf_of_mem {s : State} (hs : (s.ctxs.map Ctx.uid).Nodup) {c : Ctx} (hc : c ∈ s.ctxs) : s.ctxOf c.uid = some c := by
  have hsome : (s.ctxs.find? (fun d => d.uid == c.uid)).isSome = true := List.find?_isSome.mpr ⟨c, hc, beq_self_eq_true _⟩
  obtain ⟨d, hd⟩ := Option.isSome_iff_exists.mp hsome
  rw [State.ctxOf, hd, eq_of_uid hs hc (List.mem_of_find?_eq_some hd) (State.uid_of_ctxOf hd)]

/-- The context of a number is in view, or it is the first of that number among the others. -/
theorem State.ctxOf_eq_some_iff {s : State} {uid : Nat} {c : Ctx} : s.ctxOf uid = some c ↔
    s.cur.uid = uid ∧ s.cur = c ∨ s.cur.uid ≠ uid ∧ s.others.find? (fun d => d.uid == uid) = some c := by
  unfold State.ctxOf State.ctxs
  rw [List.find?_cons]
  by_cases h : s.cur.uid = uid
  · simp [h]
  · simp [h, beq_eq_false_iff_ne.mpr h]

/-! ## The model looks at a context -/

theorem State.focus_cur_of_ctxOf {s : State} {uid : Nat} {c : Ctx} (h : s.ctxOf uid = some c) : (s.focus uid).cur = c := by
  unfold State.focus
  rcases State.ctxOf_eq_some_iff.mp h with ⟨hcur, rfl⟩ | ⟨hcur, hfind⟩
  · rw [if_pos hcur]
  · rw [if_neg hcur, hfind]

theorem State.lookAt_cur_of_ctxOf {s : State} {uid : Nat} {c : Ctx} (h : s.ctxOf uid = some c) : (s.lookAt uid).cur = c := by
  unfold State.lookAt
  rcases State.ctxOf_eq_some_iff.mp h with ⟨hcur, rfl⟩ | ⟨hcur, hfind⟩
  · rw [if_pos hcur]
  · rw [if_neg hcur, hfind]

/-- Looking at a context drops the one in view where that has ended, and no other. -/
theorem State.ctxs_focus {s : State} {uid : Nat} {c : Ctx} (hs : (s.ctxs.map Ctx.uid).Nodup) (hc : s.ctxOf uid = some c) :
    (s.focus uid).ctxs.Perm s.ctxs ∨ s.cur.run = .ended ∧ (s.focus uid).ctxs.Perm s.others := by
  unfold State.focus
  rcases State.ctxOf_eq_some_iff.mp hc with ⟨hcur, rfl⟩ | ⟨hcur, hfind⟩
  · rw [if_pos hcur]
    exact .inl (.refl _)
  · have hperm := perm_cons_filter_uid (List.nodup_cons.mp hs).2 (List.mem_of_find?_eq_some hfind)
    rw [State.uid_of_ctxOf hc] at hperm
    rw [if_neg hcur, hfind]
    by_cases hended : s.cur.run = .ended
    · exact .inr ⟨hended, by simpa [State.ctxs, hended] using hperm.symm⟩
    · refine .inl ?_
      simp only [State.ctxs, hended, if_false, List.singleton_append]
      exact (List.Perm.swap _ _ _).trans (hperm.symm.cons _)

theorem State.mem_ctxs_of_focus {s : State} {uid : Nat} {c d : Ctx} (hs : (s.ctxs.map Ctx.uid).Nodup) (hc : s.ctxOf uid = some c)
    (hd : d ∈ (s.focus uid).ctxs) : d ∈ s.ctxs := by
  rcases State.ctxs_focus hs hc with h | ⟨-, h⟩
  · exact h.mem_iff.mp hd
  · exact List.mem_cons_of_mem _ (h.mem_iff.mp hd)

theorem State.mem_focus {s : State} {uid : Nat} {c d : Ctx} (hs : (s.ctxs.map Ctx.uid).Nodup) (hc : s.ctxOf uid = some c)
    (hd : d ∈ s.ctxs) (hrun : d.run ≠ .ended) : d ∈ (s.focus uid).ctxs := by
  rcases State.ctxs_focus hs hc with h | ⟨hended, h⟩
  · exact h.mem_iff.mpr hd
  · rcases List.mem_cons.mp hd with rfl | hd
    · exact absurd hended hrun
    · exact h.mem_iff.mpr hd

theorem State.nodup_focus {s : State} {uid : Nat} {c : Ctx} (hs : (s.ctxs.map Ctx.uid).Nodup) (hc : s.ctxOf uid = some c) :
    ((s.focus uid).ctxs.map Ctx.uid).Nodup := by
  rcases State.ctxs_focus hs hc with h | ⟨-, h⟩
  · exact (h.map _).nodup_iff.mpr hs
  · exact (h.map _).nodup_iff.mpr (List.nodup_cons.mp hs).2

/-- What happens to a context while the model looks at it is what its number names when the model looks back. -/
theorem State.ctxOf_visit {s : State} {uid : Nat} {c : Ctx} (hc : s.ctxOf uid = some c) {t : State}
    (hothers : t.others = (s.lookAt uid).others) (huid : t.cur.uid = uid) : (t.lookAt s.cur.uid).ctxOf uid = some t.cur := by
  rcases State.ctxOf_eq_some_iff.mp hc with ⟨hcur, -⟩ | ⟨hcur, hfind⟩
  · rw [State.lookAt, if_pos (huid.trans hcur.symm)]
    exact State.ctxOf_eq_some_iff.mpr (.inl ⟨huid, rfl⟩)
  · have hlook : t.others = s.cur :: s.others.filter (fun d => d.uid != uid) := by
      rw [hothers, State.lookAt, if_neg hcur, hfind]
    have hback : t.lookAt s.cur.uid = { t with cur := s.cur, others := t.cur :: t.others.filter (fun d => d.uid != s.cur.uid) } := by
      rw [State.lookAt, if_neg (by rw [huid]; exact Ne.symm hcur), hlook]
      simp
    rw [hback]
    exact State.ctxOf_eq_some_iff.mpr (.inr ⟨hcur, by simp [huid]⟩)

/-! ## The incoming context (R107) -/

theorem olderOf_eq_or (a b : Ctx) : olderOf a b = a ∨ olderOf a b = b := by
  unfold olderOf
  split
  · exact .inr rfl
  · exact .inl rfl

theorem olderOf_lastIssue_le (a b : Ctx) : (olderOf a b).lastIssue ≤ a.lastIssue ∧ (olderOf a b).lastIssue ≤ b.lastIssue := by
  unfold olderOf
  split <;> omega

/-- The oldest of contexts is one of them, and none has waited longer. -/
theorem foldl_olderOf_spec : ∀ (l : List Ctx) (c : Ctx), l.foldl olderOf c ∈ c :: l ∧ ∀ z ∈ c :: l, (l.foldl olderOf c).lastIssue ≤ z.lastIssue
  | [], c => ⟨List.mem_singleton.mpr rfl, fun z hz => by rw [List.mem_singleton.mp hz]; exact Nat.le_refl _⟩
  | d :: l, c => by
    obtain ⟨hmem, hle⟩ := foldl_olderOf_spec l (olderOf c d)
    obtain ⟨hc, hd⟩ := olderOf_lastIssue_le c d
    rw [List.foldl_cons]
    refine ⟨?_, fun z hz => ?_⟩
    · rcases List.mem_cons.mp hmem with h | h
      · rw [h]
        rcases olderOf_eq_or c d with h | h <;> simp [h]
      · exact List.mem_cons_of_mem _ (List.mem_cons_of_mem _ h)
    · have hfirst := hle _ List.mem_cons_self
      rcases List.mem_cons.mp hz with rfl | hz
      · exact hfirst.trans hc
      rcases List.mem_cons.mp hz with rfl | hz
      · exact hfirst.trans hd
      · exact hle z (List.mem_cons_of_mem _ hz)

/-- A context that may come in on a tile that another leaves. -/
def Ctx.comesIn (c : Ctx) (tile : Nat) (leaving : Option Nat) : Prop := c.run = .ready ∧ c.tile = tile ∧ leaving ≠ some c.uid

theorem State.mem_comingIn {s : State} {tile : Nat} {leaving : Option Nat} {c : Ctx} :
    c ∈ (s.onTile tile).filter (fun c => c.run == .ready && leaving != some c.uid) ↔ c ∈ s.ctxs ∧ c.comesIn tile leaving := by
  simp only [State.onTile, Ctx.comesIn, List.mem_filter, Bool.and_eq_true, beq_iff_eq, bne_iff_ne]
  constructor
  · rintro ⟨⟨hc, -, htile⟩, hrun, hne⟩
    exact ⟨hc, hrun, htile, hne⟩
  · rintro ⟨hc, hrun, htile, hne⟩
    exact ⟨⟨hc, by rw [hrun]; rfl, htile⟩, hrun, hne⟩

/-- A tile has an incoming context where one may come in, and it is the one that has waited longest. -/
theorem State.incoming_of_comesIn {s : State} {tile : Nat} {leaving : Option Nat} {c : Ctx} (hc : c ∈ s.ctxs) (hin : c.comesIn tile leaving) :
    ∃ y, s.incoming tile leaving = some y ∧ y ∈ s.ctxs ∧ y.comesIn tile leaving ∧
      ∀ z ∈ s.ctxs, z.comesIn tile leaving → y.lastIssue ≤ z.lastIssue := by
  have hmem := State.mem_comingIn.mpr ⟨hc, hin⟩
  unfold State.incoming
  cases hl : (s.onTile tile).filter (fun c => c.run == .ready && leaving != some c.uid) with
  | nil => rw [hl] at hmem; exact absurd hmem List.not_mem_nil
  | cons d l =>
    obtain ⟨hy, hle⟩ := foldl_olderOf_spec l d
    rw [← hl] at hy hle
    obtain ⟨hyctx, hyin⟩ := State.mem_comingIn.mp hy
    exact ⟨_, rfl, hyctx, hyin, fun z hz hzin => hle z (State.mem_comingIn.mpr ⟨hz, hzin⟩)⟩

/-- Where a context is incoming one may come in. -/
theorem State.comesIn_of_incoming {s : State} {tile : Nat} {leaving : Option Nat} (h : (s.incoming tile leaving).isSome = true) :
    ∃ c ∈ s.ctxs, c.comesIn tile leaving := by
  unfold State.incoming at h
  cases hl : (s.onTile tile).filter (fun c => c.run == .ready && leaving != some c.uid) with
  | nil => rw [hl] at h; exact absurd h (by simp)
  | cons d l =>
    have hd : d ∈ (s.onTile tile).filter (fun c => c.run == .ready && leaving != some c.uid) := hl ▸ List.mem_cons_self
    obtain ⟨hctx, hin⟩ := State.mem_comingIn.mp hd
    exact ⟨d, hctx, hin⟩

/-! ## A context leaves its tile, and another comes in -/

theorem State.chargeSince_standings (t : State) (c : Ctx) : (t.chargeSince c).standings = t.standings := by
  unfold State.chargeSince State.standings
  split <;> simp

theorem State.chargeSince_cur (t : State) (c : Ctx) : (t.chargeSince c).cur = t.cur := by
  unfold State.chargeSince
  split <;> simp

/-- The context in view has stopped: it stands where it stood and has left issue, and the others stand where they stood. -/
def State.Leaves (s : State) (r : Run) (t : State) : Prop :=
  t.cur.standing = { s.cur.standing with run := r } ∧
    ((s.ctxs.map Ctx.uid).Nodup → (t.others.map Ctx.standing).Perm (s.others.map Ctx.standing))

theorem State.Passes.leaves {s t u : State} {r : Run} (h : s.Passes t) (hcur : u.cur.standing = { t.cur.standing with run := r })
    (hothers : u.others = t.others) : s.Leaves r u :=
  ⟨by rw [hcur, h.1], fun hs => by rw [hothers]; exact h.2 hs⟩

theorem State.Leaves.charged {s t : State} {r : Run} (h : s.Leaves r t) (c : Ctx) : s.Leaves r (t.chargeSince c) := by
  obtain ⟨hcur, hothers⟩ := Prod.mk.inj (t.chargeSince_standings c)
  exact ⟨hcur.trans h.1, fun hs => by rw [hothers]; exact h.2 hs⟩

theorem State.leaveTile_leaves (s : State) : s.Leaves (if s.waitsNow then .waiting else .ready) s.leaveTile := by
  unfold State.leaveTile
  dsimp only
  split <;> exact s.pause_passes.leaves rfl rfl

theorem State.hardStop_leaves (s : State) : s.Leaves .saving s.hardStop :=
  (s.pause_passes.leaves (u := s.pause.withCur { s.pause.cur with run := .saving, hard := none, boundary := false }) rfl rfl).charged s.cur

theorem State.hardStop_hard (s : State) : s.hardStop.cur.hard = none := by
  unfold State.hardStop
  dsimp only
  rw [State.chargeSince_cur]
  rfl

theorem State.giveWay_leaves (s : State) : ∃ r, s.Leaves r s.giveWay := by
  unfold State.giveWay
  split
  · exact ⟨_, s.hardStop_leaves⟩
  · exact ⟨_, s.leaveTile_leaves.charged s.cur⟩

@[simp] theorem State.charge_cur (s : State) (n : Nat) : (s.charge n).cur = s.cur := by
  unfold State.charge
  split
  · rfl
  · exact State.mapPart_cur ..

@[simp] theorem State.charge_others (s : State) (n : Nat) : (s.charge n).others = s.others := by
  unfold State.charge
  split
  · rfl
  · exact State.mapPart_others ..

@[simp] theorem State.disarm_cur (s : State) (tile : Nat) : (s.disarm tile).cur = s.cur := by
  unfold State.disarm
  dsimp only
  split <;> rfl

@[simp] theorem State.disarm_others (s : State) (tile : Nat) : (s.disarm tile).others = s.others := by
  unfold State.disarm
  dsimp only
  split <;> rfl

/-- The context that comes in is in view, and issues. -/
theorem State.switchIn_of_incoming {s : State} {tile : Nat} {leaving : Option Nat} {y : Ctx} (hin : s.incoming tile leaving = some y)
    (hy : s.ctxOf y.uid = some y) :
    (s.switchIn tile leaving).cur.standing = { y.standing with run := .issuing } ∧ (s.switchIn tile leaving).others = (s.focus y.uid).others := by
  unfold State.switchIn
  rw [hin]
  simp only [State.charge_cur, State.charge_others, State.disarm_cur, State.disarm_others, State.focus_cur_of_ctxOf hy]
  exact ⟨rfl, trivial⟩

theorem Ctx.comesIn_congr {c d : Ctx} (h : c.standing = d.standing) {tile : Nat} {leaving : Option Nat} (hc : c.comesIn tile leaving) :
    d.comesIn tile leaving := by
  obtain ⟨hrun, htile, hne⟩ := hc
  exact ⟨(congrArg Standing.run h).symm.trans hrun, (congrArg Standing.tile h).symm.trans htile,
    fun hd => hne (hd.trans (congrArg some (congrArg Standing.uid h).symm))⟩

/-- When the context in view leaves a tile on which another may come in, the one of the others that has waited longest issues there, and the
one that left stands where it stood. -/
theorem State.Leaves.switchIn {s t : State} {r : Run} (h : s.Leaves r t) (hs : (s.ctxs.map Ctx.uid).Nodup) {tile : Nat} {z : Ctx}
    (hz : z ∈ s.others) (hin : z.comesIn tile (some s.cur.uid)) :
    ∃ y ∈ s.others, y.comesIn tile (some s.cur.uid) ∧ (∀ z ∈ s.others, z.comesIn tile (some s.cur.uid) → y.lastIssue ≤ z.lastIssue) ∧
      (t.switchIn tile (some s.cur.uid)).cur.standing = { y.standing with run := .issuing } ∧
      (r ≠ .ended → ∃ x ∈ (t.switchIn tile (some s.cur.uid)).others, x.standing = { s.cur.standing with run := r }) := by
  obtain ⟨hcur, hothers⟩ := h
  have hperm := hothers hs
  have htuid : t.cur.uid = s.cur.uid := congrArg Standing.uid hcur
  have ht : (t.ctxs.map Ctx.uid).Nodup := by
    have huids : (t.ctxs.map Ctx.uid).Perm (s.ctxs.map Ctx.uid) := by
      rw [State.uids_eq, State.uids_eq, List.map_cons, List.map_cons, hcur]
      exact (hperm.map _).cons _
    exact huids.nodup_iff.mpr hs
  have hthere {z : Ctx} (hz : z ∈ s.others) : ∃ z' ∈ t.others, z'.standing = z.standing :=
    List.mem_map.mp (hperm.mem_iff.mpr (List.mem_map_of_mem hz))
  obtain ⟨z', hz', hzstand⟩ := hthere hz
  obtain ⟨y, hy, hyctx, hyin, hyle⟩ := State.incoming_of_comesIn (List.mem_cons_of_mem _ hz') (Ctx.comesIn_congr hzstand.symm hin)
  have hyne : y.uid ≠ t.cur.uid := fun hu => hyin.2.2 (by rw [hu, htuid])
  have hyothers : y ∈ t.others := (List.mem_cons.mp hyctx).resolve_left fun he => hyne (by rw [he])
  obtain ⟨y', hy', hystand⟩ := List.mem_map.mp (hperm.mem_iff.mp (List.mem_map_of_mem hyothers))
  have hyof := State.ctxOf_of_mem ht hyctx
  obtain ⟨hnewcur, hnewothers⟩ := State.switchIn_of_incoming hy hyof
  refine ⟨y', hy', Ctx.comesIn_congr hystand.symm hyin, fun z hz hzin => ?_, by rw [hnewcur, hystand], fun hr => ?_⟩
  · obtain ⟨z', hz', hzstand⟩ := hthere hz
    have hle := hyle z' (List.mem_cons_of_mem _ hz') (Ctx.comesIn_congr hzstand.symm hzin)
    rw [show y'.lastIssue = y.lastIssue from congrArg Standing.lastIssue hystand,
      show z.lastIssue = z'.lastIssue from congrArg Standing.lastIssue hzstand.symm]
    exact hle
  · have hleft : t.cur ∈ (t.focus y.uid).ctxs := State.mem_focus ht hyof List.mem_cons_self (by
      rw [show t.cur.run = r from congrArg Standing.run hcur]
      exact hr)
    rw [State.ctxs, State.focus_cur_of_ctxOf hyof] at hleft
    exact ⟨t.cur, hnewothers ▸ (List.mem_cons.mp hleft).resolve_left fun he => hyne (by rw [he]), hcur⟩

end Sys2Proof.Machine
end

section
/-!
SUPPORT. What pre-emption makes of the contexts that it asks, how a context stops and yields its tile, and what a save writes (R91, R93, R107,
R111, R112, R116, R117, R133).
-/
namespace Sys2Proof.Machine
open Sys2Proof

/-! ## Contexts found and replaced -/

theorem State.ctxAt_spec {s : State} {tile slot : Nat} {c : Ctx} (h : s.ctxAt tile slot = some c) : c ∈ s.ctxs ∧ c.tile = tile := by
  have hp := List.find?_some h
  simp only [Bool.and_eq_true, beq_iff_eq] at hp
  exact ⟨List.mem_of_find?_eq_some h, hp.1.2⟩

theorem State.issuerOf_spec {s : State} {tile : Nat} {c : Ctx} (h : s.issuerOf tile = some c) :
    c ∈ s.ctxs ∧ c.run = .issuing ∧ c.tile = tile := by
  have hp := List.find?_some h
  simp only [Bool.and_eq_true, beq_iff_eq] at hp
  exact ⟨List.mem_of_find?_eq_some h, hp⟩

/-- The context of a number after those of one number have been replaced. -/
theorem State.ctxOf_mapCtx {f : Ctx → Ctx} (hf : ∀ c, (f c).uid = c.uid) (s : State) (uid v : Nat) :
    (s.mapCtx uid f).ctxOf v = (s.ctxOf v).map (fun c => if c.uid = uid then f c else c) := by
  unfold State.ctxOf
  rw [State.mapCtx_ctxs]
  induction s.ctxs with
  | nil => rfl
  | cons c l ih =>
    have huid : (if c.uid = uid then f c else c).uid = c.uid := by split <;> simp [hf]
    simp only [List.map_cons, List.find?_cons, huid]
    cases c.uid == v with
    | true => rfl
    | false => exact ih

theorem State.ctxOf_mapCtx_of {s : State} {c : Ctx} (hc : s.ctxOf c.uid = some c) {f : Ctx → Ctx} (hf : ∀ c, (f c).uid = c.uid) :
    (s.mapCtx c.uid f).ctxOf c.uid = some (f c) := by
  rw [State.ctxOf_mapCtx_self hf, hc]
  rfl

theorem State.ctxOf_mapPart (s : State) (n : Nat) (f : Partition → Partition) (uid : Nat) : (s.mapPart n f).ctxOf uid = s.ctxOf uid := by
  simp [State.ctxOf, State.ctxs]

theorem State.ctxOf_fresh (s : State) (n uid : Nat) : { s with fresh := n }.ctxOf uid = s.ctxOf uid := rfl

/-! ## Soft pre-emption (R91, R111) -/

/-- A context that has been asked softly. -/
def Ctx.askSoft (c : Ctx) : Ctx := { c with soft := true }

/-- Every context that is asked softly is marked, and every other stays. -/
theorem State.ctxOf_foldl_soft (v : Nat) : ∀ (cs : List Ctx) (s : State),
    (cs.foldl (fun t x => t.mapCtx x.uid Ctx.askSoft) s).ctxOf v = (s.ctxOf v).map (fun c => if v ∈ cs.map Ctx.uid then c.askSoft else c)
  | [], s => by simp
  | x :: cs, s => by
    rw [List.foldl_cons, State.ctxOf_foldl_soft v cs, State.ctxOf_mapCtx (f := Ctx.askSoft) fun _ => rfl]
    cases hv : s.ctxOf v with
    | none => rfl
    | some c =>
      have huid : c.uid = v := State.uid_of_ctxOf hv
      have hagain : c.askSoft.askSoft = c.askSoft := rfl
      by_cases hx : v = x.uid <;> by_cases hcs : v ∈ cs.map Ctx.uid <;> simp [huid, hx, hcs, hagain]

theorem State.preempt_soft {s : State} {c : Ctx} {d : Device} (hd : s.deviceOf c = some d) (hsoft : d.soft = true) :
    s.preempt c = (s.together c).foldl (fun t x => t.mapCtx x.uid Ctx.askSoft) s := by
  unfold State.preempt
  rw [hd]
  exact if_pos hsoft

theorem State.mem_ctxs_of_together {s : State} {c x : Ctx} (hc : c ∈ s.ctxs) (hx : x ∈ s.together c) : x ∈ s.ctxs := by
  unfold State.together at hx
  split at hx
  · exact List.mem_of_mem_filter hx
  · exact List.mem_singleton.mp hx ▸ hc

/-! ## Hard pre-emption (R111, R112, R117) -/

theorem State.preempt_hard {s : State} {c : Ctx} {d : Device} (hd : s.deviceOf c = some d) (hsoft : d.soft = false) (hgang : c.gang = false) :
    s.preempt c = s.hardAll [c] := by
  simp [State.preempt, hd, hsoft, State.together, hgang]

theorem Ctx.askHard_of_issuing {c : Ctx} (hrun : c.run = .issuing) (hhard : c.hard = none) (m : Nat) :
    c.askHard m = { c with hard := some m, askedAt := m } := by
  simp [Ctx.askHard, hrun, hhard]

theorem Ctx.askHard_of_idle {c : Ctx} (hrun : c.run = .ready ∨ c.run = .waiting ∨ c.run = .halted) (hparked : c.parked = none) (m : Nat) :
    c.askHard m = { c.startSave with askedAt := m } := by
  rcases hrun with h | h | h <;> simp [Ctx.askHard, h, Ctx.handling, hparked]

/-- A request leaves the number of its context and its place in the save area. -/
theorem Ctx.askHard_uid_saveSlot (c : Ctx) (m : Nat) : (c.askHard m).uid = c.uid ∧ (c.askHard m).saveSlot = c.saveSlot := by
  have hmarked : ∀ d ∈ [c, { c with hard := some m, askedAt := m }, { c.startSave with askedAt := m }], d.uid = c.uid ∧ d.saveSlot = c.saveSlot := by
    simp [Ctx.startSave]
  refine hmarked _ ?_
  unfold Ctx.askHard
  split
  case h_1 | h_2 => split <;> simp
  case h_3 | h_4 | h_5 =>
    split
    · split <;> simp
    · simp
  case h_6 => simp

/-- The place that the save of a context takes: the one that it has, or one that the save area has for it (R117). -/
def State.hasRoom (s : State) (c : Ctx) (x : SaveSlot) : Prop := c.saveSlot = some x ∨ c.saveSlot = none ∧ s.savePlan c = some x

/-- Where there is room, the context is asked and takes its place. -/
theorem State.hardAll_of_hasRoom {s : State} {c : Ctx} {x : SaveSlot} (hc : s.ctxOf c.uid = some c) (hx : s.hasRoom c x) :
    ∃ f : Ctx → Ctx, (∀ e, (f e).uid = e.uid) ∧ f c = { c.askHard s.cycle with saveSlot := some x } ∧
      s.hardAll [c] = (s.mapCtx c.uid f).noteStopped c.uid := by
  rcases hx with hx | ⟨hnone, hplan⟩
  · refine ⟨fun e => e.askHard s.cycle, fun e => (e.askHard_uid_saveSlot s.cycle).1, ?_, by simp [State.hardAll, hc, hx]⟩
    have hslot := (c.askHard_uid_saveSlot s.cycle).2.trans hx
    rw [← hslot]
  · exact ⟨fun e => { e.askHard s.cycle with saveSlot := some x }, fun e => (e.askHard_uid_saveSlot s.cycle).1, rfl,
      by simp [State.hardAll, hc, hnone, hplan]⟩

/-- Without room nothing is asked. -/
theorem State.hardAll_of_no_room {s : State} {c : Ctx} (hc : s.ctxOf c.uid = some c) (hnone : c.saveSlot = none)
    (hplan : s.savePlan c = none) : s.hardAll [c] = s := by
  simp [State.hardAll, hc, hnone, hplan]

/-! ## What a stop records of the next bundle (R112) -/

theorem State.openRep_eq (s : State) (raw : List DWord) : ∃ rp, s.openRep raw = s.withCur { s.cur with rep := rp } := by
  unfold State.openRep
  split
  · split
    · exact ⟨_, rfl⟩
    · exact ⟨s.cur.rep, rfl⟩
  · exact ⟨s.cur.rep, rfl⟩

theorem State.noteNext_eq (s : State) (n : Nat) : ∃ dl rp, s.noteNext n = s.withCur { s.cur with delay := dl, rep := rp } := by
  unfold State.noteNext
  split
  · exact ⟨s.cur.delay, s.cur.rep, rfl⟩
  next raw _ _ =>
    obtain ⟨rp, h⟩ := (s.withCur { s.cur with delay := some n }).openRep_eq raw
    exact ⟨some n, rp, h⟩
  · exact ⟨some n, s.cur.rep, rfl⟩

theorem State.noteStopped_mem (s : State) (uid : Nat) : (s.noteStopped uid).mem = s.mem := by
  unfold State.noteStopped
  dsimp only
  split
  · obtain ⟨dl, rp, h⟩ := (s.lookAt uid).noteNext_eq ((s.lookAt uid).serve stepped)
    rw [State.lookAt_mem, h]
    exact s.lookAt_mem uid
  · rfl

/-- Of a context that has not stopped nothing is recorded. -/
theorem State.noteStopped_of_not_saving {s : State} {c : Ctx} {uid : Nat} (hc : s.ctxOf uid = some c) (hrun : c.run ≠ .saving) :
    s.noteStopped uid = s := by
  unfold State.noteStopped
  dsimp only
  rw [State.lookAt_cur_of_ctxOf hc, if_neg fun h => hrun h.2.1]

/-- Only the delay and the repeat of the context change. -/
theorem State.ctxOf_noteStopped {s : State} {c : Ctx} {uid : Nat} (hc : s.ctxOf uid = some c) :
    ∃ dl rp, (s.noteStopped uid).ctxOf uid = some { c with delay := dl, rep := rp } := by
  unfold State.noteStopped
  dsimp only
  split
  next h =>
    obtain ⟨dl, rp, hnote⟩ := (s.lookAt uid).noteNext_eq ((s.lookAt uid).serve stepped)
    rw [hnote]
    refine ⟨dl, rp, (State.ctxOf_visit hc ?_ ?_).trans ?_⟩
    · rfl
    · exact h.1
    · rw [State.withCur_cur, State.lookAt_cur_of_ctxOf hc]
  · exact ⟨c.delay, c.rep, hc⟩

/-! ## Lenders (R93) -/

theorem State.lend_of_no_lender {s : State} {n : Nat} (h : (s.partN n).hasLender = false) : s.lend n = s := by
  unfold State.lend State.mapPart
  split
  next hn =>
    have hpart : s.partN n = s.parts[n] := dif_pos hn
    rw [Partition.lend, ← hpart, h]
    simp [hpart]
  · rfl

/-! ## Stops and waits (R107, R112, R133) -/

theorem State.atIssuer_eq {s : State} {tile slot : Nat} {c : Ctx} (hat : s.ctxAt tile slot = some c) (hrun : c.run = .issuing) :
    s.atIssuer tile slot = some (s.focus c.uid) := by
  simp [State.atIssuer, hat, hrun]

/-- A context that stops is to be saved, and stands where it stood. -/
theorem State.hardStop_stands (s : State) : s.hardStop.cur.uid = s.cur.uid ∧ s.hardStop.cur.run = .saving ∧ s.hardStop.cur.hard = none ∧
    s.hardStop.cur.pc = s.cur.pc ∧ s.hardStop.cur.loops = s.cur.loops := by
  obtain ⟨hcur, -⟩ := s.hardStop_leaves
  exact ⟨congrArg Standing.uid hcur, congrArg Standing.run hcur, s.hardStop_hard, congrArg Standing.pc hcur, congrArg Standing.loops hcur⟩

/-- A context that yields its tile waits where it stands, and another issues. -/
theorem State.yieldTile_stands {s : State} (hs : (s.ctxs.map Ctx.uid).Nodup) (hdue : s.yieldDue = true) :
    s.yieldTile.cur.run = .issuing ∧ s.yieldTile.cur.tile = s.cur.tile ∧ s.yieldTile.cur.uid ≠ s.cur.uid ∧
      ∃ x ∈ s.yieldTile.ctxs, x.uid = s.cur.uid ∧ x.run = .waiting ∧ x.pc = s.cur.pc := by
  simp only [State.yieldDue, Bool.and_eq_true] at hdue
  obtain ⟨⟨hwaits, -⟩, hincoming⟩ := hdue
  obtain ⟨z, hz, hzin⟩ := State.comesIn_of_incoming hincoming
  have hzothers : z ∈ s.others := (List.mem_cons.mp hz).resolve_left fun he => hzin.2.2 (by rw [he])
  have hleaves := s.leaveTile_leaves.charged s.cur
  rw [if_pos hwaits] at hleaves
  obtain ⟨y, -, ⟨-, hytile, hyne⟩, -, hnew, hleft⟩ := hleaves.switchIn hs hzothers hzin
  obtain ⟨x, hx, hxstand⟩ := hleft (by decide)
  exact ⟨congrArg Standing.run hnew, (congrArg Standing.tile hnew).trans hytile,
    fun h => hyne (congrArg some (h.symm.trans (congrArg Standing.uid hnew))),
    x, List.mem_cons_of_mem _ hx, congrArg Standing.uid hxstand, congrArg Standing.run hxstand, congrArg Standing.pc hxstand⟩

theorem State.emptyPop_cause {s : State} {i : Instr} {t : Trap} (h : s.emptyPop = some (i, t)) : t.cause = .queueEmpty := by
  unfold State.emptyPop at h
  split at h
  · exact absurd h (by simp)
  · obtain ⟨x, -, hx⟩ := List.exists_of_findSome?_eq_some h
    split at hx
    · split at hx
      · rw [← (Prod.mk.inj (Option.some.inj hx)).2]
      · exact absurd hx (by simp)
    · exact absurd hx (by simp)

/-! ## The bytes below the save area (R116, R117) -/

/-- What keeps the canonical form of memory and every byte below an address. -/
def Memory.SameBelow (b : Nat) (m n : Memory) : Prop := m.wf = true → n.wf = true ∧ ∀ y, y < b → Memory.read n y = Memory.read m y

theorem Memory.SameBelow.trans {b : Nat} {m n k : Memory} (h : Memory.SameBelow b m n) (h' : Memory.SameBelow b n k) :
    Memory.SameBelow b m k := by
  intro hm
  obtain ⟨hn, hread⟩ := h hm
  obtain ⟨hk, hread'⟩ := h' hn
  exact ⟨hk, fun y hy => (hread' y hy).trans (hread y hy)⟩

theorem Memory.SameBelow.foldl {b : Nat} {α : Type} {f : Memory → α → Memory} (h : ∀ m x, Memory.SameBelow b m (f m x)) :
    ∀ (l : List α) (m : Memory), Memory.SameBelow b m (l.foldl f m)
  | [], _ => fun hm => ⟨hm, fun _ _ => rfl⟩
  | x :: l, m => (h m x).trans (Memory.SameBelow.foldl h l (f m x))

theorem Memory.sameBelow_write {b a : Nat} (h : b ≤ a) (m : Memory) (x : Byte) : Memory.SameBelow b m (m.write a x) :=
  fun hm => ⟨Memory.wf_write hm a x, fun y hy => by rw [Memory.read_write hm, if_neg (by omega)]⟩

theorem Memory.sameBelow_writeNat {b a : Nat} (h : b ≤ a) (m : Memory) (n x : Nat) : Memory.SameBelow b m (m.writeNat a n x) :=
  fun hm => ⟨Memory.wf_writeNat n hm a x, fun y hy => Memory.read_writeNat n hm a x y (.inl (by omega))⟩

theorem Memory.sameBelow_clearRange {b lo : Nat} (h : b ≤ lo) (m : Memory) (hi : Nat) : Memory.SameBelow b m (clearRange m lo hi) :=
  fun hm => ⟨wf_clearRange hm lo hi, fun y hy => by rw [read_clearRange hm, if_neg (by omega)]⟩

theorem Memory.sameBelow_writeFields {b base : Nat} (h : b ≤ base) (l : List Field) (m : Memory) :
    Memory.SameBelow b m (writeFields m base l) :=
  Memory.SameBelow.foldl (fun m _ => Memory.sameBelow_writeNat (Nat.le_add_right_of_le h) m _ _) l m

/-- A save area is written by a context that is saved in it, and by nothing else. -/
theorem State.syncSave_eq (s : State) (uid : Nat) : ∃ m, s.syncSave uid = { s with mem := m } := by
  unfold State.syncSave
  split
  · exact ⟨s.mem, rfl⟩
  · split
    · exact ⟨_, rfl⟩
    · exact ⟨s.mem, rfl⟩

theorem State.syncSave_of_no_slot {s : State} {uid : Nat} {c : Ctx} (hc : s.ctxOf uid = some c) (hslot : c.saveSlot = none) :
    s.syncSave uid = s := by
  simp [State.syncSave, hc, hslot]

theorem State.syncSave_sameBelow {s : State} {uid : Nat} {c : Ctx} {x : SaveSlot} (hc : s.ctxOf uid = some c) (hrun : c.run = .saved)
    (hslot : c.saveSlot = some x) : Memory.SameBelow (s.saveBase c.part x.die) s.mem (s.syncSave uid).mem := by
  unfold State.syncSave
  rw [hc]
  simp only [hrun, hslot]
  refine ((Memory.sameBelow_clearRange (Nat.le_add_right _ _) _ _).trans
    (Memory.sameBelow_writeFields (Nat.le_add_right _ _) _ _)).trans (Memory.SameBelow.foldl (fun m y => ?_) _ _)
  refine (Memory.sameBelow_clearRange (Nat.le_add_right _ _) _ _).trans (Memory.SameBelow.foldl (fun m z => ?_) _ _)
  exact Memory.sameBelow_write (by omega) _ _

end Sys2Proof.Machine
end

section
/-!
SUPPORT. The events of pre-emption, of saves and restores, and of the switches of a tile (R91, R107, R111, R112, R117, R133, R269), and the
statement about them.
-/
namespace Sys2Proof.Machine
open Sys2Proof

/-! ## The operations as exec gives them -/

section
variable (s : State) (tile : BitVec 10) (slot : BitVec 2)

theorem exec_quantumExpiry : exec (.quantumExpiry tile slot) s = execQuantumExpiry tile slot s := rfl
theorem exec_waitQuantumExpiry : exec (.waitQuantumExpiry tile slot) s = execWaitQuantumExpiry tile slot s := rfl
theorem exec_preemptRequest (part : BitVec 3) (wings : BitVec 32) : exec (.preemptRequest part wings) s = execPreemptRequest part wings s := rfl
theorem exec_hardStop : exec (.hardStop tile slot) s = execHardStop tile slot s := rfl
theorem exec_preempt4096Expiry : exec (.preempt4096Expiry tile slot) s = execPreempt4096Expiry tile slot s := rfl
theorem exec_waitYield : exec (.waitYield tile) s = execWaitYield tile s := rfl
theorem exec_debugResume : exec (.debugResume tile slot) s = execDebugResume tile slot s := rfl
theorem exec_saveComplete : exec (.saveComplete tile slot) s = execSaveComplete tile slot s := rfl
theorem exec_restoreComplete : exec (.restoreComplete tile slot) s = execRestoreComplete tile slot s := rfl
theorem exec_popWTimeout : exec (.popWTimeout tile slot) s = execPopWTimeout tile slot s := rfl

end

/-! ## A context asked to stop (R111, R112, R117) -/

section
variable {s : State} {c : Ctx} {d : Device} (hc : s.ctxOf c.uid = some c) (hd : s.deviceOf c = some d)
include hc hd

/-- Softly: every context that is saved with it is marked. -/
theorem State.preempt_soft_spec (hsoft : d.soft = true) (hs : (s.ctxs.map Ctx.uid).Nodup) : (s.preempt c).mem = s.mem ∧
    ∀ x ∈ s.together c, (s.preempt c).ctxOf x.uid = some { x with soft := true } := by
  rw [State.preempt_soft hd hsoft]
  refine ⟨foldl_keeps State.mem (fun t (x : Ctx) => t.mapCtx_mem x.uid Ctx.askSoft) _ _, fun x hx => ?_⟩
  rw [State.ctxOf_foldl_soft, State.ctxOf_of_mem hs (State.mem_ctxs_of_together (List.mem_of_find?_eq_some hc) hx), Option.map_some,
    if_pos (List.mem_map_of_mem hx)]
  rfl

variable (hsoft : d.soft = false) (hgang : c.gang = false)
include hsoft hgang

/-- Hard, while it issues: it goes on until its stop point. -/
theorem State.preempt_hard_issuing {x : SaveSlot} (hx : s.hasRoom c x) (hrun : c.run = .issuing) (hhard : c.hard = none) :
    (s.preempt c).mem = s.mem ∧
      (s.preempt c).ctxOf c.uid = some { c with hard := some s.cycle, askedAt := s.cycle, saveSlot := some x } := by
  obtain ⟨f, huid, hf, hall⟩ := State.hardAll_of_hasRoom hc hx
  rw [Ctx.askHard_of_issuing hrun hhard] at hf
  have hasked := State.ctxOf_mapCtx_of hc huid
  have hgoes : (f c).run ≠ .saving := by rw [hf, hrun]; decide
  rw [State.preempt_hard hd hsoft hgang, hall, State.noteStopped_of_not_saving hasked hgoes, hasked, hf]
  exact ⟨rfl, rfl⟩

/-- Hard, while it does not issue: its save begins where it stands, and records what its next bundle owes. -/
theorem State.preempt_hard_idle {x : SaveSlot} (hx : s.hasRoom c x) (hrun : c.run = .ready ∨ c.run = .waiting ∨ c.run = .halted)
    (hparked : c.parked = none) : (s.preempt c).mem = s.mem ∧
      ∃ dl rp, (s.preempt c).ctxOf c.uid = some { c with
        run := .saving, hard := none, boundary := false, wait := keptWait c.clk (c.wait.bind (·.arrived)), askedAt := s.cycle,
        saveSlot := some x, delay := dl, rep := rp } := by
  obtain ⟨f, huid, hf, hall⟩ := State.hardAll_of_hasRoom hc hx
  rw [Ctx.askHard_of_idle hrun hparked] at hf
  obtain ⟨dl, rp, hnoted⟩ := State.ctxOf_noteStopped (State.ctxOf_mapCtx_of hc huid)
  rw [State.preempt_hard hd hsoft hgang, hall]
  refine ⟨State.noteStopped_mem _ _, dl, rp, hnoted.trans ?_⟩
  rw [hf]
  rfl

/-- Hard, without room: nothing happens. -/
theorem State.preempt_hard_no_room (hnone : c.saveSlot = none) (hplan : s.savePlan c = none) : s.preempt c = s := by
  rw [State.preempt_hard hd hsoft hgang, State.hardAll_of_no_room hc hnone hplan]

end

/-! ## What asks a context to stop (R111) -/

section
variable {s : State} {tile : BitVec 10} {slot : BitVec 2} {c : Ctx} {d : Device}

theorem exec_quantumExpiry_of_due (hat : s.ctxAt tile.toNat slot.toNat = some c) (hd : s.deviceOf c = some d) (hrun : c.run = .issuing)
    (hover : c.began + d.quantumCycles ≤ c.module) (hbalance : d.balance ≤ 0) (hlender : (s.partN c.part).hasLender = false) :
    exec (.quantumExpiry tile slot) s = .next (s.preempt c) := by
  simp [exec_quantumExpiry, execQuantumExpiry, hat, State.lend_of_no_lender hlender, hd, hrun, hover, hbalance, hlender]

theorem exec_waitQuantumExpiry_of_due {m : Nat} (hat : s.ctxAt tile.toNat slot.toNat = some c) (hd : s.deviceOf c = some d)
    (hstalled : c.stalledFrom = some m) (hover : m + d.quantumCycles ≤ s.cycle) (hcrowded : s.crowded (s.partN c.part) c.device = true) :
    exec (.waitQuantumExpiry tile slot) s = .next (s.preempt c) := by
  simp [exec_waitQuantumExpiry, execWaitQuantumExpiry, hat, hd, hstalled, hover, hcrowded]

theorem exec_preemptRequest_single {part : BitVec 3} {wings : BitVec 32}
    (honly : s.ctxs.filter (fun x => x.run.resident && x.part == part.toNat && wings.getLsbD (wingOf x.tile)) = [c]) :
    exec (.preemptRequest part wings) s = .next (s.preempt c) := by
  simp [exec_preemptRequest, execPreemptRequest, honly]

/-! ## Stops, waits and switches (R107, R112, R133, R269) -/

theorem exec_hardStop_of_due (hat : s.ctxAt tile.toNat slot.toNat = some c) (hrun : c.run = .issuing)
    (hdue : (s.focus c.uid).stopDue = true) : exec (.hardStop tile slot) s = .next (s.focus c.uid).hardStop := by
  simp [exec_hardStop, execHardStop, State.atIssuer_eq hat hrun, hdue]

theorem exec_preempt4096Expiry_of_due {m : Nat} (hat : s.ctxAt tile.toNat slot.toNat = some c) (hc : s.ctxOf c.uid = some c)
    (hrun : c.run = .issuing) (hhard : c.hard = some m) (hover : m + 4096 ≤ c.module) (hparked : c.parked = none)
    (hfree : c.wait = none ∨ c.delay.isSome = true) : exec (.preempt4096Expiry tile slot) s = .next (s.focus c.uid).hardStop := by
  have hstalled : c.stalledNow = false := by rcases hfree with h | h <;> simp [Ctx.stalledNow, h]
  have hhandling : c.handling = false := by simp [Ctx.handling, hparked]
  simp [exec_preempt4096Expiry, execPreempt4096Expiry, State.atIssuer_eq hat hrun, State.focus_cur_of_ctxOf hc, hhard, hover, hhandling,
    hstalled]

theorem exec_waitYield_of_due (hissuer : s.issuerOf tile.toNat = some c) (hdue : (s.focus c.uid).yieldDue = true) :
    exec (.waitYield tile) s = .next (s.focus c.uid).yieldTile := by
  simp [exec_waitYield, execWaitYield, hissuer, hdue]

theorem exec_debugResume_of_free (hat : s.ctxAt tile.toNat slot.toNat = some c) (hrun : c.run = .halted)
    (hissuer : s.issuerOf tile.toNat = none) : exec (.debugResume tile slot) s = .next (s.mapCtx c.uid (fun d => d.restart s.cycle)) := by
  simp [exec_debugResume, execDebugResume, hat, hrun, hissuer]

theorem exec_debugResume_of_taken {x : Ctx} (hat : s.ctxAt tile.toNat slot.toNat = some c) (hrun : c.run = .halted)
    (hissuer : s.issuerOf tile.toNat = some x) :
    exec (.debugResume tile slot) s = .next (s.mapCtx c.uid (fun d => { d with run := .ready })) := by
  simp [exec_debugResume, execDebugResume, hat, hrun, hissuer]

theorem exec_popWTimeout_of_empty {i : Instr} {t : Trap} (hat : s.ctxAt tile.toNat slot.toNat = some c) (hc : s.ctxOf c.uid = some c)
    (hrun : c.run = .issuing) (hwait : c.wait.isSome = true) (hdelay : c.delay = none)
    (hpop : ((s.focus c.uid).advance (max c.clk (c.since + 2 ^ 20))).emptyPop = some (i, t)) :
    exec (.popWTimeout tile slot) s = .next ({ ((s.focus c.uid).advance (max c.clk (c.since + 2 ^ 20))).takeTrap 0 t with
      issue := Issue.none }.chargeSince (s.focus c.uid).cur) := by
  have hstalled : c.stalledNow = true := by simp [Ctx.stalledNow, hwait, hdelay]
  rw [exec_popWTimeout, execPopWTimeout, State.atIssuer_eq hat hrun]
  simp only [State.focus_cur_of_ctxOf hc, hstalled, Bool.not_true, Bool.false_eq_true, if_false, hpop]

/-! ## Saves (R116, R117) -/

/-- A context that is saved: its allocations are copied. -/
def Ctx.savedIn (m : Memory) (c : Ctx) : Ctx :=
  { c with run := .saved, copies := c.allocs.map (fun a => (a.atag, savedCopy m (clusterOf c.tile) a)) }

theorem State.saved_eq (s : State) (c : Ctx) : s.saved c = (s.mapCtx c.uid (Ctx.savedIn s.mem)).syncSave c.uid := rfl

/-- A save that may end ends, and is charged (R92). -/
theorem exec_saveComplete_of_done {v : State} (hv : s.passCluster (clusterOf tile.toNat) s.cycle = v)
    (hat : v.ctxAt tile.toNat slot.toNat = some c) (hrun : c.run = .saving) (hdone : v.mayFinishSave c = true) :
    ∃ f, exec (.saveComplete tile slot) s = .next (({ v.saved c with fresh := v.fresh + 1 }).mapPart c.part f) := by
  refine ⟨fun p => p.charge c.device ((Config.freeWord v.fresh).toNat % (saveBound + 1)), ?_⟩
  simp [exec_saveComplete, execSaveComplete, hv, hat, hrun, hdone]

/-- What the end of a save makes of the context, and of memory: without a place in the save area nothing is written, with one nothing below
that area. -/
theorem State.saved_spec (hc : s.ctxOf c.uid = some c) : (s.saved c).ctxOf c.uid = some (c.savedIn s.mem) ∧
    (c.saveSlot = none → (s.saved c).mem = s.mem) ∧
    ∀ x, c.saveSlot = some x → Memory.SameBelow (s.saveBase c.part x.die) s.mem (s.saved c).mem := by
  have hmarked : (s.mapCtx c.uid (Ctx.savedIn s.mem)).ctxOf c.uid = some (c.savedIn s.mem) := State.ctxOf_mapCtx_of hc fun _ => rfl
  rw [State.saved_eq]
  refine ⟨?_, fun hslot => ?_, fun x hslot => ?_⟩
  · obtain ⟨m, hm⟩ := (s.mapCtx c.uid (Ctx.savedIn s.mem)).syncSave_eq c.uid
    rw [hm]
    exact hmarked
  · rw [State.syncSave_of_no_slot hmarked hslot]
    rfl
  · exact State.syncSave_sameBelow hmarked rfl hslot

/-! ## The end of a restore (R107, R117, R118) -/

/-- A context that is back on its tile, ready. -/
def Ctx.restored (m : Nat) (c : Ctx) : Ctx := { c with run := .ready, began := m, copies := [], latches := [], saveSlot := none }

theorem exec_restoreComplete_of_free (hat : s.ctxAt tile.toNat slot.toNat = some c) (hrun : c.run = .restoring)
    (hissuer : s.issuerOf tile.toNat = none) : exec (.restoreComplete tile slot) s =
      .next ((s.mapCtx c.uid (Ctx.restored s.cycle)).mapCtx c.uid (fun d => d.restart s.cycle)) := by
  simp [exec_restoreComplete, execRestoreComplete, hat, hrun, hissuer]
  rfl

theorem exec_restoreComplete_of_new {x : Ctx} (hat : s.ctxAt tile.toNat slot.toNat = some c) (hrun : c.run = .restoring)
    (hissuer : s.issuerOf tile.toNat = some x) (hcopies : c.copies = []) :
    exec (.restoreComplete tile slot) s = .next (s.mapCtx c.uid (Ctx.restored s.cycle)) := by
  simp [exec_restoreComplete, execRestoreComplete, hat, hrun, hissuer, hcopies]
  rfl

theorem exec_restoreComplete_of_saved {x : Ctx} (hat : s.ctxAt tile.toNat slot.toNat = some c) (hrun : c.run = .restoring)
    (hissuer : s.issuerOf tile.toNat = some x) (hcopies : c.copies ≠ []) : exec (.restoreComplete tile slot) s =
      .next ((((s.mapCtx c.uid (Ctx.restored s.cycle)).focus x.uid).giveWay).switchIn tile.toNat (some x.uid)) := by
  simp [exec_restoreComplete, execRestoreComplete, hat, hrun, hissuer, hcopies]
  rfl

end

theorem State.mem_mapCtx {s : State} (hs : (s.ctxs.map Ctx.uid).Nodup) {c : Ctx} (hc : c ∈ s.ctxs) (f : Ctx → Ctx) {d : Ctx} :
    d ∈ (s.mapCtx c.uid f).ctxs ↔ d = f c ∨ d ∈ s.ctxs ∧ d.uid ≠ c.uid := by
  rw [State.mapCtx_ctxs, List.mem_map]
  constructor
  · rintro ⟨e, he, rfl⟩
    by_cases huid : e.uid = c.uid
    · exact .inl (by rw [if_pos huid, eq_of_uid hs hc he huid])
    · rw [if_neg huid]
      exact .inr ⟨he, huid⟩
  · rintro (rfl | ⟨hd, huid⟩)
    · exact ⟨c, hc, if_pos rfl⟩
    · exact ⟨d, hd, if_neg huid⟩

theorem State.uids_mapCtx (s : State) (uid : Nat) {f : Ctx → Ctx} (hf : ∀ c, (f c).uid = c.uid) :
    (s.mapCtx uid f).ctxs.map Ctx.uid = s.ctxs.map Ctx.uid := by
  rw [State.mapCtx_ctxs, List.map_map]
  refine List.map_congr_left fun c _ => ?_
  rw [Function.comp_apply]
  split <;> simp [hf]

/-- A context that was saved takes the tile back for the ready context that has waited longest, which may be itself (R107). -/
theorem State.switchBack_spec {s : State} {tile : Nat} {c x : Ctx} (hs : (s.ctxs.map Ctx.uid).Nodup) (hc : c ∈ s.ctxs) (htile : c.tile = tile)
    (hrun : c.run = .restoring) (hissuer : s.issuerOf tile = some x) (hne : x.uid ≠ c.uid) {t : State}
    (ht : (((s.mapCtx c.uid (Ctx.restored s.cycle)).focus x.uid).giveWay).switchIn tile (some x.uid) = t) :
    ∃ y ∈ s.ctxs, t.cur.uid = y.uid ∧ t.cur.run = .issuing ∧ t.cur.pc = y.pc ∧ (y = c ∨ y.run = .ready ∧ y.tile = tile) ∧
      y.lastIssue ≤ c.lastIssue ∧ ∀ z ∈ s.ctxs, z.run = .ready → z.tile = tile → y.lastIssue ≤ z.lastIssue := by
  obtain ⟨hx, hxrun, -⟩ := State.issuerOf_spec hissuer
  have hmem {d : Ctx} := State.mem_mapCtx hs hc (Ctx.restored s.cycle) (d := d)
  have hs0 : ((s.mapCtx c.uid (Ctx.restored s.cycle)).ctxs.map Ctx.uid).Nodup := by
    rw [State.uids_mapCtx s c.uid (f := Ctx.restored s.cycle) fun _ => rfl]
    exact hs
  generalize s.mapCtx c.uid (Ctx.restored s.cycle) = s0 at hmem hs0 ht
  have hx0 : s0.ctxOf x.uid = some x := State.ctxOf_of_mem hs0 (hmem.mpr (.inr ⟨hx, hne⟩))
  have hcur := State.focus_cur_of_ctxOf hx0
  have hothers {d : Ctx} (hd : d ∈ s0.ctxs) (hready : d.run = .ready) : d ∈ (s0.focus x.uid).others := by
    have hfocus := State.mem_focus hs0 hx0 hd (by rw [hready]; decide)
    refine (List.mem_cons.mp hfocus).resolve_left fun he => ?_
    rw [he, hcur, hxrun] at hready
    exact absurd hready (by decide)
  obtain ⟨r, hleaves⟩ := (s0.focus x.uid).giveWay_leaves
  have hback : c.restored s.cycle ∈ (s0.focus x.uid).others := hothers (hmem.mpr (.inl rfl)) rfl
  obtain ⟨y, hy, ⟨hyrun, hytile, -⟩, hle, hnew, -⟩ := hleaves.switchIn (State.nodup_focus hs0 hx0) hback
    (tile := tile) ⟨rfl, htile, by rw [hcur]; exact fun h => hne (Option.some.inj h)⟩
  rw [hcur, ht] at hnew
  rw [hcur] at hle
  have hlec : y.lastIssue ≤ c.lastIssue := hle (c.restored s.cycle) hback ⟨rfl, htile, fun h => hne (Option.some.inj h)⟩
  have hlez : ∀ z ∈ s.ctxs, z.run = .ready → z.tile = tile → y.lastIssue ≤ z.lastIssue := by
    intro z hz hzrun hztile
    have hzc : z.uid ≠ c.uid := fun h => by
      rw [eq_of_uid hs hc hz h, hrun] at hzrun
      exact absurd hzrun (by decide)
    have hzx : x.uid ≠ z.uid := fun h => by
      rw [← eq_of_uid hs hz hx h, hxrun] at hzrun
      exact absurd hzrun (by decide)
    exact hle z (hothers (hmem.mpr (.inr ⟨hz, hzc⟩)) hzrun) ⟨hzrun, hztile, fun h => hzx (Option.some.inj h)⟩
  have hnewrun : t.cur.run = .issuing := congrArg Standing.run hnew
  rcases hmem.mp (State.mem_ctxs_of_focus hs0 hx0 (List.mem_cons_of_mem _ hy)) with rfl | ⟨hys, -⟩
  · exact ⟨c, hc, congrArg Standing.uid hnew, hnewrun, congrArg Standing.pc hnew, .inl rfl, hlec, hlez⟩
  · exact ⟨y, hys, congrArg Standing.uid hnew, hnewrun, congrArg Standing.pc hnew, .inr ⟨hyrun, hytile⟩, hlec, hlez⟩

end Sys2Proof.Machine
namespace Sys2Proof.Certificates
open Sys2Proof Sys2Proof.Machine

/-- Settles O51: what asks a context to stop asks it in one way, its save and its return change it alone, and the switches of its tile leave
every context where it stands. -/
theorem preemptionAndSwitches : Obligations.PreemptionAndSwitches := by
  unfold Obligations.PreemptionAndSwitches
  intro s tile slot part wings c d hat hc becomes room asks stops quantum cl v
  obtain ⟨hmem, htile⟩ := State.ctxAt_spec hat
  have hasks {i : Instr} (hexec : exec i s = .next (s.preempt c)) (hd : s.deviceOf c = some d) : asks i := by
    refine ⟨fun hsoft hs => ⟨_, hexec, State.preempt_soft_spec hc hd hsoft hs⟩, fun x hsoft hgang hx hrun hhard => ?_,
      fun x hsoft hgang hx hrun hparked => ?_, fun hsoft hgang hnone hplan => ?_⟩
    · obtain ⟨hkeeps, hctx⟩ := State.preempt_hard_issuing hc hd hsoft hgang hx hrun hhard
      exact ⟨_, hexec, hctx, hkeeps⟩
    · obtain ⟨hkeeps, dl, rp, hctx⟩ := State.preempt_hard_idle hc hd hsoft hgang hx hrun hparked
      exact ⟨_, ⟨_, hexec, hctx, hkeeps⟩, rfl⟩
    · rw [State.preempt_hard_no_room hc hd hsoft hgang hnone hplan] at hexec
      exact ⟨s, hexec, hc, rfl⟩
  have hmaps {i : Instr} {f : Ctx → Ctx} (hexec : exec i s = .next (s.mapCtx c.uid f)) (hf : ∀ e, (f e).uid = e.uid) : becomes i (f c) :=
    ⟨_, hexec, State.ctxOf_mapCtx_of hc hf, rfl⟩
  have hstops {i : Instr} (hexec : exec i s = .next (s.focus c.uid).hardStop) : stops i := by
    have hstands := (s.focus c.uid).hardStop_stands
    rw [State.focus_cur_of_ctxOf hc] at hstands
    exact ⟨_, hexec, hstands⟩
  refine ⟨fun hd hrun hover hbalance hlender => hasks (exec_quantumExpiry_of_due hat hd hrun hover hbalance hlender) hd,
    fun m hd hstalled hover hcrowded => hasks (exec_waitQuantumExpiry_of_due hat hd hstalled hover hcrowded) hd,
    fun hd honly => hasks (exec_preemptRequest_single honly) hd,
    fun hrun hdue => hstops (exec_hardStop_of_due hat hrun hdue),
    fun m hrun hhard hover hparked hfree => hstops (exec_preempt4096Expiry_of_due hat hc hrun hhard hover hparked hfree),
    fun _ hissuer hs hdue => ?yields,
    fun hrun hissuer => hmaps (exec_debugResume_of_free hat hrun hissuer) fun _ => rfl,
    fun x hrun hissuer => hmaps (exec_debugResume_of_taken hat hrun hissuer) fun _ => rfl,
    fun e hate he hrun hdone => ?saves,
    fun hrun hissuer => ?returns,
    fun x hrun hissuer hcopies => hmaps (exec_restoreComplete_of_new hat hrun hissuer hcopies) fun _ => rfl,
    fun x hrun hissuer hne hs hcopies => ?switches,
    fun i t hrun hwait hdelay hpop =>
      ⟨State.emptyPop_cause hpop, exec_popWTimeout_of_empty hat hc hrun hwait hdelay hpop⟩⟩
  case yields =>
    have hstands := State.yieldTile_stands (State.nodup_focus hs hc) hdue
    rw [State.focus_cur_of_ctxOf hc] at hstands
    exact ⟨_, exec_waitYield_of_due hissuer hdue, hstands⟩
  case saves =>
    obtain ⟨f, hexec⟩ := exec_saveComplete_of_done (v := v) rfl hate hrun hdone
    obtain ⟨hsaved, hnone, hslot⟩ := State.saved_spec he
    refine ⟨_, hexec, ?_, fun hno => ?_, fun x hx hwf y hy => ?_⟩
    · rw [State.ctxOf_mapPart, State.ctxOf_fresh]
      exact hsaved
    · rw [State.mapPart_mem]
      exact hnone hno
    · rw [State.mapPart_mem]
      exact (hslot x hx hwf).2 y hy
  case returns =>
    have hback := State.ctxOf_mapCtx_of (f := Ctx.restored s.cycle) hc fun _ => rfl
    have hrestarted := State.ctxOf_mapCtx_of (c := c.restored s.cycle) (f := fun d => d.restart s.cycle) hback fun _ => rfl
    exact ⟨_, exec_restoreComplete_of_free hat hrun hissuer, hrestarted, rfl⟩
  case switches =>
    obtain ⟨y, hy, hspec⟩ := State.switchBack_spec hs hmem htile hrun hissuer hne rfl
    exact ⟨_, y, exec_restoreComplete_of_saved hat hrun hissuer hcopies, hy, hspec⟩

end Sys2Proof.Certificates
end

section
/-!
SUPPORT. What landing results and a stop of TCLK replace of a context, and what they leave (R113, R114, R124, R311).
-/
namespace Sys2Proof.Machine
open Sys2Proof

/-! ## Landing results -/

/-- d is c after results have landed: registers, the system registers but for the task's numbers, the latches, the results in flight, and the
REP state that a handler's write of TPC discards (R124, R137, R244). -/
def Ctx.Landed (c d : Ctx) : Prop :=
  d = { c with sregs := d.sregs, preds := d.preds, vregs := d.vregs, quires := d.quires, accs := d.accs, stage0 := d.stage0,
               stage1 := d.stage1, sys := d.sys, latches := d.latches, flight := d.flight, parked := d.parked } ∧
    d.parked.isSome = c.parked.isSome ∧ d.sys.taskid = c.sys.taskid ∧ d.sys.swarmid = c.sys.swarmid

theorem Ctx.Landed.refl (c : Ctx) : c.Landed c := ⟨rfl, rfl, rfl, rfl⟩

theorem Ctx.Landed.trans {c d e : Ctx} (h : c.Landed d) (k : d.Landed e) : c.Landed e := by
  obtain ⟨hd, hdp, hdt, hds⟩ := h
  obtain ⟨he, hep, het, hes⟩ := k
  refine ⟨?_, hep.trans hdp, het.trans hdt, hes.trans hds⟩
  rw [hd] at he
  exact he

/-- Other results in flight and other latches are all that a stop adds to the landings. -/
theorem Ctx.Landed.withFlight {c d : Ctx} (h : c.Landed d) (l : List Flight) (x : List (Nat × Latch)) :
    c.Landed { d with flight := l, latches := x } := h.trans ⟨rfl, rfl, rfl, rfl⟩

/-- What landings leave of where a context stands. -/
theorem Ctx.Landed.fields {c d : Ctx} (h : c.Landed d) :
    d.pc = c.pc ∧ d.clk = c.clk ∧ d.loops = c.loops ∧ d.rep = c.rep ∧ d.wait = c.wait ∧ d.accesses = c.accesses := by
  obtain ⟨hd, -⟩ := h
  rw [hd]
  exact ⟨rfl, rfl, rfl, rfl, rfl, rfl⟩

theorem SysRegs.write_task (r : SysRegs) (idx : Nat) (m x : DWord) :
    (r.write idx m x).taskid = r.taskid ∧ (r.write idx m x).swarmid = r.swarmid := by
  unfold SysRegs.write
  split <;> exact ⟨rfl, rfl⟩

theorem Ctx.setS_landed (c : Ctx) (r : SRegNo) (x : SReg) : c.Landed (c.setS r x) := by
  unfold Ctx.setS
  split <;> exact ⟨rfl, rfl, rfl, rfl⟩

theorem Ctx.setP_landed (c : Ctx) (p : PNum) (x : LaneMask) : c.Landed (c.setP p x) := by
  unfold Ctx.setP
  split <;> exact ⟨rfl, rfl, rfl, rfl⟩

theorem Ctx.setV_landed (c : Ctx) (v : VNum) (x : VReg) : c.Landed (c.setV v x) := ⟨rfl, rfl, rfl, rfl⟩

theorem Ctx.markStale_landed (c : Ctx) (v : VNum) : c.Landed (c.markStale v) := by
  unfold Ctx.markStale
  split <;> exact ⟨rfl, rfl, rfl, rfl⟩

theorem Ctx.stage_landed (c : Ctx) (x y : Vector (Word × Bool) 32) : c.Landed { c with stage0 := x, stage1 := y } := ⟨rfl, rfl, rfl, rfl⟩

theorem Ctx.sys_landed (c : Ctx) {x : SysRegs} {p : Option Parked} (hp : p.isSome = c.parked.isSome) (ht : x.taskid = c.sys.taskid)
    (hs : x.swarmid = c.sys.swarmid) : c.Landed { c with sys := x, parked := p } := ⟨rfl, hp, ht, hs⟩

/-- A write of TPC keeps handler mode, whatever it discards (R244). -/
theorem parked_discards_isSome (b : Prop) [Decidable b] (p : Option Parked) (f : Parked → Parked) :
    (if b then p.map f else p).isSome = p.isSome := by
  split
  · exact Option.isSome_map
  · rfl

theorem Ctx.landOne_landed (c : Ctx) (w : Landing) : c.Landed (c.landOne w) := by
  unfold Ctx.landOne
  cases w with
  | scalar => exact c.setS_landed ..
  | pred => exact c.setP_landed ..
  | vector v | scale v => exact (c.markStale_landed v).trans (Ctx.setV_landed _ _ _)
  | quires | accs => exact ⟨rfl, rfl, rfl, rfl⟩
  | sysreg idx mask value =>
    obtain ⟨htask, hswarm⟩ := c.sys.write_task idx mask value
    exact c.sys_landed (parked_discards_isSome ..) htask hswarm
  | flags | popped | drained | tsm => exact c.sys_landed rfl rfl rfl
  | push | shift => exact c.stage_landed _ _

theorem Ctx.invert_landed (c : Ctx) (q : DWord) : c.Landed (c.invert q) := by
  unfold Ctx.invert
  dsimp only
  split
  · exact ⟨rfl, rfl, rfl, rfl⟩
  · exact Ctx.setV_landed ..

/-- Results have landed in the context in view; the other contexts and the partitions stand. -/
def State.Lands (s t : State) : Prop := s.cur.Landed t.cur ∧ t.others = s.others ∧ t.parts = s.parts

theorem State.Lands.trans {s t u : State} (h : s.Lands t) (k : t.Lands u) : s.Lands u :=
  ⟨h.1.trans k.1, k.2.1.trans h.2.1, k.2.2.trans h.2.2⟩

theorem State.withCur_lands {s : State} {c : Ctx} (h : s.cur.Landed c) : s.Lands (s.withCur c) := ⟨h, rfl, rfl⟩

theorem State.Lands.withFlight {s t : State} (h : s.Lands t) (l : List Flight) : s.Lands (t.withCur { t.cur with flight := l }) :=
  h.trans (State.withCur_lands ⟨rfl, rfl, rfl, rfl⟩)

theorem State.landWith_lands (s : State) (w : Landing) (owed : Option DWord) : s.Lands (s.landWith w owed).1 := by
  unfold State.landWith
  dsimp only
  split <;> exact ⟨s.cur.landOne_landed w, rfl, rfl⟩

theorem State.endLanding_lands (s : State) (owed : Option DWord) : s.Lands (s.endLanding owed) := by
  cases owed with
  | none => exact ⟨.refl _, rfl, rfl⟩
  | some q => exact State.withCur_lands (s.cur.invert_landed q)

theorem State.land_lands (s : State) (w : Landing) : s.Lands (s.land w) := (s.landWith_lands w none).trans (State.endLanding_lands _ _)

theorem State.landList_lands (t : Nat) : ∀ (l : List Flight) (s : State) (k : Nat) (owed : Option DWord), s.Lands (s.landList t k owed l)
  | [], s, _, owed => (s.endLanding_lands owed).withFlight []
  | f :: l, s, k, owed => by
    unfold State.landList
    split
    · refine State.Lands.trans ?_ (State.landList_lands t l _ _ _)
      split
      · exact s.landWith_lands ..
      · exact (s.endLanding_lands owed).trans (State.landWith_lands ..)
    · exact (s.endLanding_lands owed).withFlight _

/-! ## A stop (R113, R114) -/

/-- A stop lands results in the context whose accesses keep their bank cycles. -/
theorem State.stop_landed (s : State) : s.cur.stampAll.Landed s.stop.cur :=
  (State.landList_lands _ _ (s.withCur s.cur.stampAll) _ _).1.withFlight _ _

/-- Where the context stands, and its accesses, after a stop. -/
theorem State.stop_fields (s : State) : s.stop.cur.pc = s.cur.pc ∧ s.stop.cur.clk = s.cur.clk ∧ s.stop.cur.loops = s.cur.loops ∧
    s.stop.cur.rep = s.cur.rep ∧ s.stop.cur.wait = s.cur.wait ∧ s.stop.cur.accesses = s.cur.stampAll.accesses := s.stop_landed.fields

theorem State.stop_flight (s : State) : ∀ f ∈ s.stop.cur.flight, f.what.isEntry = true := fun _ hf => (List.mem_filter.mp hf).2

theorem State.stop_latches (s : State) : s.stop.cur.latches = [] := rfl

/-- A stop leaves handler mode as it is. -/
theorem State.stop_handling (s : State) : s.stop.cur.parked.isSome = s.cur.parked.isSome := s.stop_landed.2.1

theorem Ctx.stampAll_stamped (c : Ctx) : ∀ a ∈ c.stampAll.accesses, a.done = true ∨ a.stamp.isSome = true := by
  intro a ha
  obtain ⟨b, -, rfl⟩ := List.mem_map.mp ha
  split
  next h => simpa using h
  next => exact .inr rfl

end Sys2Proof.Machine
end

section
/-!
SUPPORT. Which task a context runs and where its clock stands: accesses that perform, and commands that enter their queues, leave both, and the
partitions with them (R134, R155).
-/
namespace Sys2Proof.Machine
open Sys2Proof

/-- The task of a context, and the clock in whose cycles it stands. -/
structure Identity where
  uid     : Nat
  part    : Nat
  taskid  : DWord
  swarmid : DWord
  clk     : Nat
  modBase : Int
  rate    : Nat

def Ctx.identity (c : Ctx) : Identity := ⟨c.uid, c.part, c.sys.taskid, c.sys.swarmid, c.clk, c.modBase, c.rate⟩

/-- The partitions, the task of the context in view, and those of the others in their order. -/
def State.identities (s : State) : Vector Partition 8 × Identity × List Identity := (s.parts, s.cur.identity, s.others.map Ctx.identity)

theorem State.identities_withCur {s : State} {c : Ctx} (h : c.identity = s.cur.identity) : (s.withCur c).identities = s.identities :=
  congrArg (fun x => (s.parts, x, s.others.map Ctx.identity)) h

theorem Ctx.Landed.identity {c d : Ctx} (h : c.Landed d) : d.identity = c.identity := by
  obtain ⟨hd, -, htask, hswarm⟩ := h
  rw [Ctx.identity, htask, hswarm, hd]
  rfl

theorem State.Lands.identities {s t : State} (h : s.Lands t) : t.identities = s.identities := by
  obtain ⟨hcur, hothers, hparts⟩ := h
  rw [State.identities, hcur.identity, hothers, hparts]
  rfl

/-! ## What an access brings (R132, R184, R339) -/

theorem Ctx.deliver_identity (c : Ctx) (seq : Nat) (k : Sink) (data : List (Nat × Nat)) : (c.deliver seq k data).identity = c.identity := by
  cases k with
  | scalar r bits signed land => unfold Ctx.deliver; dsimp only; split <;> rfl
  | pair r land => unfold Ctx.deliver; dsimp only; split <;> rfl
  | vector v lgm mask land => unfold Ctx.deliver; dsimp only; split <;> rfl
  | discard | quires | accs | queue | record | code => rfl

theorem Ctx.batchDone_identity (c : Ctx) (n : Nat) : (c.batchDone n).identity = c.identity := by
  unfold Ctx.batchDone
  split <;> rfl

theorem Ctx.partDone_identity (c : Ctx) (num : Nat) : (c.partDone num).identity = c.identity := by
  unfold Ctx.partDone
  dsimp only
  split
  · split
    · exact Ctx.batchDone_identity _ _
    · rfl
  · rfl

theorem Ctx.deny_identity (c : Ctx) (cmd : Nat) (ptr : DWord) : (c.deny cmd ptr).identity = c.identity := by
  unfold Ctx.deny Ctx.fail
  dsimp only
  split <;> rfl

theorem Ctx.unshadow_identity (c : Ctx) (keep : Option Nat) (ws : List Nat) : (c.unshadow keep ws).identity = c.identity := by
  unfold Ctx.unshadow
  split <;> rfl

theorem State.bring_identities (s : State) (a : Access) {f : Ctx → Ctx} (hf : ∀ c, (f c).identity = c.identity) :
    (s.bring a f).identities = s.identities := by
  unfold State.bring
  split
  · exact State.identities_withCur (hf _)
  · refine (foldl_keeps State.identities (fun t (x : Flight) => (t.land_lands x.what).identities) _ _).trans (State.identities_withCur ?_)
    split
    · split <;> exact hf { s.cur with flight := [] }
    · exact hf { s.cur with flight := [] }

/-! ## Sites -/

@[simp] theorem State.siteWrite_identities (s : State) (skip : List Nat) (site : Site) (off size value : Nat) :
    (s.siteWrite skip site off size value).identities = s.identities := by cases site <;> rfl

@[simp] theorem State.siteAtomVia_identities (s : State) (shadow : List (Nat × Byte)) (skip : List Nat) (site : Site) (a : Atom) :
    (s.siteAtomVia shadow skip site a).1.identities = s.identities := by cases a <;> exact State.siteWrite_identities ..

theorem State.foldl_siteWrite_identities (s : State) (skip : List Nat) (site : Site) (parts : List Part) :
    (parts.foldl (fun t p => t.siteWrite skip site p.off p.size p.value) s).identities = s.identities :=
  foldl_keeps State.identities (fun t (p : Part) => t.siteWrite_identities skip site p.off p.size p.value) _ _

theorem State.fillLine_identities (s : State) (a : Access) (cmd line off : Nat) (ptr : DWord) :
    (s.fillLine a cmd line off ptr).identities = s.identities := by
  unfold State.fillLine
  split
  · exact State.identities_withCur ((Ctx.partDone_identity _ _).trans (Ctx.deny_identity ..))
  · exact State.identities_withCur rfl

theorem State.takeRun_identities (s : State) (a : Access) (cmd off size : Nat) (ptr : DWord) (rest : List (Site × Nat × Nat × DWord)) :
    (s.takeRun a cmd off size ptr rest).identities = s.identities := by
  unfold State.takeRun
  refine State.identities_withCur ?_
  split <;> split <;> rfl

theorem State.putRun_identities (s : State) (a : Access) (cmd : Nat) (p : Put) (rest : List Put) :
    (s.putRun a cmd p rest).identities = s.identities := by
  unfold State.putRun
  dsimp only
  refine (State.identities_withCur ?_).trans ?_
  · split
    · exact Ctx.partDone_identity _ _
    · rfl
  · split
    · exact State.identities_withCur (s.cur.deny_identity cmd p.ptr)
    · split
      · exact State.siteAtomVia_identities ..
      · exact State.siteWrite_identities ..

theorem State.serveArrival_identities (s : State) (site : Site) (cycle req : Nat) (ask : Ask) :
    (s.serveArrival site cycle req ask).identities = s.identities := by
  unfold State.serveArrival
  split
  · rfl
  · split
    · rfl
    · exact State.foldl_siteWrite_identities ..
    · exact State.siteAtomVia_identities ..
    · rfl

/-! ## Accesses (R155 to R157) -/

theorem State.unshadow_identities (s : State) (own : Option Nat) (ws : List Nat) : (s.unshadow own ws).identities = s.identities := by
  unfold State.unshadow
  split
  · rfl
  · simp [State.identities, Ctx.unshadow_identity, Function.comp_def]

theorem State.perform_identities (s : State) (a : Access) : (s.perform a).identities = s.identities := by
  unfold State.perform
  split
  · exact s.bring_identities a fun c => c.deliver_identity ..
  · exact State.foldl_siteWrite_identities ..
  · exact (State.bring_identities _ a fun c => c.deliver_identity ..).trans rfl
  · refine s.bring_identities a fun c => ?_
    dsimp only
    split <;> split <;> rfl
  · exact State.fillLine_identities ..
  · exact State.identities_withCur (Ctx.partDone_identity _ _)
  · exact State.serveArrival_identities ..
  · exact State.takeRun_identities ..
  · exact State.putRun_identities ..
  · split <;> rfl

theorem State.performHere_identities (s : State) (a : Access) : (s.performHere a).identities = s.identities := by
  unfold State.performHere
  split
  · exact State.identities_withCur rfl
  · dsimp only
    split <;> rw [State.perform_identities]
    · exact State.unshadow_identities ..
    · exact State.unshadow_identities ..

/-- The partitions and the task of the context in view. -/
def State.ownIdentity (s : State) : Vector Partition 8 × Identity := (s.parts, s.cur.identity)

/-- What happens while the model looks at another context, and leaves every task where it is, leaves the one in view. -/
theorem State.ownIdentity_visit (s : State) (uid : Nat) {f : State → State} (hf : ∀ t, (f t).identities = t.identities) :
    ((f (s.lookAt uid)).lookAt s.cur.uid).ownIdentity = s.ownIdentity := by
  obtain ⟨hparts, htasks⟩ := Prod.mk.inj (hf (s.lookAt uid))
  obtain ⟨hcur, hothers⟩ := Prod.mk.inj htasks
  have huid : (f (s.lookAt uid)).cur.uid = (s.lookAt uid).cur.uid := congrArg Identity.uid hcur
  have hstay (h : s.lookAt uid = s) : ((f (s.lookAt uid)).lookAt s.cur.uid).ownIdentity = s.ownIdentity := by
    rw [h] at huid hparts hcur ⊢
    rw [State.lookAt, if_pos huid]
    exact Prod.ext hparts hcur
  by_cases hsame : s.cur.uid = uid
  · exact hstay (if_pos hsame)
  cases hfind : s.others.find? (fun c => c.uid == uid) with
  | none => exact hstay (by rw [State.lookAt, if_neg hsame, hfind])
  | some c =>
    have hcuid : c.uid = uid := by simpa using List.find?_some hfind
    have hlook : s.lookAt uid = { s with cur := c, others := s.cur :: s.others.filter (fun d => d.uid != uid) } := by
      rw [State.lookAt, if_neg hsame, hfind]
    rw [hlook] at hparts hothers huid ⊢
    generalize f { s with cur := c, others := s.cur :: s.others.filter (fun d => d.uid != uid) } = u at hparts hothers huid
    obtain ⟨d, l, hl, hd, -⟩ := List.map_eq_cons_iff.mp hothers
    have hduid : d.uid = s.cur.uid := congrArg Identity.uid hd
    have hback : (u.lookAt s.cur.uid).cur = d ∧ (u.lookAt s.cur.uid).parts = u.parts := by
      rw [State.lookAt, if_neg (by rw [huid, hcuid]; exact Ne.symm hsame), hl]
      simp [hduid]
    exact Prod.ext (hback.2.trans hparts) ((congrArg Ctx.identity hback.1).trans hd)

theorem State.performDue_ownIdentity (cl m : Nat) : ∀ (n : Nat) (s : State), (s.performDue cl m n).ownIdentity = s.ownIdentity
  | 0, _ => rfl
  | n + 1, s => by
    unfold State.performDue
    split
    · rfl
    · exact (State.performDue_ownIdentity cl m n _).trans (s.ownIdentity_visit _ fun t => t.performHere_identities _)

/-- The accesses of a task that goes perform, and leave its partition and its clock (R114). -/
theorem State.finishAccesses_ownIdentity (s : State) : s.finishAccesses.ownIdentity = s.ownIdentity := by
  unfold State.finishAccesses
  split
  · rfl
  · exact State.performDue_ownIdentity ..

/-! ## Commands of a handler (R136) -/

theorem Ctx.mapCommand_identity (c : Ctx) (num : Nat) (f : Command → Command) : (c.mapCommand num f).identity = c.identity := rfl

theorem Ctx.stampAccess_identity (c : Ctx) (m : Nat) (site : Site) (act : Act) : (c.stampAccess m site act).identity = c.identity := rfl

theorem Ctx.enqueue_identity (c : Ctx) (k : Command) : (c.enqueue k).identity = c.identity := by
  unfold Ctx.enqueue
  refine foldl_keeps Ctx.identity ?_ _ _
  exact fun _ _ => rfl

theorem State.readOwn_identities (s : State) (k : Command) (m : Nat) : (s.readOwn k m).identities = s.identities := by
  have hbegun (f g : Command → Command) : ((s.cur.mapCommand k.num f).mapCommand k.num g).identity = s.cur.identity :=
    (Ctx.mapCommand_identity ..).trans (Ctx.mapCommand_identity ..)
  unfold State.readOwn
  dsimp only
  split
  · split
    · exact State.identities_withCur (Ctx.mapCommand_identity ..)
    · exact State.identities_withCur ((Ctx.stampAccess_identity ..).trans (hbegun ..))
  · refine State.identities_withCur ((foldl_keeps Ctx.identity ?_ _ _).trans (hbegun ..))
    exact fun c x => c.stampAccess_identity ..

theorem State.enqueue_identities (s : State) (k : Command) (m : Nat) : (s.enqueue k m).identities = s.identities := by
  have hqueued : (s.withCur (s.cur.enqueue k)).identities = s.identities := State.identities_withCur (s.cur.enqueue_identity k)
  unfold State.enqueue
  dsimp only
  split
  · exact (State.readOwn_identities ..).trans hqueued
  · exact hqueued

theorem State.enter_identities : ∀ (l rest : List Command) (s : State), (s.enter l rest).identities = s.identities
  | [], _, _ => rfl
  | k :: l, rest, s => by
    unfold State.enter
    split
    · exact (State.enter_identities l rest _).trans (State.enqueue_identities ..)
    · exact State.enter_identities l _ s

theorem State.admitHandler_identities (s : State) : s.admitHandler.identities = s.identities := by
  unfold State.admitHandler
  split
  · exact State.enter_identities ..
  · rfl

/-- The clock stands where it has been advanced to (R123). -/
theorem State.advance_clk (s : State) (t : Nat) : (s.advance t).cur.clk = t :=
  congrArg (fun x => x.2.1.clk) (State.admitHandler_identities _)

end Sys2Proof.Machine
end

section
/-!
SUPPORT. The end of a task (R109, R110, R114, R274), traps (R142, R145), and the statement about trap entry.
-/
namespace Sys2Proof.Machine
open Sys2Proof

/-! ## The launch of a context -/

/-- What a launch counts of its tasks (R109, R110). -/
def Launch.counts (l : Launch) : Nat × Nat × Option (Nat × Nat × Nat) := (l.ended, l.faulted, l.fault)

theorem State.launchOf_congr {s t : State} (hparts : t.parts = s.parts) {c d : Ctx} (hpart : d.part = c.part)
    (hswarm : d.sys.swarmid = c.sys.swarmid) : t.launchOf d = s.launchOf c := by
  simp [State.launchOf, State.partOf, Ctx.handle, hparts, hpart, hswarm]

theorem find?_mapLaunch (h : Nat) {f : Launch → Launch} (hf : ∀ l, (f l).handle = l.handle) (l : List Launch) :
    (mapLaunch h f l).find? (fun x => x.handle == h) = (l.find? (fun x => x.handle == h)).map f := by
  have hsame : (fun x : Launch => x.handle == h) ∘ (fun x => if x.handle = h then f x else x) = fun x => x.handle == h := by
    funext x
    simp only [Function.comp_apply]
    split <;> simp [hf]
  rw [mapLaunch, List.find?_map, hsame]
  cases hfind : l.find? (fun x => x.handle == h) with
  | none => rfl
  | some x =>
    have hx : x.handle = h := by simpa using List.find?_some hfind
    simp [hx]

/-- The launch of a context whose own launch is replaced in the Hive. -/
theorem State.launchOf_mapLaunch (s : State) {c : Ctx} (hpart : c.part < 8) {f : Launch → Launch} (hf : ∀ l, (f l).handle = l.handle) :
    (s.mapPart c.part fun p => { p with hive := mapLaunch c.handle f p.hive }).launchOf c = (s.launchOf c).map f := by
  simp [State.launchOf, State.partOf, State.mapPart, hpart, find?_mapLaunch _ hf]

/-! ## Barriers of a task that ends (R274) -/

@[simp] theorem State.barrierDone_cur (s : State) (c : Ctx) (g : Nat) : (s.barrierDone c g).cur = s.cur := by
  unfold State.barrierDone
  split
  · rfl
  · dsimp only
    split
    · rfl
    · exact State.mapPart_cur ..

@[simp] theorem State.barrierDone_issue (s : State) (c : Ctx) (g : Nat) : (s.barrierDone c g).issue = s.issue := by
  unfold State.barrierDone
  split
  · rfl
  · dsimp only
    split
    · rfl
    · exact State.mapPart_issue ..

/-- A barrier that completes leaves what its launch counts. -/
theorem State.counts_barrierDone (s : State) {c : Ctx} (hpart : c.part < 8) (g : Nat) :
    ((s.barrierDone c g).launchOf c).map Launch.counts = (s.launchOf c).map Launch.counts := by
  unfold State.barrierDone
  split
  · rfl
  · dsimp only
    split
    · rfl
    · refine (congrArg _ (State.launchOf_mapLaunch s hpart ?_)).trans (Option.map_map ..)
      exact fun _ => rfl

/-! ## The end of a task (R109, R114) -/

/-- A launch with one more of its tasks ended: at a trap, or, without one, as its program ends it (R109, R110). -/
def Launch.taskEnded (trap : Option (Nat × Nat × Nat)) (l : Launch) : Launch :=
  match trap with
  | none => { l with ended := l.ended + 1 }
  | some x => { l with ended := l.ended + 1, faulted := l.faulted + 1, fault := firstFault l.fault x }

theorem Launch.taskEnded_handle (trap : Option (Nat × Nat × Nat)) (l : Launch) : (l.taskEnded trap).handle = l.handle := by
  cases trap <;> rfl

/-- The trap of a task that ends with a cause code: its cycle, the index of the task, and the code (R110). -/
def Ctx.trapOf (c : Ctx) (code : Option Nat) : Option (Nat × Nat × Nat) := code.map (fun k => (c.module, c.sys.taskid.toNat, k))

/-- The state in which a task has ended, before it leaves its barriers. -/
def State.taskGone (s : State) (code : Option Nat) : State :=
  let t := s.mapPart s.cur.part fun p => { p with hive := mapLaunch s.cur.handle (Launch.taskEnded (s.cur.trapOf code)) p.hive }
  { t with cur := s.cur.ended, issue := { t.issue with ended := true } }

/-- The end of a task in its order: its accesses perform, its launch counts it, and it leaves its barriers. -/
theorem State.endTask_eq (s : State) (code : Option Nat) : ∃ l : List (Nat × BitVec 1024), s.endTask code =
    l.foldl (fun t x => t.barrierDone s.finishAccesses.cur x.1) (s.finishAccesses.taskGone code) := by
  unfold State.endTask
  dsimp only
  split
  · exact ⟨[], by cases code <;> rfl⟩
  next l _ => exact ⟨l.groups, by cases code <;> rfl⟩

theorem State.endTask_spec (s : State) (code : Option Nat) :
    (s.endTask code).cur.run = .ended ∧ (s.endTask code).cur.allocs = [] ∧ (s.endTask code).issue.ended = true := by
  obtain ⟨l, h⟩ := s.endTask_eq code
  have hkeeps := foldl_keeps (fun t : State => (t.cur, t.issue))
    (fun t (x : Nat × BitVec 1024) => Prod.ext (t.barrierDone_cur s.finishAccesses.cur x.1) (t.barrierDone_issue _ x.1)) l
    (s.finishAccesses.taskGone code)
  obtain ⟨hcur, hissue⟩ := Prod.mk.inj hkeeps
  rw [h, hcur, hissue]
  exact ⟨rfl, rfl, rfl⟩

/-- The launch of a task that ends counts it (R109, R110). -/
theorem State.counts_endTask (s : State) (code : Option Nat) {l : Launch} (hl : s.launchOf s.cur = some l) (hpart : s.cur.part < 8) :
    ∃ l', (s.endTask code).launchOf s.cur = some l' ∧ l'.ended = (l.taskEnded (s.cur.trapOf code)).ended ∧
      l'.faulted = (l.taskEnded (s.cur.trapOf code)).faulted ∧ l'.fault = (l.taskEnded (s.cur.trapOf code)).fault := by
  obtain ⟨hparts, hid⟩ := Prod.mk.inj s.finishAccesses_ownIdentity
  obtain ⟨groups, heq⟩ := s.endTask_eq code
  generalize s.finishAccesses = v at hparts hid heq
  have hvpart : v.cur.part = s.cur.part := congrArg Identity.part hid
  have hvswarm : v.cur.sys.swarmid = s.cur.sys.swarmid := congrArg Identity.swarmid hid
  have hvmodule : v.cur.module = s.cur.module :=
    congrArg (fun i : Identity => (i.modBase + (i.rate * i.clk : Nat)).toNat) hid
  have hvtrap : v.cur.trapOf code = s.cur.trapOf code := by
    rw [Ctx.trapOf, hvmodule, show v.cur.sys.taskid = s.cur.sys.taskid from congrArg Identity.taskid hid, Ctx.trapOf]
  have hvl : v.launchOf v.cur = some l := (State.launchOf_congr hparts hvpart hvswarm).trans hl
  have hgone : (v.taskGone code).launchOf v.cur = some (l.taskEnded (s.cur.trapOf code)) := by
    have h := State.launchOf_mapLaunch v (hvpart ▸ hpart) (Launch.taskEnded_handle (v.cur.trapOf code))
    rw [hvl, hvtrap] at h
    exact (State.launchOf_congr (by rw [State.taskGone, hvtrap]) rfl rfl).trans h
  have hcounts := foldl_keeps (fun t : State => (t.launchOf v.cur).map Launch.counts)
    (fun t (x : Nat × BitVec 1024) => t.counts_barrierDone (hvpart ▸ hpart) x.1) groups (v.taskGone code)
  rw [hgone, ← heq, State.launchOf_congr rfl hvpart hvswarm] at hcounts
  obtain ⟨l', hl', hcounts⟩ := Option.map_eq_some_iff.mp hcounts
  obtain ⟨hended, hrest⟩ := Prod.mk.inj hcounts
  obtain ⟨hfaulted, hfault⟩ := Prod.mk.inj hrest
  exact ⟨l', hl', hended, hfaulted, hfault⟩

/-- The accesses of a task that has none under way bring nothing. -/
theorem State.finishAccesses_of_done {s : State} (h : ∀ a ∈ s.cur.accesses, a.done = true ∨ a.act.turn ≠ 0) : s.finishAccesses = s := by
  have hnone : s.cur.accesses.filter (fun a => !a.done && a.act.turn == 0) = [] :=
    List.filter_eq_nil_iff.mpr fun a ha => by rcases h a ha with h | h <;> simp [h]
  rw [State.finishAccesses, if_pos (by rw [Ctx.lastBank, hnone]; rfl)]

/-! ## Traps (R142, R145) -/

theorem causeCode_lt (k : Cause) : causeCode k < 2 ^ 8 := by cases k <;> decide

/-- TCAUSE holds the fields of R145, and nothing is lost of them. -/
theorem Trap.word_toNat (t : Trap) :
    t.word.toNat = (if t.addr then 2 ^ 15 else 0) + t.pos % 8 * 2 ^ 12 + t.cls % 8 * 2 ^ 9 + 2 ^ 8 + causeCode t.cause := by
  have hcode := causeCode_lt t.cause
  have hpos := Nat.mod_lt t.pos (show 0 < 8 by decide)
  have hcls := Nat.mod_lt t.cls (show 0 < 8 by decide)
  have haddr : (if t.addr then 2 ^ 15 else 0) ≤ 2 ^ 15 := by split <;> decide
  rw [Trap.word, BitVec.toNat_ofNat, Nat.mod_eq_of_lt (by omega)]

/-- The system registers as a trap leaves them, but for TPC. -/
def SysRegs.trapped (r : SysRegs) (t : Trap) : SysRegs :=
  { r with tcause := t.word, tinfo := if t.cause = .poisonConsumed then r.tinfo else t.info }

/-- The state that a trap has stopped, with the trap noted. -/
def State.stopFor (s : State) (t : Trap) : State :=
  { s.stop with fresh := s.stop.fresh + 1, issue := { s.stop.issue with trapped := some t, ended := true } }

/-- The state in which a task ends on a trap that is not handled. -/
def State.unhandled (s : State) (t : Trap) : State := (s.stopFor t).withCur { s.stop.cur with sys := s.stop.cur.sys.trapped t }

/-- A context in its handler (R142): c as the stop has left it, d the delay still to serve. -/
def Ctx.enterHandler (c : Ctx) (d : Nat) (t : Trap) : Ctx :=
  { c with
    sys := { c.sys.trapped t with tpc := c.pc }
    parked := some { c := c.clk, d := d, tpc := c.pc, pending := c.flight, depth := c.loops.length, rep := c.rep,
                     arrived := c.wait.bind (·.arrived), floor := c.floor }
    flight := [], late := [], rep := none, wait := none, delay := none, pc := c.sys.tvec, modBase := (c.module : Int) + 3,
    clk := 0, earliest := 0, floor := c.carryFloor 3 }

theorem State.takeTrap_handled {s : State} (d : Nat) (t : Trap) (hparked : s.cur.parked = none) (htvec : s.stop.cur.sys.tvec ≠ 0) :
    s.takeTrap d t = (s.stopFor t).withCur (s.stop.cur.enterHandler d t) := by
  have hhandling : s.stop.cur.handling = false := by rw [Ctx.handling, State.stop_handling, hparked]; rfl
  unfold State.takeTrap
  simp only [hhandling, htvec, decide_false, Bool.or_self, Bool.false_eq_true, if_false]
  rfl

theorem State.takeTrap_unhandled {s : State} (d : Nat) (t : Trap) (h : s.stop.cur.parked.isSome = true ∨ s.stop.cur.sys.tvec = 0) :
    s.takeTrap d t = (s.unhandled t).endTask (some (causeCode t.cause)) := by
  have hends : (s.stop.cur.handling || decide (s.stop.cur.sys.tvec = 0)) = true := by simpa [Ctx.handling] using h
  unfold State.takeTrap
  simp only [hends, if_true]
  rfl

end Sys2Proof.Machine
namespace Sys2Proof.Certificates
open Sys2Proof Sys2Proof.Machine

/-- Settles O10: a stop lands results and stamps accesses, and the trap then enters its handler, or ends the task, which its launch counts. -/
theorem trapsEnterTheHandlerOrEndTheTask : Obligations.TrapsEnterTheHandlerOrEndTheTask := by
  unfold Obligations.TrapsEnterTheHandlerOrEndTheTask
  refine ⟨fun s d t hparked htvec => ?_, fun s d t hunhandled => ?_⟩
  · obtain ⟨hpc, hclk, hloops, hrep, hwait, haccesses⟩ := s.stop_fields
    dsimp only
    rw [State.takeTrap_handled d t hparked htvec]
    refine ⟨rfl, hpc, rfl, t.word_toNat, ?_, s.stop_latches, hloops, rfl, rfl, haccesses, rfl, rfl, rfl, ?_, s.stop_flight, rfl, rfl, rfl, rfl, rfl,
      s.stop_mem⟩
    · exact congrArg (fun x => { s.stop.cur.sys.trapped t with tpc := x }) hpc
    · rw [← hpc, ← hclk, ← hloops, ← hrep, ← hwait]
      rfl
  · obtain ⟨-, -, -, -, -, haccesses⟩ := s.stop_fields
    dsimp only
    rw [State.takeTrap_unhandled d t hunhandled]
    obtain ⟨hrun, hallocs, hended⟩ := (s.unhandled t).endTask_spec (some (causeCode t.cause))
    refine ⟨hrun, hallocs, hended, fun hdone => ?_, fun l hl hpart => ?_⟩
    · rw [State.endTask_mem, State.finishAccesses_of_done]
      · exact s.stop_mem
      · intro a ha
        rw [show (s.unhandled t).cur.accesses = s.stop.cur.accesses from rfl, haccesses] at ha
        obtain ⟨b, hb, rfl⟩ := List.mem_map.mp ha
        have hb := hdone b hb
        split <;> exact hb
    · have hl : (s.unhandled t).launchOf (s.unhandled t).cur = some l := (State.launchOf_congr rfl rfl rfl).trans hl
      obtain ⟨l', hl', hcounts⟩ := (s.unhandled t).counts_endTask (some (causeCode t.cause)) hl hpart
      exact ⟨l', (State.launchOf_congr rfl rfl rfl).trans hl', hcounts⟩

end Sys2Proof.Certificates
end

section
/-!
SUPPORT. EXIT, EXITS and HALT (R105, R108, R269 to R271), and the statement about them.
-/
namespace Sys2Proof.Machine
open Sys2Proof

/-! ## The operations as exec gives them -/

section
variable (s : State) (h : Head)

theorem exec_exit : exec (.exit h) s = execExit h s := rfl
theorem exec_exits (keepq : Bool) (entry : BitVec 8) : exec (.exits h keepq entry) s = execExits h keepq entry s := rfl
theorem exec_halt : exec (.halt h) s = execHalt h s := rfl

end

/-! ## The end of an entry (R270, R271) -/

section
variable {s : State} (hdone : s.issue.passed = true ∨ s.complete = true)
include hdone

theorem State.finishEntry_of_handling (eff : State → State) (hparked : s.settle.cur.parked ≠ none) :
    s.finishEntry eff = s.settle.endTask (some (s.settle.cur.sys.tcause.toNat % 256)) := by
  have hhandling : s.settle.cur.handling = true := Option.isSome_iff_ne_none.mpr hparked
  have hends : (s.issue.passed || s.complete) = true := by simpa using hdone
  simp only [State.finishEntry, hends, hhandling, if_true]

theorem State.finishEntry_of_program (eff : State → State) (hparked : s.settle.cur.parked = none) : s.finishEntry eff = eff s.settle := by
  have hhandling : s.settle.cur.handling = false := by rw [Ctx.handling, hparked]; rfl
  have hends : (s.issue.passed || s.complete) = true := by simpa using hdone
  simp only [State.finishEntry, hends, hhandling, if_true, Bool.false_eq_true, if_false]

end

section
variable {c : Ctx} {args : DWord} {task tasks : Nat} {param : Word} {top : DWord} (hc : c.sregs = startScalars args task tasks param top)
include hc

/-- No scalar is poisoned at the start of a task. -/
theorem Ctx.s_startScalars {r : SRegNo} (hr : r ≠ 0) : c.s r = ((startScalars args task tasks param top)[r.toNat]'r.isLt).value := by
  rw [Ctx.s, Ctx.sreg, if_neg hr, hc]
  simp [startScalars]

/-- The scalars of R105. -/
theorem Ctx.startScalars_spec :
    c.d 1 = args ∧ c.s 4 = BitVec.ofNat 32 task ∧ c.s 5 = BitVec.ofNat 32 tasks ∧ c.s 6 = param ∧ c.s 7 = 0 := by
  have hlow : c.s (lowOf 1) = args.extractLsb' 0 32 := (Ctx.s_startScalars hc (by decide)).trans (by simp [startScalars, lowOf])
  have hhigh : c.s (highOf 1) = args.extractLsb' 32 32 := (Ctx.s_startScalars hc (by decide)).trans (by simp [startScalars, highOf])
  refine ⟨?_, ?_, ?_, ?_, ?_⟩
  · rw [Ctx.d, hlow, hhigh]
    exact BitVec.extractLsb'_append_extractLsb' (w := 32) (len := 32)
  all_goals exact (Ctx.s_startScalars hc (by decide)).trans (by simp [startScalars])

end

/-- A context as EXITS leaves it (R108, R271): at an entry of its image, three cycles on. -/
def Ctx.succeeded (c : Ctx) (img : ImageRec) (l : Launch) (entry : Nat) (keepq : Bool) : Ctx :=
  { (c.begin true keepq l.args l.tasks l.param).issued with
    entry := entry, pc := img.entries.getD entry 0, earliest := c.clk + 3,
    accesses := c.accesses.filterMap Access.outlives, waiting := c.waiting }

/-- What a successor keeps of the entry before it (R108). -/
theorem Ctx.succeeded_keeps (c : Ctx) (img : ImageRec) (l : Launch) (entry : Nat) (keepq : Bool) :
    let d := c.succeeded img l entry keepq
    d.clk = c.clk ∧ d.run = c.run ∧ d.allocs = c.allocs ∧ d.accs = c.accs ∧ d.weights = c.weights ∧ d.sys.grps = c.sys.grps := by
  simp [Ctx.succeeded, Ctx.issued, Ctx.begin]

/-- What a successor starts with (R105), and what it keeps of the entry before it (R108). -/
theorem Ctx.succeeded_spec (c : Ctx) (img : ImageRec) (l : Launch) (entry : Nat) (keepq : Bool) :
    let d := c.succeeded img l entry keepq
    d.pc = img.entries.getD entry 0 ∧ d.entry = entry ∧ d.earliest = c.clk + 3 ∧ d.clk = c.clk ∧ d.run = c.run ∧ d.allocs = c.allocs ∧
      d.quires = (if keepq then c.quires else []) ∧ d.accs = c.accs ∧ d.weights = c.weights ∧ d.loops = [] ∧ d.flight = [] ∧
      d.d 1 = l.args ∧ d.s 4 = BitVec.ofNat 32 (c.sys.taskid.toNat % 2 ^ 16) ∧ d.s 5 = BitVec.ofNat 32 l.tasks ∧ d.s 6 = l.param ∧
      d.s 7 = 0 ∧ d.sys.tvec = 0 ∧ d.sys.jo = 0 ∧ d.sys.lgdef = 0xFF ∧ d.sys.grps = c.sys.grps := by
  have hsregs : (c.succeeded img l entry keepq).sregs = startScalars l.args (c.sys.taskid.toNat % 2 ^ 16) l.tasks l.param
      (stackPointer c.tile (((c.alloc 0).map (fun a => a.size * 64)).getD 0)) := rfl
  obtain ⟨hargs, htask, htasks, hparam, hzero⟩ := Ctx.startScalars_spec hsregs
  obtain ⟨hclk, hrun, hallocs, haccs, hweights, hgrps⟩ := c.succeeded_keeps img l entry keepq
  exact ⟨rfl, rfl, rfl, hclk, hrun, hallocs, rfl, haccs, hweights, rfl, rfl, hargs, htask, htasks, hparam, hzero, rfl, rfl, rfl, hgrps⟩

theorem State.successor_cur {s : State} {img : ImageRec} {l : Launch} (himg : s.imageOf s.cur = some img) (hl : s.launchOf s.cur = some l)
    (entry : Nat) (keepq : Bool) : (s.successor entry keepq).cur = s.cur.succeeded img l entry keepq := by
  unfold State.successor
  simp only [himg, hl]
  rfl

/-! ## HALT (R269) -/

/-- The bundle of HALT takes its effect, and the clock stops one cycle on. -/
def State.halted (s : State) : State :=
  let u := s.finishBundle.stop.noteNext (s.finishBundle.serve (fun _ _ ws => ws))
  { u with cur := { u.cur with run := .halted }, issue := { u.issue with ended := true } }

theorem State.finishBundle_clk (s : State) : s.finishBundle.cur.clk = s.cur.clk + 1 := by
  have hfollow : (s.cur.follow s.issue.size 1).clk = s.cur.clk := by
    unfold Ctx.follow
    split <;> rfl
  exact (State.advance_clk _ _).trans (congrArg (· + 1) hfollow)

/-- A context that halts: what its bundle has left of it, stopped. -/
theorem State.halted_spec (s : State) :
    s.halted.cur.run = .halted ∧ s.halted.cur.clk = s.cur.clk + 1 ∧ s.halted.issue.ended = true ∧ s.halted.cur.pc = s.finishBundle.cur.pc ∧
      s.halted.cur.accesses = s.finishBundle.cur.stampAll.accesses ∧ s.halted.cur.flight = s.finishBundle.stop.cur.flight := by
  obtain ⟨hpc, hclk, -, -, -, haccesses⟩ := s.finishBundle.stop_fields
  obtain ⟨dl, rp, hnote⟩ := s.finishBundle.stop.noteNext_eq (s.finishBundle.serve (fun _ _ ws => ws))
  rw [s.finishBundle_clk] at hclk
  unfold State.halted
  rw [hnote]
  generalize s.finishBundle.stop = u at hpc hclk haccesses
  exact ⟨rfl, hclk, rfl, hpc, haccesses, rfl⟩

end Sys2Proof.Machine
namespace Sys2Proof.Certificates
open Sys2Proof Sys2Proof.Machine

section
variable {s : State} {h : Head}

/-- An EXIT that issues ends its entry. -/
theorem exec_exit_of_issues (hi : Issues s (.exit h) (s.exitTraps (.exit h))) :
    exec (.exit h) s = .next (s.finishEntry fun u => u.endTask none) := by
  rw [exec_exit, execExit, State.issueWith_clear hi.1, if_pos hi.2]

theorem exec_exits_of_issues {keepq : Bool} {entry : BitVec 8} (hi : Issues s (.exits h keepq entry) (trapIf (keepq && !s.cur.array)
    (s.synTrap (.exits h keepq entry) .access) ++ s.exitTraps (.exits h keepq entry))) :
    exec (.exits h keepq entry) s = .next (s.finishEntry fun u => u.successor entry.toNat keepq) := by
  rw [exec_exits, execExits, State.issueWith_clear hi.1, if_pos hi.2]

theorem exec_halt_of_issues (hi : Issues s (.halt h) []) : exec (.halt h) s = .next s.halted := by
  rw [exec_halt, execHalt, State.issueOp_clear hi.1, if_pos hi.2]
  rfl

end

/-- Settles O15: an entry that ends settles its results and ends its task or gives way to its successor, and HALT stops at the next bundle. -/
theorem exitsEndTheEntryAndHaltStops : Obligations.ExitsEndTheEntryAndHaltStops := by
  unfold Obligations.ExitsEndTheEntryAndHaltStops
  refine ⟨fun s h keepq entry hdone => ⟨fun hi hparked => ?exit, fun hi hparked => ?exitInHandler, fun img l hi hparked himg hl => ?exits⟩,
    fun s h hi => ?halt⟩
  case exit =>
    refine ⟨_, (exec_exit_of_issues hi).trans (congrArg _ (State.finishEntry_of_program hdone _ hparked)), ?_⟩
    obtain ⟨hrun, hallocs, hended⟩ := s.settle.endTask_spec none
    exact ⟨hrun, hallocs, hended, fun l hl hpart => s.settle.counts_endTask none hl hpart⟩
  case exitInHandler =>
    refine ⟨_, (exec_exit_of_issues hi).trans (congrArg _ (State.finishEntry_of_handling hdone _ hparked)), ?_⟩
    obtain ⟨hrun, hallocs, hended⟩ := s.settle.endTask_spec (some (s.settle.cur.sys.tcause.toNat % 256))
    exact ⟨hrun, hallocs, hended, fun l hl hpart => s.settle.counts_endTask (some (s.settle.cur.sys.tcause.toNat % 256)) hl hpart⟩
  case exits =>
    refine ⟨_, (exec_exits_of_issues hi).trans (congrArg _ (State.finishEntry_of_program hdone _ hparked)), ?_⟩
    rw [State.successor_cur himg hl]
    exact s.settle.cur.succeeded_spec img l entry.toNat keepq
  case halt =>
    obtain ⟨hrun, hclk, hended, hpc, haccesses, hflight⟩ := s.halted_spec
    refine ⟨_, exec_halt_of_issues hi, hrun, hclk, hended, hpc, ?_, ?_⟩
    · rw [haccesses]
      exact s.finishBundle.cur.stampAll_stamped
    · rw [hflight]
      exact s.finishBundle.stop_flight

end Sys2Proof.Certificates
end

section
/-!
SUPPORT. SPAWN and BAR (R97, R272 to R274), and the statement about them.
-/
namespace Sys2Proof.Machine
open Sys2Proof

/-! ## The operations as exec gives them -/

section
variable (s : State) (h : Head)

theorem exec_spawn (rd : SRegNo) (da : DNum) : exec (.spawn h rd da) s = execSpawn h rd da s := rfl
theorem exec_bar (g : BitVec 8) : exec (.bar h g) s = execBar h g s := rfl

end

/-! ## SPAWN (R272) -/

/-- The dispatcher can take the submission of a SPAWN at issue: its pair is not poisoned and names a record that it can read, its release can
perform, and what the dispatcher needs has come (R97, R272). -/
def SpawnReady (s : State) (i : Instr) (da : DNum) (r : Loc × List Cause) : Prop :=
  s.faults i [] = [] ∧ s.cur.dp da = false ∧ r.2 = [] ∧ (r.1.space < 2 ∨ 5 < r.1.space) ∧ s.deniedTraps i moduleSlices = [] ∧
    s.launchRecord r.1 ≠ .denied ∧ s.released 4 moduleSlices = true ∧ s.spawnAway r.1 = false

section
variable {s : State} {h : Head} {rd : SRegNo} {da : DNum} {r : Loc × List Cause} (hr : s.resolve (s.cur.d da) 0 64 64 .load false = r)
include hr

/-- A SPAWN that has passed its waits, or that the dispatcher can take, submits its record and returns the handle and the status. -/
theorem exec_spawn_of_ready {u : State} {rec : Nat} {l : Launch} (hacts : s.acts (.spawn h rd da) = true)
    (hready : s.issue.passed = true ∨ SpawnReady s (.spawn h rd da) da r)
    (hu : (let v := s.clearTsm moduleSlices; if r.1.space = 0 then v.keepRun v.cur.part r.1.die r.1.off 64 else v) = u)
    (hrec : u.launchRecord r.1 = .got rec) (hl : u.launchOf u.cur = some l) :
    let x := u.submit u.cur.part l.core (some (u.cur.device, u.cur.handle, clusterOf u.cur.tile, u.cur.uid)) (BitVec.ofNat 512 rec)
    exec (.spawn h rd da) s = .next (x.1.withCur ((x.1.cur.pushS rd (BitVec.ofNat 32 (if x.2.status = 0 then x.2.handle else 0)) false 1).pushS
      (rd ||| 1) (BitVec.ofNat 32 (x.2.field * 2 ^ 16 + x.2.status)) false 1)) := by
  have hreleased : (!s.issue.passed && !s.released 4 moduleSlices) = false := by
    rcases hready with hpassed | ⟨-, -, -, -, -, -, hreleased, -⟩
    · simp [hpassed]
    · simp [hreleased]
  have hhere : (!s.issue.passed && s.spawnAway r.1) = false := by
    rcases hready with hpassed | ⟨-, -, -, -, -, -, -, hhere⟩
    · simp [hpassed]
    · simp [hhere]
  rw [exec_spawn]
  unfold execSpawn
  dsimp only at hu ⊢
  rw [hr, State.issueWith_clear, if_pos hacts]
  · simp only [hreleased, hhere, Bool.false_eq_true, if_false, hu, hrec, hl]
  · refine hready.imp_right fun ⟨hfaults, hpoison, hcauses, hspace, hdenied, hrecord, _, _⟩ => ?_
    have hnear : (decide (2 ≤ r.1.space) && decide (r.1.space ≤ 5)) = false := by
      simp only [Bool.and_eq_false_iff, decide_eq_false_iff_not]
      omega
    exact (State.faults_nil_iff ..).mpr
      ⟨hfaults, fun _ => by simp [hnear, hpoison, hcauses, hdenied, hrecord, State.poisonIf, State.locTraps, trapIf]⟩

end

/-! ## Barriers (R273, R274) -/

theorem barrierDelay_eq (x : Nat) : barrierDelay x = if x ≤ 1 then 4 else if x = 2 then 12 else if x = 3 then 40 else 72 := by
  match x with
  | 0 | 1 | 2 | 3 => rfl
  | n + 4 => simp [barrierDelay]

/-- The number under a key, after it has been replaced. -/
theorem find?_setKey (k : Nat) {α : Type} (v : α) (l : List (Nat × α)) : (setKey k v l).find? (fun x => x.1 == k) = some (k, v) := by
  induction l with
  | nil => simp [setKey]
  | cons x l ih =>
    unfold setKey
    split
    · simp
    next hx => simpa [hx] using ih

/-- A member that arrives is at its next generation, and waits (R273). -/
theorem State.arrive_spec (s : State) (g : Nat) : let t := s.arrive g
    t.issue.stalled = true ∧ t.cur.arrivedAt = some (s.cur.generation g + 1) ∧ t.cur.generation g = s.cur.generation g + 1 ∧
      t.cur.sys = s.cur.sys ∧ t.cur.clk = s.cur.clk ∧ t.mem = s.mem := by
  unfold State.arrive
  dsimp only
  refine ⟨rfl, rfl, ?_, ?_, ?_, ?_⟩
  · simp [State.stall, State.stallAs, Ctx.generation, find?_setKey]
  all_goals simp [State.stall, State.stallAs]

end Sys2Proof.Machine
namespace Sys2Proof.Certificates
open Sys2Proof Sys2Proof.Machine

section
variable {s : State} {h : Head} {g : BitVec 8} {x : Nat} (hacts : s.acts (.bar h g) = true) (hfaults : s.faults (.bar h g) [] = [])
  (hnames : namesGroup s.cur.sys.grps g.toNat = true) (hscope : s.groupScope g.toNat = some x)
include hacts hfaults hnames hscope

/-- A BAR of a group that the task names, of a bundle that has passed, that has arrived, or that no denial meets, raises nothing. -/
theorem exec_bar_of_clear (hclear : s.issue.passed = true ∨ s.cur.arrivedAt.isSome = true ∨ s.deniedTraps (.bar h g) (s.fenceBits x) = []) :
    exec (.bar h g) s = .next (if s.issue.passed then s else s.cur.arrivedAt.elim
      (if s.released x (s.fenceBits x) then (s.clearTsm (s.fenceBits x)).arrive g.toNat else s.stall true id)
      (fun n => if s.mayLeave g.toNat n x then s else s.stall true id)) := by
  rw [exec_bar]
  unfold execBar
  dsimp only
  rw [State.issueWith_clear, if_pos hacts, hscope]
  · cases s.cur.arrivedAt <;> rfl
  · refine hclear.imp_right fun hclear => (State.faults_nil_iff ..).mpr ⟨hfaults, fun _ => ?_⟩
    rcases hclear with harrived | hdenied
    · simp [hnames, hscope, Option.isSome_iff_ne_none.mp harrived, trapIf]
    · simp [hnames, hscope, hdenied, trapIf]

end

/-- Settles O16: SPAWN by its submission, BAR by whether its bundle has passed, may leave, or arrives. -/
theorem spawnAndBarriers : Obligations.SpawnAndBarriers := by
  unfold Obligations.SpawnAndBarriers
  refine ⟨?spawn, fun s h g x hacts hfaults hnames hscope => ⟨fun hpassed => ?passed, fun n l m c hpassed harrived hl hdone hle hdelay => ?leaves,
    fun hpassed harrived hdenied hreleased => ?arrives⟩⟩
  case spawn =>
    rintro s h rd da rec l _ rfl hacts r v u hready hrec hl
    exact exec_spawn_of_ready rfl hacts hready rfl hrec hl
  case passed => rw [exec_bar_of_clear hacts hfaults hnames hscope (.inl hpassed), if_pos hpassed]
  case leaves =>
    have hmay : s.mayLeave g.toNat n x = true := by
      rw [← barrierDelay_eq] at hdelay
      have hany : l.barDone.any (fun y => y.1 == g.toNat && decide (n ≤ y.2.1) && decide (y.2.2 + barrierDelay x ≤ s.cur.module)) = true :=
        List.any_eq_true.mpr ⟨_, hdone, by simp [hle, hdelay]⟩
      simp [State.mayLeave, hl, hany]
    rw [exec_bar_of_clear hacts hfaults hnames hscope (.inr (.inl (by rw [harrived]; rfl)))]
    simp [hpassed, harrived, hmay]
  case arrives =>
    refine ⟨(s.clearTsm (s.fenceBits x)).arrive g.toNat, ?_, ?_⟩
    · rw [exec_bar_of_clear hacts hfaults hnames hscope (.inr (.inr hdenied))]
      simp [hpassed, harrived, hreleased]
    · obtain ⟨hstalled, hat, hgeneration, hsys, hclk, hmem⟩ := (s.clearTsm (s.fenceBits x)).arrive_spec g.toNat
      exact ⟨hstalled, hat, hgeneration, congrArg SysRegs.tsm hsys, hclk, hmem⟩

end Sys2Proof.Certificates
end

section
/-!
SUPPORT. What landing results leave of the scalar registers (R124, R251), and the statement about a scalar result.
-/
namespace Sys2Proof.Machine
open Sys2Proof

/-! ## The scalar registers and what lands -/

/-- What a landing result writes to the scalar registers: s0 takes none (R124, R251). -/
def landScalar (x : Vector SReg 32) : Landing → Vector SReg 32
  | .scalar r value poison => if r = 0 then x else x.set r.toNat { value := value, poison := poison } r.isLt
  | _ => x

theorem Ctx.setS_sregs (c : Ctx) (r : SRegNo) (x : SReg) : (c.setS r x).sregs = if r = 0 then c.sregs else c.sregs.set r.toNat x r.isLt := by
  unfold Ctx.setS
  split <;> rfl

theorem Ctx.markStale_sregs (c : Ctx) (v : VNum) : (c.markStale v).sregs = c.sregs := by
  unfold Ctx.markStale
  split <;> rfl

theorem Ctx.stage_sregs (c : Ctx) (x y : Vector (Word × Bool) 32) : { c with stage0 := x, stage1 := y }.sregs = c.sregs := rfl

theorem Ctx.landOne_sregs (c : Ctx) (w : Landing) : (c.landOne w).sregs = landScalar c.sregs w := by
  unfold Ctx.landOne
  cases w with
  | scalar r value poison => exact c.setS_sregs r _
  | pred p => exact c.setP_sregs p _
  | vector v | scale v => exact (Ctx.setV_sregs _ _ _).trans (c.markStale_sregs v)
  | quires | accs | flags | sysreg | popped | drained | tsm => rfl
  | push | shift => exact c.stage_sregs _ _

theorem Ctx.invert_sregs (c : Ctx) (q : DWord) : (c.invert q).sregs = c.sregs := by
  unfold Ctx.invert
  dsimp only
  split <;> rfl

theorem State.landWith_sregs (s : State) (w : Landing) (owed : Option DWord) : (s.landWith w owed).1.cur.sregs = landScalar s.cur.sregs w := by
  unfold State.landWith
  dsimp only
  split <;> exact s.cur.landOne_sregs w

theorem State.endLanding_sregs (s : State) (owed : Option DWord) : (s.endLanding owed).cur.sregs = s.cur.sregs := by
  cases owed with
  | none => rfl
  | some q => exact s.cur.invert_sregs q

/-- The scalars after the results of a list that are readable at a cycle have landed, in order. -/
theorem State.landList_sregs (t : Nat) : ∀ (l : List Flight) (s : State) (k : Nat) (owed : Option DWord),
    (s.landList t k owed l).cur.sregs = ((l.takeWhile (fun f => decide (f.land ≤ t))).map (·.what)).foldl landScalar s.cur.sregs
  | [], s, _, owed => s.endLanding_sregs owed
  | f :: l, s, k, owed => by
    unfold State.landList
    split
    next hland =>
      rw [State.landList_sregs t l, State.landWith_sregs, List.takeWhile_cons_of_pos (by simpa using hland)]
      split
      · rfl
      · rw [State.endLanding_sregs]; rfl
    next hland =>
      rw [List.takeWhile_cons_of_neg (by simpa using hland)]
      exact s.endLanding_sregs owed

theorem State.landTo_sregs (s : State) (t : Nat) : (s.landTo t).cur.sregs =
    ((s.cur.flight.takeWhile (fun f => decide (f.land ≤ t))).map (·.what)).foldl landScalar s.cur.sregs := State.landList_sregs ..

/-! ## A result among those in flight -/

/-- A result that lands after a cycle is not among those that have landed by then. -/
theorem takeWhile_insertFlight_later {f : Flight} {n : Nat} (h : n < f.land) (l : List Flight) :
    (insertFlight f l).takeWhile (fun g => decide (g.land ≤ n)) = l.takeWhile (fun g => decide (g.land ≤ n)) := by
  induction l with
  | nil => simp [insertFlight, h]
  | cons g l ih =>
    unfold insertFlight
    split
    next hbefore =>
      have hland : n < g.land := by
        simp only [Flight.before, Bool.or_eq_true, decide_eq_true_eq, Bool.and_eq_true, beq_iff_eq] at hbefore
        omega
      rw [List.takeWhile_cons_of_neg (by simpa using h), List.takeWhile_cons_of_neg (by simpa using hland)]
    next =>
      rw [List.takeWhile_cons, List.takeWhile_cons, ih]

/-- The newest result lands last of those of its cycle. -/
theorem takeWhile_insertFlight_newest {f : Flight} (hrank : f.what.rank = 1) {l : List Flight} (hnew : ∀ g ∈ l, g.seq < f.seq) :
    (insertFlight f l).takeWhile (fun g => decide (g.land ≤ f.land)) = l.takeWhile (fun g => decide (g.land ≤ f.land)) ++ [f] := by
  induction l with
  | nil => simp [insertFlight]
  | cons g l ih =>
    have hg : g.seq < f.seq := hnew g (by simp)
    have hgrank : g.what.rank ≤ 1 := by unfold Landing.rank; split <;> decide
    have hbefore : f.before g = decide (f.land < g.land) := by
      rw [Flight.before, hrank, decide_eq_false (by omega : ¬1 < g.what.rank), decide_eq_false (by omega : ¬f.seq < g.seq)]
      simp
    rw [insertFlight, hbefore]
    by_cases hland : f.land < g.land
    · rw [if_pos (by simpa using hland), List.takeWhile_cons_of_pos (by simp), List.takeWhile_cons_of_neg (by simpa using hland)]
      rfl
    · rw [if_neg (by simpa using hland), List.takeWhile_cons_of_pos (by simpa using hland), List.takeWhile_cons_of_pos (by simpa using hland),
        ih fun g hg => hnew g (List.mem_cons_of_mem _ hg)]
      rfl

end Sys2Proof.Machine
namespace Sys2Proof.Certificates
open Sys2Proof Sys2Proof.Machine

/-- Settles O4: by the place of the newest result among those in flight, and since landing results fold over the scalars in that order. -/
theorem scalarResultLands : Obligations.ScalarResultLands := by
  unfold Obligations.ScalarResultLands
  intro s r q v p lat _ _ hnew t
  by_cases hr : r = 0
  · subst hr
    exact ⟨rfl, fun _ _ => rfl, fun _ => rfl⟩
  have hpush : t.cur = s.cur.push lat (.scalar r v p) := if_neg hr
  have hflight : t.cur.flight = insertFlight { land := s.cur.clk + lat, seq := s.cur.seq, what := .scalar r v p } s.cur.flight := by rw [hpush]; rfl
  have hsregs : t.cur.sregs = s.cur.sregs := by rw [hpush]; rfl
  have hlanded : (t.landTo (s.cur.clk + lat)).cur.sregs =
      ((s.landTo (s.cur.clk + lat)).cur.sregs).set r.toNat { value := v, poison := p } r.isLt := by
    have hlast := takeWhile_insertFlight_newest (f := { land := s.cur.clk + lat, seq := s.cur.seq, what := .scalar r v p }) rfl hnew
    rw [State.landTo_sregs, State.landTo_sregs, hflight, hsregs, hlast]
    simp only [List.map_append, List.foldl_append, List.map_cons, List.map_nil, List.foldl_cons, List.foldl_nil, landScalar, if_neg hr]
  refine ⟨?_, fun n hn => ?_, fun hq => ?_⟩
  · simp [Ctx.sreg, hlanded]
  · rw [Ctx.sreg, Ctx.sreg, State.landTo_sregs, State.landTo_sregs, hflight, hsregs, takeWhile_insertFlight_later hn]
  · have hne : r.toNat ≠ q.toNat := fun h => hq (BitVec.eq_of_toNat_eq h.symm)
    simp [Ctx.sreg, hlanded, hne]

end Sys2Proof.Certificates
end

section
/-!
SUPPORT. What transfers and ends of bundles do to the loop stack (R126, R262, R265), and the statement about them.
-/
namespace Sys2Proof.Machine
open Sys2Proof

/-! ## The loop stack -/

/-- Entries whose bodies do not hold the target go, from the innermost, up to the first whose body does (R262). -/
theorem trimLoops_append {target : DWord} {lost kept : List LoopEntry}
    (hlost : ∀ e ∈ lost, ¬(e.start.toNat ≤ target.toNat ∧ target.toNat ≤ e.stop.toNat))
    (hkept : ∀ e ∈ kept.head?, e.start.toNat ≤ target.toNat ∧ target.toNat ≤ e.stop.toNat) : trimLoops target (lost ++ kept) = kept := by
  induction lost with
  | nil =>
    cases kept with
    | nil => rfl
    | cons e l => exact if_pos (hkept e rfl)
  | cons e l ih =>
    rw [List.cons_append, trimLoops, if_neg (hlost e (by simp))]
    exact ih fun x hx => hlost x (List.mem_cons_of_mem _ hx)

/-- Entries that the bundle ends for the last time are popped, whatever is below them (R265). -/
theorem loopNext_ended {a next : DWord} {ended : List LoopEntry} (hended : ∀ x ∈ ended, x.stop = a ∧ x.count ≤ 1) (l : List LoopEntry) :
    (loopNext a next (ended ++ l)).1 = (loopNext a next l).1 ∧ (loopNext a next (ended ++ l)).2.1 = (loopNext a next l).2.1 := by
  induction ended with
  | nil => exact ⟨rfl, rfl⟩
  | cons x ended ih =>
    obtain ⟨hstop, hcount⟩ := hended x (by simp)
    rw [List.cons_append, loopNext, if_pos hstop.symm, if_neg (by omega)]
    exact ih fun y hy => hended y (List.mem_cons_of_mem _ hy)

theorem loopNext_elsewhere {a next : DWord} {e : LoopEntry} (h : e.stop ≠ a) (l : List LoopEntry) : loopNext a next (e :: l) = (e :: l, next, false) :=
  if_neg (Ne.symm h)

theorem loopNext_again {a next : DWord} {e : LoopEntry} (h : e.stop = a) (hcount : 1 < e.count) (l : List LoopEntry) :
    loopNext a next (e :: l) = ({ e with count := e.count - 1 } :: l, e.start, true) := by
  rw [loopNext, if_pos h.symm, if_pos hcount]

/-! ## The end of a bundle -/

section
variable {s : State} (hended : s.issue.ended = false)
include hended

/-- The context after a bundle whose transfer was taken. -/
theorem State.closeBundle_transfer {a : DWord} (h : s.issue.target = some a) :
    s.closeBundle.cur = { s.cur.transfer a s.issue.keep s.issue.gap with code := [], early := [] } ∧ s.closeBundle.mem = s.mem := by
  unfold State.closeBundle
  simp [hended, h]

/-- The context after a bundle without a transfer. -/
theorem State.closeBundle_follow (h : s.issue.target = none) :
    s.closeBundle.cur = { s.cur.follow s.issue.size s.issue.gap with code := [], early := [] } := by
  unfold State.closeBundle
  simp [hended, h]

end

/-- The next bundle, when no REP repeats this one. -/
theorem Ctx.follow_fields {c : Ctx} (hrep : c.rep = none) (n gap : Nat) :
    (c.follow n gap).earliest = c.clk + gap ∧ (c.follow n gap).loops = (loopNext c.pc (c.pc + BitVec.ofNat 64 (8 * n)) c.loops).1 ∧
      (c.follow n gap).pc = (loopNext c.pc (c.pc + BitVec.ofNat 64 (8 * n)) c.loops).2.1 := by
  unfold Ctx.follow
  simp only [hrep]
  exact ⟨rfl, rfl, rfl⟩

end Sys2Proof.Machine
namespace Sys2Proof.Certificates
open Sys2Proof Sys2Proof.Machine

/-- Settles O12: a transfer trims the loop stack, and the end of a bundle pops the loops that it ends for the last time. -/
theorem loopStackOfABundle : Obligations.LoopStackOfABundle := by
  unfold Obligations.LoopStackOfABundle
  refine ⟨fun s a lost kept hended htarget hgap hloops hlost hkept => ?transfer, fun s ended rest e hended htarget hgap hrep hdone => ?follow⟩
  case transfer =>
    obtain ⟨hcur, hmem⟩ := State.closeBundle_transfer hended htarget
    dsimp only
    rw [hcur, hmem, hgap, hloops]
    refine ⟨rfl, rfl, ?_, rfl, rfl⟩
    show (if s.issue.keep then s.cur.loops else trimLoops a s.cur.loops) = _
    rw [hloops, trimLoops_append hlost hkept]
  case follow =>
    obtain ⟨hearliest, hstack, hpc⟩ := Ctx.follow_fields hrep s.issue.size s.issue.gap
    dsimp only
    rw [State.closeBundle_follow hended htarget]
    dsimp only
    rw [hearliest, hstack, hpc, hgap]
    have hpop := loopNext_ended (next := s.cur.pc + BitVec.ofNat 64 (8 * s.issue.size)) hdone
    refine ⟨rfl, fun hall => ?_, fun hloops hstop => ?_, fun hloops hstop hcount => ?_⟩
    · rw [hall, ← List.append_nil ended, (hpop []).1, (hpop []).2]
      exact ⟨rfl, rfl⟩
    · rw [hloops, (hpop _).1, (hpop _).2, loopNext_elsewhere hstop]
      exact ⟨rfl, rfl⟩
    · rw [hloops, (hpop _).1, (hpop _).2, loopNext_again hstop hcount]
      exact ⟨rfl, rfl⟩

end Sys2Proof.Certificates
end

section
/-!
SUPPORT. TRAP and SYSC (R267), the return from a trap (R143, R268), and the statement about them.
-/
namespace Sys2Proof.Machine
open Sys2Proof

/-! ## The operations as exec gives them -/

section
variable (s : State) (h : Head)

theorem exec_trap (imm : BitVec 16) : exec (.trap h imm) s = execTrap h imm s := rfl
theorem exec_sysc (imm : BitVec 16) : exec (.sysc h imm) s = execSysc h imm s := rfl
theorem exec_eret : exec (.eret h) s = execEret h s := rfl

end

/-! ## A trap after a bundle (R267) -/

theorem State.clearLate_of_none {s : State} (h : s.cur.late = []) : s.withCur { s.cur with late := [] } = s := by
  rw [← h]
  rfl

/-- A trap that no late one meets is taken before the next bundle. -/
theorem State.trapAfter_of_noLate {s : State} (hlate : s.finishBundle.cur.late = []) (t : Trap) :
    ∃ d, s.trapAfter t = s.finishBundle.openNext.takeTrap d t := by
  unfold State.trapAfter
  dsimp only
  rw [State.clearLate_of_none hlate, hlate]
  exact ⟨_, rfl⟩

/-! ## The return from a trap (R143) -/

theorem State.settle_of_landed {s : State} (h : s.cur.flight = []) : s.settle = s := by
  unfold State.settle State.landTo
  rw [h]
  show s.withCur { s.cur with flight := [] } = s
  rw [← h]
  rfl

/-- The clock restarts in the third module cycle on. -/
theorem State.returnFrom_module (s : State) (p : Parked) : (s.returnFrom p).cur.module = s.cur.module + 3 := by
  show ((s.cur.module : Int) + 3 - (s.cur.rate * p.c : Nat) + (s.cur.rate * p.c : Nat)).toNat = _
  omega

end Sys2Proof.Machine
namespace Sys2Proof.Certificates
open Sys2Proof Sys2Proof.Machine

section
variable {s : State} {h : Head}

/-- TRAP and SYSC finish their bundle and take their trap. -/
theorem exec_trap_of_issues {imm : BitVec 16} (hi : Issues s (.trap h imm) []) :
    exec (.trap h imm) s = .next (s.trapAfter (s.infoTrap (.trap h imm) .brk (imm.setWidth 64))) := by
  rw [exec_trap, execTrap, State.issueOp_clear hi.1, if_pos hi.2]

theorem exec_sysc_of_issues {imm : BitVec 16} (hi : Issues s (.sysc h imm) []) :
    exec (.sysc h imm) s = .next (s.trapAfter (s.infoTrap (.sysc h imm) .syscall (imm.setWidth 64))) := by
  rw [exec_sysc, execSysc, State.issueOp_clear hi.1, if_pos hi.2]

/-- An ERET whose handler has nothing under way returns. -/
theorem exec_eret_of_quiet {p : Parked} (hi : Issues s (.eret h) []) (hparked : s.cur.parked = some p) (hflight : s.cur.flight = [])
    (hquiet : s.cur.unfinishedHere s.cur.clk = []) : exec (.eret h) s = .next (s.returnFrom p) := by
  rw [exec_eret, execEret, State.issueOp_clear hi.1, if_pos hi.2, State.holdUntil_true _ (.inr (by simp [hflight, hquiet])), hparked]
  dsimp only
  rw [State.settle_of_landed hflight]

end

/-- Settles O14: TRAP and SYSC finish their bundle and take their trap, and ERET is the return once nothing of the handler is in flight. -/
theorem systemCallsAndReturns : Obligations.SystemCallsAndReturns := by
  unfold Obligations.SystemCallsAndReturns
  refine ⟨fun s h imm hlate => ⟨fun hi => ?trap, fun hi => ?sysc, s.finishBundle_clk⟩, fun s h p hi hparked hflight hquiet => ?eret⟩
  case trap =>
    obtain ⟨d, hafter⟩ := State.trapAfter_of_noLate hlate (s.infoTrap (.trap h imm) .brk (imm.setWidth 64))
    exact ⟨d, _, rfl, rfl, rfl, by rw [exec_trap_of_issues hi, hafter]⟩
  case sysc =>
    obtain ⟨d, hafter⟩ := State.trapAfter_of_noLate hlate (s.infoTrap (.sysc h imm) .syscall (imm.setWidth 64))
    exact ⟨d, _, rfl, rfl, rfl, by rw [exec_sysc_of_issues hi, hafter]⟩
  case eret =>
    exact ⟨_, exec_eret_of_quiet hi hparked hflight hquiet, rfl, rfl, rfl, rfl, rfl, rfl, s.returnFrom_module p, rfl, rfl, rfl, rfl, rfl, rfl⟩

end Sys2Proof.Certificates
end

section
/-!
SUPPORT. Permutations and moves of whole lanes (R295, R308, R309), the shadow check (R138, R310), and the statement about them.
-/
namespace Sys2Proof.Machine
open Sys2Proof

/-! ## The operations as exec gives them -/

section
variable (s : State) (h : Head)

theorem exec_vperm (lgm : Lgm) (vd va vb : VNum) (ha hb : Bool) : exec (.vperm h lgm vd va vb ha hb) s = execVperm h lgm vd va vb ha hb s := rfl
theorem exec_xlg (lgm : Lgm) (vd va : VNum) (bcast : Bool) (rot : BitVec 3) : exec (.xlg h lgm vd va bcast rot) s = execXlg h lgm vd va bcast rot s := rfl
theorem exec_movv (lgm : Lgm) (vd va : VNum) : exec (.movv h lgm vd va) s = execMovv h lgm vd va s := rfl
theorem exec_movs (sd : SRegNo) (va : VNum) (lane : BitVec 7) : exec (.movs h sd va lane) s = execMovs h sd va lane s := rfl
theorem exec_chk (lgm : Lgm) (va : VNum) : exec (.chk h lgm va) s = execChk h lgm va s := rfl

end

/-! ## A lane of the first register of a source -/

theorem getD_map_lane (l : Nat) (rs : List VReg) : (rs.map (fun x => x.lane l)).getD 0 0 = (rs.getD 0 VReg.zero).lane l := by
  cases rs with
  | nil => simp [VReg.lane, VReg.zero, laneWord]
  | cons r rs => rfl

theorem pushRegs_one (c : Ctx) (vd : VNum) (groups : BitVec 8) (active : LaneMask) (r : VReg) (lat : Nat) :
    c.pushRegs vd groups active [r] lat = c.pushV vd groups active r.bits r.poison lat := by
  simp [Ctx.pushRegs]

/-! ## The lane groups that differ (R310) -/

/-- Two registers differ in an active lane of a lane group, in value or poison. -/
def DiffersIn (a b : VReg) (active : LaneMask) (g : Nat) : Prop :=
  ∃ l, l < 128 ∧ l / 16 = g ∧ active.getLsbD l = true ∧ (a.lane l ≠ b.lane l ∨ a.poison.getLsbD l ≠ b.poison.getLsbD l)

/-- The test of a lane group, as the check makes it. -/
def groupDiffers (a b : VReg) (active : LaneMask) (g : Nat) : Bool :=
  (lanesIn (active &&& groupLanes (BitVec.ofNat 8 (2 ^ g)))).any (fun l => a.lane l != b.lane l || a.poison.getLsbD l != b.poison.getLsbD l)

theorem getLsbD_singleGroup {g k : Nat} (hg : g < 8) : (BitVec.ofNat 8 (2 ^ g)).getLsbD k = decide (k = g) := by
  rw [BitVec.getLsbD_ofNat, Nat.testBit_two_pow]
  by_cases h : g = k
  · subst h
    simp [hg]
  · simp [h, Ne.symm h]

theorem groupDiffers_iff {a b : VReg} {active : LaneMask} {g : Nat} (hg : g < 8) : groupDiffers a b active g = true ↔ DiffersIn a b active g := by
  simp only [groupDiffers, DiffersIn, List.any_eq_true, mem_lanesIn, BitVec.getLsbD_and, Bool.and_eq_true, Bool.or_eq_true, bne_iff_ne]
  constructor
  · rintro ⟨l, ⟨hl, hactive, hgroup⟩, hdiffers⟩
    rw [getLsbD_groupLanes _ hl, getLsbD_singleGroup hg, decide_eq_true_eq] at hgroup
    exact ⟨l, hl, hgroup, hactive, hdiffers⟩
  · rintro ⟨l, hl, hgroup, hactive, hdiffers⟩
    refine ⟨l, ⟨hl, hactive, ?_⟩, hdiffers⟩
    rw [getLsbD_groupLanes _ hl, getLsbD_singleGroup hg, decide_eq_true_eq]
    exact hgroup

/-- The groups that differ, bit by bit. -/
theorem foldl_bits (f : Nat → Bool) : ∀ n, (List.range n).foldl (fun k g => if f g then k + 2 ^ g else k) 0 = laneMaskOf f n
  | 0 => rfl
  | n + 1 => by
    rw [List.range_succ, List.foldl_append, foldl_bits f n, laneMaskOf]
    by_cases h : f n <;> simp [h]

/-- The mask whose bits are the lane groups that differ. -/
theorem differing_eq {a b : VReg} {active : LaneMask} {m : BitVec 8} (hm : ∀ g, g < 8 → (m.getLsbD g = true ↔ DiffersIn a b active g)) :
    differing a b active = m.toNat := by
  have hbits : differing a b active = laneMaskOf (groupDiffers a b active) 8 := foldl_bits _ 8
  rw [hbits]
  refine Nat.eq_of_testBit_eq fun g => ?_
  by_cases hg : g < 8
  · rw [laneMaskOf_testBit _ hg, Bool.eq_iff_iff, groupDiffers_iff hg]
    exact (hm g hg).symm
  · have hpow : 2 ^ 8 ≤ 2 ^ g := Nat.pow_le_pow_right (by decide) (by omega)
    rw [Nat.testBit_lt_two_pow (Nat.lt_of_lt_of_le (laneMaskOf_lt _ 8) hpow), Nat.testBit_lt_two_pow (Nat.lt_of_lt_of_le m.isLt hpow)]

end Sys2Proof.Machine
namespace Sys2Proof.Certificates
open Sys2Proof Sys2Proof.Machine

theorem source_head (s : State) (i : Instr) (a l : Nat) : source s i a 0 l = (((s.sources i).getD a []).getD 0 VReg.zero).lane l := getD_map_lane l _

/-- A syllable that writes one register and no flag. -/
theorem writesLanes_one {s : State} {i : Instr} {h : Head} {vd : VNum} {lat : Nat} {bits : VBits} {poison : LaneMask} {latches : List (Nat × Latch)}
    {word : Nat → Word} (hword : ∀ l, l < 128 → (s.activeLanes i h).getLsbD l = true → laneWord bits l = word l) :
    let t := s.withCur (s.cur.pushV vd (s.groups i) (s.activeLanes i h) bits poison lat)
    WritesLanes s (t.withCur { t.cur with latches := latches }) i h vd 1 lat 0 (fun _ => poison) (fun _ l => word l) := by
  refine ⟨fun _ => bits, latches, fun _ l _ hl hactive => hword l hl hactive, ?_⟩
  simp [Ctx.pushJF]

/-- Settles O27: lane by lane, and the shadow check by the mask of the lane groups that differ. -/
theorem permutationsMovesAndShadowCheck : Obligations.PermutationsMovesAndShadowCheck := by
  unfold Obligations.PermutationsMovesAndShadowCheck
  refine ⟨fun s h lgm vd va vb ha hb bcast rot sd lane => ⟨fun hi => ?perm, fun hi => ?xlg, fun hi => ?movv, fun hi => ?movs⟩,
    fun s h lgm va => fun hi => ⟨fun hsame => ?same, fun m hm hne => ?differs⟩⟩
  case perm =>
    refine ⟨_, _, (exec_vperm ..).trans (State.issueV_clear hi.1 hi.2 _), writesLanes_one fun l hl hactive => ?_, fun l hl hactive => ?_⟩
    · dsimp only
      rw [laneWord_buildLanes _ _ hl, if_pos hactive, source_head, Nat.mul_comm]
    · dsimp only
      rw [getLsbD_buildMask _ _ hl, hactive, Bool.true_and, source_head, Nat.mul_comm]
  case xlg =>
    refine ⟨_, _, (exec_xlg ..).trans ((State.issueOp_clear hi.1 _).trans (congrArg _ (if_pos hi.2))), fun l hl hactive => ⟨?_, ?_⟩⟩
    · rw [laneWord_buildLanes _ _ hl]
      exact if_pos hactive
    · rw [getLsbD_buildMask _ _ hl]
      exact (congrArg (· && _) hactive).trans (Bool.true_and _)
  case movv =>
    rw [exec_movv, execMovv, State.issueOp_clear hi.1, if_pos hi.2, pushRegs_one]
    rfl
  case movs => rw [exec_movs, execMovs, State.issueOp_clear hi.1, if_pos hi.2]
  case same =>
    have hnone : differing (s.cur.v va) (s.cur.v (va + 32)) (s.activeLanes (.chk h lgm va) h) = 0 :=
      differing_eq (m := 0) fun g _ => ⟨fun hbit => by simp at hbit, fun hbad => absurd hbad (hsame g)⟩
    rw [exec_chk, execChk, State.issueOp_clear hi.1, if_pos hi.2]
    exact congrArg _ (if_pos hnone)
  case differs =>
    have hgroups : differing (s.cur.v va) (s.cur.v (va + 32)) (s.activeLanes (.chk h lgm va) h) = m.toNat := differing_eq hm
    have hsome : m.toNat ≠ 0 := fun hzero => hne (BitVec.eq_of_toNat_eq hzero)
    refine ⟨s.infoTrap (.chk h lgm va) .shadowMismatch (BitVec.ofNat 64 (m.toNat * 2 ^ 8 + va.toNat)), rfl, ?_, ?_⟩
    · have hm := m.isLt
      have hva := va.isLt
      show (BitVec.ofNat 64 (m.toNat * 2 ^ 8 + va.toNat)).toNat = _
      rw [BitVec.toNat_ofNat]
      omega
    · rw [exec_chk, execChk, State.issueOp_clear hi.1, if_pos hi.2]
      simp only [hgroups, hsome, if_false]

end Sys2Proof.Certificates
end

section
/-!
SUPPORT. A load whose bytes an earlier syllable of its bundle has brought, of an allocation in space 2 (R149, R156), and the statement about loads.
-/
namespace Sys2Proof.Machine
open Sys2Proof

/-! ## A byte that is known at issue -/

/-- Byte 0 of allocation 2 of the task on tile 0, by a space-2 address. -/
def ownByteInSpace2 : Loc :=
  { addr := 0x20020000_00000000, space := 2, die := 0, cluster := 0, peer := 0, off := 0, atag := 2, control := false, holders := [(0, 0)] }

/-- A task on tile 0 with that allocation, whose bundle has read the byte before its issue. -/
def knowsByte : State :=
  { State.reset with cur := { Ctx.empty with uid := 1, run := .issuing, allocs := [⟨2, 0, 1200, 0⟩], early := [((Region.scratch 0).addr 0, 0)] } }

/-- The byte as a piece of a load. -/
def onePiece : Piece := { lane := 0, off := 0, size := 1 }

theorem knowsByte_known : knowsByte.known ownByteInSpace2 onePiece = some 0 := by decide +kernel

end Sys2Proof.Machine
namespace Sys2Proof.Certificates
open Sys2Proof Sys2Proof.Machine

/-- Outside space 1 there is one bank cycle, and nothing cannot be parted into it. -/
theorem not_partedInto_nil {α : Type} {l : Loc} (hspace : l.space ≠ 1) (gs : List (Nat × List α)) : ¬PartedInto gs l [] := by
  rintro ⟨-, hgroups, hone⟩
  obtain ⟨-, hsome⟩ := hgroups (0, []) (by simp [hone hspace])
  exact hsome rfl

/-- Refutes O34: of a load outside space 1 whose bytes are all known at issue no access is left, so that no bank cycle remains, where the statement
wants one with at least one piece. -/
theorem not_loadsReadTheirPlaces : ¬ Obligations.LoadsReadTheirPlaces := by
  unfold Obligations.LoadsReadTheirPlaces
  rintro ⟨-, hloads⟩
  obtain ⟨gs, hparted, -⟩ := hloads knowsByte ownByteInSpace2 [[onePiece]] .discard 0 0 0 0 0 false false (by decide)
  have hknown : ([[onePiece]].flatten.filter (fun p => (knowsByte.known ownByteInSpace2 p).isNone)) = [] := by
    simp [knowsByte_known]
  rw [hknown] at hparted
  exact not_partedInto_nil (by decide) gs hparted

end Sys2Proof.Certificates
end

section
/-!
SUPPORT. What a trap leaves of the writes that a context has waited on (R180), and the statement about faults.
-/
namespace Sys2Proof.Machine
open Sys2Proof

/-! ## The epoch of a context -/

/-- The epoch of the context in view after a step. -/
def epochAfter (s : State) (i : Instr) : Option Nat :=
  match exec i s with
  | .next t => some t.cur.epoch
  | _ => none

theorem epochAfter_of_next {s t : State} {i : Instr} (h : exec i s = .next t) : epochAfter s i = some t.cur.epoch := by
  rw [epochAfter, h]

/-- A clock that stops with nothing in flight leaves the epoch and the special registers. -/
theorem State.stop_of_landed {s : State} (h : s.cur.flight = []) : s.stop = s.withCur { s.cur.stampAll with flight := [], latches := [] } := by
  have hflight : s.cur.stampAll.flight = [] := h
  unfold State.stop
  simp only [State.withCur_cur, hflight]
  rfl

/-- A trap with a handler leaves the epoch. -/
theorem State.takeTrap_epoch {s : State} (hflight : s.cur.flight = []) (hparked : s.cur.parked = none) (htvec : s.cur.sys.tvec ≠ 0) (d : Nat) (t : Trap) :
    (s.takeTrap d t).cur.epoch = s.cur.epoch := by
  have hstop := State.stop_of_landed hflight
  rw [State.takeTrap_handled d t hparked (by rw [hstop]; exact htvec), hstop]
  rfl

/-! ## A SPAWN with a static fault (R140, R272) -/

/-- A context that issues in program mode, with a trap handler. -/
def withHandler : State :=
  { State.reset with cur := { Ctx.empty with uid := 1, run := .issuing, sys := { SysRegs.zero with tvec := 0x1000 } } }

/-- SPAWN with an odd destination, which is an illegal syllable. -/
def oddSpawn : Instr := .spawn { last := true, stall := 0, old := false, pred := 0, psns := false } 5 8

/-- Its trap clears the TSM bits of the module all the same, and with them begins a new epoch. -/
theorem epoch_after_oddSpawn : epochAfter withHandler oddSpawn = some 1 := by decide +kernel

end Sys2Proof.Machine
namespace Sys2Proof.Certificates
open Sys2Proof Sys2Proof.Machine

/-- Refutes O40: the trap of a SPAWN with a static fault, whose pair is in order and meets no denial, clears the TSM bits of the module and
begins a new epoch of the context, as its release does (R272). -/
theorem not_faultsTakeTheirTraps : ¬ Obligations.FaultsTakeTheirTraps := by
  unfold Obligations.FaultsTakeTheirTraps
  rintro ⟨hstatic, -⟩
  obtain ⟨t, d, f, hstep, -⟩ := hstatic withHandler oddSpawn .illegalSyllable rfl rfl (by decide)
  have hafter := epoch_after_oddSpawn
  rw [epochAfter_of_next hstep, State.takeTrap_epoch rfl rfl (show (0x1000 : DWord) ≠ 0 by decide)] at hafter
  exact absurd (Option.some.inj hafter) Nat.zero_ne_one

end Sys2Proof.Certificates
end

section
/-!
SUPPORT. What the syllables that only write registers add to the results in flight (R124, R251, R277, R280), shared operation by shared operation,
and the statement about their frame.
-/
namespace Sys2Proof.Machine
open Sys2Proof

/-! ## Results among those in flight -/

theorem mem_insertFlight {f g : Flight} {l : List Flight} : g ∈ insertFlight f l ↔ g = f ∨ g ∈ l := by
  induction l with
  | nil => simp [insertFlight]
  | cons x l ih =>
    unfold insertFlight
    split
    · simp
    · rw [List.mem_cons, ih, List.mem_cons, or_left_comm]

/-- The registers of a pair, by its number and by that of its first register (R251). -/
theorem lowOf_eq : ∀ d : DNum, lowOf d = d ++ 0#1 := by decide
theorem highOf_eq : ∀ d : DNum, highOf d = d ++ 1#1 := by decide
theorem lowOf_half : ∀ r : SRegNo, r.getLsbD 0 = false → lowOf (BitVec.ofNat 4 (r.toNat / 2)) = r := by decide
theorem highOf_half : ∀ r : SRegNo, r.getLsbD 0 = false → highOf (BitVec.ofNat 4 (r.toNat / 2)) = r ||| 1 := by decide

/-- An UNPK writes eight registers at most (R307). -/
theorem unpkSpan_le : ∀ fmt src : Fmt, unpkSpan fmt src ≤ 8 := by decide

theorem arithLat_pos (o : Arith) (fmt : Fmt) (k : Nat) : 0 < arithLat o fmt k := by
  cases o with
  | div =>
    simp only [arithLat]
    split <;> omega
  | _ =>
    simp only [arithLat]
    omega

theorem fnLat_pos (f : Fn) (fmt : Fmt) (k : Nat) : 0 < fnLat f fmt k := by
  unfold fnLat
  split
  case h_4 => omega
  all_goals split <;> omega

/-- A source has at most the registers of a jet group (R217). -/
theorem length_source (s : State) (i : Instr) (a : Nat) : ((s.sources i).getD a []).length ≤ s.issue.jo + 1 := by
  rw [State.sources, List.getD_eq_getElem?_getD, List.getElem?_map]
  cases (shapeOf i).srcs[a]? with
  | none => simp
  | some x =>
    have horder : x.order s.issue.jo ≤ s.issue.jo := by
      unfold VSrc.order
      split <;> omega
    simpa [Ctx.operand] using horder

end Sys2Proof.Machine
namespace Sys2Proof.Certificates
open Sys2Proof Sys2Proof.Machine

/-! ## What a syllable adds -/

/-- The context d is c with results of i added, that land later. -/
def Gains (i : Instr) (c d : Ctx) : Prop :=
  c.OnlyResults d ∧ (∀ f ∈ c.flight, f ∈ d.flight) ∧ ∀ f ∈ d.flight, f ∈ c.flight ∨ (c.clk < f.land ∧ reaches i f.what)

section
variable {i : Instr} {c d e : Ctx}

theorem Gains.refl (i : Instr) (c : Ctx) : Gains i c c := ⟨.refl c, fun _ h => h, fun _ h => .inl h⟩

theorem Gains.trans (h : Gains i c d) (k : Gains i d e) : Gains i c e := by
  obtain ⟨honly, hkeeps, hnew⟩ := h
  obtain ⟨konly, kkeeps, knew⟩ := k
  have hclk : d.clk = c.clk := honly.fields.2.2.2.2.2.2.2.2.2.2.2.2.2.2.1
  refine ⟨honly.trans konly, fun f hf => kkeeps f (hkeeps f hf), fun f hf => ?_⟩
  rcases knew f hf with hold | ⟨hland, hreach⟩
  · exact hnew f hold
  · exact .inr ⟨hclk ▸ hland, hreach⟩

theorem Gains.foldl {α : Type} {f : Ctx → α → Ctx} {l : List α} (h : ∀ a ∈ l, ∀ c, Gains i c (f c a)) (c : Ctx) : Gains i c (l.foldl f c) := by
  induction l generalizing c with
  | nil => exact .refl i c
  | cons a l ih => exact (h a (by simp) c).trans (ih (fun b hb => h b (List.mem_cons_of_mem _ hb)) _)

theorem Gains.push {lat : Nat} {w : Landing} (c : Ctx) (hlat : 0 < lat) (hw : reaches i w) : Gains i c (c.push lat w) := by
  refine ⟨c.push_onlyResults lat w, fun f hf => mem_insertFlight.mpr (.inr hf), fun f hf => ?_⟩
  rcases mem_insertFlight.mp hf with rfl | hold
  · exact .inr ⟨Nat.lt_add_of_pos_right hlat, hw⟩
  · exact .inl hold

/-- A result that may be discarded. -/
theorem Gains.ite {p : Prop} [Decidable p] (h : ¬p → Gains i c d) : Gains i c (if p then c else d) := by
  split
  · exact .refl i c
  next hp => exact h hp

theorem Gains.pushS {r : SRegNo} {x : Word} {p : Bool} {lat : Nat} (c : Ctx) (hlat : 0 < lat) (hr : r ∈ scalarDests i) :
    Gains i c (c.pushS r x p lat) := .ite fun hne => .push c hlat ⟨hr, hne⟩

theorem Gains.pushD {dd : DNum} {x : DWord} {p : Bool} {lat : Nat} (c : Ctx) (hlat : 0 < lat) (hlow : lowOf dd ∈ scalarDests i)
    (hhigh : highOf dd ∈ scalarDests i) : Gains i c (c.pushD dd x p lat) := (Gains.pushS c hlat hlow).trans (Gains.pushS _ hlat hhigh)

theorem Gains.pushP {pd : PNum} {m x : LaneMask} {lat : Nat} (c : Ctx) (hlat : 0 < lat) (hp : pd ∈ predDests i) : Gains i c (c.pushP pd m x lat) :=
  .ite fun hne => .push c hlat ⟨hp, hne⟩

theorem Gains.pushJF {jf : DWord} {lat : Nat} (c : Ctx) (hlat : 0 < lat) (hv : (vectorDest i).isSome = true) : Gains i c (c.pushJF jf lat) :=
  .ite fun _ => .push c hlat hv

theorem Gains.pushQ {ops : List (Nat × QuireOp)} {lat : Nat} {q : QNum} (c : Ctx) (hlat : 0 < lat) (hq : quireDest i = some q)
    (hops : ∀ x ∈ ops, x.1 / 128 = q.toNat) : Gains i c (c.pushQ ops lat) := .ite fun _ => .push c hlat ⟨q, hq, hops⟩

section
variable {vd : VNum} {groups : BitVec 8} {active poison : LaneMask} {lat : Nat} (c : Ctx) (hlat : 0 < lat) (hv : vectorDest i = some vd)
include hlat hv

/-- A vector result of one of the first eight registers. -/
theorem Gains.pushV {bits : VBits} {r : Nat} (hr : r < 8) : Gains i c (c.pushV (vd + BitVec.ofNat 6 r) groups active bits poison lat) := by
  refine .ite fun _ => .push c hlat ⟨vd, hv, ?_⟩
  rw [add_sub_cancel_left, BitVec.toNat_ofNat]
  omega

theorem Gains.pushV_first {bits : VBits} : Gains i c (c.pushV vd groups active bits poison lat) := by
  have h := Gains.pushV (groups := groups) (active := active) (poison := poison) (bits := bits) c hlat hv (r := 0) (by decide)
  simpa using h

theorem Gains.pushLanes {n : Nat} {out : List (Nat × LaneResult)} (hn : n ≤ 8) : Gains i c (c.pushLanes vd n groups active out poison lat) :=
  .foldl (fun _ hr c => .pushV c hlat hv (Nat.lt_of_lt_of_le (List.mem_range.mp hr) hn)) c

/-- Registers copied from some register on, within the first eight. -/
theorem Gains.pushRegs {rs : List VReg} {k : Nat} (hn : k + rs.length ≤ 8) :
    Gains i c (c.pushRegs (vd + BitVec.ofNat 6 k) groups active rs lat) := by
  refine .foldl (fun r hr c => ?_) c
  have hr := List.mem_range.mp hr
  rw [List.getElem?_eq_getElem hr]
  dsimp only
  rw [BitVec.add_assoc, ← BitVec.ofNat_add]
  exact .pushV c hlat hv (by omega)

theorem Gains.pushRegs_first {rs : List VReg} (hn : rs.length ≤ 8) : Gains i c (c.pushRegs vd groups active rs lat) := by
  have h := Gains.pushRegs (groups := groups) (active := active) c hlat hv (rs := rs) (k := 0) (by omega)
  simpa using h

end

end

/-! ## The frame of a step -/

/-- The state t is s with results of i added and other latches. -/
def Frames (i : Instr) (s t : State) : Prop := ∃ d latches, Gains i s.cur d ∧ t = s.withCur { d with latches := latches }

section
variable {i : Instr} {s t : State}

theorem Frames.of_gains {d : Ctx} (h : Gains i s.cur d) : Frames i s (s.withCur d) := ⟨d, d.latches, h, rfl⟩

theorem Frames.relatch (h : Frames i s t) (latches : List (Nat × Latch)) : Frames i s (t.withCur { t.cur with latches := latches }) := by
  obtain ⟨d, _, hd, rfl⟩ := h
  exact ⟨d, latches, hd, rfl⟩

/-- What the statement says of a step that frames. -/
theorem Frames.spec (h : Frames i s t) :
    t = s.withCur { s.cur with flight := t.cur.flight, seq := t.cur.seq, latches := t.cur.latches } ∧
      (∀ f ∈ s.cur.flight, f ∈ t.cur.flight) ∧ ∀ f ∈ t.cur.flight, f ∈ s.cur.flight ∨ (s.cur.clk < f.land ∧ reaches i f.what) := by
  obtain ⟨d, latches, ⟨honly, hkeeps, hnew⟩, rfl⟩ := h
  refine ⟨?_, hkeeps, hnew⟩
  rw [honly]
  rfl

section
variable (hp : s.issue.passed = true)
include hp

/-- A syllable of a bundle that has been judged frames when its effect does. -/
theorem Frames.issueOp {own : List Trap} {eff : State → State} (hstep : s.issueOp i own eff = .next t) (heff : Frames i s (eff s)) : Frames i s t := by
  rw [State.issueOp_clear (.inl hp)] at hstep
  cases hstep
  split
  · exact heff
  · exact .of_gains (.refl i s.cur)

theorem Frames.issueV {own : List Trap} {eff : State → State} (hstep : s.issueV i own eff = .next t) (heff : Frames i s (eff s)) : Frames i s t :=
  Frames.issueOp hp hstep (heff.relatch _)

/-! ## The shared operations -/

theorem Frames.alu2 {rd ra rb : SRegNo} {lat : Nat} {f : Word → Word → Word} (hstep : s.alu2 i rd ra rb lat f = .next t) (hlat : 0 < lat)
    (hr : rd ∈ scalarDests i) : Frames i s t := .issueOp hp hstep (.of_gains (.pushS _ hlat hr))

theorem Frames.alu1 {rd ra : SRegNo} {f : Word → Word} (hstep : s.alu1 i rd ra f = .next t) (hr : rd ∈ scalarDests i) : Frames i s t :=
  .issueOp hp hstep (.of_gains (.pushS _ Nat.one_pos hr))

theorem Frames.testP {pd : PNum} {poison value : Bool} (hstep : s.testP i pd poison value = .next t) (hr : pd ∈ predDests i) : Frames i s t :=
  .issueOp hp hstep (.of_gains (.pushP _ Nat.one_pos hr))

theorem Frames.predOp {pd : PNum} {f : Ctx → LaneMask} (hstep : s.predOp i pd f = .next t) (hr : pd ∈ predDests i) : Frames i s t :=
  .issueOp hp hstep (.of_gains (.pushP _ Nat.one_pos hr))

theorem Frames.pair2 {dd da db : DNum} {f : DWord → DWord → DWord} (hstep : s.pair2 i dd da db f = .next t)
    (hr : scalarDests i = [dd ++ 0#1, dd ++ 1#1]) : Frames i s t :=
  .issueOp hp hstep (.of_gains (.pushD _ Nat.two_pos (by simp [hr, lowOf_eq]) (by simp [hr, highOf_eq])))

theorem Frames.compareLanes {h : Head} {pd : PNum} {lat w elems : Nat} {test : Nat → Nat → Bool}
    (hstep : s.compareLanes i h pd lat w elems test = .next t) (hlat : 0 < lat) (hr : pd ∈ predDests i) : Frames i s t :=
  .issueV hp hstep (.of_gains (.ite fun _ => .pushP _ hlat hr))

theorem Frames.quireOp {h : Head} {q : QNum} {lat : Nat} {f : State → Nat → QuireOp} (hstep : s.quireOp i h q lat f = .next t) (hlat : 0 < lat)
    (hq : quireDest i = some q) : Frames i s t := by
  refine .issueV hp hstep (.of_gains (.pushQ _ hlat hq fun x hx => ?_))
  obtain ⟨l, hl, rfl⟩ := List.mem_map.mp hx
  have hlane := (mem_lanesIn.mp hl).1
  show (q.toNat * 128 + l) / 128 = q.toNat
  omega

end

section
variable {h : Head} {vd : VNum} {n lat : Nat} {psn : Bool} {more : LaneMask} {f : Nat → List (List Word) → LaneResult}

theorem Frames.laneOp (hlat : 0 < lat) (hn : n ≤ 8) (hv : vectorDest i = some vd) : Frames i s (s.laneOp i h vd n lat psn more f) :=
  .of_gains ((Gains.pushLanes _ hlat hv hn).trans (Gains.pushJF _ hlat (by rw [hv]; rfl)))

end

section
variable (hp : s.issue.passed = true) (hjo : s.issue.jo < 4) {h : Head} {fmt : Fmt} {vd : VNum} (hv : vectorDest i = some vd)
include hp hjo hv

theorem Frames.arith {o : Arith} (hstep : s.arith i h fmt vd o = .next t) : Frames i s t :=
  .issueV hp hstep (.laneOp (arithLat_pos ..) (by omega) hv)

theorem Frames.special {f : Fn} (hstep : s.special i h fmt vd f = .next t) : Frames i s t :=
  .issueV hp hstep (.laneOp (fnLat_pos ..) (by omega) hv)

theorem Frames.select {f : List Nat → List Nat → List Nat → List Nat} (hstep : s.select i h fmt vd f = .next t) : Frames i s t :=
  .issueV hp hstep (.laneOp (by decide) (by omega) hv)

end

theorem Frames.integer (hp : s.issue.passed = true) {h : Head} {fmt : Fmt} {vd : VNum} (hv : vectorDest i = some vd) {f : Nat → Nat → Nat → Nat}
    (hstep : s.integer i h fmt vd f = .next t) : Frames i s t := .issueV hp hstep (.laneOp (by decide) (by decide) hv)

end

/-! ## Operations of their own -/

section
variable {s t : State} {h : Head} {lgm : Lgm} {fmt : Fmt} {vd va vb vs : VNum} {q : QNum} {ha hb : Bool} (hp : s.issue.passed = true)
include hp

theorem Frames.unpk {sel : BitVec 2} {scaled : Bool} {src : BitVec 4} (hstep : execUnpk h fmt vd va vs sel scaled src s = .next t) :
    Frames (.unpk h fmt vd va vs sel scaled src) s t :=
  .issueOp hp hstep (.of_gains (((Gains.pushLanes _ (by decide) rfl (unpkSpan_le ..)).trans (Gains.pushJF _ (by decide) rfl)).trans
    (Gains.pushJF _ (by decide) rfl)))

theorem Frames.vperm (hstep : execVperm h lgm vd va vb ha hb s = .next t) : Frames (.vperm h lgm vd va vb ha hb) s t :=
  .issueV hp hstep (.of_gains (.pushV_first _ (by decide) rfl))

theorem Frames.qst {hi : Bool} (hstep : execQst h lgm vd q hi s = .next t) : Frames (.qst h lgm vd q hi) s t :=
  .issueV hp hstep (.of_gains (.pushV_first _ (by decide) rfl))

theorem Frames.xlg {bcast : Bool} {rot : BitVec 3} (hstep : execXlg h lgm vd va bcast rot s = .next t) : Frames (.xlg h lgm vd va bcast rot) s t :=
  .issueOp hp hstep (.of_gains (.pushV_first _ (by decide) rfl))

theorem Frames.ppack (hstep : execPpack h vd s = .next t) : Frames (.ppack h vd) s t :=
  .issueOp hp hstep (.of_gains (.pushV_first _ (by decide) rfl))

theorem Frames.movv (hstep : execMovv h lgm vd va s = .next t) : Frames (.movv h lgm vd va) s t :=
  .issueOp hp hstep (.of_gains (.pushRegs_first _ (by decide) rfl (by simp)))

theorem Frames.jget {fact : Bool} {ci : BitVec 2} (hstep : execJget h lgm fmt vd va ha fact ci s = .next t) :
    Frames (.jget h lgm fmt vd va ha fact ci) s t := by
  refine .issueV hp hstep ?_
  split
  · exact .of_gains ((Gains.pushLanes _ (by decide) rfl (by decide)).trans (Gains.pushJF _ (by decide) rfl))
  · refine .of_gains (.pushRegs_first _ (by decide) rfl ?_)
    split <;> simp

/-- VQNT writes a byte of its scale register besides. -/
theorem Frames.vqnt {src : BitVec 4} {sel : BitVec 2} (hstep : execVqnt h lgm fmt vd va vs src ha sel s = .next t) :
    Frames (.vqnt h lgm fmt vd va vs src ha sel) s t := by
  refine .issueV hp hstep (.of_gains (((Gains.pushLanes _ (by decide) rfl (by decide)).trans (.ite fun _ => .push _ (by decide) ?_)).trans
    (Gains.pushJF _ (by decide) rfl)))
  exact rfl

/-- QRND notes what is inexact in its quires besides. -/
theorem Frames.qrnd (hstep : execQrnd h lgm fmt vd q s = .next t) : Frames (.qrnd h lgm fmt vd q) s t := by
  refine .issueV hp hstep (.of_gains (((Gains.pushLanes _ (by decide) rfl (by decide)).trans (Gains.pushQ _ (by decide) rfl fun x hx => ?_)).trans
    (Gains.pushJF _ (by decide) rfl)))
  obtain ⟨y, hy, rfl⟩ := List.mem_map.mp hx
  obtain ⟨l, hl, rfl⟩ := List.mem_map.mp (List.mem_filter.mp hy).1
  have hlane := (mem_lanesIn.mp hl).1
  show (q.toNat * 128 + l) / 128 = q.toNat
  omega

variable (hjo : s.issue.jo < 4)
include hjo

theorem Frames.vsel {ps : PNum} (hstep : execVsel h lgm fmt vd va vb ha hb ps s = .next t) : Frames (.vsel h lgm fmt vd va vb ha hb ps) s t := by
  have hlength := length_source s (.vsel h lgm fmt vd va vb ha hb ps) 1
  exact .issueV hp hstep (.of_gains (.pushRegs_first _ (by decide) rfl (by rw [List.length_map, List.length_zip]; omega)))

theorem Frames.jset {ci : BitVec 2} (hstep : execJset h lgm vd va ha ci s = .next t) : Frames (.jset h lgm vd va ha ci) s t := by
  have hci : ci.toNat < 4 := ci.isLt
  have hlength := length_source s (.jset h lgm vd va ha ci) 0
  exact .issueV hp hstep (.of_gains (.pushRegs _ (by decide) rfl (by omega)))

theorem Frames.jseed (hstep : execJseed h lgm vd va vb ha hb s = .next t) : Frames (.jseed h lgm vd va vb ha hb) s t :=
  .issueV hp hstep (.of_gains (.pushRegs_first _ (by decide) rfl (by rw [List.length_take]; omega)))

theorem Frames.vred (hstep : execVred h lgm fmt vd va ha s = .next t) : Frames (.vred h lgm fmt vd va ha) s t :=
  .issueV hp hstep (.of_gains ((Gains.pushLanes _ (by decide) rfl (by omega)).trans (Gains.pushJF _ (by decide) rfl)))

end

/-! ## The register syllables, class by class -/

section
variable {h : Head} {sd : SRegNo} {idx : BitVec 8}

theorem scalarDests_getc_odd (hodd : sd.getLsbD 0 = true) : scalarDests (.getc h sd idx) = [sd] := if_pos hodd

theorem scalarDests_getc_even (heven : sd.getLsbD 0 = false) : scalarDests (.getc h sd idx) = [sd, sd ||| 1] := if_neg (Bool.eq_false_iff.mp heven)

end

theorem Frames.getc {s t : State} {h : Head} {sd : SRegNo} {idx : BitVec 8} (hp : s.issue.passed = true) (hstep : execGetc h sd idx s = .next t) :
    Frames (.getc h sd idx) s t := by
  refine .issueOp hp hstep (.of_gains ?_)
  split
  next hodd => exact .pushS _ (by decide) (by rw [scalarDests_getc_odd hodd]; exact List.mem_singleton_self _)
  next heven =>
    have hdests := scalarDests_getc_even (h := h) (idx := idx) (Bool.eq_false_iff.mpr heven)
    exact .pushD _ (by decide) (by simp [hdests, lowOf_half _ (Bool.eq_false_iff.mpr heven)]) (by simp [hdests, highOf_half _ (Bool.eq_false_iff.mpr heven)])

/-- The predicates that PUNPK writes. -/
theorem mem_predDests_punpk {h : Head} {va : VNum} {n : Nat} (hn : n < 7) : BitVec.ofNat 3 (n + 1) ∈ predDests (.punpk h va) := by
  have hall : ∀ n, n < 7 → BitVec.ofNat 3 (n + 1) ∈ ([1, 2, 3, 4, 5, 6, 7] : List PNum) := by decide
  exact hall n hn

section
variable {i : Instr} {s t : State} (hp : s.issue.passed = true) (hstep : exec i s = .next t)
include hp hstep

/-- The scalar classes, in the order in which scalarDests names them. -/
theorem Frames.of_scalarDests (hdest : (!(scalarDests i).isEmpty) = true) : Frames i s t := by
  delta exec at hstep
  unfold scalarDests at hdest
  split at hdest
  -- ADD to MAXU, BINS and SEL read two scalars
  case h_1 | h_2 | h_3 | h_4 | h_5 | h_6 | h_7 | h_8 | h_9 | h_10 | h_11 | h_12 | h_13 | h_14 | h_15 | h_16 | h_17 | h_18 | h_19 | h_20 | h_21 | h_36 | h_37 =>
    dsimp only at hstep
    exact .alu2 hp hstep (by decide) (List.mem_singleton_self _)
  -- CLZ to SARI, LIH and BEXT read one
  case h_22 | h_23 | h_24 | h_25 | h_26 | h_27 | h_28 | h_29 | h_30 | h_31 | h_32 | h_34 | h_35 =>
    dsimp only at hstep
    exact .alu1 hp hstep (List.mem_singleton_self _)
  -- LI, and PCNT to TAGX
  case h_33 | h_38 | h_39 | h_40 | h_41 | h_42 | h_43 =>
    dsimp only at hstep
    exact .issueOp hp hstep (.of_gains (.pushS _ (by decide) (List.mem_singleton_self _)))
  case h_44 h sd idx =>
    dsimp only at hstep
    exact .getc hp hstep
  -- ADDD, SUBD and ADDDI
  case h_45 | h_46 | h_47 =>
    dsimp only at hstep
    exact .pair2 hp hstep rfl
  -- SHLD and TAGD
  case h_48 | h_49 =>
    dsimp only at hstep
    exact .issueOp hp hstep (.of_gains (.pushD _ (by decide) (by simp [scalarDests, lowOf_eq]) (by simp [scalarDests, highOf_eq])))
  case h_50 => exact absurd hdest Bool.false_ne_true

/-- The predicate classes, in the order in which predDests names them. -/
theorem Frames.of_predDests (hdest : (!(predDests i).isEmpty) = true) : Frames i s t := by
  delta exec at hstep
  unfold predDests at hdest
  split at hdest
  -- CMP and CMPI
  case h_1 | h_2 =>
    dsimp only at hstep
    exact .testP hp hstep (List.mem_singleton_self _)
  -- PAND to PSET
  case h_3 | h_4 | h_5 | h_6 | h_7 | h_8 | h_9 | h_10 =>
    dsimp only at hstep
    exact .predOp hp hstep (List.mem_singleton_self _)
  -- VCMP and VICMP
  case h_11 | h_12 =>
    dsimp only at hstep
    exact .compareLanes hp hstep (by decide) (List.mem_singleton_self _)
  -- PUNPK
  case h_13 =>
    dsimp only at hstep
    exact .issueOp hp hstep (.of_gains (.foldl (fun n hn c => .ite fun _ => .pushP c (by decide) (mem_predDests_punpk (List.mem_range.mp hn))) _))
  case h_14 => exact absurd hdest Bool.false_ne_true

/-- The quire classes, in the order in which quireDest names them, but for QRND, which writes a vector register too. -/
theorem Frames.of_quireDest (hdest : (quireDest i).isSome = true) (hvector : vectorDest i = none) : Frames i s t := by
  delta exec at hstep
  unfold quireDest at hdest
  split at hdest
  case h_1 | h_2 | h_3 | h_4 | h_5 | h_6 | h_7 =>
    dsimp only at hstep
    exact .quireOp hp hstep (by decide) rfl
  case h_8 => exact absurd hvector (Option.some_ne_none _)
  case h_9 => exact absurd hdest Bool.false_ne_true

variable (hjo : s.issue.jo < 4)
include hjo

/-- The vector classes, in the order in which vectorDest names them. -/
theorem Frames.of_vectorDest (hdest : (vectorDest i).isSome = true) : Frames i s t := by
  delta exec at hstep
  unfold vectorDest at hdest
  split at hdest
  -- VADD to VFNMA
  case h_1 | h_2 | h_3 | h_4 | h_5 | h_6 | h_7 =>
    dsimp only at hstep
    exact .arith hp hjo rfl hstep
  -- VSQRT to VSIGM
  case h_8 | h_9 | h_10 | h_11 | h_12 | h_13 | h_14 | h_15 | h_16 | h_17 | h_18 =>
    dsimp only at hstep
    exact .special hp hjo rfl hstep
  -- VMIN to VNEG, and VCLAMP
  case h_19 | h_20 | h_21 | h_22 | h_24 =>
    dsimp only [execVmin, execVmax, execVabs, execVneg, execVclamp] at hstep
    exact .select hp hjo rfl hstep
  -- VIADD to VSAR
  case h_31 | h_32 | h_33 | h_34 | h_35 | h_36 | h_37 | h_38 | h_39 | h_40 | h_41 | h_42 =>
    dsimp only at hstep
    exact .integer hp rfl hstep
  -- VROUND, VSCL and JSCALE
  case h_23 | h_28 | h_47 =>
    dsimp only at hstep
    exact .issueV hp hstep (.laneOp (by decide) (by omega) rfl)
  -- VCVT, VMSCL, VBCAST and VIOTA
  case h_26 | h_30 | h_43 | h_44 =>
    dsimp only at hstep
    exact .issueV hp hstep (.laneOp (by decide) (by decide) rfl)
  -- PACK
  case h_54 =>
    dsimp only at hstep
    exact .issueOp hp hstep (.laneOp (by decide) (by decide) rfl)
  case h_25 =>
    dsimp only at hstep
    exact .vsel hp hjo hstep
  case h_27 =>
    dsimp only at hstep
    exact .vqnt hp hstep
  case h_29 =>
    dsimp only at hstep
    exact .vred hp hjo hstep
  case h_45 =>
    dsimp only at hstep
    exact .qrnd hp hstep
  case h_46 =>
    dsimp only at hstep
    exact .jget hp hstep
  case h_48 =>
    dsimp only at hstep
    exact .vperm hp hstep
  case h_49 =>
    dsimp only at hstep
    exact .qst hp hstep
  case h_50 =>
    dsimp only at hstep
    exact .jseed hp hjo hstep
  case h_51 =>
    dsimp only at hstep
    exact .jset hp hjo hstep
  case h_52 =>
    dsimp only at hstep
    exact .xlg hp hstep
  case h_53 =>
    dsimp only at hstep
    exact .movv hp hstep
  case h_55 =>
    dsimp only at hstep
    exact .unpk hp hstep
  case h_56 =>
    dsimp only at hstep
    exact .ppack hp hstep
  case h_57 => exact absurd hdest Bool.false_ne_true

end

/-- A syllable of the register classes writes a scalar, a predicate, a vector register or a quire register. -/
theorem registerOnly_iff {i : Instr} : registerOnly i = true ↔ (!(scalarDests i).isEmpty) = true ∨ (!(predDests i).isEmpty) = true ∨
    (vectorDest i).isSome = true ∨ (quireDest i).isSome = true := by
  simp only [registerOnly, Bool.or_eq_true, or_assoc]

/-- Settles O43: every syllable of the register classes goes through a shared operation or one of its own, which adds results to its destinations. -/
theorem registerSyllablesLeaveTheRest : Obligations.RegisterSyllablesLeaveTheRest := by
  unfold Obligations.RegisterSyllablesLeaveTheRest
  intro s t i hreg hp hjo hstep
  refine Frames.spec ?_
  cases hvector : vectorDest i with
  | some vd => exact .of_vectorDest hp hstep hjo (by rw [hvector]; rfl)
  | none =>
    rcases registerOnly_iff.mp hreg with hscalar | hpred | hvector' | hquire
    · exact .of_scalarDests hp hstep hscalar
    · exact .of_predDests hp hstep hpred
    · rw [hvector] at hvector'
      exact absurd hvector' Bool.false_ne_true
    · exact .of_quireDest hp hstep hquire hvector

end Sys2Proof.Certificates
end

section
/-!
SUPPORT. System registers, feature words and prefixes (R144, R243 to R245, R352, R353), and the statement about them.
-/
namespace Sys2Proof.Machine
open Sys2Proof

/-! ## The operations as exec gives them -/

section
variable (s : State) (h : Head)

theorem exec_getc (sd : SRegNo) (idx : BitVec 8) : exec (.getc h sd idx) s = execGetc h sd idx s := rfl
theorem exec_feat (sd : SRegNo) (n : BitVec 12) : exec (.feat h sd n) s = execFeat h sd n s := rfl
theorem exec_setc (sa : SRegNo) (idx : BitVec 8) : exec (.setc h sa idx) s = execSetc h sa idx s := rfl
theorem exec_ext (value : BitVec 32) : exec (.ext h value) s = execExt h value s := rfl
theorem exec_rep (cnt : BitVec 6) (str : Bool) (step : BitVec 28) : exec (.rep h cnt str step) s = execRep h cnt str step s := rfl

end

/-! ## The bits that SETC writes (R144) -/

/-- The bits of a register that the sysHalves which a SETC names can reach. -/
def sysHalves (odd : Bool) : DWord := if odd then 0xFFFF_FFFF else BitVec.allOnes 64

/-- TPC is written in handler mode only. -/
theorem Ctx.setMask_tpc (c : Ctx) (odd : Bool) : c.setMask 0 odd = (if c.parked.isSome then BitVec.allOnes 64 else 0) &&& sysHalves odd := by
  unfold Ctx.setMask sysHalves
  cases hparked : c.parked <;> simp [Ctx.handling, hparked, sysWritable]

theorem Ctx.setMask_of_ne {idx : Nat} (h : idx ≠ 0) (c : Ctx) (odd : Bool) : c.setMask idx odd = (sysWritable idx).getD 0 &&& sysHalves odd := by
  unfold Ctx.setMask sysHalves
  simp [h]

end Sys2Proof.Machine
namespace Sys2Proof.Certificates
open Sys2Proof Sys2Proof.Machine

/-- Settles O44: each by its operation, SETC by the writable bits of each register. -/
theorem systemRegistersAndPrefixes : Obligations.SystemRegistersAndPrefixes := by
  unfold Obligations.SystemRegistersAndPrefixes
  intro s h r idx n value cnt str step odd x writable mask setc
  have hmask : s.cur.setMask idx.toNat odd = mask := by
    by_cases hidx : idx.toNat = 0
    · simp only [mask, writable, hidx]
      exact s.cur.setMask_tpc odd
    · rw [s.cur.setMask_of_ne hidx]
      refine congrArg (· &&& sysHalves odd) ?_
      unfold sysWritable
      simp only [writable]
      split
      case h_1 hzero => exact absurd hzero hidx
      all_goals simp_all
  refine ⟨fun hi => ?getc, fun hparked => ?clock, fun p hparked => ?parkedClock, fun hi => ?feat, fun hi hnone => ?setNone, fun hi hsome => ?setSome,
    fun hi => ?ext, fun w hi hword => ?rep⟩
  case getc => rw [exec_getc, execGetc, State.issueOp_clear hi.1, if_pos hi.2]
  case clock => simp [State.sysValue, hparked]
  case parkedClock => simp [State.sysValue, hparked]
  case feat => rw [exec_feat, execFeat, State.issueOp_clear hi.1, if_pos hi.2]
  case setNone =>
    rw [exec_setc, execSetc, State.issueOp_clear hi.1, if_pos hi.2]
    dsimp only
    rw [hmask, if_pos hnone, State.withCur_self]
  case setSome =>
    rw [exec_setc, execSetc, State.issueOp_clear hi.1, if_pos hi.2]
    dsimp only
    rw [hmask, if_neg hsome]
  case ext => rw [exec_ext, execExt, State.issueOp_clear hi.1, if_pos hi.2]
  case rep =>
    rw [exec_rep, execRep, State.issueOp_clear hi.1, if_pos hi.2]
    simp only [hword, Option.getD_some]
    rfl

end Sys2Proof.Certificates
end

section
/-!
SUPPORT. A command that is accepted in handler mode (R136), and the statement about engine commands.
-/
namespace Sys2Proof.Machine
open Sys2Proof

/-! ## The commands that wait for their start -/

/-- The numbers of the commands that wait after a step. -/
def waitingAfter (s : State) (i : Instr) : Option (List Nat) :=
  match exec i s with
  | .next t => some (t.cur.waiting.map (·.num))
  | _ => none

theorem waitingAfter_of_next {s t : State} {i : Instr} (h : exec i s = .next t) : waitingAfter s i = some (t.cur.waiting.map (·.num)) := by
  rw [waitingAfter, h]

/-- A context in handler mode whose engine queues are empty, in a bundle whose faults have been judged. -/
def handlerIssues : State :=
  { State.reset with
    cur := { Ctx.empty with
      uid := 1, run := .issuing
      parked := some { c := 0, d := 0, tpc := 0, pending := [], depth := 0, rep := none, arrived := none, floor := 0 } }
    issue := { Issue.none with passed := true } }

/-- The head of a syllable alone in its bundle, without a guard. -/
def aloneHead : Head := { last := true, stall := 0, old := false, pred := 0, psns := false }

/-- QFENCE of queue 0: its command has entered its queue by the end of the step. -/
theorem waiting_after_qfence : waitingAfter handlerIssues (.qfence aloneHead 0 1) = some [] := by decide +kernel

end Sys2Proof.Machine
namespace Sys2Proof.Certificates
open Sys2Proof Sys2Proof.Machine

/-- Refutes O45: a command that is accepted in handler mode, where its queue has room, waits no more: it enters its queue in the same cycle (R136). -/
theorem not_engineCommandsJoinTheirBatch : ¬ Obligations.EngineCommandsJoinTheirBatch := by
  unfold Obligations.EngineCommandsJoinTheirBatch
  intro h
  obtain ⟨hjoins, -⟩ := h handlerIssues aloneHead 0 0 0 0 0 0 0 0 0 0 0 false 1 0 (.qfence aloneHead 0 1)
  obtain ⟨-, -, -, -, -, -, -, -, -, -, hqfence⟩ := hjoins rfl (by decide +kernel)
  have hafter := waiting_after_qfence
  rw [waitingAfter_of_next (hqfence rfl)] at hafter
  exact absurd (Option.some.inj hafter) (List.cons_ne_nil _ _)

end Sys2Proof.Certificates
end

section
/-!
SUPPORT. Pops of a result queue (R132, R133, R351), waits on a word (R275, R276), and the statement about them.
-/
namespace Sys2Proof.Machine
open Sys2Proof

/-! ## The operations as exec gives them -/

section
variable (s : State) (h : Head)

theorem exec_popW (d : VNum) (q : QNum) (kind : BitVec 2) : exec (.popW h d q kind) s = execPopW h d q kind s := rfl
theorem exec_popF (d : VNum) (q : QNum) (kind : BitVec 2) (pn : PNum) : exec (.popF h d q kind pn) s = execPopF h d q kind pn s := rfl
theorem exec_waitge (da : DNum) (off : BitVec 24) (sc : Scope) (rs : SRegNo) :
    exec (.waitge h da off sc rs) s = s.waitWord (.waitge h da off sc rs) da off rs true := rfl
theorem exec_waiteq (da : DNum) (off : BitVec 24) (sc : Scope) (rs : SRegNo) :
    exec (.waiteq h da off sc rs) s = s.waitWord (.waiteq h da off sc rs) da off rs false := rfl

end

/-! ## Pops -/

/-- In program mode the oldest entry is poppable once it is complete and its cycle has come. -/
theorem Ctx.poppable_head {c : Ctx} {q : QNum} {e : QEntry} {l : List QEntry} (hq : c.rq[q.toNat]'q.isLt = e :: l) (howed : e.owed = 0)
    (hparked : c.parked = none) (hready : e.ready ≤ c.clk) : c.poppable q = some e := by
  unfold Ctx.poppable
  simp [hq, hparked, howed, hready]

section
variable {s : State} {i : Instr} {q : QNum} {kind : Nat} {waits : Bool}

/-- An entry of the kind that the POP names raises nothing. -/
theorem State.popTraps_kind {e : QEntry} (h : s.cur.poppable q = some e) (hkind : e.kind = kind) : s.popTraps i q kind waits = [] := by
  unfold State.popTraps
  simp [h, hkind, trapIf]

/-- A POP that finds no entry raises QUEUE_EMPTY only where it waits in vain. -/
theorem State.popTraps_none (h : s.cur.poppable q = none) : s.popTraps i q kind waits =
    trapIf (waits && ((s.cur.rq[q.toNat]'q.isLt).isEmpty || decide (s.cur.since + 2 ^ 20 ≤ s.cur.clk)))
      (s.infoTrap i .queueEmpty (BitVec.ofNat 64 q.toNat)) := by
  unfold State.popTraps
  simp [h]

end

/-- What a kind of entry goes to (R351): a scalar, a pair or a vector register. -/
def Ctx.popTo (rest c : Ctx) (h : Head) (d : VNum) (e : QEntry) : Nat → Ctx
  | 0 => rest.pushS (d.setWidth 5) (e.value.setWidth 32) (e.poison.getLsbD 0) 1
  | 1 => rest.pushD (d.extractLsb' 1 4) (if e.poison.getLsbD 0 then 0 else e.value.setWidth 64) (e.poison.getLsbD 0) 1
  | _ => rest.pushV d 0xFF (e.lanes &&& c.guardLanes h) e.value e.poison 1

theorem Ctx.popEntry_eq {c : Ctx} {h : Head} {d : VNum} {q : QNum} {e : QEntry} {l : List QEntry} (hq : c.rq[q.toNat]'q.isLt = e :: l) (kind : Nat) :
    c.popEntry h d q kind e = (Ctx.popTo { c with rq := c.rq.set q.toNat l q.isLt } c h d e kind).push 2 (.popped q e.status) := by
  have hpair : BitVec.ofNat 4 (d.toNat / 2) = d.extractLsb' 1 4 := BitVec.eq_of_toNat_eq (by simp [Nat.shiftRight_eq_div_pow])
  unfold Ctx.popEntry
  simp only [hq, List.drop_one, List.tail_cons, hpair]
  match kind with
  | 0 | 1 | n + 2 => rfl

/-! ## Waits on a word -/

/-- A wait whose condition holds: the next bundle comes four cycles later, on the own cluster. -/
theorem State.leaveWait_eq (s : State) (l : Loc) :
    s.leaveWait l = { s with issue := { s.issue with gap := if l.fixed then max s.issue.gap 4 else s.issue.gap } } := by
  unfold State.leaveWait
  split <;> rfl

section
variable {s : State} {i : Instr} {da : DNum} {off : BitVec 24} {rs : SRegNo} {ge : Bool} {l : Loc}
  (hloc : (s.placeAt da off 4 .wait ⟨0, 0, 4⟩).1 = l) (hclear : s.issue.passed = true ∨ s.faults i (s.waitTraps i da off rs) = []) (hacts : s.acts i = true)
include hloc hclear hacts

/-- A wait of a bundle that has passed, or whose condition has been met, leaves. -/
theorem State.waitWord_of_met (h : s.issue.passed = true ∨ ∃ w n, s.cur.wait = some w ∧ w.met = some n) :
    s.waitWord i da off rs ge = .next (s.leaveWait l) := by
  unfold State.waitWord
  rw [State.issueOp_clear hclear, if_pos hacts, hloc]
  rcases h with hpassed | ⟨w, n, hw, hmet⟩
  · simp [hpassed]
  · simp [hw, hmet]

section
variable (hpassed : s.issue.passed = false) (hacquiring : s.acquiring = false) (hunmet : ∀ w, s.cur.wait = some w → w.met = none)
include hpassed hacquiring hunmet

/-- A wait on the own cluster leaves when the word that it has seen meets the condition in a bank cycle from I + 4 on, and else sees it anew. -/
theorem State.waitWord_fixed (hfixed : l.fixed = true) : s.waitWord i da off rs ge = .next
    (if s.cur.since + 4 ≤ s.cur.clk ∧ (s.cur.wait.bind (·.seen)).any (fun x => waitTest ge x (s.cur.s rs)) = true then s.leaveWait l
     else s.stall true (fun w => { w with seen := some (BitVec.ofNat 32 (s.siteRead [] l.site l.off 4)) })) := by
  unfold State.waitWord
  rw [State.issueOp_clear hclear, if_pos hacts, hloc]
  cases hw : s.cur.wait with
  | none => simp [hpassed, hacquiring, hfixed]
  | some w => simp [hpassed, hacquiring, hfixed, hunmet w hw]

/-- Elsewhere it sends one watch. -/
theorem State.waitWord_asks (hremote : l.fixed = false) (hwatch : s.cur.wait.bind (·.watch) = none) : s.waitWord i da off rs ge =
    .next ((s.sendTo l (.wait ge (s.cur.s rs)) .discard none false true).stall true (fun w => { w with watch := some s.nextReq })) := by
  unfold State.waitWord
  rw [State.issueOp_clear hclear, if_pos hacts, hloc]
  cases hw : s.cur.wait with
  | none => simp [hpassed, hacquiring, hremote]
  | some w =>
    rw [hw] at hwatch
    simp [hpassed, hacquiring, hremote, hunmet w hw, show w.watch = none from hwatch]

/-- Then it waits for the reply. -/
theorem State.waitWord_watches (hremote : l.fixed = false) {n : Nat} (hwatch : s.cur.wait.bind (·.watch) = some n) :
    s.waitWord i da off rs ge = .next (s.stall true id) := by
  unfold State.waitWord
  rw [State.issueOp_clear hclear, if_pos hacts, hloc]
  cases hw : s.cur.wait with
  | none => simp [hw] at hwatch
  | some w =>
    rw [hw] at hwatch
    simp [hpassed, hacquiring, hremote, hunmet w hw, show w.watch = some n from hwatch]

end

end

end Sys2Proof.Machine
namespace Sys2Proof.Certificates
open Sys2Proof Sys2Proof.Machine

section
variable {s : State} {h : Head} {d : VNum} {q : QNum} {kind : BitVec 2} {pn : PNum}

/-- A POP that finds an entry takes it. -/
theorem exec_popW_of_entry {e : QEntry} (hi : Issues s (.popW h d q kind) []) (he : s.cur.poppable q = some e) (hkind : e.kind = kind.toNat) :
    exec (.popW h d q kind) s = .next (s.withCur (s.cur.popEntry h d q kind.toNat e)) := by
  rw [exec_popW, execPopW, State.popTraps_kind he hkind, State.issueOp_clear hi.1, if_pos hi.2]
  simp only [he]

theorem exec_popF_of_entry {e : QEntry} (hi : Issues s (.popF h d q kind pn) []) (he : s.cur.poppable q = some e) (hkind : e.kind = kind.toNat) :
    exec (.popF h d q kind pn) s =
      .next (s.withCur ((s.cur.popEntry h d q kind.toNat e).pushP pn (BitVec.allOnes 128) (BitVec.allOnes 128) 1)) := by
  rw [exec_popF, execPopF, State.popTraps_kind he hkind, State.issueOp_clear hi.1, if_pos hi.2]
  simp only [he]

/-- POP.F without an entry says so. -/
theorem exec_popF_of_none (hi : Issues s (.popF h d q kind pn) []) (he : s.cur.poppable q = none) :
    exec (.popF h d q kind pn) s = .next (s.withCur (s.cur.pushP pn (BitVec.allOnes 128) 0 1)) := by
  rw [exec_popF, execPopF, State.popTraps_none he, Bool.false_and, trapIf, if_neg Bool.false_ne_true, State.issueOp_clear hi.1, if_pos hi.2]
  simp only [he]

/-- POP.W without an entry waits where there will be one. -/
theorem exec_popW_of_none (hi : Issues s (.popW h d q kind) []) (he : s.cur.poppable q = none) (hq : s.cur.rq[q.toNat]'q.isLt ≠ [])
    (hclk : s.cur.clk < s.cur.since + 2 ^ 20) : exec (.popW h d q kind) s = .next (s.stall true id) := by
  have htime : ¬s.cur.since + 2 ^ 20 ≤ s.cur.clk := Nat.not_le.mpr hclk
  have hnone : s.popTraps (.popW h d q kind) q kind.toNat true = [] := by
    rw [State.popTraps_none he, List.isEmpty_eq_false_iff.mpr hq, decide_eq_false htime]
    rfl
  rw [exec_popW, execPopW, hnone, State.issueOp_clear hi.1, if_pos hi.2]
  simp only [he]

end

/-- The checks of a syllable's own rule count when it acts. -/
theorem mem_faults_own {s : State} {i : Instr} {own : List Trap} {t : Trap} (hacts : s.acts i = true) (ht : t ∈ own) : t ∈ s.faults i own := by
  rw [State.faults_append, if_pos hacts]
  exact List.mem_append_right _ ht

/-- A POP.W whose queue is empty raises a trap of a code no higher than that of QUEUE_EMPTY. -/
theorem exec_popW_of_empty {s : State} {h : Head} {d : VNum} {q : QNum} {kind : BitVec 2} (hpassed : s.issue.passed = false)
    (hq : s.cur.rq[q.toNat]'q.isLt = []) (hacts : s.acts (.popW h d q kind) = true) :
    ∃ t : Trap, causeCode t.cause ≤ causeCode .queueEmpty ∧ exec (.popW h d q kind) s = .next (s.takeTrap 0 t) := by
  have hnone : s.cur.poppable q = none := by
    unfold Ctx.poppable
    simp [hq]
  have hown : s.popTraps (.popW h d q kind) q kind.toNat true = [s.infoTrap (.popW h d q kind) .queueEmpty (BitVec.ofNat 64 q.toNat)] := by
    rw [State.popTraps_none hnone, hq]
    rfl
  have hmem := mem_faults_own hacts (List.mem_singleton_self (s.infoTrap (.popW h d q kind) .queueEmpty (BitVec.ofNat 64 q.toNat)))
  rw [exec_popW, execPopW, hown]
  obtain ⟨t, hlowest, hstep⟩ := State.issueWith_fault hpassed (List.ne_nil_of_mem hmem) (fun _ u => u)
    (fun u => match u.cur.poppable q with
      | some e => u.withCur (u.cur.popEntry h d q kind.toNat e)
      | none => u.stall true id)
  exact ⟨t, lowestTrap_le hlowest _ hmem, hstep⟩

/-- Settles O46: pops by whether there is an entry, waits by whether their word meets the condition. -/
theorem popsAndWordWaits : Obligations.PopsAndWordWaits := by
  unfold Obligations.PopsAndWordWaits
  refine ⟨fun s h d q kind pn e l => ⟨fun hq howed hkind hparked hready => ?pops, fun hnone hi => exec_popF_of_none hi hnone,
    fun hnone hq hclk hi => ?waits, exec_popW_of_empty⟩, fun s h da off sc rs i ge hinstr hi => ?words⟩
  case pops =>
    have he := Ctx.poppable_head hq howed hparked hready
    have htakes := Ctx.popEntry_eq (h := h) (d := d) hq kind.toNat
    exact ⟨fun hi => (exec_popW_of_entry hi he hkind).trans (by rw [htakes]; rfl), fun hi => (exec_popF_of_entry hi he hkind).trans (by rw [htakes]; rfl)⟩
  case waits =>
    exact ⟨_, exec_popW_of_none hi hnone hq hclk, rfl, rfl, rfl, rfl⟩
  case words =>
    obtain ⟨hclear, hacts⟩ := hi
    have hexec : exec i s = s.waitWord i da off rs ge := by
      rcases hinstr with ⟨rfl, rfl⟩ | ⟨rfl, rfl⟩
      · exact exec_waitge ..
      · exact exec_waiteq ..
    dsimp only
    rw [hexec, ← State.leaveWait_eq]
    refine ⟨fun hpassed => State.waitWord_of_met rfl hclear hacts (.inl hpassed),
      fun w n hw hmet => State.waitWord_of_met rfl hclear hacts (.inr ⟨w, n, hw, hmet⟩), fun hpassed hacquiring hunmet => ⟨?holds, ?fails, ?asks, ?watches⟩⟩
    case holds =>
      intro x hfixed hseen hholds hsince
      rw [State.waitWord_fixed rfl hclear hacts hpassed hacquiring hunmet hfixed, if_pos ⟨hsince, by rw [hseen]; exact hholds⟩]
    case fails =>
      intro hfixed hfails
      have hstays : ¬(s.cur.since + 4 ≤ s.cur.clk ∧ (s.cur.wait.bind (·.seen)).any (fun x => waitTest ge x (s.cur.s rs)) = true) := by
        rintro ⟨hsince, hany⟩
        rcases hfails with hfails | hearly
        · obtain ⟨x, hx, htest⟩ := (Option.any_eq_true _ _).mp hany
          exact absurd htest (Bool.eq_false_iff.mp (hfails x hx))
        · omega
      exact ⟨_, _, ⟨(State.waitWord_fixed rfl hclear hacts hpassed hacquiring hunmet hfixed).trans (congrArg _ (if_neg hstays)), rfl, rfl, rfl, rfl⟩,
        rfl, rfl, rfl⟩
    case asks =>
      intro hremote hwatch
      have hstep := State.waitWord_asks (ge := ge) rfl hclear hacts hpassed hacquiring hunmet hremote hwatch
      exact ⟨_, _, _, ⟨hstep, rfl, rfl, rfl, rfl⟩, rfl, rfl, rfl, rfl, rfl⟩
    case watches =>
      intro hremote hwatch
      obtain ⟨n, hn⟩ := Option.isSome_iff_exists.mp hwatch
      exact ⟨_, ⟨State.waitWord_watches rfl hclear hacts hpassed hacquiring hunmet hremote hn, rfl, rfl, rfl, rfl⟩, rfl⟩

end Sys2Proof.Certificates
end

section
/-!
SUPPORT. A result in flight that lands before a command starts (R124, R134), and the statement about the run of engine commands.
-/
namespace Sys2Proof.Machine
open Sys2Proof

/-! ## TVEC after a step -/

/-- TVEC of the context in view after a step. -/
def tvecAfter (s : State) (i : Instr) : Option DWord :=
  match exec i s with
  | .next t => some t.cur.sys.tvec
  | _ => none

theorem tvecAfter_of_next {s t : State} {i : Instr} (h : exec i s = .next t) : tvecAfter s i = some t.cur.sys.tvec := by
  rw [tvecAfter, h]

/-- A QFENCE of queue 0 that starts in cycle 2. -/
def fenceAtTwo : Command :=
  { num := 1, eq := 0, start := 2, batch := 0, bundle := 0, handler := false, cmd := .qfence 1, closed := false, owed := 0, begun := false, asked := false,
    pend := false, got := [], flag := none }

/-- A SETC of TVEC in flight, to be read from cycle 2 on. -/
def tvecWrite : Flight := { land := 2, seq := 0, what := .sysreg 3 (BitVec.allOnes 64) 0x1000 }

/-- A context whose next bundle issues in cycle 5 at the earliest, with the command waiting and the write in flight. -/
def writesTvec : Ctx := { Ctx.empty with uid := 1, run := .issuing, earliest := 5, waiting := [fenceAtTwo], flight := [tvecWrite] }

/-- The state that looks at it. -/
def beforeFence : State := { State.reset with cur := writesTvec }

/-- The start of the command moves the clock to cycle 3, and the write has landed. -/
theorem tvec_after_start : tvecAfter beforeFence (.engineCommandStart 0 0) = some 0x1000 := by decide +kernel

end Sys2Proof.Machine
namespace Sys2Proof.Certificates
open Sys2Proof Sys2Proof.Machine

/-- Refutes O52: the clock that a command's start moves on lands the results that are due, and a SETC in flight writes TVEC then. -/
theorem not_engineCommandsRun : ¬ Obligations.EngineCommandsRun := by
  unfold Obligations.EngineCommandsRun
  intro h
  obtain ⟨hstarts, -⟩ := h beforeFence 0 0 0 writesTvec fenceAtTwo 0 0 0 0 0 [] (by decide +kernel) rfl
  obtain ⟨t, hstep, -, -, htvec⟩ := hstarts rfl rfl rfl rfl (by decide) (by decide)
  have hafter := tvec_after_start
  rw [tvecAfter_of_next hstep, htvec] at hafter
  exact absurd (Option.some.inj hafter) (show ¬(0 : DWord) = 0x1000 by decide)

end Sys2Proof.Certificates
end

section
/-!
SUPPORT. Requests on the mesh and at their dies (R155 to R162, R169, R369), the waits that go on (R273 to R276), replies and acknowledgements at the tile
(R132, R166, R167), and the statement about them.
-/
namespace Sys2Proof.Machine
open Sys2Proof

/-! ## The operations as exec gives them -/

section
variable (s : State) (id : Nat) (tile : BitVec 10) (slot : BitVec 2)

theorem exec_meshSlot : exec (.meshSlot id) s = execMeshSlot id s := rfl
theorem exec_remoteAccessArrival : exec (.remoteAccessArrival id) s = execRemoteAccessArrival id s := rfl
theorem exec_memsideAccess : exec (.memsideAccess id) s = execMemsideAccess id s := rfl
theorem exec_waitConditionMet : exec (.waitConditionMet tile slot) s = execWaitConditionMet tile slot s := rfl
theorem exec_barLeave : exec (.barLeave tile slot) s = execBarLeave tile slot s := rfl
theorem exec_replyArrival : exec (.replyArrival id) s = .next (s.takeReply id true) := rfl
theorem exec_storeAck : exec (.storeAck id) s = .next (s.takeReply id false) := rfl

end

/-! ## A request that is gone -/

/-- No request of a number is left once they have been replaced by none. -/
theorem State.requestOf_replace_nil (s : State) (id : Nat) : (s.replace id []).requestOf id = none := by
  unfold State.requestOf State.replace
  rw [List.find?_eq_none]
  intro x hx
  simp only [List.mem_flatten, List.mem_map] at hx
  obtain ⟨_, ⟨y, -, rfl⟩, hx⟩ := hx
  split at hx
  · cases hx
  next hid => simpa [List.mem_singleton.mp hx] using hid

/-! ## Mesh slots (R159, R369) -/

/-- A packet that is discarded is gone, and only the partition's counter and its home core know of it (R84). -/
theorem State.meshDiscard_spec (s : State) (id part : Nat) : (s.meshDiscard id part).requestOf id = none ∧ (s.meshDiscard id part).mem = s.mem := by
  have hgone := s.requestOf_replace_nil id
  unfold State.meshDiscard State.postHome State.post
  dsimp only
  unfold State.requestOf at hgone ⊢
  split <;> simp only [State.mapPart_requests, State.mapPart_mem, State.mapCore_requests, State.mapCore_mem] <;> exact ⟨hgone, rfl⟩

section
variable {s : State} {r : Request} {a b m : Nat} {stage : Stage} (hr : s.requestOf r.id = some r) (hspace : r.space = 2 ∨ r.space = 4)
  (hhop : r.hop = some (a, b, stage)) (hne : a ≠ b)
include hr hspace hhop hne

/-- A packet leaves in its pair's next slot, when that is its partition's. -/
theorem exec_meshSlot_of_slot (hslot : nextSlot r.readyAt ((s.partN r.part).slotsOf a b) = some m) (hforwards : (s.partN r.part).forwards a b (m % 256) = true) :
    exec (.meshSlot r.id) s = .next ((s.reach m).replace r.id [{ r with stage := stage, readyAt := m + routeCycles a b }]) := by
  rw [exec_meshSlot, execMeshSlot, hr]
  dsimp only
  rw [if_pos hspace, hhop]
  simp only [hne, hslot, hforwards, if_false, false_or, if_true]

/-- One without a slot of its partition is discarded. -/
theorem exec_meshSlot_of_no_slot (hnone : (s.partN r.part).slotsOf a b = [] ∨
      ∃ m, nextSlot r.readyAt ((s.partN r.part).slotsOf a b) = some m ∧ (s.partN r.part).forwards a b (m % 256) = false) :
    exec (.meshSlot r.id) s = .next (s.meshDiscard r.id r.part) := by
  rw [exec_meshSlot, execMeshSlot, hr]
  dsimp only
  rw [if_pos hspace, hhop]
  rcases hnone with hempty | ⟨m, hslot, hforwards⟩
  · simp only [hne, hempty, nextSlot, List.map_nil, if_false]
  · simp only [hne, hslot, hforwards, if_false, false_or, Bool.false_eq_true]

end

/-! ## Arrivals at a tile (R155, R157) -/

/-- An access that may perform joins those of the task that it names. -/
theorem exec_remoteAccessArrival_of_task {s : State} {r : Request} {d : Ctx} (hr : s.requestOf r.id = some r) (hspace : r.space = 2 ∨ r.space = 4)
    (hstage : r.stage = .moving) (hserve : s.mayServe r = true) (htask : s.meshTask r = some d) (hnew : d.hasArrival r.id = false)
    (hwait : r.ask.isWait = false) :
    exec (.remoteAccessArrival r.id) s = .next ((s.reach r.readyAt).mapCtx d.uid fun c => c.stampAccess (max s.cycle r.readyAt)
      (.alloc r.tile r.slot (r.addr.toNat / 2 ^ 48 % 32)) (.arrival r.id r.ask)) := by
  have htask' : (s.reach r.readyAt).meshTask r = some d := htask
  have hcycle : max r.readyAt (s.reach r.readyAt).cycle = max s.cycle r.readyAt := by
    show max r.readyAt (max s.cycle r.readyAt) = _
    omega
  rw [exec_remoteAccessArrival, execRemoteAccessArrival, hr]
  dsimp only
  rw [if_pos ⟨hspace, hstage, hserve⟩]
  unfold State.serveMesh
  simp only [htask', hcycle]
  cases hask : r.ask with
  | wait => simp [hask, Ask.isWait] at hwait
  | _ => simp only [hnew, Bool.false_eq_true, if_false]

theorem mem_insertAccess (a : Access) (l : List Access) : a ∈ insertAccess a l := by
  induction l with
  | nil => exact List.mem_singleton_self a
  | cons b l ih =>
    unfold insertAccess
    split
    · exact List.mem_cons_self
    · exact List.mem_cons_of_mem b ih

/-- The access is among those of the context that it has joined. -/
theorem Ctx.mem_stampAccess (c : Ctx) (m : Nat) (site : Site) (act : Act) :
    ∃ x ∈ (c.stampAccess m site act).accesses, x.act = act ∧ x.site = site ∧ x.stamp = some m ∧ x.done = false :=
  ⟨_, mem_insertAccess _ _, rfl, rfl, rfl, rfl⟩

/-! ## Arrivals perform (R155, R159) -/

section
variable {s : State} {r : Request} (hr : s.requestOf r.id = some r) (tile slot atag cycle : Nat)
include hr

theorem State.found_answer (data : List (Nat × Nat)) (denied : Bool) : (s.replace r.id [r.answer cycle data denied]).requestOf r.id = some (r.answer cycle data denied) :=
  State.requestOf_replace s r.id (r.answer cycle data denied) hr rfl

theorem State.serveArrival_load (site : Site) {ps : List Piece} (hask : r.ask = .load ps) : s.serveArrival site cycle r.id r.ask =
    s.replace r.id [r.answer cycle (ps.map (fun p => (p.lane, s.siteRead r.shadow site p.off p.size))) false] := by
  rw [State.serveArrival, hr, hask]

theorem State.serveArrival_store {p : Part} (hask : r.ask = .store [p]) : s.serveArrival (.alloc tile slot atag) cycle r.id r.ask =
    ({ s with mem := writeAddrs s.mem r.skip (s.siteAddrs (.alloc tile slot atag) p.off p.size) p.value } : State).replace r.id [r.answer cycle [] false] := by
  rw [State.serveArrival, hr, hask]
  rfl

end

/-! ## A die admits an access (R162, R165) -/

/-- The state in which a die serves a request: the pages that it reaches are kept, at the die and perhaps at its tile. -/
def State.admitted (s : State) (r : Request) : State :=
  ((s.reach r.readyAt).keepAsk r.part (r.addr.toNat / 2 ^ 57 % 8) (r.addr.toNat % 2 ^ 57) r.ask).keepTile r.source r.part (r.addr.toNat / 2 ^ 57 % 8)
    (r.addr.toNat % 2 ^ 57)

section
variable {β : Type} (g : State → β) (hfresh : ∀ (t : State) n, g { t with fresh := n } = g t) (htile : ∀ t k x, g (State.setTile t k x) = g t)
include hfresh htile

theorem State.keepTile_keeps (s : State) (tile part die off : Nat) : g (s.keepTile tile part die off) = g s := by
  unfold State.keepTile
  split
  · rfl
  · split
    · rfl
    · dsimp only
      split
      · exact (htile ..).trans (hfresh ..)
      · exact hfresh ..

theorem State.admitted_keeps (hkeep : ∀ t part die off, g (State.keepTlb t part die off) = g t) (s : State) (r : Request) :
    g (s.admitted r) = g (s.reach r.readyAt) :=
  (State.keepTile_keeps g hfresh htile ..).trans (foldl_keeps g (fun _ _ => foldl_keeps g (fun _ _ => hkeep ..) _ _) _ _)

end

/-- A die's record whose migrations stand leaves those of every die. -/
theorem State.mapDie_migs {f : DieRec → DieRec} (hf : ∀ x, (f x).migs = x.migs) (s : State) (n d : Nat) :
    ((s.mapDie n f).dieRec d).migs = (s.dieRec d).migs := by
  unfold State.mapDie
  split
  next hn =>
    have hget (k : Nat) (hk : k < 8) : ((s.dies.set n (f s.dies[n]) hn)[k]).migs = (s.dies[k]).migs := by
      rw [Vector.getElem_set]
      split
      next h => subst h; exact hf _
      · rfl
    unfold State.dieRec
    split <;> exact hget ..
  · rfl

theorem State.keepTlb_migs (s : State) (part die off d : Nat) : ((s.keepTlb part die off).dieRec d).migs = (s.dieRec d).migs := by
  unfold State.keepTlb
  split
  · exact State.mapDie_migs (by exact fun _ => rfl) ..
  · rfl

section
variable (s : State) (r : Request)

theorem State.admitted_mem : (s.admitted r).mem = s.mem :=
  State.admitted_keeps State.mem (fun _ _ => rfl) (fun _ _ _ => rfl) (fun _ _ _ _ => State.keepTlb_keeps _ State.mapDie_mem ..) s r

theorem State.admitted_requests : (s.admitted r).requests = s.requests :=
  State.admitted_keeps State.requests (fun _ _ => rfl) (fun _ _ _ => rfl) (fun _ _ _ _ => State.keepTlb_keeps _ State.mapDie_requests ..) s r

theorem State.admitted_cycle : (s.admitted r).cycle = max s.cycle r.readyAt :=
  State.admitted_keeps State.cycle (fun _ _ => rfl) (fun _ _ _ => rfl) (fun _ _ _ _ => State.keepTlb_keeps _ State.mapDie_cycle ..) s r

theorem State.admitted_migs (d : Nat) : ((s.admitted r).dieRec d).migs = (s.dieRec d).migs :=
  State.admitted_keeps (fun t => (t.dieRec d).migs) (fun _ _ => rfl) (fun _ _ _ => rfl) (fun _ _ _ _ => State.keepTlb_migs ..) s r

theorem State.admitted_requestOf (h : s.requestOf r.id = some r) : (s.admitted r).requestOf r.id = some r := by
  rw [State.requestOf, State.admitted_requests]
  exact h

end

/-- A die serves an access that may perform, and that meets no write under way and no merge. -/
theorem exec_memsideAccess_of_due {s : State} {r : Request} (hr : s.requestOf r.id = some r) (hspace : r.space = 0) (hstage : r.stage = .queued)
    (hserve : s.mayServe r = true)
    (hsettled : r.ask.runs.all (fun x => !s.settling r.part (r.addr.toNat / 2 ^ 57 % 8) x.1 && !s.settling r.part (r.addr.toNat / 2 ^ 57 % 8) (x.1 + x.2 - 1)) = true)
    (hmerging : s.merging (mergeAgent r.id) r.part (r.addr.toNat / 2 ^ 57 % 8) r.ask.runs = false) :
    exec (.memsideAccess r.id) s = .next ((s.admitted r).serveGlobal r) := by
  have hquiet : r.ask.runs.any (fun x => s.settling r.part (r.addr.toNat / 2 ^ 57 % 8) x.1 ||
      s.settling r.part (r.addr.toNat / 2 ^ 57 % 8) (x.1 + x.2 - 1)) = false := by
    simpa [List.any_eq_false, List.all_eq_true] using hsettled
  rw [exec_memsideAccess, execMemsideAccess, hr]
  dsimp only
  rw [if_pos ⟨hspace, .inl hstage, hserve, by rw [hquiet, hmerging, Bool.and_false]; rfl⟩]
  rfl

/-! ## A die performs an access (R162, R166, R169) -/

/-- A run that a die holds has an address for each of its bytes. -/
theorem State.length_of_spot_here {s : State} {part die off n : Nat} {write atomic : Bool} {as : List Nat}
    (h : s.spot part die off n write atomic = .here as) : as.length = n := by
  unfold State.spot at h
  dsimp only at h
  split at h
  · cases h
  · split at h
    · cases h
    · split at h
      · cases h
        simp
      · split at h <;> cases h

/-- A part that lies in one page is not cut. -/
theorem cutParts_of_page {p : Part} (hpage : p.off % 4096 + p.size ≤ 4096) : cutParts [p] = [p] := by
  have hfits : p.size ≤ 4096 - p.off % 4096 := by omega
  simp [cutParts, hfits]

/-- A run that a die holds is not denied. -/
theorem Spot.here_ne_denied (as : List Nat) : (Spot.here as == Spot.denied) = false := rfl

section
variable {s : State} {r : Request} {die : Nat} (hdie : r.addr.toNat / 2 ^ 57 % 8 = die)
include hdie

theorem State.serveGlobal_load_here {p : Piece} {as : List Nat} (hask : r.ask = .load [p])
    (hspot : s.spot r.part die p.off p.size false false = .here as) :
    s.serveGlobal r = s.replace r.id [r.answer s.cycle [(p.lane, s.read0 as)] false] := by
  unfold State.serveGlobal
  rw [hask, hdie]
  simp [hspot, Spot.isFar, Spot.here_ne_denied]

theorem State.serveGlobal_load_denied {p : Piece} (hask : r.ask = .load [p])
    (hspot : s.spot r.part die p.off p.size false false = .denied) :
    s.serveGlobal r = s.replace r.id [r.answer s.cycle [] true] := by
  unfold State.serveGlobal
  rw [hask, hdie]
  simp [hspot, Spot.isFar]

theorem State.serveGlobal_store_here {p : Part} {as : List Nat} (hask : r.ask = .store [p]) (hpage : p.off % 4096 + p.size ≤ 4096)
    (hspot : s.spot r.part die p.off p.size true false = .here as) :
    s.serveGlobal r = (s.write0 r.part die p.off as p.value).split r (some (r.answer s.cycle [] false)) [] := by
  unfold State.serveGlobal
  rw [hask, hdie]
  simp [hspot, Spot.isFar, Spot.here_ne_denied, cutParts_of_page hpage, State.writeParts]

end

/-- A queue entry that awaits more parts changes its context only. -/
theorem State.awaitMore_spec (s : State) (r : Request) (n : Nat) : (s.awaitMore r n).mem = s.mem ∧ (s.awaitMore r n).requests = s.requests := by
  unfold State.awaitMore
  split <;> exact ⟨rfl, rfl⟩

/-- A request that is answered here as a whole. -/
theorem State.split_here {s : State} {r : Request} (hr : s.requestOf r.id = some r) {x : Request} (hx : x.id = r.id) :
    (s.split r (some x) []).requestOf r.id = some x ∧ (s.split r (some x) []).mem = s.mem := by
  obtain ⟨hmem, hrequests⟩ := s.awaitMore_spec r 0
  have hfound : (s.awaitMore r 0).requestOf r.id = some r := by
    rw [State.requestOf, hrequests]
    exact hr
  exact ⟨State.requestOf_replace (s.awaitMore r 0) r.id x hfound hx, hmem⟩

/-- What a write in one page leaves: its bytes, where a hold queue of the page has room. -/
theorem State.write0_spec {s : State} {part die off : Nat} {as : List Nat} {value : Nat} (hpage : off % 4096 + as.length ≤ 4096)
    (hroom : ∀ m, (s.dieRec die).migOf part off = some m → (s.dieRec die).heldEntries < Config.holdQueueEntries) :
    (s.write0 part die off as value).mem = writeAddrs s.mem [] as value ∧ (s.write0 part die off as value).requests = s.requests := by
  refine ⟨?_, State.hold_keeps State.requests State.mapDie_requests (fun _ _ => rfl) ..⟩
  exact State.hold_mem_of_room (by rw [length_bytesOfNat]; omega) hroom

/-- Every byte of a write is at its address. -/
theorem toNat_read_writeAddrs {m : Memory} (hm : m.wf = true) {as : List Nat} (hnd : as.Nodup) (value : Nat) {x : Nat} (hx : x < as.length) :
    ((writeAddrs m [] as value).read (as.getD x 0)).toNat = value / 256 ^ x % 256 := by
  have hat : as[x]? = some (as.getD x 0) := by simp [List.getD_eq_getElem?_getD, hx]
  rw [read_writeAddrs_getElem List.not_mem_nil as hm value x hnd hat, BitVec.toNat_ofNat]

section
variable {s : State} {r : Request} (hr : s.requestOf r.id = some r)
include hr

/-- A die brings the bytes that it holds (R162). -/
theorem State.admitted_serves_load {p : Piece} {as : List Nat} (hask : r.ask = .load [p])
    (hspot : (s.admitted r).spot r.part (r.addr.toNat / 2 ^ 57 % 8) p.off p.size false false = .here as) :
    ((s.admitted r).serveGlobal r).mem = s.mem ∧ ((s.admitted r).serveGlobal r).requestOf r.id =
      some (r.answer (max s.cycle r.readyAt) [(p.lane, natOfBytes (as.map fun x => Memory.read s.mem x))] false) := by
  have hdata : (s.admitted r).read0 as = natOfBytes (as.map fun x => Memory.read s.mem x) := by
    rw [← s.admitted_mem r]
    rfl
  rw [State.serveGlobal_load_here rfl hask hspot, s.admitted_cycle r, hdata]
  exact ⟨s.admitted_mem r, State.found_answer (s.admitted_requestOf r hr) ..⟩

/-- A load that a die denies brings nothing (R166). -/
theorem State.admitted_denies_load {p : Piece} (hask : r.ask = .load [p])
    (hspot : (s.admitted r).spot r.part (r.addr.toNat / 2 ^ 57 % 8) p.off p.size false false = .denied) :
    ((s.admitted r).serveGlobal r).mem = s.mem ∧ ((s.admitted r).serveGlobal r).requestOf r.id = some (r.answer (max s.cycle r.readyAt) [] true) := by
  rw [State.serveGlobal_load_denied rfl hask hspot, s.admitted_cycle r]
  exact ⟨s.admitted_mem r, State.found_answer (s.admitted_requestOf r hr) ..⟩

/-- A store in one page writes its bytes and no others, where the page's hold queue has room (R162, R169). -/
theorem State.admitted_serves_store {p : Part} {as : List Nat} (hask : r.ask = .store [p]) (hpage : p.off % 4096 + p.size ≤ 4096)
    (hspot : (s.admitted r).spot r.part (r.addr.toNat / 2 ^ 57 % 8) p.off p.size true false = .here as) (hwf : s.mem.wf = true) (hnd : as.Nodup)
    (hroom : ∀ m, (s.dieRec (r.addr.toNat / 2 ^ 57 % 8)).migOf r.part p.off = some m → (s.dieRec (r.addr.toNat / 2 ^ 57 % 8)).heldEntries < Config.holdQueueEntries) :
    ((s.admitted r).serveGlobal r).requestOf r.id = some (r.answer (max s.cycle r.readyAt) [] false) ∧
      (∀ x, x < p.size → (Memory.read ((s.admitted r).serveGlobal r).mem (as.getD x 0)).toNat = p.value / 256 ^ x % 256) ∧
      ∀ x, x ∉ as → Memory.read ((s.admitted r).serveGlobal r).mem x = Memory.read s.mem x := by
  have hserved := State.serveGlobal_store_here rfl hask hpage hspot
  have hlen := State.length_of_spot_here hspot
  generalize r.addr.toNat / 2 ^ 57 % 8 = die at hserved hroom
  have hmigs := s.admitted_migs r die
  obtain ⟨hmem, hrequests⟩ := State.write0_spec (s := s.admitted r) (part := r.part) (die := die) (value := p.value) (hlen.symm ▸ hpage)
    (by unfold DieRec.migOf DieRec.heldEntries at hroom ⊢; rw [hmigs]; exact hroom)
  have hfound : ((s.admitted r).write0 r.part die p.off as p.value).requestOf r.id = some r := by
    rw [State.requestOf, hrequests]
    exact s.admitted_requestOf r hr
  obtain ⟨hanswer, hsame⟩ := State.split_here hfound (x := r.answer (max s.cycle r.readyAt) [] false) rfl
  rw [hserved, s.admitted_cycle r, hsame, hmem, s.admitted_mem r]
  exact ⟨hanswer, fun x hx => toNat_read_writeAddrs hwf hnd _ (hlen.symm ▸ hx), fun x hx => read_writeAddrs _ _ _ hwf _ hx⟩

end

/-! ## Waits that go on (R107, R273 to R276) -/

theorem Ctx.conditionMet_uid (c : Ctx) : c.conditionMet.uid = c.uid := by
  unfold Ctx.conditionMet
  split
  · rfl
  · split
    · split <;> rfl
    · rfl

theorem Ctx.conditionMet_of_waiting {c : Ctx} (hrun : c.run = .waiting) : c.conditionMet = { c with run := .ready } := if_pos hrun

theorem Ctx.conditionMet_of_issuing {c : Ctx} {w : Wait} (hrun : c.run = .issuing) (hw : c.wait = some w) (hsince : w.since + 4 ≤ c.clk) :
    c.conditionMet = { c with wait := some { w with met := some c.clk } } := by
  simp [Ctx.conditionMet, hrun, hw, hsince]

section
variable {s : State} {tile : BitVec 10} {slot : BitVec 2} {c : Ctx} (hat : s.ctxAt tile.toNat slot.toNat = some c)
include hat

/-- A context that waits, or whose bundle does, goes on once its word in the own cluster meets the condition. -/
theorem exec_waitConditionMet_of_holds (hwatch : c.wait.bind (·.watch) = none) (hwaits : c.run = .waiting ∨ (c.run = .issuing ∧ c.stalledNow = true))
    (hholds : (s.lookAt c.uid).ownWaitHolds = true) : exec (.waitConditionMet tile slot) s = .next (s.mapCtx c.uid Ctx.conditionMet) := by
  rw [exec_waitConditionMet, execWaitConditionMet, hat]
  dsimp only
  rw [hwatch]
  dsimp only
  rw [if_pos ⟨hwaits, hholds⟩]

/-- A context that waits in a release goes on once it is over. -/
theorem exec_waitConditionMet_of_release (hwatch : c.wait.bind (·.watch) = none) (hrun : c.run = .waiting) (hover : (s.lookAt c.uid).releaseOver = true) :
    exec (.waitConditionMet tile slot) s = .next (s.mapCtx c.uid Ctx.conditionMet) := by
  rw [exec_waitConditionMet, execWaitConditionMet, hat]
  dsimp only
  rw [hwatch]
  dsimp only
  rw [if_pos hrun, if_pos hover, ite_self]

section
variable {g n m : Nat} (hgroup : s.barGroup c = some g) (harrived : c.arrivedAt = some n) (hdone : s.genDone c g n = some m)
include hgroup harrived hdone

/-- A member that has left its tile is ready as soon as the generation is complete. -/
theorem exec_barLeave_of_waiting (hrun : c.run = .waiting) : exec (.barLeave tile slot) s = .next (s.mapCtx c.uid fun d => { d with run := .ready }) := by
  rw [exec_barLeave, execBarLeave, hat]
  simp only [hgroup, harrived, hdone, hrun, if_true]

/-- A member at issue leaves B(X) cycles after it. -/
theorem exec_barLeave_of_issuing {x : Nat} (hrun : c.run = .issuing) (hscope : (s.withCur c).groupScope g = some x) (hdelay : m + barrierDelay x ≤ c.module) :
    exec (.barLeave tile slot) s = .next (s.mapCtx c.uid fun d => { d with wait := d.wait.map fun w => { w with leaving := true } }) := by
  rw [exec_barLeave, execBarLeave, hat]
  simp only [hgroup, harrived, hdone, hrun, hscope, Option.getD_some, hdelay, and_self, if_true, reduceCtorEq, if_false]

end
end

/-! ## An answer at its tile (R132, R167) -/

/-- A lane without data is one that was asked for and that no data names. -/
theorem Request.missing_getLsbD (r : Request) {j : Nat} (hj : j < 128) : r.missing.getLsbD j = true ↔ j ∈ r.ask.lanes ∧ ∀ y ∈ r.data, y.1 ≠ j := by
  rw [Request.missing, BitVec.getLsbD_ofNat, laneMaskOf_testBit _ hj]
  simp [hj]

theorem Request.missing_ne_zero_iff (r : Request) : r.missing ≠ 0 ↔ ∃ j ∈ r.ask.lanes, j < 128 ∧ ∀ y ∈ r.data, y.1 ≠ j := by
  constructor
  · intro hne
    obtain ⟨j, hj, hbit⟩ : ∃ j, j < 128 ∧ r.missing.getLsbD j = true := by
      by_contra hall
      push Not at hall
      exact hne (BitVec.eq_of_getLsbD_eq fun j hj => by simpa using hall j hj)
    obtain ⟨hlane, hdata⟩ := (r.missing_getLsbD hj).mp hbit
    exact ⟨j, hlane, hj, hdata⟩
  · rintro ⟨j, hlane, hj, hdata⟩ hzero
    have hbit := (r.missing_getLsbD hj).mpr ⟨hlane, hdata⟩
    simp [hzero] at hbit

theorem fillEntry_of_none {req : Nat} (f : QEntry → QEntry) {l : List QEntry} (hl : ∀ y ∈ l, y.request ≠ req) : fillEntry req f l = l := by
  induction l with
  | nil => rfl
  | cons e l ih =>
    rw [fillEntry, if_neg (hl e List.mem_cons_self), ih fun y hy => hl y (List.mem_cons_of_mem e hy)]

/-- Only the place of the request takes the reply. -/
theorem fillEntry_cons {req : Nat} (f : QEntry → QEntry) {e : QEntry} {l : List QEntry} (he : e.request = req) (hl : ∀ y ∈ l, y.request ≠ req) :
    fillEntry req f (e :: l) = f e :: l := by
  rw [fillEntry, if_pos he, fillEntry_of_none f hl]

section
variable (c : Ctx) (r : Request)

/-- A denied write that waits is all that it changes. -/
theorem Ctx.noteDenied_eq : ∃ l, c.noteDenied r = { c with denied := l } := by
  unfold Ctx.noteDenied
  split
  · split
    · exact ⟨_, rfl⟩
    · exact ⟨c.denied, rfl⟩
  · exact ⟨c.denied, rfl⟩

theorem Ctx.ldaDone_eq (k : QNum) (req : Nat) : ∃ l, c.ldaDone k req = { c with ldaOwed := l } := by
  unfold Ctx.ldaDone
  split
  · exact ⟨c.ldaOwed, rfl⟩
  · exact ⟨_, rfl⟩

/-- A reply to a queue changes that queue, TINFO, and the LDAs that are owed. -/
theorem Ctx.queueReply_eq (k : QNum) (req : Nat) (signed : Bool) (bits : Nat) : ∃ l, c.queueReply r k req signed bits =
    { c.fillQueue k req (fun e => e.fill 0 signed bits r.data r.missing r.status) with
      ldaOwed := l, sys := { c.sys with tinfo := if r.missing ≠ 0 ∧ c.parked = none then r.name else c.sys.tinfo } } := by
  obtain ⟨l, hl⟩ := (c.fillQueue k req fun e => e.fill 0 signed bits r.data r.missing r.status).ldaDone_eq k req
  refine ⟨l, ?_⟩
  have hcond : (r.missing ≠ 0 ∧ (!c.handling) = true) ↔ (r.missing ≠ 0 ∧ c.parked = none) := by simp [Ctx.handling]
  unfold Ctx.queueReply
  dsimp only
  rw [hl]
  by_cases h : r.missing ≠ 0 ∧ c.parked = none
  · rw [if_pos (hcond.mpr h), if_pos h]
    rfl
  · rw [if_neg (hcond.not.mpr h), if_neg h]
    rfl

theorem Ctx.watchReply_uid : (c.watchReply r).uid = c.uid := by
  unfold Ctx.watchReply
  split
  · rfl
  · split
    · rfl
    · split <;> rfl

theorem Ctx.noteDenied_uid_run : (c.noteDenied r).uid = c.uid ∧ (c.noteDenied r).run = c.run := by
  obtain ⟨l, hl⟩ := c.noteDenied_eq r
  rw [hl]
  exact ⟨rfl, rfl⟩

theorem Ctx.receive_uid : (c.receive r).uid = c.uid := by
  unfold Ctx.receive
  split
  · exact c.watchReply_uid r
  · split
    · rfl
    next k req signed bits _ _ =>
      obtain ⟨l, hl⟩ := c.queueReply_eq r k req signed bits
      rw [hl]
      exact (Ctx.noteDenied_uid_run _ r).1
    · exact (c.noteDenied_uid_run r).1

end

theorem Ctx.receive_load_queue {c : Ctx} {r : Request} {ps : List Piece} {k : QNum} {req bits land : Nat} {signed : Bool} (hask : r.ask = .load ps)
    (hsink : r.sink = .queue k req signed bits land) : c.receive r = (c.queueReply r k req signed bits).noteDenied r := by
  rw [Ctx.receive, hask, hsink]

theorem Ctx.receive_store_discard {c : Ctx} {r : Request} {parts : List Part} (hask : r.ask = .store parts) (hsink : r.sink = .discard) :
    c.receive r = c.noteDenied r := by
  rw [Ctx.receive, hask, hsink]

/-- A denied store that names a slice waits for a release with its address. -/
theorem Ctx.denied_noteDenied_store {c : Ctx} {r : Request} {parts : List Part} {slice : Nat} (hask : r.ask = .store parts) (hslice : r.slice = some slice)
    (hhome : r.home = none) : (c.noteDenied r).denied = if r.denied then c.denied ++ [(r.addr, slice)] else c.denied := by
  unfold Ctx.noteDenied Request.name
  rw [hslice, hask, hhome]
  by_cases hdenied : r.denied = true <;> simp [hdenied, Ask.lanes]

/-- Only a saved context is in the save area. -/
theorem State.syncSave_of_not_saved {s : State} {uid : Nat} {c : Ctx} (hc : s.ctxOf uid = some c) (hrun : c.run ≠ .saved) : s.syncSave uid = s := by
  unfold State.syncSave
  rw [hc]
  dsimp only
  split
  next hsaved _ => exact absurd hsaved hrun
  · rfl

/-- A reply wakes a context, or leaves all as it is. -/
theorem State.wakePop_spec {s : State} {uid : Nat} {c : Ctx} (hc : s.ctxOf uid = some c) (hrun : c.run ≠ .saved) :
    ∃ x, x ≠ .saved ∧ (s.wakePop uid).ctxOf uid = some { c with run := x } ∧ (s.wakePop uid).mem = s.mem ∧ (s.wakePop uid).requests = s.requests ∧
      (s.wakePop uid).cycle = s.cycle := by
  unfold State.wakePop
  rw [hc]
  dsimp only
  split
  · obtain rfl := State.uid_of_ctxOf hc
    exact ⟨.ready, by simp, State.ctxOf_mapCtx_of hc (by exact fun _ => rfl), rfl, rfl, rfl⟩
  · exact ⟨c.run, hrun, hc, rfl, rfl, rfl⟩

/-- The answer of a request that has come is taken. -/
theorem State.takeReply_of_home {s : State} {r : Request} {reply : Bool} (hr : s.requestOf r.id = some r) (hreply : r.replies = reply)
    (hhome : r.space = 0 ∧ r.stage = .served ∨ (r.space = 2 ∨ r.space = 4) ∧ r.stage = .replying) : s.takeReply r.id reply = s.takeAnswer r := by
  have hnear : r.space ≠ 5 := by omega
  have hpull : s.pullReply r = s := if_neg fun h => hnear h.1
  have hcome : r.home? = true := by
    unfold Request.home?
    rcases hhome with ⟨hspace, hstage⟩ | ⟨hspace | hspace, hstage⟩ <;> rw [hspace, hstage] <;> rfl
  unfold State.takeReply
  rw [hr]
  dsimp only
  rw [hreply, hpull, hr, bne_self_eq_false]
  dsimp only
  rw [hcome]
  rfl

/-- The context of an answer receives it, and may be ready again; the request is gone. -/
theorem State.takeAnswer_spec {s : State} {r : Request} {c : Ctx} (huid : r.uid ≠ 0) (hengine : r.engine = none) (hc : s.ctxOf r.uid = some c)
    (hrun : (c.receive r).run ≠ .saved) :
    (s.takeAnswer r).requestOf r.id = none ∧ (∃ x, (s.takeAnswer r).ctxOf r.uid = some { c.receive r with run := x }) ∧ (s.takeAnswer r).mem = s.mem ∧
      (s.takeAnswer r).cycle = max s.cycle r.readyAt := by
  have heq : s.takeAnswer r = ((((s.reach r.readyAt).replace r.id []).mapCtx r.uid (·.receive r)).wakePop r.uid).syncSave r.uid := by
    unfold State.takeAnswer
    rw [if_neg huid, hengine]
  have hreceived : (((s.reach r.readyAt).replace r.id []).mapCtx r.uid (·.receive r)).ctxOf r.uid = some (c.receive r) := by
    rw [State.ctxOf_mapCtx_self (Ctx.receive_uid · r)]
    show (s.ctxOf r.uid).map _ = _
    rw [hc]
    rfl
  obtain ⟨x, hx, hctx, hmem, hrequests, hcycle⟩ := State.wakePop_spec hreceived hrun
  rw [heq, State.syncSave_of_not_saved hctx hx]
  refine ⟨?_, ⟨x, hctx⟩, hmem, hcycle⟩
  rw [State.requestOf, hrequests]
  exact State.requestOf_replace_nil ..

end Sys2Proof.Machine

namespace Sys2Proof.Certificates
open Sys2Proof Machine

/-- Settles O53: a packet by its slot, an access by where it performs, a wait by what it waits for, an answer by where it goes. -/
theorem requestsMoveAndRepliesArrive : Obligations.RequestsMoveAndRepliesArrive := by
  unfold Obligations.RequestsMoveAndRepliesArrive
  refine ⟨fun s r tile slot c d => ⟨?leaves, ?returns, ?discarded, ?joins, ?waits, fun m hr => ⟨?loads, ?stores⟩, ?die, ?word, ?stalled, ?release, ?barrier⟩,
    fun s r c k req bits signed land slice e l ps hr hc hrun huid hengine hname hhome => ⟨?fills, ?acknowledged⟩⟩
  case leaves =>
    rintro ⟨hr, hspace⟩ hstage hne m hslot hforwards
    exact ⟨_, exec_meshSlot_of_slot hr hspace (by rw [Request.hop, hstage]) hne hslot hforwards, State.requestOf_replace _ _ _ hr rfl, rfl, rfl⟩
  case returns =>
    rintro ⟨hr, hspace⟩ hstage hne m hslot hforwards
    exact ⟨_, exec_meshSlot_of_slot hr hspace (by rw [Request.hop, hstage]) (Ne.symm hne) hslot hforwards, State.requestOf_replace _ _ _ hr rfl, rfl⟩
  case discarded =>
    rintro ⟨hr, hspace⟩ hstage hne hnone
    exact ⟨_, exec_meshSlot_of_no_slot hr hspace (by rw [Request.hop, hstage]) hne hnone, State.meshDiscard_spec ..⟩
  case joins =>
    rintro ⟨hr, hspace⟩ hstage hserve htask hd hnew hwait
    obtain ⟨x, hx, hact, hsite, hstamp, hdone⟩ := d.mem_stampAccess (max s.cycle r.readyAt) (.alloc r.tile r.slot (r.addr.toNat / 2 ^ 48 % 32)) (.arrival r.id r.ask)
    exact ⟨_, _, x, exec_remoteAccessArrival_of_task hr hspace hstage hserve htask hnew hwait, rfl, rfl, hr,
      State.ctxOf_mapCtx_of (s := s.reach r.readyAt) hd (by exact fun _ => rfl), hx, hact, hsite, hstamp, hdone⟩
  case waits =>
    rintro q ⟨hr, -⟩ - hserve hstep
    have hstays : exec (.remoteAccessArrival r.id) s = .next s := by
      rw [exec_remoteAccessArrival, execRemoteAccessArrival, hr]
      simp [hserve]
    exact (Host.Outcome.next.inj (hstays.symm.trans hstep)).symm
  case loads =>
    intro ps hask
    dsimp only
    rw [State.serveArrival_load hr _ _ hask]
    exact ⟨rfl, State.found_answer hr ..⟩
  case stores =>
    intro p hask
    dsimp only
    rw [State.serveArrival_store hr _ _ _ _ hask]
    exact ⟨State.found_answer hr .., fun x hwf hx => read_writeAddrs _ _ _ hwf _ hx⟩
  case die =>
    intro hr hspace hstage hserve hsettled hmerging
    exact ⟨_, exec_memsideAccess_of_due hr hspace hstage hserve hsettled hmerging, fun p as => State.admitted_serves_load hr,
      fun p => State.admitted_denies_load hr, fun p as => State.admitted_serves_store hr⟩
  case word =>
    rintro ⟨hat, hc⟩ hrun hwatch hholds
    exact ⟨_, exec_waitConditionMet_of_holds hat hwatch (.inl hrun) hholds,
      (State.ctxOf_mapCtx_of hc Ctx.conditionMet_uid).trans (congrArg _ (Ctx.conditionMet_of_waiting hrun)), rfl⟩
  case stalled =>
    rintro w ⟨hat, hc⟩ hrun hw hwatch hdelay hholds hsince
    exact ⟨_, exec_waitConditionMet_of_holds hat (by rw [hw]; exact hwatch) (.inr ⟨hrun, by simp [Ctx.stalledNow, hw, hdelay]⟩) hholds,
      (State.ctxOf_mapCtx_of hc Ctx.conditionMet_uid).trans (congrArg _ (Ctx.conditionMet_of_issuing hrun hw hsince)), rfl⟩
  case release =>
    rintro ⟨hat, hc⟩ hrun hwatch hover
    exact ⟨_, exec_waitConditionMet_of_release hat hwatch hrun hover,
      (State.ctxOf_mapCtx_of hc Ctx.conditionMet_uid).trans (congrArg _ (Ctx.conditionMet_of_waiting hrun)), rfl⟩
  case barrier =>
    rintro g n m ⟨hat, hc⟩ hgroup harrived hdone
    refine ⟨fun hrun => ⟨_, exec_barLeave_of_waiting hat hgroup harrived hdone hrun, State.ctxOf_mapCtx_of hc (by exact fun _ => rfl), rfl⟩,
      fun x w hrun hw hscope hdelay => ?_⟩
    rw [← barrierDelay_eq] at hdelay
    refine ⟨_, exec_barLeave_of_issuing hat hgroup harrived hdone hrun hscope hdelay, (State.ctxOf_mapCtx_of hc (by exact fun _ => rfl)).trans ?_, rfl⟩
    rw [hw]
    rfl
  case fills =>
    intro hask hsink hqueue he hl
    have hreceived := Ctx.receive_load_queue (c := c) hask hsink
    obtain ⟨_, hreply⟩ := c.queueReply_eq r k req signed bits
    obtain ⟨_, hnoted⟩ := (c.queueReply r k req signed bits).noteDenied_eq r
    rw [hnoted, hreply] at hreceived
    obtain ⟨hgone, ⟨x, hctx⟩, hmem, hcycle⟩ := State.takeAnswer_spec huid hengine hc (by rw [hreceived]; exact hrun)
    rw [hreceived] at hctx
    have hlanes (j : Nat) : j ∈ r.ask.lanes ↔ ∃ p ∈ ps, p.lane = j := by rw [hask]; exact List.mem_map
    rw [exec_replyArrival, State.takeReply_of_home hr (by rw [Request.replies, hask]) hhome]
    refine ⟨_, _, e.fill 0 signed bits r.data r.missing r.status, rfl, hgone, hctx, ?queue, rfl, he, rfl, rfl, hmem, hcycle, ?poison, ?tinfo⟩
    case queue =>
      show (c.rq.set k.toNat _ k.isLt)[k.toNat] = _
      rw [Vector.getElem_set_self, hqueue]
      exact fillEntry_cons _ he hl
    case poison =>
      intro j hj
      show (e.poison ||| (r.missing &&& e.lanes)).getLsbD j = true ↔ _
      rw [BitVec.getLsbD_or, BitVec.getLsbD_and, Bool.or_eq_true, Bool.and_eq_true, r.missing_getLsbD hj, hlanes j]
      tauto
    case tinfo =>
      have hmissing : (r.missing ≠ 0 ∧ c.parked = none) ↔ (c.parked = none ∧ ∃ p ∈ ps, p.lane < 128 ∧ ∀ y ∈ r.data, y.1 ≠ p.lane) := by
        rw [r.missing_ne_zero_iff, and_comm]
        simp only [hlanes, exists_exists_and_eq_and]
      show (if _ then r.name else c.sys.tinfo) = _
      rw [Request.name, hname]
      exact if_congr hmissing rfl rfl
  case acknowledged =>
    intro parts hask hsink hslice
    have hreceived := Ctx.receive_store_discard (c := c) hask hsink
    have hdenied := Ctx.denied_noteDenied_store (c := c) hask hslice hname
    obtain ⟨_, hnoted⟩ := c.noteDenied_eq r
    obtain ⟨hgone, ⟨x, hctx⟩, hmem, -⟩ := State.takeAnswer_spec huid hengine hc (by rw [hreceived, hnoted]; exact hrun)
    rw [exec_storeAck, State.takeReply_of_home hr (by rw [Request.replies, hask, hsink]) hhome]
    refine ⟨_, _, rfl, hgone, hctx, ?_, ?_, hmem⟩
    · rw [hreceived]
      exact hdenied
    · rw [hreceived, hnoted]

end Sys2Proof.Certificates
end

section
/-!
SUPPORT. The swizzle of an allocation, digit by digit (R154), and the statement about it.
-/
namespace Sys2Proof.Machine
open Sys2Proof

/-! ## A number in the mixed radix of row, span and byte -/

section
variable {span n h x r : Nat} (hrow : span * n = 2048) (hr : r < span)
include hrow hr

theorem span_digits_lt_row (hx : x < n) : x * span + r < 2048 := by
  have hfits : (x + 1) * span ≤ n * span := Nat.mul_le_mul_right _ hx
  rw [Nat.mul_comm n, hrow, Nat.succ_mul] at hfits
  omega

theorem row_of_digits (hx : x < n) : (h * 2048 + x * span + r) / 2048 = h := by
  have hlt := span_digits_lt_row hrow hr hx
  omega

theorem span_of_digits (hx : x < n) : (h * 2048 + x * span + r) % 2048 / span = x := by
  have hlt := span_digits_lt_row hrow hr hx
  have hmod : (h * 2048 + x * span + r) % 2048 = r + span * x := by
    rw [Nat.mul_comm span]
    omega
  rw [hmod, Nat.add_mul_div_left _ _ (by omega), Nat.div_eq_of_lt hr, Nat.zero_add]

theorem byte_of_digits : (h * 2048 + x * span + r) % span = r := by
  have hsum : h * 2048 + x * span + r = r + span * (h * n + x) := by
    rw [← hrow]
    ring
  rw [hsum, Nat.add_mul_mod_self_left, Nat.mod_eq_of_lt hr]

end

/-! ## The digits of a swizzled offset (R154) -/

theorem swizzle_zero (o : Nat) : swizzle 0 o = o := rfl

section
variable {z : Nat} (hz : z < 7)
include hz

/-- A row holds a power of two of spans. -/
theorem span_mul_spans : 2 ^ (z + 3) * 2 ^ (8 - z) = 2048 := by
  rw [← Nat.pow_add, show z + 3 + (8 - z) = 11 by omega]

theorem spans_eq : 2048 / 2 ^ (z + 3) = 2 ^ (8 - z) := Nat.div_eq_of_eq_mul_right (Nat.two_pow_pos _) (span_mul_spans hz).symm

/-- The span of an offset, with the low bits of its row mixed in, is a span of the row. -/
theorem mixed_span_lt (o : Nat) : (o % 2048 / 2 ^ (z + 3) ^^^ o / 2048 % (2048 / 2 ^ (z + 3))) < 2 ^ (8 - z) := by
  have hspan : o % 2048 / 2 ^ (z + 3) < 2 ^ (8 - z) := by
    rw [Nat.div_lt_iff_lt_mul (Nat.two_pow_pos _), Nat.mul_comm, span_mul_spans hz]
    exact Nat.mod_lt _ (by decide)
  have hkey : o / 2048 % (2048 / 2 ^ (z + 3)) < 2 ^ (8 - z) := by
    rw [spans_eq hz]
    exact Nat.mod_lt _ (Nat.two_pow_pos _)
  exact Nat.xor_lt_two_pow hspan hkey

/-- Row, span and byte name an offset. -/
theorem eq_of_digits {o p : Nat} (hrow : o / 2048 = p / 2048) (hspan : o % 2048 / 2 ^ (z + 3) = p % 2048 / 2 ^ (z + 3))
    (hbyte : o % 2 ^ (z + 3) = p % 2 ^ (z + 3)) : o = p := by
  have hdvd : 2 ^ (z + 3) ∣ 2048 := ⟨_, (span_mul_spans hz).symm⟩
  have hinrow : o % 2048 = p % 2048 := by
    rw [← Nat.div_add_mod (o % 2048) (2 ^ (z + 3)), ← Nat.div_add_mod (p % 2048) (2 ^ (z + 3)), Nat.mod_mod_of_dvd _ hdvd,
      Nat.mod_mod_of_dvd _ hdvd, hspan, hbyte]
  omega

end

theorem swizzle_of_pos {z : Nat} (hpos : 0 < z) (o : Nat) : swizzle z o =
    o / 2048 * 2048 + (o % 2048 / 2 ^ (z + 3) ^^^ o / 2048 % (2048 / 2 ^ (z + 3))) * 2 ^ (z + 3) + o % 2 ^ (z + 3) :=
  if_neg (by omega)

section
variable {z : Nat} (hpos : 0 < z) (hz : z < 7) (o : Nat)
include hpos hz

theorem swizzle_row : swizzle z o / 2048 = o / 2048 := by
  rw [swizzle_of_pos hpos]
  exact row_of_digits (span_mul_spans hz) (Nat.mod_lt _ (Nat.two_pow_pos _)) (mixed_span_lt hz o)

theorem swizzle_span : swizzle z o % 2048 / 2 ^ (z + 3) = o % 2048 / 2 ^ (z + 3) ^^^ o / 2048 % (2048 / 2 ^ (z + 3)) := by
  rw [swizzle_of_pos hpos]
  exact span_of_digits (span_mul_spans hz) (Nat.mod_lt _ (Nat.two_pow_pos _)) (mixed_span_lt hz o)

theorem swizzle_byte : swizzle z o % 2 ^ (z + 3) = o % 2 ^ (z + 3) := by
  rw [swizzle_of_pos hpos]
  exact byte_of_digits (span_mul_spans hz) (Nat.mod_lt _ (Nat.two_pow_pos _))

end

/-- With the row known the mixed span gives the span back, so that no two offsets meet. -/
theorem swizzle_injective {z : Nat} (hz : z < 7) : Function.Injective (swizzle z) := by
  intro o p hop
  rcases Nat.eq_zero_or_pos z with rfl | hpos
  · exact hop
  have hrow : o / 2048 = p / 2048 := by rw [← swizzle_row hpos hz o, hop, swizzle_row hpos hz p]
  have hbyte : o % 2 ^ (z + 3) = p % 2 ^ (z + 3) := by rw [← swizzle_byte hpos hz o, hop, swizzle_byte hpos hz p]
  have hmixed := swizzle_span hpos hz o
  rw [hop, swizzle_span hpos hz p, hrow] at hmixed
  exact eq_of_digits hz hrow (Nat.xor_left_injective hmixed.symm) hbyte

end Sys2Proof.Machine
namespace Sys2Proof.Certificates
open Sys2Proof Sys2Proof.Machine

/-- Settles O36: the swizzle keeps the row and the byte of an offset, and mixes into its span a number that the row gives. -/
theorem swizzleIsABijectionOfEachRow : Obligations.SwizzleIsABijectionOfEachRow := by
  intro z o p hz
  refine ⟨?_, fun hop => swizzle_injective hz hop, swizzle_zero o, fun hpos => ⟨swizzle_byte hpos hz o, swizzle_span hpos hz o⟩⟩
  rcases Nat.eq_zero_or_pos z with rfl | hpos
  · rw [swizzle_zero]
  · exact swizzle_row hpos hz o

end Sys2Proof.Certificates
end

section
/-!
SUPPORT. Leaves of page tables (R163, R164), invalidation (R165), migrations and pins (R168 to R170), and the statement about them.
-/
namespace Sys2Proof.Machine
open Sys2Proof

/-! ## The operations as exec gives them -/

section
variable (s : State) (part die : BitVec 3) (va : Nat)

theorem exec_tlbInvalidate (lo hi : Nat) : exec (.tlbInvalidate part die lo hi) s = execTlbInvalidate part die lo hi s := rfl
theorem exec_migrate (level : Nat) (tier : BitVec 2) (frame : BitVec 36) :
    exec (.migrate part die va level tier frame) s = execMigrate part die va level tier frame s := rfl
theorem exec_migrationCopyDone : exec (.migrationCopyDone part die va) s = execMigrationCopyDone part die va s := rfl
theorem exec_migrationSwitch : exec (.migrationSwitch part die va) s = execMigrationSwitch part die va s := rfl
theorem exec_pinExpiry : exec (.pinExpiry part die va) s = execPinExpiry part die va s := rfl

end

/-! ## The fields of a leaf (R164) -/

theorem pteTier_eq (e : DWord) : pteTier e = (e.extractLsb' 57 2).toNat := by
  rw [BitVec.extractLsb'_toNat, Nat.shiftRight_eq_div_pow]
  rfl

theorem pteFrame_eq (e : DWord) : pteFrame e = (e.extractLsb' 12 36).toNat * 2 ^ 12 := by
  rw [BitVec.extractLsb'_toNat, Nat.shiftRight_eq_div_pow]
  rfl

section
variable (e : DWord) (tier : BitVec 2) (frame : BitVec 36)

/-- The bits that a migration puts into a leaf. -/
def leafBits (tier : BitVec 2) (frame : BitVec 36) : DWord := BitVec.ofNat 64 (tier.toNat * 2 ^ 57 + frame.toNat * 2 ^ 12)

theorem leafBits_toNat : (leafBits tier frame).toNat = tier.toNat * 2 ^ 57 + frame.toNat * 2 ^ 12 := by
  have htier := tier.isLt
  have hframe := frame.isLt
  rw [leafBits, BitVec.toNat_ofNat, Nat.mod_eq_of_lt (by omega)]

theorem leafBits_tier : (leafBits tier frame).extractLsb' 57 2 = tier := by
  have htier := tier.isLt
  have hframe := frame.isLt
  apply BitVec.eq_of_toNat_eq
  rw [BitVec.extractLsb'_toNat, Nat.shiftRight_eq_div_pow, leafBits_toNat]
  omega

theorem leafBits_frame : (leafBits tier frame).extractLsb' 12 36 = frame := by
  have hframe := frame.isLt
  apply BitVec.eq_of_toNat_eq
  rw [BitVec.extractLsb'_toNat, Nat.shiftRight_eq_div_pow, leafBits_toNat]
  omega

theorem leafBits_mig : (leafBits tier frame).getLsbD migBit = false := by
  have hframe := frame.isLt
  rw [BitVec.getLsbD, leafBits_toNat, Nat.testBit_eq_decide_div_mod_eq, migBit]
  simp only [decide_eq_false_iff_not]
  omega

/-- The bits of a leaf that a migration leaves: none of its tier, of MIG and of its frame. -/
def leafKept : DWord := ~~~(BitVec.ofNat 64 (2 ^ 57 * 3 + 2 ^ migBit + (2 ^ 36 - 1) * 2 ^ 12))

theorem leafWith_eq : leafWith e tier frame = (e &&& leafKept) ||| leafBits tier frame := rfl

theorem pteTier_leafWith : pteTier (leafWith e tier frame) = tier.toNat := by
  have hkept : leafKept.extractLsb' 57 2 = 0#2 := by decide
  rw [pteTier_eq, leafWith_eq, BitVec.extractLsb'_or, BitVec.extractLsb'_and, hkept, BitVec.and_zero, BitVec.zero_or, leafBits_tier]

theorem pteFrame_leafWith : pteFrame (leafWith e tier frame) = frame.toNat * 2 ^ 12 := by
  have hkept : leafKept.extractLsb' 12 36 = 0#36 := by decide
  rw [pteFrame_eq, leafWith_eq, BitVec.extractLsb'_or, BitVec.extractLsb'_and, hkept, BitVec.and_zero, BitVec.zero_or, leafBits_frame]

theorem leafWith_mig : (leafWith e tier frame).getLsbD migBit = false := by
  have hkept : leafKept.getLsbD migBit = false := by decide
  rw [leafWith_eq, BitVec.getLsbD_or, BitVec.getLsbD_and, hkept, Bool.and_false, Bool.false_or, leafBits_mig]

end

/-- The tier and the frame of one leaf, put into another. -/
theorem pteTier_leafWith_of (e target : DWord) (frame : BitVec 36) : pteTier (leafWith e (BitVec.ofNat 2 (pteTier target)) frame) = pteTier target := by
  rw [pteTier_leafWith, BitVec.toNat_ofNat, pteTier_eq, Nat.mod_eq_of_lt (BitVec.isLt _)]

theorem pteFrame_leafWith_of (e target : DWord) (tier : BitVec 2) :
    pteFrame (leafWith e tier (BitVec.ofNat 36 (pteFrame target / 2 ^ 12))) = pteFrame target := by
  rw [pteFrame_leafWith, pteFrame_eq, Nat.mul_div_cancel _ (Nat.two_pow_pos 12), BitVec.toNat_ofNat, Nat.mod_eq_of_lt (BitVec.isLt _)]

/-! ## Entries in memory (R163) -/

theorem State.dieRec_withMem (s : State) (m : Memory) (d : Nat) : ({ s with mem := m } : State).dieRec d = s.dieRec d := rfl

/-- The leaf that a walk finds is what memory holds at its address. -/
theorem walk_leaf {m : Memory} {die off : Nat} {within : Nat → Nat → Nat → Bool} {e : DWord} {a sh : Nat} :
    ∀ {l : List (Nat × Nat)} {tier base : Nat}, walk m die off within l tier base = some (e, a, sh) → e = BitVec.ofNat 64 (Memory.readNat m a 8)
  | [], _, _, h => nomatch h
  | (_, _) :: l, _, _, h => by
    unfold walk at h
    dsimp only at h
    split at h
    · cases h
    · split at h
      · split at h
        · obtain ⟨he, hrest⟩ := Prod.mk.inj (Option.some.inj h)
          obtain ⟨ha, -⟩ := Prod.mk.inj hrest
          rw [← he, ← ha]
        · cases h
      · split at h
        · cases h
        · exact walk_leaf h

theorem State.leafOf_entry {s : State} {part die off : Nat} {e : DWord} {a sh : Nat} (h : s.leafOf part die off = some (e, a, sh)) :
    e = BitVec.ofNat 64 (Memory.readNat s.mem a 8) := by
  obtain ⟨_, -, hwalk⟩ := Option.bind_eq_some_iff.mp h
  exact walk_leaf hwalk

/-- An entry written reads back. -/
theorem Memory.entry_writeNat {m : Memory} (h : m.wf = true) (a x : Nat) :
    (BitVec.ofNat 64 (Memory.readNat (Memory.writeNat m a 8 x) a 8) : DWord) = BitVec.ofNat 64 x := by
  rw [Memory.readNat_writeNat 8 h]
  apply BitVec.eq_of_toNat_eq
  rw [BitVec.toNat_ofNat, BitVec.toNat_ofNat]
  exact Nat.mod_mod _ _

theorem ofNat_two_pow (w k : Nat) : BitVec.ofNat w (2 ^ k) = BitVec.twoPow w k := by
  apply BitVec.eq_of_toNat_eq
  rw [BitVec.toNat_ofNat, BitVec.toNat_twoPow]

section
variable {w k : Nat} {x : BitVec w}

/-- A bit that is set is taken off by a subtraction. -/
theorem sub_twoPow_of_set (h : x.getLsbD k = true) : x - BitVec.twoPow w k = x &&& ~~~BitVec.twoPow w k := by
  have hdisjoint : (x &&& ~~~BitVec.twoPow w k) &&& BitVec.twoPow w k = 0#w := by
    rw [BitVec.and_assoc, BitVec.and_comm (~~~_), BitVec.and_not_self]
    exact BitVec.and_zero
  symm
  rw [BitVec.eq_sub_iff_add_eq, BitVec.add_eq_or_of_and_eq_zero _ _ hdisjoint]
  apply BitVec.eq_of_getLsbD_eq
  intro i hi
  by_cases hk : k = i
  · subst hk
    simp [h, hi]
  · simp [Ne.symm hk, hi]

theorem and_not_twoPow_of_clear (h : x.getLsbD k = false) : x &&& ~~~BitVec.twoPow w k = x := by
  apply BitVec.eq_of_getLsbD_eq
  intro i hi
  by_cases hk : k = i
  · subst hk
    simp [h]
  · simp [Ne.symm hk, hi]

end

/-- An entry whose bit k has been cleared. -/
theorem entry_setEntryBit_clear {m : Memory} (h : m.wf = true) (a : Nat) {k : Nat} (hk : k < 64) :
    BitVec.ofNat 64 (Memory.readNat (setEntryBit m a k false) a 8) = BitVec.ofNat 64 (Memory.readNat m a 8) &&& ~~~(BitVec.twoPow 64 k) := by
  have hbit : (BitVec.ofNat 64 (Memory.readNat m a 8)).getLsbD k = (Memory.readNat m a 8).testBit k := by
    rw [BitVec.getLsbD_ofNat, decide_eq_true hk, Bool.true_and]
  unfold setEntryBit
  dsimp only
  rw [Memory.entry_writeNat h]
  cases hx : (Memory.readNat m a 8).testBit k with
  | false =>
    rw [if_pos (beq_self_eq_true _)]
    exact (and_not_twoPow_of_clear (hbit.trans hx)).symm
  | true =>
    have hle : 2 ^ k ≤ Memory.readNat m a 8 := Nat.ge_two_pow_of_testBit hx
    have hlt : 2 ^ k < 2 ^ 64 := Nat.pow_lt_pow_right (by decide) hk
    have hsub := sub_twoPow_of_set (hbit.trans hx)
    rw [if_neg (show ¬(true == false) = true by decide), if_neg Bool.false_ne_true, ← BitVec.ofNat_sub_ofNat_of_le _ _ hlt hle, ofNat_two_pow, hsub]

/-! ## Invalidation (R165) -/

section
variable {β : Type} (g : State → β)

/-- The TLBs of the tiles touch the records of the tiles only. -/
theorem State.dropTlbs_keeps (htile : ∀ t k x, g (State.setTile t k x) = g t) (s : State) (part die lo hi : Nat) :
    g (s.dropTlbs part die lo hi) = g (s.mapDie die fun d => { d with tlb := d.tlb.filter (fun x => x.1 != part || x.2.outside lo hi) }) := by
  unfold State.dropTlbs
  exact foldl_keeps g (fun t k => htile t k _) _ _

end

section
variable (s : State) (part die lo hi : Nat)

theorem State.dropTlbs_mem : (s.dropTlbs part die lo hi).mem = s.mem :=
  (State.dropTlbs_keeps State.mem (fun _ _ _ => rfl) ..).trans (State.mapDie_mem ..)

theorem State.dropTlbs_dieRec {die : Nat} (h : die < 8) : (s.dropTlbs part die lo hi).dieRec die =
    { s.dieRec die with tlb := (s.dieRec die).tlb.filter (fun x => x.1 != part || x.2.outside lo hi) } :=
  (State.dropTlbs_keeps (fun t => t.dieRec die) (fun _ _ _ => rfl) ..).trans (State.dieRec_mapDie_self s _ h)

theorem State.dropTlbs_dieRec_ne {k : Nat} (hne : k ≠ die) (hk : k < 8) : (s.dropTlbs part die lo hi).dieRec k = s.dieRec k :=
  (State.dropTlbs_keeps (fun t => t.dieRec k) (fun _ _ _ => rfl) ..).trans (State.dieRec_mapDie_ne s _ hne hk)

end

/-- What is left in a die's TLB lies outside the range that it has dropped. -/
theorem TlbEntry.outside_iff (e : TlbEntry) (lo hi : Nat) : e.outside lo hi = true ↔ e.lo + e.size ≤ lo ∨ hi ≤ e.lo := by
  simp [TlbEntry.outside]

theorem outside_of_mem_dropped {l : List (Nat × TlbEntry)} {part lo hi : Nat} {x : Nat × TlbEntry}
    (hx : x ∈ l.filter (fun x => x.1 != part || x.2.outside lo hi)) (hpart : x.1 = part) : x.2.lo + x.2.size ≤ lo ∨ hi ≤ x.2.lo := by
  obtain ⟨-, hkept⟩ := List.mem_filter.mp hx
  rw [hpart, bne_self_eq_false, Bool.false_or] at hkept
  exact (x.2.outside_iff lo hi).mp hkept

theorem exec_tlbInvalidate_of_none {s : State} {part die : BitVec 3} {lo hi : Nat}
    (h : ∀ q ∈ s.requests, q.forwardedIn part.toNat die.toNat lo hi = false) :
    exec (.tlbInvalidate part die lo hi) s = .next (s.dropTlbs part.toNat die.toNat lo hi) := by
  rw [exec_tlbInvalidate, execTlbInvalidate, if_neg]
  rw [List.any_eq_true]
  rintro ⟨q, hq, hforwarded⟩
  rw [h q hq] at hforwarded
  cases hforwarded

/-! ## MIGRATE (R168 to R170) -/

/-- A refusal leaves its code in the die's record, and all else stands. -/
theorem State.migResult_spec (s : State) {die : Nat} (h : die < 8) (code : Nat) :
    ((s.migResult die code).dieRec die).result = code ∧ ((s.migResult die code).dieRec die).migs = (s.dieRec die).migs ∧ (s.migResult die code).mem = s.mem := by
  rw [State.migResult, State.dieRec_mapDie_self s _ h, State.mapDie_mem]
  exact ⟨rfl, rfl, rfl⟩

section
variable {s : State} {part die : BitVec 3} {va level : Nat} {tier : BitVec 2} {frame : BitVec 36}

theorem exec_migrate_of_unmapped (h : s.leafOf part.toNat die.toNat va = none) :
    exec (.migrate part die va level tier frame) s = .next (s.migResult die.toNat migBad) := by
  rw [exec_migrate, execMigrate, h]
  dsimp only
  split
  next hleaf => cases hleaf
  · rfl

variable {e : DWord} {a sh b : Nat} (hleaf : s.leafOf part.toNat die.toNat va = some (e, a, sh)) (hlevel : pageLevels[level - 1]? = some (sh, b))
include hleaf hlevel

theorem exec_migrate_of_busy {x : Migration} (hbusy : (s.dieRec die.toNat).migOf part.toNat va = some x) :
    exec (.migrate part die va level tier frame) s = .next (s.migResult die.toNat migBusy) := by
  rw [exec_migrate, execMigrate, hleaf, hlevel]
  dsimp only
  rw [hbusy, Option.isSome_some, if_pos rfl]

variable (hfree : (s.dieRec die.toNat).migOf part.toNat va = none)
include hfree

theorem exec_migrate_of_misaligned (h : va % 2 ^ sh ≠ 0) :
    exec (.migrate part die va level tier frame) s = .next (s.migResult die.toNat migBad) := by
  rw [exec_migrate, execMigrate, hleaf, hlevel]
  dsimp only
  rw [hfree, if_neg (by decide), if_pos (.inr (.inr (.inl h)))]

/-- A move within the die that nothing refuses begins. -/
theorem exec_migrate_of_good (hpos : 0 < level) (halign : va % 2 ^ sh = 0)
    (htarget : s.targetOk part.toNat die.toNat (leafWith e tier frame) (2 ^ sh) = true) (hplaced : s.placed part.toNat die.toNat e (2 ^ sh) = true)
    (hmoves : s.recentMoves part.toNat die.toNat va = []) :
    exec (.migrate part die va level tier frame) s = .next (s.startMove part.toNat die.toNat va (2 ^ sh) a e (leafWith e tier frame)) := by
  have hlevel0 : level ≠ 0 := by omega
  rw [exec_migrate, execMigrate, hleaf, hlevel]
  dsimp only
  rw [hfree, hmoves, if_neg (by decide), if_neg (by simp [hlevel0, halign, htarget, hplaced])]

end

/-- The copy within a die changes memory only. -/
theorem State.copyHere_dies (s : State) (part die : Nat) (old target : DWord) (size : Nat) : (s.copyHere part die old target size).dies = s.dies := by
  refine foldl_keeps State.dies (fun t i => ?_) _ s
  split <;> rfl

theorem State.copyHere_dieRec (s : State) (part die : Nat) (old target : DWord) (size k : Nat) :
    (s.copyHere part die old target size).dieRec k = s.dieRec k := by
  rw [State.dieRec, State.copyHere_dies, State.dieRec]

/-- A move within the die that has begun. -/
theorem State.startMove_migs {s : State} {part die va size a : Nat} {old target : DWord} (hdie : die < 8) (hold : pteTier old ≠ 2)
    (htarget : pteTier target ≠ 2) : ((s.startMove part die va size a old target).dieRec die).migs = (s.dieRec die).migs ++
      [{ num := s.nextReq, part := part, va := va, size := size, leafAt := a, target := target, queue := [], copied := false, owed := 0 }] := by
  unfold State.startMove
  simp only [hold, htarget, decide_false, Bool.or_self, if_false, Bool.false_eq_true]
  rw [State.copyHere_dieRec, State.dieRec_mapDie_self _ _ hdie]
  rfl

/-! ## The copy ends (R169 step 4) -/

/-- The migration of a page after those of a number have been changed. -/
theorem State.move_mapMig (s : State) {die : Nat} (hdie : die < 8) (num : Nat) {f : Migration → Migration} (hpart : ∀ m, (f m).part = m.part)
    (hva : ∀ m, (f m).va = m.va) (part va : Nat) :
    ((s.mapMig die num f).dieRec die).move part va = ((s.dieRec die).move part va).map (fun m => if m.num = num then f m else m) := by
  have hsame : (fun m : Migration => m.part == part && m.va == va) ∘ (fun m => if m.num = num then f m else m) =
      fun m => m.part == part && m.va == va := by
    funext m
    simp only [Function.comp_apply]
    split
    · rw [hpart, hva]
    · rfl
  rw [State.mapMig, State.dieRec_mapDie_self s _ hdie]
  show List.find? _ (List.map _ _) = _
  rw [List.find?_map, hsame]
  rfl

@[simp] theorem State.mapMig_mem (s : State) (die num : Nat) (f : Migration → Migration) : (s.mapMig die num f).mem = s.mem := State.mapDie_mem ..

/-- An empty hold queue is replayed at once. -/
theorem State.replay_of_empty (s : State) (die : Nat) {m : Migration} (h : m.queue = []) :
    s.replay die m = if pteTier m.target = 2 then s else s.mapMig die m.num (fun x => { x with queue := [] }) := by
  rw [State.replay, h]
  rfl

theorem State.replay_of_empty_mem (s : State) (die : Nat) {m : Migration} (h : m.queue = []) : (s.replay die m).mem = s.mem := by
  rw [s.replay_of_empty die h]
  split
  · rfl
  · exact State.mapMig_mem ..

/-- The replay of an empty hold queue leaves a migration of the page whose queue is empty as it is. -/
theorem State.replay_of_empty_move (s : State) {die : Nat} (hdie : die < 8) {m x : Migration} {part va : Nat} (h : m.queue = [])
    (hx : (s.dieRec die).move part va = some x) (hqueue : x.queue = []) : ((s.replay die m).dieRec die).move part va = some x := by
  rw [s.replay_of_empty die h]
  split
  · exact hx
  · rw [s.move_mapMig hdie m.num (f := fun y => { y with queue := [] }) (fun _ => rfl) (fun _ => rfl), hx]
    have hsame : { x with queue := [] } = x := by rw [← hqueue]
    rw [Option.map_some, hsame, ite_self]

theorem exec_migrationCopyDone_of_copied {s : State} {part die : BitVec 3} {va : Nat} {m : Migration}
    (hm : (s.dieRec die.toNat).move part.toNat va = some m) (howed : m.owed = 0) :
    exec (.migrationCopyDone part die va) s =
      .next ((s.mapMig die.toNat m.num (fun x => { x with copied := true })).replay die.toNat m) := by
  rw [exec_migrationCopyDone, execMigrationCopyDone, hm]
  exact congrArg _ (if_pos howed)

/-! ## The switch (R169 step 5) -/

/-- The leaf of a page that has moved: tier and frame of the target, and MIG clear. -/
def State.switchedLeaf (s : State) (m : Migration) : DWord :=
  leafWith (BitVec.ofNat 64 (Memory.readNat s.mem m.leafAt 8)) (BitVec.ofNat 2 (pteTier m.target)) (BitVec.ofNat 36 (pteFrame m.target / 2 ^ 12))

/-- The record of a die on which a page has moved. -/
def DieRec.moved (d : DieRec) (part va cycle : Nat) : DieRec :=
  { d.dropMig part va with moves := (d.dropMig part va).moves ++ [(part, va, cycle)], result := migDone }

/-- The module after the switch of a migration. -/
def State.switched (s : State) (part die va : Nat) (m : Migration) : State :=
  (({ s with mem := Memory.writeNat s.mem m.leafAt 8 (s.switchedLeaf m).toNat } : State).mapDie die fun d => d.moved part va s.cycle).dropTlbs
    part die va (va + m.size)

theorem exec_migrationSwitch_of_copied {s : State} {part die : BitVec 3} {va : Nat} {m : Migration}
    (hm : (s.dieRec die.toNat).move part.toNat va = some m) (hcopied : m.copied = true) (hqueue : m.queue = []) (howed : m.owed = 0)
    (hknown : ∀ q ∈ s.requests, q.movesWith die.toNat m = true → q.unknown = false) :
    exec (.migrationSwitch part die va) s = .next (s.switched part.toNat die.toNat va m) := by
  have hnone : s.requests.any (fun q => q.movesWith die.toNat m && q.unknown) = false := by
    rw [List.any_eq_false]
    intro q hq hboth
    rw [Bool.and_eq_true] at hboth
    rw [hknown q hq hboth.1] at hboth
    cases hboth.2
  rw [exec_migrationSwitch, execMigrationSwitch, hm]
  dsimp only
  rw [if_pos ⟨hcopied, by rw [hqueue]; rfl, howed, by rw [hnone]; rfl⟩]
  rfl

/-- No migration of the page is left. -/
theorem DieRec.move_dropMig (d : DieRec) (part va : Nat) : (d.dropMig part va).move part va = none := by
  unfold DieRec.move DieRec.dropMig
  rw [List.find?_eq_none]
  intro m hm
  simpa [imp_iff_not_or] using (List.mem_filter.mp hm).2

section
variable (s : State) (part va : Nat) {die : Nat} (m : Migration)

theorem State.switched_mem : (s.switched part die va m).mem = Memory.writeNat s.mem m.leafAt 8 (s.switchedLeaf m).toNat :=
  (State.dropTlbs_mem ..).trans (State.mapDie_mem ..)

theorem State.switched_dieRec (hdie : die < 8) : (s.switched part die va m).dieRec die = { (s.dieRec die).moved part va s.cycle with
    tlb := (s.dieRec die).tlb.filter (fun x => x.1 != part || x.2.outside va (va + m.size)) } := by
  rw [State.switched, State.dropTlbs_dieRec _ _ _ _ hdie, State.dieRec_mapDie_self _ _ hdie]
  rfl

end

/-! ## Pins (R170) -/

/-- A pin that has run out leaves the die's record, and PIN leaves the leaf. -/
theorem exec_pinExpiry_of_due {s : State} {part die : BitVec 3} {va : Nat} {pin : Nat × Nat × Nat}
    (hpin : (s.dieRec die.toNat).pins.find? (fun x => x.1 == part.toNat && x.2.1 == va && decide (x.2.2 ≤ s.cycle)) = some pin)
    {e : DWord} {a sh : Nat} (hleaf : s.leafOf part.toNat die.toNat va = some (e, a, sh)) : ∃ t, exec (.pinExpiry part die va) s = .next t ∧
      (t.dieRec die.toNat).pins = (s.dieRec die.toNat).pins.filter (fun y => y.1 != part.toNat || y.2.1 != va) ∧ t.mem = setEntryBit s.mem a pinBit false := by
  rw [exec_pinExpiry, execPinExpiry, hpin]
  dsimp only
  rw [hleaf]
  refine ⟨_, rfl, ?_, ?_⟩
  · rw [State.dieRec_withMem, State.dieRec_mapDie_self s _ die.isLt]
  · exact congrArg (fun m => setEntryBit m a pinBit false) (State.mapDie_mem ..)

end Sys2Proof.Machine
namespace Sys2Proof.Certificates
open Sys2Proof Sys2Proof.Machine

/-- Settles O54: each operation by the branch that its premises leave, with the leaf read back from memory. -/
theorem migrationsMovePages : Obligations.MigrationsMovePages := by
  unfold Obligations.MigrationsMovePages
  intro s part die lo hi va level tier frame m p d r mig answers
  have hdie : d < 8 := die.isLt
  have refused {code : Nat} (h : exec mig s = .next (s.migResult d code)) : answers code := ⟨_, h, s.migResult_spec hdie code⟩
  refine ⟨fun hnone => ?invalidate, fun hleaf => ?unmapped, fun x e a sh b hleaf hlevel hbusy => ?busy, fun e a sh b hleaf hlevel hfree halign => ?misaligned,
    fun e a sh b hleaf hlevel hpos hfree halign htarget hplaced hold htier hmoves => ?begins, fun hm howed hqueue => ?copied,
    fun hm hcopied hqueue howed hknown hwf => ?switch, fun e a sh until_ hpin hleaf hwf => ?pin⟩
  case invalidate =>
    refine ⟨_, exec_tlbInvalidate_of_none hnone, s.dropTlbs_mem .., ?_, fun k hk hne => s.dropTlbs_dieRec_ne p d lo hi hne hk⟩
    rw [s.dropTlbs_dieRec p lo hi hdie]
  case unmapped => exact refused (exec_migrate_of_unmapped hleaf)
  case busy => exact refused (exec_migrate_of_busy hleaf hlevel hbusy)
  case misaligned => exact refused (exec_migrate_of_misaligned hleaf hlevel hfree halign)
  case begins =>
    have htier' : pteTier (leafWith e tier frame) ≠ 2 := by
      rw [pteTier_leafWith]
      exact fun h => htier (BitVec.eq_of_toNat_eq h)
    exact ⟨_, _, exec_migrate_of_good hleaf hlevel hfree hpos halign htarget hplaced hmoves, State.startMove_migs hdie hold htier',
      rfl, rfl, rfl, rfl, rfl, rfl, rfl, rfl⟩
  case copied =>
    have hmark : ((s.mapMig d m.num (fun x => { x with copied := true })).dieRec d).move p va = some { m with copied := true } := by
      rw [s.move_mapMig hdie m.num (f := fun y => { y with copied := true }) (fun _ => rfl) (fun _ => rfl), hm, Option.map_some, if_pos rfl]
    exact ⟨_, exec_migrationCopyDone_of_copied hm howed, (State.replay_of_empty_mem _ _ hqueue).trans (State.mapMig_mem ..),
      _, State.replay_of_empty_move _ hdie hqueue hmark hqueue, rfl, hqueue, rfl⟩
  case switch =>
    have hmem := s.switched_mem p va (die := d) m
    have hrec := s.switched_dieRec p va m hdie
    refine ⟨_, exec_migrationSwitch_of_copied hm hcopied hqueue howed hknown, ?_, ?_, ?_, ?_, fun y hy => ?_, ?_⟩
    · rw [hrec]
      exact r.move_dropMig p va
    · rw [hrec]
      rfl
    · rw [hrec]
      rfl
    · rw [hrec]
      exact fun x hx hpart => outside_of_mem_dropped hx hpart
    · rw [hmem]
      exact Memory.read_writeNat 8 hwf _ _ _ hy
    · rw [hmem]
      dsimp only
      rw [Memory.entry_writeNat hwf, BitVec.ofNat_toNat, BitVec.setWidth_eq]
      exact ⟨pteTier_leafWith_of .., pteFrame_leafWith_of .., leafWith_mig ..⟩
  case pin =>
    obtain ⟨t, ht, hpins, hmem⟩ := exec_pinExpiry_of_due hpin hleaf
    refine ⟨t, ht, fun x hx => ?_, ?_⟩
    · rw [hpins] at hx
      simpa [imp_iff_not_or] using (List.mem_filter.mp hx).2
    · rw [hmem, entry_setEntryBit_clear hwf a (by decide), ← State.leafOf_entry hleaf]
      rfl

end Sys2Proof.Certificates
end

section
/-!
SUPPORT. What stores and atomics leave under way, once for both: accesses of the own cluster in their bank cycles (R155, R156), requests that leave it
(R159, R160, R172), and the TSM bits that they will set (R177).
-/
namespace Sys2Proof.Machine
open Sys2Proof Sys2Proof.Certificates

/-! ## Runs parted into bank cycles (R156) -/

/-- A list parted by a number of its members. -/
theorem flatten_classes_perm {β : Type} (f : β → Nat) : ∀ {ks : List Nat} {ys : List β}, ks.Nodup → (∀ y ∈ ys, f y ∈ ks) →
    (ks.map fun k => ys.filter fun y => f y == k).flatten.Perm ys
  | [], ys, _, h => by
    rw [List.eq_nil_iff_forall_not_mem.mpr fun y hy => List.not_mem_nil (h y hy)]
    exact .refl _
  | k :: ks, ys, hnd, h => by
    obtain ⟨hk, hks⟩ := List.nodup_cons.mp hnd
    have hrest : (ks.map fun j => ys.filter fun y => f y == j) = ks.map fun j => (ys.filter fun y => !(f y == k)).filter fun y => f y == j := by
      refine List.map_congr_left fun j hj => ?_
      rw [List.filter_filter]
      refine List.filter_congr fun y _ => ?_
      by_cases hy : f y = j
      · have hjk : j ≠ k := fun e => hk (e ▸ hj)
        simp [hy, hjk]
      · simp [hy]
    have hin : ∀ y ∈ ys.filter fun y => !(f y == k), f y ∈ ks := fun y hy => by
      obtain ⟨hys, hne⟩ := List.mem_filter.mp hy
      exact (List.mem_cons.mp (h y hys)).resolve_left (by simpa using hne)
    rw [List.map_cons, List.flatten_cons, hrest]
    exact ((flatten_classes_perm f hks hin).append_left _).trans (List.filter_append_perm _ ys)

/-- Things in groups of one bank cycle each, by how long before the last cycle each is served. -/
def cycleGroups {α : Type} (early : α → Nat) (xs : List α) : List (Nat × List α) :=
  ([3, 2, 1, 0].map (fun k => (k, ((xs.map fun x => (min 3 (early x), x)).filter (fun y => y.1 == k)).map (·.2)))).filter (fun g => !g.2.isEmpty)

/-- A location of space 1 parts its runs into bank cycles, every other one serves them in the last. -/
theorem State.byCycle_cases (s : State) {α : Type} (l : Loc) (run : α → Nat × Nat) (xs : List α) :
    s.byCycle l run xs = [(0, xs)] ∨ l.space = 1 ∧ ∃ early, s.byCycle l run xs = cycleGroups early xs := by
  unfold State.byCycle
  by_cases hspace : l.space = 1
  · rw [if_pos hspace]
    split
    · exact .inl rfl
    · exact .inr ⟨hspace, _, rfl⟩
  · rw [if_neg hspace]
    exact .inl rfl

section
variable {α : Type} (early : α → Nat) (xs : List α)

theorem filter_marked (k : Nat) : ((xs.map fun x => (min 3 (early x), x)).filter (fun y => y.1 == k)).map (·.2) = xs.filter fun x => min 3 (early x) == k := by
  rw [List.filter_map, List.map_map]
  exact List.map_id _

theorem mem_cycleGroups {g : Nat × List α} (hg : g ∈ cycleGroups early xs) : g.1 ≤ 3 ∧ g.2 ≠ [] := by
  obtain ⟨hkey, hne⟩ := List.mem_filter.mp hg
  obtain ⟨k, hk, rfl⟩ := List.mem_map.mp hkey
  exact ⟨(by decide : ∀ k ∈ [3, 2, 1, 0], k ≤ 3) k hk, by simpa using hne⟩

theorem cycleGroups_perm : ((cycleGroups early xs).map (·.2)).flatten.Perm xs := by
  have hkeys : ∀ x ∈ xs, min 3 (early x) ∈ [3, 2, 1, 0] := fun x _ => by
    simp only [List.mem_cons, List.not_mem_nil, or_false]
    omega
  have hgroups : ((cycleGroups early xs).map (·.2)).flatten = ([3, 2, 1, 0].map fun k => xs.filter fun x => min 3 (early x) == k).flatten := by
    simp only [cycleGroups, filter_marked]
    rw [← List.flatten_filter_not_isEmpty (L := [3, 2, 1, 0].map _), List.filter_map, List.filter_map, List.map_map]
    rfl
  rw [hgroups]
  exact flatten_classes_perm _ (by decide) hkeys

end

/-- The runs of a syllable, parted into its bank cycles. -/
theorem State.byCycle_parted (s : State) {α : Type} (l : Loc) (run : α → Nat × Nat) {xs : List α} (hne : xs ≠ []) :
    PartedInto (s.byCycle l run xs) l xs := by
  rcases s.byCycle_cases l run xs with h | ⟨hspace, early, h⟩ <;> rw [h]
  · exact ⟨by simp, by simpa using hne, fun _ => rfl⟩
  · exact ⟨cycleGroups_perm early xs, fun g => mem_cycleGroups early xs, fun hother => absurd hspace hother⟩

/-! ## Own-cluster accesses (R155, R156) -/

/-- Own-cluster accesses of the syllable that issues now, each some cycles before I + 4. -/
def Ctx.accessAll (c : Ctx) (l : Loc) (acts : List (Nat × Act)) (strong : Bool) : Ctx :=
  acts.foldl (fun d g => d.accessEarly g.1 l g.2 false strong) c

section
variable (l : Loc) (strong : Bool)

theorem State.accessAll_keeps {β : Type} (g : State → β) (h : ∀ (t : State) as n, g (t.withCur { t.cur with accesses := as, seq := n }) = g t)
    (s : State) (acts : List (Nat × Act)) : g (s.withCur (s.cur.accessAll l acts strong)) = g s :=
  foldl_keeps (fun c => g (s.withCur c)) (fun c _ => h (s.withCur c) _ _) acts s.cur

/-- The result queues are no matter to accesses. -/
theorem Ctx.accessAll_rq (rq : Vector (List QEntry) 4) : ∀ (acts : List (Nat × Act)) (c : Ctx),
    ({ c with rq := rq } : Ctx).accessAll l acts strong = { c.accessAll l acts strong with rq := rq }
  | [], _ => rfl
  | g :: acts, c => Ctx.accessAll_rq rq acts (c.accessEarly g.1 l g.2 false strong)

/-- The accesses that a syllable has under way are those of the statements. -/
theorem State.accessed_accesses (s : State) (acts : List (Nat × Act)) :
    (accessed s l.site acts false strong).cur.accesses = (s.cur.accessAll l acts strong).accesses := by
  have hsteps : ∀ (acts : List (Nat × Act)) (c : Ctx), c.clk = s.cur.clk → c.bundle = s.cur.bundle → c.parked = s.cur.parked →
      acts.foldl (fun (c : Ctx) g => { c with
        accesses := insertAccess { cycle := s.cur.clk + 4 - g.1, seq := c.seq, bundle := s.cur.bundle, site := l.site, act := g.2, shadow := [], skip := [],
                                   done := false, stamp := none, acquire := false, strong := strong, handler := s.cur.parked.isSome } c.accesses
        seq := c.seq + 1 }) c = c.accessAll l acts strong := by
    intro acts
    induction acts with
    | nil => exact fun _ _ _ _ => rfl
    | cons g acts ih =>
      intro c hclk hbundle hparked
      have hstep := ih (c.accessEarly g.1 l g.2 false strong) hclk hbundle hparked
      rw [← hclk, ← hbundle, ← hparked] at hstep ⊢
      exact hstep
  exact congrArg Ctx.accesses (hsteps acts s.cur rfl rfl rfl)

end

/-! ## Requests (R159, R172) -/

/-- The state after requests have been sent. -/
def State.sent (s : State) (rs : List Request) : State := { s with requests := s.requests ++ rs, nextReq := s.nextReq + rs.length }

section
variable (s : State) (rs qs : List Request)

@[simp] theorem State.sent_cur : (s.sent rs).cur = s.cur := rfl
@[simp] theorem State.sent_mem : (s.sent rs).mem = s.mem := rfl
@[simp] theorem State.sent_requests : (s.sent rs).requests = s.requests ++ rs := rfl

theorem State.sent_nil : s.sent [] = s := by
  unfold State.sent
  rw [List.append_nil]
  rfl

theorem State.sent_append : (s.sent rs).sent qs = s.sent (rs ++ qs) := by
  unfold State.sent
  simp only [List.append_assoc, List.length_append, Nat.add_assoc]

end

/-- A request is one that a syllable sends to a location. -/
def Request.SentTo (r : Request) (s : State) (l : Loc) (sink : Sink) (strong : Bool) : Prop :=
  r.addr = l.addr ∧ r.uid = s.cur.uid ∧ r.sink = sink ∧ r.stage = .queued ∧ r.strong = strong ∧ s.nextReq ≤ r.id

/-- Requests sent one after another: what each asks, where, and with which slice. -/
theorem State.foldl_send {α : Type} (target : α → Nat × Nat) (l : Loc) (ask : α → Ask) (sink : Sink) (slice : α → Option Nat) (strong : Bool) :
    ∀ (xs : List α) (s : State), ∃ rs,
      xs.foldl (fun t x => t.send (target x).1 (target x).2 l.addr (ask x) sink (slice x) false strong) s = s.sent rs ∧
      rs.map (·.ask) = xs.map ask ∧ rs.map (fun r => (r.tile, r.slot)) = xs.map target ∧ rs.map (·.slice) = xs.map slice ∧
      ∀ r ∈ rs, r.SentTo s l sink strong
  | [], s => ⟨[], s.sent_nil.symm, rfl, rfl, rfl, by simp⟩
  | x :: xs, s => by
    obtain ⟨rs, hsent, hask, htarget, hslice, hrs⟩ :=
      State.foldl_send target l ask sink slice strong xs (s.send (target x).1 (target x).2 l.addr (ask x) sink (slice x) false strong)
    refine ⟨_ :: rs, hsent.trans (s.sent_append [_] rs), ?_, ?_, ?_, fun r hr => ?_⟩
    · rw [List.map_cons, hask, List.map_cons]
    · rw [List.map_cons, htarget, List.map_cons]
    · rw [List.map_cons, hslice, List.map_cons]
    · rcases List.mem_cons.mp hr with rfl | hr
      · exact ⟨rfl, rfl, rfl, rfl, rfl, Nat.le_refl _⟩
      · obtain ⟨haddr, huid, hsink, hstage, hstrong, hid⟩ := hrs r hr
        exact ⟨haddr, huid, hsink, hstage, hstrong, Nat.le_of_succ_le hid⟩

/-- Requests to the slice of one location. -/
theorem State.foldl_sendTo {α : Type} (l : Loc) (ask : α → Ask) (sink : Sink) (slice : Option Nat) (strong : Bool) (xs : List α) (s : State) : ∃ rs,
    xs.foldl (fun t x => t.sendTo l (ask x) sink slice false strong) s = s.sent rs ∧ rs.map (·.ask) = xs.map ask ∧
    ∀ r ∈ rs, r.SentTo s l sink strong ∧ r.slice = slice := by
  have hsends : ∀ (xs : List α) (t : State), t.cur = s.cur → xs.foldl (fun t x => t.sendTo l (ask x) sink slice false strong) t =
      xs.foldl (fun t x => t.send (l.holders.headD (s.cur.tile, s.cur.slot)).1 (l.holders.headD (s.cur.tile, s.cur.slot)).2 l.addr (ask x) sink slice false strong) t := by
    intro xs
    induction xs with
    | nil => exact fun _ _ => rfl
    | cons x xs ih =>
      intro t hcur
      have hstep : t.sendTo l (ask x) sink slice false strong = t.send (l.holders.headD (s.cur.tile, s.cur.slot)).1
          (l.holders.headD (s.cur.tile, s.cur.slot)).2 l.addr (ask x) sink slice false strong := by
        rw [State.sendTo, hcur]
      rw [List.foldl_cons, List.foldl_cons, hstep]
      exact ih _ hcur
  obtain ⟨rs, hsent, hask, -, hslice, hrs⟩ :=
    State.foldl_send (fun _ => l.holders.headD (s.cur.tile, s.cur.slot)) l ask sink (fun _ => slice) strong xs s
  refine ⟨rs, (hsends xs s rfl).trans hsent, hask, fun r hr => ⟨hrs r hr, ?_⟩⟩
  have hmem : r.slice ∈ xs.map fun _ => slice := hslice ▸ List.mem_map_of_mem hr
  obtain ⟨_, -, h⟩ := List.mem_map.mp hmem
  exact h.symm

/-! ## Earlier writes of the bundle (R172) -/

/-- What writes nothing loses nothing. -/
theorem Ask.without_of_readOnly {a : Ask} (h : a.writes = []) (runs : List (Nat × Nat)) : a.without runs = a := by
  cases a with
  | store ps =>
    obtain rfl := List.map_eq_nil_iff.mp h
    have hnone : runs.foldl (fun l r => (l.map (fun p => p.without r.1 r.2)).flatten) ([] : List Part) = [] :=
      List.foldlRecOn (motive := (· = [])) runs _ rfl fun _ hl _ _ => by rw [hl]; rfl
    exact congrArg Ask.store hnone
  | _ => rfl

section
variable (s : State) (n : Nat)

/-- Only the requests change. -/
theorem State.overwrite_eq : s.overwrite n = { s with requests := (s.overwrite n).requests } := by
  unfold State.overwrite
  dsimp only
  split <;> rfl

theorem State.overwrite_sent_keeps {β : Type} (g : State → β) (h : ∀ (t : State) qs m, g { t with requests := qs, nextReq := m } = g t) (rs : List Request) :
    g ((s.sent rs).overwrite n) = g s := by
  rw [State.overwrite_eq]
  exact h s _ _

/-- The requests after a syllable has sent some are those of the statements. -/
theorem State.overwrite_sent (rs : List Request) : ((s.sent rs).overwrite s.nextReq).requests = sentAfter s rs := by
  unfold State.overwrite sentAfter
  simp only [State.sent_requests, State.sent_cur, List.filter_filter]
  split
  · simp only [Bool.and_comm]
  next hnone =>
    symm
    refine (List.map_congr_left fun r hr => ?_).trans (List.map_id _)
    rw [id_eq, ite_eq_right_iff]
    rintro ⟨hid, huid, hengine, hbundle⟩
    have hwrites : r.ask.writes = [] := by
      by_contra hne
      exact hnone (List.any_eq_true.mpr ⟨r, hr, by simp [hid, huid, hengine, hbundle, hne]⟩)
    rw [Ask.without_of_readOnly hwrites]

end

/-- The requests after a syllable has sent some, by what sending and overwriting read of the state. -/
theorem sentAfter_congr {s t : State} (hrequests : t.requests = s.requests) (hnext : t.nextReq = s.nextReq) (huid : t.cur.uid = s.cur.uid)
    (hbundle : t.cur.bundle = s.cur.bundle) (rs : List Request) : sentAfter t rs = sentAfter s rs := by
  unfold sentAfter
  rw [hrequests, hnext, huid, hbundle]

/-! ## TSM bits (R177) -/

section
variable (s : State) (bits : List Nat)

theorem State.markTsm_eq : s.markTsm bits = if bits = [] then s else s.withCur (s.cur.push 1 (.tsm (bitsOf bits))) := by
  unfold State.markTsm
  simp only [List.isEmpty_iff]

theorem State.markTsm_keeps {β : Type} (g : State → β) (h : ∀ (t : State) fl n, g (t.withCur { t.cur with flight := fl, seq := n }) = g t) :
    g (s.markTsm bits) = g s := by
  rw [State.markTsm_eq]
  split
  · rfl
  · exact h s _ _

/-- The bits are readable from the next cycle on. -/
theorem State.mem_markTsm_flight (h : bits ≠ []) : ∃ f ∈ (s.markTsm bits).cur.flight, f.land = s.cur.clk + 1 ∧ f.what = .tsm (bitsOf bits) := by
  rw [State.markTsm_eq, if_neg h]
  exact ⟨_, mem_insertFlight.mpr (.inl rfl), rfl, rfl⟩

end

/-- The TSM bits of a location (R148, R177). -/
theorem Loc.slice_toList (l : Loc) : l.slice.toList = match l.space with | 0 => [32 + l.die] | 1 | 2 => [l.cluster / 4] | 5 => [40] | _ => [] := by
  unfold Loc.slice
  generalize l.space = n
  match n with
  | 0 | 1 | 2 | 3 | 4 | 5 => rfl
  | _ + 6 => rfl

/-! ## What stands -/

/-- The registers of a context. -/
def Ctx.registers (c : Ctx) : Vector SReg 32 × Vector VReg 64 × Vector LaneMask 8 × SysRegs := (c.sregs, c.vregs, c.preds, c.sys)

theorem Ctx.registers_eq {c d : Ctx} : d.registers = c.registers ↔ d.sregs = c.sregs ∧ d.vregs = c.vregs ∧ d.preds = c.preds ∧ d.sys = c.sys := by
  simp [Ctx.registers]

end Sys2Proof.Machine
end

section
/-!
SUPPORT. Stores: the places and the bytes of their parts (R150, R325 to R331), what they leave under way (R155, R159, R160, R172, R177), and the statement about
them.
-/
namespace Sys2Proof.Machine
open Sys2Proof Sys2Proof.Certificates

/-! ## The operations as exec gives them -/

section
variable (s : State) (h : Head) (da : DNum) (off : BitVec 24)

theorem exec_st (width : BitVec 2) (data : VNum) : exec (.st h da off width data) s = execSt h da off width data s := rfl
theorem exec_stl (scope : Scope) (width : BitVec 2) (data : VNum) : exec (.stl h da off scope width data) s = execStl h da off scope width data s := rfl
theorem exec_stv (lgm : Lgm) (data : VNum) : exec (.stv h da off lgm data) s = execStv h da off lgm data s := rfl
theorem exec_stvs (stride : SRegNo) (ew : BitVec 2) (data : VNum) : exec (.stvs h da off stride ew data) s = execStvs h da off stride ew data s := rfl
theorem exec_stq (lgm : Lgm) (q : QNum) : exec (.stq h da off lgm q) s = execStq h da off lgm q s := rfl

end

/-! ## The data of a scalar store (R327) -/

theorem ofNat_half {n : Nat} (x : BitVec n) : BitVec.ofNat 4 (x.toNat / 2) = x.extractLsb' 1 4 := by
  apply BitVec.eq_of_toNat_eq
  rw [BitVec.toNat_ofNat, BitVec.extractLsb'_toNat, Nat.shiftRight_eq_div_pow]

theorem scalarOf_eq (data : VNum) : scalarOf data = data.setWidth 5 := BitVec.ofNat_toNat ..

/-- The bytes of the scalar or pair that a store writes. -/
theorem Ctx.storeData_value (c : Ctx) (data : VNum) (width : BitVec 2) : (c.storeData data width).1.toNat % 2 ^ (8 * widthBytes width) =
    if width = 3 then (c.d (data.extractLsb' 1 4)).toNat else (c.s (data.setWidth 5)).toNat % 2 ^ (8 * widthBytes width) := by
  unfold Ctx.storeData
  split
  next hpair =>
    subst hpair
    rw [ofNat_half]
    exact Nat.mod_eq_of_lt (BitVec.isLt _)
  · rw [scalarOf_eq, BitVec.toNat_setWidth, Nat.mod_eq_of_lt (Nat.lt_of_lt_of_le (BitVec.isLt _) (by decide))]

/-! ## The runs of neighbouring lanes of STV (R328) -/

theorem flatten_laneRuns : ∀ (ls cur : List Nat), (laneRuns cur ls).flatten = cur ++ ls
  | [], cur => by
    unfold laneRuns
    split
    next h => rw [List.isEmpty_iff.mp h]; rfl
    · simp
  | l :: ls, cur => by
    unfold laneRuns
    split
    · split
      · rw [flatten_laneRuns]; simp
      · rw [List.flatten_cons, flatten_laneRuns]; rfl
    next h => rw [flatten_laneRuns, List.getLast?_eq_none_iff.mp h]; rfl

/-- The group of an active lane is among those of the mask, and the lane is in it. -/
theorem mem_byGroup {m : LaneMask} {l : Nat} (hl : l < 128) (hactive : m.getLsbD l = true) :
    (lanesIn m).filter (fun k => k / 16 == l / 16) ∈ byGroup m ∧ l ∈ (lanesIn m).filter (fun k => k / 16 == l / 16) := by
  refine ⟨List.mem_map.mpr ⟨l / 16, List.mem_filter.mpr ⟨List.mem_range.mpr (by omega), ?_⟩, rfl⟩,
    List.mem_filter.mpr ⟨mem_lanesIn.mpr ⟨hl, hactive⟩, beq_self_eq_true _⟩⟩
  rw [bne_iff_ne]
  intro hzero
  have hbit : (m.extractLsb' (16 * (l / 16)) 16).getLsbD (l % 16) = true := by
    rw [BitVec.getLsbD_extractLsb', decide_eq_true (by omega), Bool.true_and, show 16 * (l / 16) + l % 16 = l by omega, hactive]
  rw [hzero] at hbit
  simp at hbit

/-- The lanes of a group lie in it. -/
theorem headD_div_of_group {ls : List Nat} {g : Nat} (hgroup : ∀ k ∈ ls, k / 16 = g) (hlen : ls.length = 16) : ls.headD 0 / 16 = g := by
  cases ls with
  | nil => cases hlen
  | cons k ls => exact hgroup k List.mem_cons_self

/-- The store parts of STV: a whole block, or a part for each run of neighbouring lanes. -/
def stvParts (part whole : Nat → Part) (m : LaneMask) : List (List Part) :=
  ((byGroup m).map (fun ls => if ls.length = 16 then [[whole (ls.headD 0 / 16)]] else (laneRuns [] ls).map (fun r => r.map part))).flatten

/-- An active lane is in the block of its group, or has a part of its own. -/
theorem mem_stvParts (part whole : Nat → Part) {m : LaneMask} {l : Nat} (hl : l < 128) (hactive : m.getLsbD l = true) :
    whole (l / 16) ∈ (stvParts part whole m).flatten ∨ part l ∈ (stvParts part whole m).flatten := by
  obtain ⟨hgroup, hin⟩ := mem_byGroup hl hactive
  generalize hls : (lanesIn m).filter (fun k => k / 16 == l / 16) = ls at hgroup hin
  have hparts : ∀ p, p ∈ (if ls.length = 16 then [[whole (ls.headD 0 / 16)]] else (laneRuns [] ls).map (fun r => r.map part)).flatten →
      p ∈ (stvParts part whole m).flatten := fun p hp => by
    obtain ⟨ps, hps, hp⟩ := List.mem_flatten.mp hp
    exact List.mem_flatten.mpr ⟨ps, List.mem_flatten.mpr ⟨_, List.mem_map_of_mem hgroup, hps⟩, hp⟩
  by_cases hlen : ls.length = 16
  · have hall : ∀ k ∈ ls, k / 16 = l / 16 := fun k hk => by
      rw [← hls] at hk
      simpa using (List.mem_filter.mp hk).2
    refine .inl (hparts _ ?_)
    rw [if_pos hlen, headD_div_of_group hall hlen]
    simp
  · refine .inr (hparts _ ?_)
    rw [if_neg hlen, ← List.map_flatten, flatten_laneRuns, List.nil_append]
    exact List.mem_map_of_mem hin

/-- A byte of a field of a number is a byte of the number. -/
theorem byte_of_field (x lo n k : Nat) (h : k + 8 ≤ n) : x / 2 ^ lo % 2 ^ n / 2 ^ k % 256 = x / 2 ^ (lo + k) % 256 := by
  rw [show (256 : Nat) = 2 ^ 8 from rfl]
  refine Nat.eq_of_testBit_eq fun i => ?_
  simp only [Nat.testBit_mod_two_pow, Nat.testBit_div_two_pow]
  by_cases hi : i < 8
  · simp [hi, show i + k < n by omega, Nat.add_assoc, Nat.add_comm k]
  · simp [hi]

theorem byte_of_extract {w : Nat} (v : BitVec w) {lo n k : Nat} (h : k + 8 ≤ n) : (v.extractLsb' lo n).toNat / 2 ^ k % 256 = v.toNat / 2 ^ (lo + k) % 256 := by
  rw [BitVec.extractLsb'_toNat, Nat.shiftRight_eq_div_pow, byte_of_field _ _ _ _ h]

/-- A byte of a block of a vector is the byte of its lane. -/
theorem block_byte (v : VBits) {l j : Nat} (hj : j < 4) :
    (v.extractLsb' (512 * (l / 16)) 512).toNat / 2 ^ (8 * (4 * (l - 16 * (l / 16)) + j)) % 256 = (laneWord v l).toNat / 2 ^ (8 * j) % 256 := by
  rw [laneWord, byte_of_extract v (by omega), byte_of_extract v (by omega),
    show 512 * (l / 16) + 8 * (4 * (l - 16 * (l / 16)) + j) = 32 * l + 8 * j by omega]

section
variable (s : State) (da : DNum) (off : BitVec 24) (data : VNum)

/-- The part of STV for one lane, and that for all of a lane group. -/
def State.lanePart (l : Nat) : Part := s.partAt da off ⟨l, Int.ofNat (4 * l), 4⟩ (laneWord (s.cur.v data).bits l).toNat
def State.blockPart (g : Nat) : Part := s.partAt da off ⟨16 * g, Int.ofNat (64 * g), 64⟩ ((s.cur.v data).bits.extractLsb' (512 * g) 512).toNat

theorem State.lanePart_off (l : Nat) : (s.lanePart da off data l).off = (s.placeAt da off 1 .store ⟨0, 4 * (l : Int), 4⟩).1.off := by
  have hrel : 4 * (l : Int) = Int.ofNat (4 * l) := rfl
  rw [hrel]
  rfl

theorem State.blockPart_off (g : Nat) : (s.blockPart da off data g).off = (s.placeAt da off 1 .store ⟨0, 4 * ((16 * g : Nat) : Int), 64⟩).1.off := by
  have hrel : 4 * ((16 * g : Nat) : Int) = Int.ofNat (64 * g) := by
    show _ = ((64 * g : Nat) : Int)
    omega
  rw [hrel]
  rfl

end

/-! ## What a store leaves under way -/

section
variable {s : State} {l : Loc} {parts : List (List Part)} (hne : parts.flatten ≠ []) (strong : Bool)
include hne

theorem State.storeTo_of_fixed (hfixed : l.fixed = true) : ∃ gs, PartedInto gs l parts.flatten ∧
    s.storeTo l parts strong = (s.withCur (s.cur.accessAll l (gs.map fun g => (g.1, .store g.2)) strong)).markTsm l.slice.toList := by
  refine ⟨_, s.byCycle_parted l (fun p : Part => (p.off, p.size)) hne, ?_⟩
  rw [State.storeTo, if_neg (by simpa using hne), if_pos hfixed, Ctx.accessAll, List.foldl_map]

/-- Elsewhere it is a request to every member of a group (R160), or to the slice of its location, in space 5 one for each part. -/
theorem State.storeTo_of_far (hfar : l.fixed = false) : ∃ rs, (∃ bits, s.storeTo l parts strong = ((s.sent rs).overwrite s.nextReq).markTsm bits ∧
      (l.space ≠ 4 → bits = l.slice.toList)) ∧
    (∀ r ∈ rs, r.SentTo s l .discard strong) ∧
    (l.space = 4 → rs.map (·.ask) = l.holders.map (fun _ => Ask.store parts.flatten) ∧ rs.map (fun r => (r.tile, r.slot)) = l.holders) ∧
    (l.space ≠ 4 → rs.map (·.ask) = (if l.space = 5 then parts else [parts.flatten]).map Ask.store ∧ ∀ r ∈ rs, r.slice = l.slice) := by
  rw [State.storeTo, if_neg (by simpa using hne), if_neg (by simp [hfar])]
  by_cases hspace : l.space = 4
  · obtain ⟨rs, hsent, hask, htarget, -, hrs⟩ :=
      State.foldl_send id l (fun _ => Ask.store parts.flatten) .discard (fun h => some (tsmClus (clusterOf h.1))) strong l.holders s
    rw [List.map_id] at htarget
    refine ⟨rs, ⟨distinct (l.holders.map fun h => tsmClus (clusterOf h.1)), ?_, fun h => absurd hspace h⟩, hrs, fun _ => ⟨hask, htarget⟩, fun h => absurd hspace h⟩
    rw [if_pos hspace, ← hsent]
    rfl
  · obtain ⟨rs, hsent, hask, hrs⟩ := State.foldl_sendTo l Ask.store .discard l.slice strong (if l.space = 5 then parts else [parts.flatten]) s
    refine ⟨rs, ⟨l.slice.toList, ?_, fun _ => rfl⟩, fun r hr => (hrs r hr).1, fun h => absurd h hspace, fun _ => ⟨hask, fun r hr => (hrs r hr).2⟩⟩
    rw [if_neg hspace, ← hsent]

/-- But for the members of a group the TSM bits are those of the location. -/
theorem State.storeTo_marks (hspace : l.space ≠ 4) : ∃ u : State, s.storeTo l parts strong = u.markTsm l.slice.toList ∧ u.cur.clk = s.cur.clk := by
  cases hfixed : l.fixed with
  | true =>
    obtain ⟨gs, -, ht⟩ := State.storeTo_of_fixed hne strong hfixed
    exact ⟨_, ht, State.accessAll_keeps l strong (fun t => t.cur.clk) (fun _ _ _ => rfl) s _⟩
  | false =>
    obtain ⟨rs, ⟨bits, ht, hbits⟩, -⟩ := State.storeTo_of_far hne strong hfixed
    rw [hbits hspace] at ht
    exact ⟨_, ht, State.overwrite_sent_keeps _ _ (fun t => t.cur.clk) (fun _ _ _ => rfl) rs⟩

end

/-- A store touches accesses, requests and results in flight only. -/
theorem State.storeTo_keeps {β : Type} (g : State → β) (hctx : ∀ (t : State) as fl n, g (t.withCur { t.cur with accesses := as, flight := fl, seq := n }) = g t)
    (hrequests : ∀ (t : State) rs n, g { t with requests := rs, nextReq := n } = g t) (s : State) (l : Loc) (parts : List (List Part)) (strong : Bool) :
    g (s.storeTo l parts strong) = g s := by
  by_cases hne : parts.flatten = []
  · rw [State.storeTo, if_pos (by rw [hne]; rfl)]
  have hmark (u : State) (bits : List Nat) : g (u.markTsm bits) = g u := u.markTsm_keeps bits g fun t fl n => hctx t t.cur.accesses fl n
  cases hfixed : l.fixed with
  | true =>
    obtain ⟨gs, -, ht⟩ := State.storeTo_of_fixed hne strong hfixed
    rw [ht, hmark]
    exact State.accessAll_keeps l strong g (fun t as n => hctx t as t.cur.flight n) s _
  | false =>
    obtain ⟨rs, ⟨bits, ht, -⟩, -⟩ := State.storeTo_of_far hne strong hfixed
    rw [ht, hmark]
    exact State.overwrite_sent_keeps _ _ g hrequests rs

/-! ## Bytes that a later write covers (R172) -/

/-- A part holds byte b at place j. -/
def Part.Holds (p : Part) (j b : Nat) : Prop := p.off ≤ j ∧ j < p.off + p.size ∧ b = p.value / 256 ^ (j - p.off) % 256

theorem two_pow_eight_mul (k : Nat) : 2 ^ (8 * k) = 256 ^ k := Nat.pow_mul 2 8 k

section
variable (p : Part) {j b : Nat}

/-- The bytes of a part below a place. -/
theorem Part.holds_below {hi : Nat} (h : hi ≤ p.off + p.size) : ({ p with size := hi - p.off, value := p.value % 2 ^ (8 * (hi - p.off)) } : Part).Holds j b ↔
    p.Holds j b ∧ j < hi := by
  by_cases hj : p.off ≤ j ∧ j < hi
  · have hbyte := byte_of_field p.value 0 (8 * (hi - p.off)) (8 * (j - p.off)) (by omega)
    rw [Nat.pow_zero, Nat.div_one, Nat.zero_add, two_pow_eight_mul (j - p.off)] at hbyte
    simp only [Part.Holds, hbyte]
    omega
  · simp only [Part.Holds]
    omega

/-- The bytes of a part from a place on. -/
theorem Part.holds_above {lo : Nat} (h : p.off ≤ lo) : (⟨lo, p.off + p.size - lo, p.value / 2 ^ (8 * (lo - p.off))⟩ : Part).Holds j b ↔ p.Holds j b ∧ lo ≤ j := by
  by_cases hj : lo ≤ j
  · have hbyte : p.value / 2 ^ (8 * (lo - p.off)) / 256 ^ (j - lo) = p.value / 256 ^ (j - p.off) := by
      rw [two_pow_eight_mul, Nat.div_div_eq_div_mul, ← Nat.pow_add, show lo - p.off + (j - lo) = j - p.off by omega]
    simp only [Part.Holds, hbyte]
    omega
  · simp only [Part.Holds]
    omega

/-- A part loses exactly the bytes that a later write covers. -/
theorem Part.holds_without (off size : Nat) : (∃ q ∈ p.without off size, q.Holds j b) ↔ p.Holds j b ∧ ¬(off ≤ j ∧ j < off + size) := by
  unfold Part.without
  split
  next hapart =>
    have hfree : p.Holds j b → ¬(off ≤ j ∧ j < off + size) := fun ⟨hlo, hhi, _⟩ => by omega
    simpa using hfree
  next hmeet =>
    have hbelow : (∃ q ∈ if p.off < off then [({ p with size := off - p.off, value := p.value % 2 ^ (8 * (off - p.off)) } : Part)] else [], q.Holds j b) ↔
        p.Holds j b ∧ j < off := by
      split
      · simpa using p.holds_below (by omega)
      · have hnone : ¬(p.Holds j b ∧ j < off) := fun ⟨⟨hlo, _⟩, hj⟩ => by omega
        simpa using hnone
    have habove : (∃ q ∈ if off + size < p.off + p.size then
        [(⟨off + size, p.off + p.size - (off + size), p.value / 2 ^ (8 * (off + size - p.off))⟩ : Part)] else [], q.Holds j b) ↔
        p.Holds j b ∧ off + size ≤ j := by
      split
      · simpa using p.holds_above (by omega)
      · have hnone : ¬(p.Holds j b ∧ off + size ≤ j) := fun ⟨⟨_, hhi, _⟩, hj⟩ => by omega
        simpa using hnone
    simp only [List.mem_append, or_and_right, exists_or, hbelow, habove]
    constructor
    · rintro (⟨hholds, hj⟩ | ⟨hholds, hj⟩) <;> exact ⟨hholds, by omega⟩
    · rintro ⟨hholds, hj⟩
      rcases Nat.lt_or_ge j off with hlt | hge
      · exact .inl ⟨hholds, hlt⟩
      · exact .inr ⟨hholds, by omega⟩

end

end Sys2Proof.Machine
namespace Sys2Proof.Certificates
open Sys2Proof Sys2Proof.Machine

/-- Settles O35: each store by the parts that its rule names, what it leaves under way by its space, and the covered bytes part by part. -/
theorem storesWriteTheirPlaces : Obligations.StoresWriteTheirPlaces := by
  unfold Obligations.StoresWriteTheirPlaces
  refine ⟨fun s h da off width data sc lgm stride ew q hunheld hda => ?issues, fun s l parts strong hne => ?way, fun p off size j b => ?without⟩
  case issues =>
    intro n at_ place value one st stl v vs sq e lanes bits
    refine ⟨fun hi => ?st, fun hi hrel => ?stl, fun hi => ?stv, fun hi => ?stvs, fun hi => ?stq⟩
    case st =>
      rw [exec_st, execSt, State.issueAccess_clear hi.1 hunheld hi.2, State.storeScalar, s.cur.storeData_value]
      rfl
    case stl =>
      have hfree : s.issue.passed = true ∨ (!s.acquiring && s.released sc.toNat bits) = true := by
        rcases hunheld with hpassed | hacq
        · exact .inl hpassed
        · rw [hacq]
          exact hrel
      have hown : s.storeTraps stl da off width data .release ++ (if s.cur.dp da then [] else s.deniedTraps stl bits) =
          s.storeTraps stl da off width data .release ++ s.deniedTraps stl bits := by
        rw [if_neg (by rw [hda]; exact Bool.false_ne_true)]
      rw [exec_stl, execStl]
      refine (State.issueWith_clear (hown ▸ hi.1) _ _).trans ?_
      rw [if_pos hi.2]
      refine (congrArg Host.Outcome.next (State.holdUntil_true false hfree _)).trans ?_
      rw [State.storeScalar, Ctx.storeData_value]
      rfl
    case stv =>
      rw [exec_stv, execStv, hda]
      refine ⟨stvParts (s.lanePart da off data) (s.blockPart da off data) (s.activeLanes v h), State.issueAccess_clear hi.1 hunheld hi.2 _, fun l j hl hj hactive => ?_⟩
      rcases mem_stvParts (s.lanePart da off data) (s.blockPart da off data) hl hactive with hblock | hlane
      · exact ⟨_, hblock, 16 * (l / 16), by omega, s.blockPart_off .., show 4 * (l - 16 * (l / 16)) + j < 64 by omega, block_byte _ hj⟩
      · refine ⟨_, hlane, l, Nat.le_refl l, s.lanePart_off .., ?_, ?_⟩ <;> rw [Nat.sub_self, Nat.mul_zero, Nat.zero_add]
        · exact hj
        · rfl
    case stvs =>
      rw [exec_stvs, execStvs, State.issueAccess_clear hi.1 hunheld hi.2, State.stridedReach, laneReach, List.map_map]
      rfl
    case stq =>
      have hpitch (l : Nat) : Int.ofNat l * 72 = 72 * (l : Int) := Int.mul_comm ..
      rw [exec_stq, execStq, hda, Bool.and_false]
      refine (State.issueAccess_clear hi.1 hunheld hi.2 _).trans ?_
      simp only [laneReach, List.map_map, Function.comp_def, hpitch, ← List.flatMap_def]
      rfl
  case way =>
    intro t asks slices
    have hslices : l.slice.toList = slices := l.slice_toList
    have hmem : t.mem = s.mem := State.storeTo_keeps State.mem (fun _ _ _ _ => rfl) (fun _ _ _ => rfl) s l parts strong
    have hregs := State.storeTo_keeps (fun t => t.cur.registers) (fun _ _ _ _ => rfl) (fun _ _ _ => rfl) s l parts strong
    have hrq : t.cur.rq = s.cur.rq := State.storeTo_keeps (fun t => t.cur.rq) (fun _ _ _ _ => rfl) (fun _ _ _ => rfl) s l parts strong
    obtain ⟨hsregs, hvregs, hpreds, hsys⟩ := Ctx.registers_eq.mp hregs
    refine ⟨hmem, hsregs, hvregs, hpreds, hsys, hrq, fun hfixed => ?fixed, fun hfar => ?far, fun hspace hsome => ?marks⟩
    case fixed =>
      obtain ⟨gs, hgs, ht⟩ := State.storeTo_of_fixed hne strong hfixed
      refine ⟨?_, gs, hgs, ?_⟩
      · show (s.storeTo l parts strong).requests = _
        rw [ht]
        exact State.markTsm_keeps _ _ State.requests (fun _ _ _ => rfl)
      · show (s.storeTo l parts strong).cur.accesses = _
        rw [ht, State.accessed_accesses]
        exact State.markTsm_keeps _ _ (fun t => t.cur.accesses) (fun _ _ _ => rfl)
    case far =>
      obtain ⟨rs, ⟨bits, ht, -⟩, hrs, hgroup, hslice⟩ := State.storeTo_of_far hne strong hfar
      refine ⟨?_, rs, ?_, hrs, hgroup, fun hspace => ?_⟩
      · show (s.storeTo l parts strong).cur.accesses = _
        rw [ht]
        exact (State.markTsm_keeps _ _ (fun t => t.cur.accesses) (fun _ _ _ => rfl)).trans
          (State.overwrite_sent_keeps _ _ (fun t => t.cur.accesses) (fun _ _ _ => rfl) rs)
      · show (s.storeTo l parts strong).requests = _
        rw [ht, ← State.overwrite_sent]
        exact State.markTsm_keeps _ _ State.requests (fun _ _ _ => rfl)
      · obtain ⟨hask, hr⟩ := hslice hspace
        rw [← hslices, Option.head?_toList]
        exact ⟨hask, hr⟩
    case marks =>
      obtain ⟨u, ht, hclk⟩ := State.storeTo_marks hne strong hspace
      show ∃ f ∈ (s.storeTo l parts strong).cur.flight, _
      rw [ht, ← hclk, hslices]
      exact u.mem_markTsm_flight slices hsome
  case without =>
    have h := p.holds_without (j := j) (b := b) off size
    simp only [Part.Holds] at h
    rw [h]
    tauto

end Sys2Proof.Certificates
end

section
/-!
SUPPORT. Atomics: the word that their address names and the operands of their issue (R158, R325, R332 to R335), what they leave under way (R155, R172, R177), and
the statement about them.
-/
namespace Sys2Proof.Machine
open Sys2Proof Sys2Proof.Certificates

/-! ## The operations as exec gives them -/

section
variable (s : State) (h : Head) (da : DNum) (off : BitVec 24) (rd rs rc rn : SRegNo) (q : Bool)

theorem exec_amoAdd : exec (.amoAdd h da off rd rs q) s = s.amo32 (.amoAdd h da off rd rs q) da off .add rd rs q true := rfl
theorem exec_amoAnd : exec (.amoAnd h da off rd rs q) s = s.amo32 (.amoAnd h da off rd rs q) da off .and rd rs q true := rfl
theorem exec_amoOr : exec (.amoOr h da off rd rs q) s = s.amo32 (.amoOr h da off rd rs q) da off .or rd rs q true := rfl
theorem exec_amoXor : exec (.amoXor h da off rd rs q) s = s.amo32 (.amoXor h da off rd rs q) da off .xor rd rs q true := rfl
theorem exec_amoMin : exec (.amoMin h da off rd rs q) s = s.amo32 (.amoMin h da off rd rs q) da off .min rd rs q true := rfl
theorem exec_amoMax : exec (.amoMax h da off rd rs q) s = s.amo32 (.amoMax h da off rd rs q) da off .max rd rs q true := rfl
theorem exec_amoMaxu : exec (.amoMaxu h da off rd rs q) s = s.amo32 (.amoMaxu h da off rd rs q) da off .maxu rd rs q true := rfl
theorem exec_amoMinu : exec (.amoMinu h da off rd rs q) s = s.amo32 (.amoMinu h da off rd rs q) da off .minu rd rs q false := rfl
theorem exec_amoXchg_word : exec (.amoXchg h da off rd rs q false) s = s.amo32 (.amoXchg h da off rd rs q false) da off .xchg rd rs q true := rfl
theorem exec_amoXchg_pair : exec (.amoXchg h da off rd rs q true) s =
    s.atomicWord (.amoXchg h da off rd rs q true) da off 8 .xchg (s.cur.d (pairOf rs)) (s.cur.dp (pairOf rs)) true rd q := rfl
theorem exec_amoPadd (fmt : Fmt) : exec (.amoPadd h da off rd rs fmt q) s =
    s.atomicWord (.amoPadd h da off rd rs fmt q) da off (fmtWidth fmt / 8) (.padd fmt) ((s.cur.s rs).setWidth 64) (s.cur.sp rs) true rd q := rfl
theorem exec_amocas : exec (.amocas h da off rd rc rn q) s = s.atomicWord (.amocas h da off rd rc rn q) da off 4 (.cas ((s.cur.s rc).setWidth 64))
    ((s.cur.s rn).setWidth 64) (s.cur.sp rc || s.cur.sp rn) true rd q := rfl
theorem exec_amocasD : exec (.amocasD h da off rd rc rn q) s = s.atomicWord (.amocasD h da off rd rc rn q) da off 8 (.cas (s.cur.d (pairOf rc)))
    (s.cur.d (pairOf rn)) (s.cur.dp (pairOf rc) || s.cur.dp (pairOf rn)) true rd q := rfl
theorem exec_amoQadd (qn : QNum) : exec (.amoQadd h da off qn) s = execAmoQadd h da off qn s := rfl

end

theorem pairOf_eq (r : SRegNo) : pairOf r = r.extractLsb' 1 4 := ofNat_half r

/-- An atomic on one word that issues (R332 to R334). -/
theorem State.atomicWord_clear {s : State} {i : Instr} {da : DNum} {off : BitVec 24} {size : Nat} {poisoned travels : Bool} {rd : SRegNo} {q : Bool}
    (hunheld : Unheld s) (hi : Issues s i (s.atomicTraps i da off size poisoned travels rd q)) (op : AmoOp) (operand : DWord) :
    let l := (s.placeAt da off size .atomic ⟨0, 0, size⟩).1
    s.atomicWord i da off size op operand poisoned travels rd q =
      .next (s.atomicTo l [.word 0 l.off size op operand] (oldSink rd size (s.cur.clk + 10)) (queueOf q rd) (if size = 8 then 1 else 0)) :=
  State.issueAccess_clear hi.1 hunheld hi.2 _

/-! ## What an atomic leaves under way -/

/-- The state in which the accesses of an atomic begin: its TSM bits are in flight, and its place in a result queue is open. -/
def State.atomicBase (s : State) (l : Loc) (atoms : List Atom) (q : Option QNum) (kind : Nat) : State :=
  match q with
  | none => s.markTsm l.slice.toList
  | some k => (s.markTsm l.slice.toList).openQueue k s.nextReq atoms.length kind 1

/-- Where the old values go: in the own cluster to the register, elsewhere nowhere, with Q = 1 to the place in the queue. -/
def State.atomicSink (s : State) (l : Loc) (reg : Sink) (q : Option QNum) (land : Nat) : Sink :=
  match q with
  | none => if l.fixed then reg else .discard
  | some k => .queue k s.nextReq false 32 land

section
variable (s : State) (l : Loc) (atoms : List Atom) (reg : Sink) (q : Option QNum) (kind : Nat)

/-- But for queues and what a bundle has opened the state is that with the TSM bits. -/
theorem State.atomicBase_keeps {β : Type} (g : State → β) (h : ∀ (t : State) rq issue, g { t with cur := { t.cur with rq := rq }, issue := issue } = g t) :
    g (s.atomicBase l atoms q kind) = g (s.markTsm l.slice.toList) := by
  cases q with
  | none => rfl
  | some k => exact h (s.markTsm l.slice.toList) _ _

theorem State.atomicBase_stands {β : Type} (g : State → β) (hflight : ∀ (t : State) fl n, g (t.withCur { t.cur with flight := fl, seq := n }) = g t)
    (hqueue : ∀ (t : State) rq issue, g { t with cur := { t.cur with rq := rq }, issue := issue } = g t) : g (s.atomicBase l atoms q kind) = g s :=
  (s.atomicBase_keeps l atoms q kind g hqueue).trans (s.markTsm_keeps _ g hflight)

theorem State.atomicBase_accesses (acts : List (Nat × Act)) (strong : Bool) :
    ((s.atomicBase l atoms q kind).cur.accessAll l acts strong).accesses = ((s.markTsm l.slice.toList).cur.accessAll l acts strong).accesses := by
  cases q with
  | none => rfl
  | some k => exact (congrArg Ctx.accesses (Ctx.accessAll_rq l strong (s.atomicBase l atoms (some k) kind).cur.rq acts (s.markTsm l.slice.toList).cur) :)

/-- The other result queues stand. -/
theorem State.atomicBase_rq_other {k : QNum} (h : q ≠ some k) : (s.atomicBase l atoms q kind).cur.rq[k.toNat]'k.isLt = s.cur.rq[k.toNat]'k.isLt := by
  have hmark : (s.markTsm l.slice.toList).cur.rq = s.cur.rq := State.markTsm_keeps _ _ (fun t => t.cur.rq) (fun _ _ _ => rfl)
  rw [← hmark]
  cases q with
  | none => rfl
  | some j =>
    have hne : j.toNat ≠ k.toNat := fun e => h (congrArg some (BitVec.eq_of_toNat_eq e))
    exact Vector.getElem_set_ne j.isLt k.isLt hne

/-- A place opens in its own, which waits for all of its atomics (R132). -/
theorem State.atomicBase_rq_own (k : QNum) : ∃ e : QEntry,
    (s.atomicBase l atoms (some k) kind).cur.rq[k.toNat]'k.isLt = s.cur.rq[k.toNat]'k.isLt ++ [e] ∧ e.request = s.nextReq ∧ e.owed = atoms.length ∧
      e.kind = kind ∧ e.lanes = 1 ∧ e.poison = 0 ∧ e.status = 0 := by
  have hmark : (s.markTsm l.slice.toList).cur.rq = s.cur.rq := State.markTsm_keeps _ _ (fun t => t.cur.rq) (fun _ _ _ => rfl)
  rw [← hmark]
  exact ⟨_, Vector.getElem_set_self _, rfl, rfl, rfl, rfl, rfl, rfl⟩

variable {atoms} (hne : atoms ≠ [])
include hne

theorem State.atomicTo_of_fixed (hfixed : l.fixed = true) : ∃ gs n, PartedInto gs l atoms ∧
    s.atomicTo l atoms reg q kind = { (s.atomicBase l atoms q kind).withCur ((s.atomicBase l atoms q kind).cur.accessAll l
      (gs.map fun g => (g.1, .atomic g.2 (s.atomicSink l reg q (s.cur.clk + 10)))) true) with nextReq := n } := by
  have hempty : ¬atoms.isEmpty = true := by simpa using hne
  have hparted := s.byCycle_parted l Atom.run hne
  unfold State.atomicTo
  rw [if_neg hempty]
  cases q with
  | none =>
    refine ⟨_, (s.atomicBase l atoms none kind).nextReq, hparted, ?_⟩
    dsimp only
    rw [if_pos hfixed, if_neg hempty, State.atomicSink, if_pos hfixed, Ctx.accessAll, List.foldl_map]
    rfl
  | some k =>
    refine ⟨_, s.nextReq + 1, hparted, ?_⟩
    dsimp only
    rw [if_pos hfixed, Ctx.accessAll, List.foldl_map]
    rfl

theorem State.atomicTo_of_far (hfar : l.fixed = false) : ∃ rs,
    s.atomicTo l atoms reg q kind = ((s.atomicBase l atoms q kind).sent rs).overwrite s.nextReq ∧ rs.map (·.ask) = atoms.map Ask.atomic ∧
    ∀ r ∈ rs, r.SentTo (s.atomicBase l atoms q kind) l (s.atomicSink l reg q 0) true ∧ r.slice = l.slice := by
  have hempty : ¬atoms.isEmpty = true := by simpa using hne
  have hnot : ¬l.fixed = true := by simp [hfar]
  obtain ⟨rs, hsent, hask, hrs⟩ := State.foldl_sendTo l Ask.atomic (s.atomicSink l reg q 0) l.slice true atoms (s.atomicBase l atoms q kind)
  refine ⟨rs, ?_, hask, hrs⟩
  rw [← hsent]
  unfold State.atomicTo
  rw [if_neg hempty]
  cases q with
  | none =>
    dsimp only
    rw [if_neg hnot, State.atomicSink, if_neg hnot]
    rfl
  | some k =>
    dsimp only
    rw [if_neg hnot]
    rfl

/-- Beyond that an atomic touches accesses and requests only. -/
theorem State.atomicTo_keeps {β : Type} (g : State → β) (haccesses : ∀ (t : State) as n, g (t.withCur { t.cur with accesses := as, seq := n }) = g t)
    (hrequests : ∀ (t : State) rs n, g { t with requests := rs, nextReq := n } = g t) : g (s.atomicTo l atoms reg q kind) = g (s.atomicBase l atoms q kind) := by
  cases hfixed : l.fixed with
  | true =>
    obtain ⟨gs, n, -, ht⟩ := s.atomicTo_of_fixed l reg q kind hne hfixed
    rw [ht]
    exact (hrequests _ _ n).trans (State.accessAll_keeps l true g haccesses _ _)
  | false =>
    obtain ⟨rs, ht, -⟩ := s.atomicTo_of_far l reg q kind hne hfixed
    rw [ht]
    exact State.overwrite_sent_keeps _ _ g hrequests rs

end

end Sys2Proof.Machine
namespace Sys2Proof.Certificates
open Sys2Proof Sys2Proof.Machine

/-- Settles O37: each atomic by its operation and operands, and what it leaves under way by its space and its queue. -/
theorem atomicsReachTheirWords : Obligations.AtomicsReachTheirWords := by
  unfold Obligations.AtomicsReachTheirWords
  refine ⟨fun s h da off rd rs rc rn q fmt qn hunheld => ?issues, fun s l atoms reg q kind hne => ?way⟩
  case issues =>
    intro place forms a p pair pairBad qadd
    have word {i : Instr} {size : Nat} {poisoned travels : Bool} (op : AmoOp) (operand : DWord)
        (hi : Issues s i (s.atomicTraps i da off size poisoned travels rd q)) := State.atomicWord_clear hunheld hi op operand
    refine ⟨fun hi => (exec_amoAdd ..).trans (word _ _ hi), fun hi => (exec_amoAnd ..).trans (word _ _ hi), fun hi => (exec_amoOr ..).trans (word _ _ hi),
      fun hi => (exec_amoXor ..).trans (word _ _ hi), fun hi => (exec_amoMin ..).trans (word _ _ hi), fun hi => (exec_amoMax ..).trans (word _ _ hi),
      fun hi => (exec_amoMaxu ..).trans (word _ _ hi), fun hi => (exec_amoMinu ..).trans (word _ _ hi), fun hi => (exec_amoXchg_word ..).trans (word _ _ hi),
      fun hi => ?xchg, fun hi => (exec_amoPadd ..).trans (word _ _ hi), fun hi => (exec_amocas ..).trans (word _ _ hi), fun hi => ?casD, fun hi => ?qadd⟩
    case xchg =>
      rw [exec_amoXchg_pair, pairOf_eq]
      exact word _ _ hi
    case casD =>
      rw [exec_amocasD, pairOf_eq, pairOf_eq]
      exact word _ _ hi
    case qadd =>
      have hpitch (l : Nat) : Int.ofNat l * 72 = 72 * (l : Int) := Int.mul_comm ..
      rw [exec_amoQadd, execAmoQadd, State.issueAccess_clear hi.1 hunheld hi.2]
      simp only [laneReach, List.map_map, Function.comp_def, hpitch]
      rfl
  case way =>
    intro t slices marked sink
    have hslices : l.slice.toList = slices := l.slice_toList
    have hmarked : s.markTsm l.slice.toList = marked := by
      rw [hslices]
      exact s.markTsm_eq slices
    have hsink : sink = s.atomicSink l reg q := by
      cases q <;> rfl
    have hkeeps {β : Type} (g : State → β) (haccesses : ∀ (t : State) as n, g (t.withCur { t.cur with accesses := as, seq := n }) = g t)
        (hrequests : ∀ (t : State) rs n, g { t with requests := rs, nextReq := n } = g t) : g t = g (s.atomicBase l atoms q kind) :=
      s.atomicTo_keeps l reg q kind hne g haccesses hrequests
    have hbase {β : Type} (g : State → β) (hflight : ∀ (t : State) fl n, g (t.withCur { t.cur with flight := fl, seq := n }) = g t)
        (hqueue : ∀ (t : State) rq issue, g { t with cur := { t.cur with rq := rq }, issue := issue } = g t) : g (s.atomicBase l atoms q kind) = g s :=
      s.atomicBase_stands l atoms q kind g hflight hqueue
    have hmem : t.mem = s.mem := (hkeeps State.mem (fun _ _ _ => rfl) fun _ _ _ => rfl).trans (hbase State.mem (fun _ _ _ => rfl) fun _ _ _ => rfl)
    have hregs : t.cur.registers = s.cur.registers := (hkeeps (fun t => t.cur.registers) (fun _ _ _ => rfl) fun _ _ _ => rfl).trans
      (hbase (fun t => t.cur.registers) (fun _ _ _ => rfl) fun _ _ _ => rfl)
    have hflight : t.cur.flight = marked.cur.flight := by
      rw [← hmarked]
      exact (hkeeps (fun t => t.cur.flight) (fun _ _ _ => rfl) fun _ _ _ => rfl).trans (s.atomicBase_keeps l atoms q kind (fun t => t.cur.flight) fun _ _ _ => rfl)
    have hrq : t.cur.rq = (s.atomicBase l atoms q kind).cur.rq := hkeeps (fun t => t.cur.rq) (fun _ _ _ => rfl) fun _ _ _ => rfl
    have hrequests : (s.atomicBase l atoms q kind).requests = s.requests := hbase State.requests (fun _ _ _ => rfl) fun _ _ _ => rfl
    obtain ⟨hsregs, hvregs, hpreds, hsys⟩ := Ctx.registers_eq.mp hregs
    refine ⟨hmem, hsregs, hvregs, hpreds, hsys, hflight, fun k hk => ?other, fun k hk => ?own, fun hfixed => ?fixed, fun hfar => ?far⟩
    case other =>
      simp only [hrq]
      exact s.atomicBase_rq_other l atoms q kind hk
    case own =>
      simp only [hrq, hk]
      exact s.atomicBase_rq_own l atoms kind k
    case fixed =>
      obtain ⟨gs, n, hgs, ht⟩ := s.atomicTo_of_fixed l reg q kind hne hfixed
      refine ⟨?_, gs, hgs, ?_⟩
      · show (s.atomicTo l atoms reg q kind).requests = _
        rw [ht]
        exact hrequests
      · show (s.atomicTo l atoms reg q kind).cur.accesses = _
        rw [ht, State.accessed_accesses, ← hmarked, hsink]
        exact s.atomicBase_accesses l atoms q kind _ true
    case far =>
      obtain ⟨rs, ht, hask, hrs⟩ := s.atomicTo_of_far l reg q kind hne hfar
      have hnext : (s.atomicBase l atoms q kind).nextReq = s.nextReq := hbase State.nextReq (fun _ _ _ => rfl) fun _ _ _ => rfl
      have huid : (s.atomicBase l atoms q kind).cur.uid = s.cur.uid := hbase (fun t => t.cur.uid) (fun _ _ _ => rfl) fun _ _ _ => rfl
      have hbundle : (s.atomicBase l atoms q kind).cur.bundle = s.cur.bundle := hbase (fun t => t.cur.bundle) (fun _ _ _ => rfl) fun _ _ _ => rfl
      refine ⟨?_, rs, ?_, hask, fun r hr => ?_⟩
      · show (s.atomicTo l atoms reg q kind).cur.accesses = _
        rw [ht]
        exact (State.overwrite_sent_keeps _ _ (fun t => t.cur.accesses) (fun _ _ _ => rfl) rs).trans
          (hbase (fun t => t.cur.accesses) (fun _ _ _ => rfl) fun _ _ _ => rfl)
      · show (s.atomicTo l atoms reg q kind).requests = _
        rw [ht, ← hnext, State.overwrite_sent]
        exact sentAfter_congr hrequests hnext huid hbundle rs
      · obtain ⟨⟨haddr, hruid, hrsink, hstage, hstrong, hid⟩, hslice⟩ := hrs r hr
        rw [hsink, ← hslices, Option.head?_toList, ← hnext, ← huid]
        exact ⟨haddr, hruid, hstage, hstrong, hrsink, hslice, hid⟩

end Sys2Proof.Certificates
end

section
/-!
SUPPORT. Fences and prefetches: waits that hold their bundle (R123), releases (R177), DRAIN (R180), what a tile's TLB takes from PREF (R165, R337), and the
statement about them.
-/
namespace Sys2Proof.Machine
open Sys2Proof Sys2Proof.Certificates

/-! ## The operations as exec gives them -/

section
variable (s : State) (h : Head)

theorem exec_fence (scope : Scope) : exec (.fence h scope) s = execFence h scope s := rfl
theorem exec_drain : exec (.drain h) s = execDrain h s := rfl
theorem exec_pref (da : DNum) (off : BitVec 24) : exec (.pref h da off) s = execPref h da off s := rfl

end

/-! ## Waits (R123) -/

/-- A condition that does not hold yet holds the bundle. -/
theorem State.holdUntil_false {s : State} (yields : Bool) {cond : Bool} (hpassed : s.issue.passed = false) (hcond : cond = false) (eff : State → State) :
    s.holdUntil yields cond eff = s.stall yields id := by
  unfold State.holdUntil
  rw [hpassed, hcond]
  rfl

section
variable (s : State) (yields : Bool) (f : Wait → Wait)

@[simp] theorem State.stall_stalled : (s.stall yields f).issue.stalled = true := rfl
@[simp] theorem State.stall_mem : (s.stall yields f).mem = s.mem := rfl
@[simp] theorem State.stall_sys : (s.stall yields f).cur.sys = s.cur.sys := rfl

end

/-! ## FENCE and DRAIN (R177, R180, R336) -/

section
variable {s : State} {h : Head} {scope : Scope}

/-- A FENCE that issues is the wait for its release. -/
theorem exec_fence_of_issues (hi : Issues s (.fence h scope) (s.deniedTraps (.fence h scope) (s.fenceBits scope.toNat))) :
    exec (.fence h scope) s = .next (s.holdUntil false (s.released scope.toNat (s.fenceBits scope.toNat)) fun u => u.clearTsm (s.fenceBits scope.toNat)) := by
  obtain ⟨hclear, hacts⟩ := hi
  rw [exec_fence, execFence, State.issueWith_clear hclear, if_pos hacts]

/-- A DRAIN that issues is the wait for everything before it. -/
theorem exec_drain_of_issues (hi : Issues s (.drain h) (s.deniedTraps (.drain h) allSlices)) :
    exec (.drain h) s = .next (s.holdUntil false s.quiet fun u => u.withCur { u.cur with epoch := u.cur.epoch + 1 }) := by
  obtain ⟨hclear, hacts⟩ := hi
  rw [exec_drain, execDrain, State.issueWith_clear hclear, if_pos hacts]

end

/-! ## PREF (R165, R337) -/

/-- The records of other tiles stand, whatever map holds them, when one becomes unlike that of a reset. -/
theorem State.tileRec_setTile_other (s : State) {t u : Nat} {r : TileRec} (hr : r ≠ TileRec.reset) (hu : u ≠ t) :
    (s.setTile t r).tileRec u = s.tileRec u :=
  (Sparse.get_set_of_ne hr t u s.tiles).trans (if_neg hu)

/-- A TLB that has just taken a translation is not that of a reset. -/
theorem TileRec.cached_ne_reset (r : TileRec) (e : TlbEntry) (l : List TlbEntry) :
    ({ r with tlb := (e :: l).take Config.tileTlbEntries } : TileRec) ≠ TileRec.reset := fun heq =>
  List.cons_ne_nil _ _ (congrArg TileRec.tlb heq)

section
variable (s : State) (tile part off : Nat)

/-- What a tile caches of its own die: nothing without a translation, else a free choice whether its TLB takes it. -/
theorem State.cacheOwn_cases : s.cacheOwn tile part off = s ∨ s.cacheOwn tile part off = { s with fresh := s.fresh + 1 } ∨
    ∃ r : TileRec, r ≠ TileRec.reset ∧ s.cacheOwn tile part off = { s.setTile tile r with fresh := s.fresh + 1 } := by
  unfold State.cacheOwn
  split
  case h_1 => exact .inl rfl
  case h_2 e _ =>
    by_cases hfree : Config.freeBit s.fresh = true
    · exact .inr (.inr ⟨_, TileRec.cached_ne_reset _ e _, if_pos hfree⟩)
    · exact .inr (.inl (if_neg hfree))

/-- Caching performs no access, and changes no other tile. -/
theorem State.cacheOwn_frame : (s.cacheOwn tile part off).mem = s.mem ∧ (s.cacheOwn tile part off).cur = s.cur ∧
    (s.cacheOwn tile part off).requests = s.requests ∧ ∀ other, other ≠ tile → (s.cacheOwn tile part off).tileRec other = s.tileRec other := by
  rcases s.cacheOwn_cases tile part off with h | h | ⟨r, hr, h⟩ <;> rw [h]
  · exact ⟨rfl, rfl, rfl, fun _ _ => rfl⟩
  · exact ⟨rfl, rfl, rfl, fun _ _ => rfl⟩
  · exact ⟨rfl, rfl, rfl, fun _ hother => s.tileRec_setTile_other hr hother⟩

end

/-- A PREF that issues, its address not poisoned, caches or does nothing. -/
theorem exec_pref_of_issues {s : State} {h : Head} {da : DNum} {off : BitVec 24} (hi : Issues s (.pref h da off) []) (hda : s.cur.dp da = false) :
    exec (.pref h da off) s = .next s ∨ ∃ place, exec (.pref h da off) s = .next (s.cacheOwn s.cur.tile s.cur.part place) := by
  obtain ⟨hclear, hacts⟩ := hi
  have hown : s.poisonIf (.pref h da off) (s.cur.dp da) = [] := by
    rw [hda]
    rfl
  rw [exec_pref, execPref, hown, State.issueOp_clear hclear, if_pos hacts]
  dsimp only
  split
  · exact .inr ⟨_, rfl⟩
  · exact .inl rfl

end Sys2Proof.Machine
namespace Sys2Proof.Certificates
open Sys2Proof Sys2Proof.Machine

/-- Settles O39: FENCE and DRAIN each by their one wait, and PREF by what a tile may cache. -/
theorem fencesAndPrefetches : Obligations.FencesAndPrefetches := by
  unfold Obligations.FencesAndPrefetches
  intro s h sc da off bits fence drain pref
  refine ⟨fun hi hfree => ?released, fun hi hpassed hheld => ?waits, fun hi hfree => ?drained, fun hi hda => ?pref⟩
  case released => rw [exec_fence_of_issues hi, State.holdUntil_true false hfree, State.clearTsm]
  case waits =>
    rw [exec_fence_of_issues hi, State.holdUntil_false false hpassed hheld]
    exact ⟨_, rfl, s.stall_stalled false id, s.stall_mem false id, s.stall_sys false id⟩
  case drained => rw [exec_drain_of_issues hi, State.holdUntil_true false hfree]
  case pref =>
    rcases exec_pref_of_issues hi hda with hnext | ⟨place, hnext⟩
    · exact ⟨s, hnext, rfl, rfl, rfl, fun _ _ => rfl⟩
    · exact ⟨_, hnext, s.cacheOwn_frame s.cur.tile s.cur.part place⟩

end Sys2Proof.Certificates
end

section
/-!
SUPPORT. The rounding rule (R206): the exponent that floorLog2 finds, and that every rounded value is a pattern of its format.
-/
namespace Sys2Proof.Machine
open Sys2Proof

/-! ## The logarithm of a ratio -/

/-- A comparison with a power of two of either sign, in whole numbers. -/
theorem scaled_le_iff (num den : Nat) : ∀ s : Int, den * 2 ^ s.toNat ≤ num * 2 ^ (-s).toNat ↔ (den : ℚ) * 2 ^ s ≤ num
  | .ofNat m => by
    have hneg : (-(m : Int)).toNat = 0 := by omega
    rw [Int.ofNat_eq_natCast, Int.toNat_natCast, hneg, pow_zero, Nat.mul_one, zpow_natCast]
    exact_mod_cast Iff.rfl
  | .negSucc m => by
    have hpos : (0 : ℚ) < 2 ^ (m + 1) := by positivity
    rw [Int.toNat_negSucc, Int.neg_negSucc, Int.toNat_natCast, pow_zero, Nat.mul_one, zpow_negSucc, ← div_eq_mul_inv, div_le_iff₀ hpos]
    exact_mod_cast Iff.rfl

/-- The difference of the lengths is the logarithm, or one above it. -/
theorem floorLog2_eq (num den : Nat) : floorLog2 num den =
    if (den : ℚ) * 2 ^ ((Nat.log2 num : Int) - Nat.log2 den) ≤ num then (Nat.log2 num : Int) - Nat.log2 den else (Nat.log2 num : Int) - Nat.log2 den - 1 := by
  unfold floorLog2
  generalize (Nat.log2 num : Int) - Nat.log2 den = s
  simp only [← scaled_le_iff]
  have hbelow : (if 0 ≤ s then num < den * 2 ^ s.toNat else num * 2 ^ (-s).toNat < den) ↔ ¬den * 2 ^ s.toNat ≤ num * 2 ^ (-s).toNat := by
    rw [not_le]
    split
    case isTrue hs => rw [show (-s).toNat = 0 by omega, pow_zero, Nat.mul_one]
    case isFalse hs => rw [show s.toNat = 0 by omega, pow_zero, Nat.mul_one]
  simp only [hbelow, ite_not]

/-- floorLog2 is the exponent of the power of two at or below a ratio. -/
theorem floorLog2_spec {num den : Nat} (hnum : 0 < num) (hden : 0 < den) :
    (den : ℚ) * 2 ^ floorLog2 num den ≤ num ∧ (num : ℚ) < den * 2 ^ (floorLog2 num den + 1) := by
  have hnumLo : (2 : ℚ) ^ (Nat.log2 num : Int) ≤ num := by exact_mod_cast Nat.log2_self_le hnum.ne'
  have hnumHi : (num : ℚ) < 2 ^ ((Nat.log2 num : Int) + 1) := by exact_mod_cast Nat.lt_log2_self
  have hdenLo : (2 : ℚ) ^ (Nat.log2 den : Int) ≤ den := by exact_mod_cast Nat.log2_self_le hden.ne'
  have hdenHi : (den : ℚ) < 2 ^ ((Nat.log2 den : Int) + 1) := by exact_mod_cast Nat.lt_log2_self
  rw [floorLog2_eq]
  generalize (Nat.log2 num : Int) = a at *
  generalize (Nat.log2 den : Int) = b at *
  split
  case isTrue hle =>
    refine ⟨hle, ?_⟩
    calc (num : ℚ) < 2 ^ (a + 1) := hnumHi
      _ = 2 ^ b * 2 ^ (a - b + 1) := by rw [← zpow_add₀ two_ne_zero]; congr 1; omega
      _ ≤ den * 2 ^ (a - b + 1) := by gcongr
  case isFalse hlt =>
    refine ⟨?_, by simpa using hlt⟩
    calc (den : ℚ) * 2 ^ (a - b - 1) ≤ 2 ^ (b + 1) * 2 ^ (a - b - 1) := by gcongr
      _ = 2 ^ a := by rw [← zpow_add₀ two_ne_zero]; congr 1; omega
      _ ≤ num := hnumLo

/-- A ratio between 2^-big and 2^big has its logarithm there. -/
theorem floorLog2_between {num den big : Nat} (hnum : 0 < num) (hden : 0 < den) (habove : num < den * 2 ^ big) (hbelow : den < num * 2 ^ big) :
    -(big : Int) ≤ floorLog2 num den ∧ floorLog2 num den < big := by
  obtain ⟨hlo, hhi⟩ := floorLog2_spec hnum hden
  have hden' : (0 : ℚ) < den := by exact_mod_cast hden
  have habove' : (num : ℚ) < den * 2 ^ (big : Int) := by exact_mod_cast habove
  have hbelow' : (den : ℚ) * 2 ^ (-(big : Int)) < num := by
    rw [zpow_neg, ← div_eq_mul_inv, div_lt_iff₀ (by positivity)]
    exact_mod_cast hbelow
  have hlow : -(big : Int) < floorLog2 num den + 1 :=
    (zpow_lt_zpow_iff_right₀ one_lt_two).mp (lt_of_mul_lt_mul_left (hbelow'.trans hhi) hden'.le)
  have hhigh : floorLog2 num den < big :=
    (zpow_lt_zpow_iff_right₀ one_lt_two).mp (lt_of_mul_lt_mul_left (hlo.trans_lt habove') hden'.le)
  exact ⟨by omega, hhigh⟩

/-- A ratio over the power of two of its logarithm, in whole numbers: at least one and less than two. -/
theorem floorLog2_scaled {num den : Nat} (hnum : 0 < num) (hden : 0 < den) :
    let bot := den * 2 ^ (floorLog2 num den).toNat
    let top := num * 2 ^ (-floorLog2 num den).toNat
    bot ≤ top ∧ top < 2 * bot := by
  obtain ⟨hlo, hhi⟩ := floorLog2_spec hnum hden
  intro bot top
  refine ⟨(scaled_le_iff ..).mpr hlo, ?_⟩
  have hhi' : ¬ ((2 * den : Nat) : ℚ) * 2 ^ floorLog2 num den ≤ num := by
    rw [not_le, Nat.cast_mul, Nat.cast_two, mul_comm (2 : ℚ), mul_assoc, ← zpow_one_add₀ two_ne_zero, add_comm]
    exact hhi
  rw [← scaled_le_iff, not_le, mul_assoc] at hhi'
  exact hhi'

/-! ## Patterns of the rounding rule (R206) -/

/-- The exponent and the fraction of a value take less than the bits that they have. -/
theorem fraction_lt {x bot top e : Nat} (hx : x < 2 ^ e) (hlo : bot ≤ top) (hhi : top < 2 * bot) (rb : Nat) :
    (x * bot + top - bot) * 2 ^ rb / (bot * 2 ^ e) < 2 ^ rb := by
  have hstep : (x + 1) * bot ≤ 2 ^ e * bot := Nat.mul_le_mul_right bot hx
  rw [Nat.add_mul, Nat.one_mul, Nat.mul_comm (2 ^ e)] at hstep
  have hlt : x * bot + top - bot < bot * 2 ^ e := by omega
  exact Nat.div_lt_of_lt_mul (Nat.mul_lt_mul_of_pos_right hlt (Nat.two_pow_pos rb))

/-- The regime of a value between the extremes is neither all zeros nor all ones, and fits its bits. -/
theorem regime_bounds {k : Int} {n : Nat} (hlo : -((n : Int) - 2) ≤ k) (hhi : k < (n : Int) - 2) :
    let regime := if 0 ≤ k then (2 ^ (k.toNat + 1) - 1) * 2 else 1
    let lr := if 0 ≤ k then k.toNat + 2 else (-k).toNat + 1
    1 ≤ regime ∧ regime + 2 ≤ 2 ^ lr ∧ lr ≤ n - 1 := by
  intro regime lr
  by_cases hk : 0 ≤ k
  · simp only [regime, lr, if_pos hk]
    have hpow : 2 ^ (k.toNat + 2) = 2 ^ (k.toNat + 1) * 2 := Nat.pow_succ ..
    have htwo : 2 ≤ 2 ^ (k.toNat + 1) := Nat.le_self_pow (Nat.succ_ne_zero _) 2
    omega
  · simp only [regime, lr, if_neg hk]
    obtain ⟨m, hm⟩ : ∃ m, (-k).toNat = m + 1 := ⟨(-k).toNat - 1, by omega⟩
    rw [hm, Nat.pow_succ, Nat.pow_succ]
    have hone : 1 ≤ 2 ^ m := Nat.one_le_two_pow
    omega

/-- A regime and a fraction below it, rounded up or not, are a pattern of a positive value. -/
theorem regime_fraction_bounds {regime lr n frac : Nat} (hpos : 1 ≤ regime) (hregime : regime + 2 ≤ 2 ^ lr) (hlr : lr ≤ n - 1)
    (hfrac : frac < 2 ^ (n - 1 - lr)) :
    0 < regime * 2 ^ (n - 1 - lr) + frac ∧ regime * 2 ^ (n - 1 - lr) + frac + 1 < 2 ^ (n - 1) := by
  have hsplit : 2 ^ (n - 1) = 2 ^ lr * 2 ^ (n - 1 - lr) := by
    rw [← Nat.pow_add]
    congr 1
    omega
  have hroom : (regime + 2) * 2 ^ (n - 1 - lr) ≤ 2 ^ lr * 2 ^ (n - 1 - lr) := Nat.mul_le_mul_right _ hregime
  have hmin : 1 * 2 ^ (n - 1 - lr) ≤ regime * 2 ^ (n - 1 - lr) := Nat.mul_le_mul_right _ hpos
  rw [Nat.add_mul] at hroom
  omega

/-- A pattern that may be the next one lies where both lie. -/
theorem ite_succ_between {q lo hi : Nat} (up : Bool) (hlo : lo < q) (hhi : q + 1 < hi) : lo < (if up then q + 1 else q) ∧ (if up then q + 1 else q) < hi := by
  cases up
  · exact ⟨hlo, Nat.lt_of_succ_lt hhi⟩
  · exact ⟨Nat.lt_succ_of_lt hlo, hhi⟩

/-- A positive value rounds to a positive pattern: neither zero nor NaR (R206). -/
theorem roundMag_pat_bounds {num den n e : Nat} (hn : 2 ≤ n) (hnum : 0 < num) (hden : 0 < den) :
    0 < (roundMag num den n e).pat ∧ (roundMag num den n e).pat < 2 ^ (n - 1) := by
  have htwo : 2 ≤ 2 ^ (n - 1) := Nat.le_self_pow (by omega) 2
  unfold roundMag
  dsimp only
  split
  case isTrue => exact ⟨by dsimp only; omega, by dsimp only; omega⟩
  case isFalse habove =>
    split
    case isTrue => exact ⟨Nat.one_pos, htwo⟩
    case isFalse hbelow =>
      obtain ⟨hlow, hhigh⟩ := floorLog2_between hnum hden (not_le.mp habove) (not_le.mp hbelow)
      obtain ⟨hle, hlt⟩ := floorLog2_scaled hnum hden
      generalize floorLog2 num den = s at *
      have hpow : (0 : Int) < (2 ^ e : Nat) := by positivity
      have hbig : (((n - 2) * 2 ^ e : Nat) : Int) = ((n : Int) - 2) * (2 ^ e : Nat) := by push_cast [hn]; ring
      rw [hbig] at hlow hhigh
      have hklo : -((n : Int) - 2) ≤ s / (2 ^ e : Nat) := by
        rw [Int.le_ediv_iff_mul_le hpow]
        linarith
      have hkhi : s / (2 ^ e : Nat) < (n : Int) - 2 := Int.ediv_lt_of_lt_mul hpow hhigh
      have hx : (s % (2 ^ e : Nat)).toNat < 2 ^ e := by
        have := Int.emod_nonneg s hpow.ne'
        have := Int.emod_lt_of_pos s hpow
        omega
      obtain ⟨hpos, hregime, hlr⟩ := regime_bounds hklo hkhi
      obtain ⟨hq, hq'⟩ := regime_fraction_bounds hpos hregime hlr (fraction_lt hx hle hlt _)
      exact ite_succ_between _ hq hq'

/-- A rounded value is a pattern of its format (R206). -/
theorem roundRat_pat_lt {n den : Nat} (hn : 2 ≤ n) (hden : 0 < den) (num : Int) (e : Nat) : (roundRat num den n e).pat < 2 ^ n := by
  have hpow : 2 ^ (n - 1) < 2 ^ n := Nat.pow_lt_pow_right one_lt_two (by omega)
  unfold roundRat
  split
  case isTrue => exact Nat.two_pow_pos n
  case isFalse hnum =>
    obtain ⟨hpos, hlt⟩ := roundMag_pat_bounds (e := e) hn (Int.natAbs_pos.mpr hnum) hden
    dsimp only
    split
    · exact Nat.sub_lt (Nat.two_pow_pos n) hpos
    · exact hlt.trans hpow

end Sys2Proof.Machine
end

section
/-!
SUPPORT. Masked reductions from memory: exact sums rescaled (R224, R290), elements of lanes (R201), what VMRED leaves in its lanes (R291), and the statement
about it.
-/
namespace Sys2Proof.Machine
open Sys2Proof Sys2Proof.Certificates

/-! ## Exact sums and their rescaling (R224, R290) -/

theorem allNumbers_map_some : ∀ ys : List Int, allNumbers (ys.map some) = some ys
  | [] => rfl
  | y :: ys => congrArg (Option.map (y :: ·)) (allNumbers_map_some ys)

theorem allNumbers_of_none_mem : ∀ {l : List Fx}, none ∈ l → allNumbers l = none
  | none :: _, _ => rfl
  | some y :: _, h => congrArg (Option.map (y :: ·)) (allNumbers_of_none_mem (List.mem_of_ne_of_mem (Option.some_ne_none y).symm h))

theorem sumFx_map_some (ys : List Int) : sumFx (ys.map some) = some ys.sum := by
  rw [sumFx, allNumbers_map_some, List.sum_eq_foldl]
  rfl

theorem sumFx_of_none_mem {l : List Fx} (h : none ∈ l) : sumFx l = none := congrArg _ (allNumbers_of_none_mem h)

section
variable {p v n e : Nat}

theorem rescale_of_none_valid (sum : Fx) : (rescale sum p 0 n e).pat = 0 := by
  unfold rescale
  rw [if_pos (.inl rfl)]

theorem rescale_of_valid (hv : v ≠ 0) (hp : p ≠ 0) (sum : Fx) : rescale sum p v n e = match sum with
    | none => narOperand n
    | some x => roundRat (x * p) (2 ^ fxBits * v) n e :=
  if_neg (not_or.mpr ⟨hv, hp⟩)

/-- A rescaled sum is a pattern of its format. -/
theorem rescale_pat_lt (hn : 2 ≤ n) (sum : Fx) : (rescale sum p v n e).pat < 2 ^ n := by
  unfold rescale
  split
  case isTrue => exact Nat.two_pow_pos n
  case isFalse hvalid =>
    have hv : 0 < v := Nat.pos_of_ne_zero fun hzero => hvalid (.inl hzero)
    cases sum with
    | none => exact Nat.pow_lt_pow_right one_lt_two (Nat.sub_lt (by omega) Nat.one_pos)
    | some x => exact roundRat_pat_lt hn (Nat.mul_pos (Nat.two_pow_pos _) hv) _ e

end

/-! ## Elements of a lane (R201) -/

theorem fmtWidth_ge_two (fmt : Fmt) : 2 ≤ fmtWidth fmt := by
  unfold fmtWidth
  split_ifs <;> decide

/-- The elements of a lane fill it, or fewer bits. -/
theorem fmtWidth_mul_fmtElems_le : ∀ fmt : Fmt, fmtWidth fmt * fmtElems fmt ≤ 32 := by decide

theorem laneOf_lt (w : Nat) : ∀ ps : List Nat, laneOf w ps < 2 ^ (w * ps.length)
  | [] => Nat.two_pow_pos _
  | p :: ps => by
    have hlow : p % 2 ^ w < 2 ^ w := Nat.mod_lt _ (Nat.two_pow_pos w)
    have hstep : 2 ^ w * (laneOf w ps + 1) ≤ 2 ^ w * 2 ^ (w * ps.length) := Nat.mul_le_mul_left _ (laneOf_lt w ps)
    rw [List.length_cons, Nat.mul_succ, Nat.add_comm, Nat.pow_add, laneOf]
    rw [Nat.mul_succ] at hstep
    omega

/-- The elements of a lane are those that it has been put together from. -/
theorem elemOf_laneOf (w : Nat) : ∀ {ps : List Nat} {j : Nat} (hj : j < ps.length), elemOf (laneOf w ps) w j = ps[j] % 2 ^ w
  | p :: ps, 0, _ => by simp [elemOf, laneOf]
  | p :: ps, j + 1, hj => by
    have ih := elemOf_laneOf w (Nat.lt_of_succ_lt_succ hj)
    rw [elemOf] at ih
    rw [elemOf, laneOf, Nat.mul_succ, Nat.add_comm (w * j), Nat.pow_add, ← Nat.div_div_eq_div_mul, Nat.add_mul_div_left _ _ (Nat.two_pow_pos w),
      Nat.div_eq_of_lt (Nat.mod_lt _ (Nat.two_pow_pos w)), Nat.zero_add, ih, List.getElem_cons_succ]

/-- An element of an active lane of a vector that is put together from the patterns of its lanes. -/
theorem elemOf_laneWord_vectorOf (m : LaneMask) (fmt : Fmt) (elems : Nat → List Nat) {l j : Nat} (hl : l < 128) (hactive : m.getLsbD l = true)
    (hlength : ∀ k, (elems k).length = fmtElems fmt) (hj : j < (elems l).length) :
    elemOf (laneWord (vectorOf ((lanesIn m).map fun k => (k, laneOf (fmtWidth fmt) (elems k)))) l).toNat (fmtWidth fmt) j = (elems l)[j] % 2 ^ fmtWidth fmt := by
  have hword (k : Nat) : (packed (fmtWidth fmt) (elems k)).toNat = laneOf (fmtWidth fmt) (elems k) := by
    rw [packed, BitVec.toNat_ofNat, Nat.mod_eq_of_lt]
    refine (laneOf_lt _ _).trans_le (Nat.pow_le_pow_right Nat.two_pos ?_)
    rw [hlength k]
    exact fmtWidth_mul_fmtElems_le fmt
  simp only [← hword]
  rw [laneWord_vectorOf m _ hl, if_pos hactive, hword, elemOf_laneOf _ hj]

/-! ## VMRED (R291) -/

section
variable (u : State) (shadow : List (Nat × Byte)) (r : Reduce)

/-- The contributions whose mask bit for the lane group of a lane is set. -/
def State.reduceValid (l : Nat) : List Nat :=
  (List.range r.p).filter fun c => (u.siteRead shadow r.valid (r.moff + (c * r.stride + l / 16) / 8) 1).testBit ((c * r.stride + l / 16) % 8)

/-- Element j of lane l of a contribution. -/
def State.reduceTerm (l j c : Nat) : Fx :=
  decodePat (elemOf (u.siteRead shadow r.data (r.doff + 64 * (c * r.stride + l / 16) + 4 * (l % 16)) 4) (fmtWidth r.fmt) j) (fmtWidth r.fmt) (fmtEs r.fmt)

/-- What element j of lane l receives. -/
def State.reduceElem (l j : Nat) : Rounded :=
  rescale (sumFx ((u.reduceValid shadow r l).map (u.reduceTerm shadow r l j))) r.p (u.reduceValid shadow r l).length (fmtWidth r.fmt) (fmtEs r.fmt)

/-- The lanes of a VMRED are put together from its elements. -/
theorem State.reduceLanes_fst : (u.reduceLanes shadow r).1 = vectorOf ((lanesIn r.mask).map fun l =>
    (l, laneOf (fmtWidth r.fmt) ((List.range (fmtElems r.fmt)).map fun j => (u.reduceElem shadow r l j).pat))) := by
  simp only [State.reduceLanes, List.map_map, Function.comp_def]
  rfl

variable {l j : Nat}

theorem State.elemOf_reduceLanes (hl : l < 128) (hactive : r.mask.getLsbD l = true) (hj : j < fmtElems r.fmt) :
    elemOf (laneWord (u.reduceLanes shadow r).1 l).toNat (fmtWidth r.fmt) j = (u.reduceElem shadow r l j).pat := by
  rw [State.reduceLanes_fst, elemOf_laneWord_vectorOf r.mask r.fmt _ hl hactive (fun k => by simp) (by simpa using hj), List.getElem_map, List.getElem_range]
  exact Nat.mod_eq_of_lt (rescale_pat_lt (fmtWidth_ge_two r.fmt) _)

variable {u shadow r}

theorem State.reduceElem_of_none_valid (h : u.reduceValid shadow r l = []) : (u.reduceElem shadow r l j).pat = 0 := by
  rw [State.reduceElem, h]
  exact rescale_of_none_valid _

/-- Where a contribution is valid its element is the one rounding of the rescaled sum. -/
theorem State.reduceElem_of_valid (h : u.reduceValid shadow r l ≠ []) : u.reduceElem shadow r l j =
    match sumFx ((u.reduceValid shadow r l).map (u.reduceTerm shadow r l j)) with
    | none => narOperand (fmtWidth r.fmt)
    | some x => roundRat (x * r.p) (2 ^ fxBits * (u.reduceValid shadow r l).length) (fmtWidth r.fmt) (fmtEs r.fmt) := by
  have hp : r.p ≠ 0 := fun hzero => h (by rw [State.reduceValid, hzero]; rfl)
  exact rescale_of_valid (mt List.length_eq_zero_iff.mp h) hp _

theorem State.reduceElem_of_numbers {y : List Int} (h : u.reduceValid shadow r l ≠ []) (hy : (u.reduceValid shadow r l).map (u.reduceTerm shadow r l j) = y.map some) :
    u.reduceElem shadow r l j = roundRat (y.sum * r.p) (2 ^ fxBits * (u.reduceValid shadow r l).length) (fmtWidth r.fmt) (fmtEs r.fmt) := by
  rw [State.reduceElem_of_valid h, hy, sumFx_map_some]

theorem State.reduceElem_of_nar (hnar : none ∈ (u.reduceValid shadow r l).map (u.reduceTerm shadow r l j)) :
    u.reduceElem shadow r l j = narOperand (fmtWidth r.fmt) := by
  have hvalid : u.reduceValid shadow r l ≠ [] := fun hnil => by
    rw [hnil] at hnar
    exact List.not_mem_nil hnar
  rw [State.reduceElem_of_valid hvalid, sumFx_of_none_mem hnar]

end

/-- What an access of the program brings lands in its context. -/
theorem State.bring_of_unstamped {s : State} {a : Access} (h : a.stamp = none) (f : Ctx → Ctx) : s.bring a f = s.withCur (f s.cur) := by
  rw [State.bring, h]
  rfl

/-- When a VMRED performs, its lanes and its flags come at its land cycle. -/
theorem State.perform_reduce {u : State} {a : Access} {r : Reduce} (hact : a.act = .reduce r) (hstamp : a.stamp = none) (hmask : r.mask ≠ 0) :
    let x := (u.foreseen a.bundle).reduceLanes a.shadow r
    u.perform a = u.withCur (if x.2 = 0 then u.cur.pushAt r.land a.seq (.vector r.vd r.lgm r.mask x.1 0)
      else (u.cur.pushAt r.land a.seq (.vector r.vd r.lgm r.mask x.1 0)).pushAt r.land a.seq (.flags x.2)) := by
  rw [State.perform, hact]
  dsimp only
  rw [State.bring_of_unstamped hstamp, if_neg hmask]

theorem exec_vmred (s : State) (h : Head) (lgm : Lgm) (fmt : Fmt) (vd : VNum) (dn dm : DNum) (k : SRegNo) :
    exec (.vmred h lgm fmt vd dn dm k) s = execVmred h lgm fmt vd dn dm k s := rfl

end Sys2Proof.Machine
namespace Sys2Proof.Certificates
open Sys2Proof Sys2Proof.Machine

/-- Settles O24: the access that VMRED issues, and what each element receives when it performs, by whether contributions are valid and numbers. -/
theorem maskedReductionFromMemory : Obligations.MaskedReductionFromMemory := by
  unfold Obligations.MaskedReductionFromMemory
  intro s h lgm fmt vd dn dm k i x data mask r
  refine ⟨fun hi hclear hunheld => ?issues, fun u a hact hstamp hmask => ?performs⟩
  case issues =>
    obtain ⟨hfaults, hacts⟩ := hi
    have hown : s.issue.passed = true ∨ s.faults i (s.reduceTraps i dn dm k) = [] := by rwa [hclear]
    rw [exec_vmred, execVmred, State.issueAccess_clear hown hunheld hacts]
    rfl
  case performs =>
    refine ⟨_, _, State.perform_reduce hact hstamp hmask, fun l j hl hactive hj => ?_⟩
    rw [State.elemOf_reduceLanes (u.foreseen a.bundle) a.shadow r hl hactive hj]
    exact ⟨fun hnone => State.reduceElem_of_none_valid hnone,
      fun y hvalid hy => congrArg Rounded.pat (State.reduceElem_of_numbers hvalid hy),
      fun hnar => congrArg Rounded.pat (State.reduceElem_of_nar hnar)⟩

end Sys2Proof.Certificates
end
